-- ==== Sys2Proof/Word.lean ====
section
/-!
DEFINITION. The words of the station link, the sets the manual writes one bit per member, and the
tables of fixed length that hold the records of one kind.
-/

namespace Sys2Proof

/-- One character of a frame (R180). -/
abbrev Byte := BitVec 8

/-- The value of a field: 16 bits, an unsigned whole number (R200). -/
abbrev Word := BitVec 16

/-- A set of auditoria: bit 0 A, bit 1 B, bit 2 C (R200). -/
abbrev AudSet := BitVec 3

/-- A set of alarm circuits: bits 0..5 are circuits 1..6 (R200). -/
abbrev AlarmSet := BitVec 6

/-- A set of call zones: bits 0..7 are F1..F8 (R200). -/
abbrev CallZoneSet := BitVec 8

/-- A set of record classes: bit (record kind - 1) (R200). -/
abbrev ClassSet := BitVec 11

/-- A set of force causes: bit 0 GENERAL, bit 1 SUPPLY, bit 2 RESTORE, bit 3 MAINS (R200). -/
abbrev CauseSet := BitVec 4

/-- The set with the one member `i`. -/
def single (n : Nat) (i : Nat) : BitVec n := 1#n <<< i

/-- Two sets share a member. -/
def meets {n : Nat} (a b : BitVec n) : Bool := (a &&& b) != 0

/-- `v` with entry `i` replaced by `x`. -/
def put {α : Type} {n : Nat} (v : Vector α n) (i : Fin n) (x : α) : Vector α n := v.set i.1 x i.2

/-- The table whose entry `i` is `f i`. -/
def tab {α : Type} {n : Nat} (f : Fin n → α) : Vector α n := Vector.ofFn f

/-- Do `f` for every entry number in rising order. -/
def forAll {σ : Type} (n : Nat) (f : Fin n → σ → σ) (s : σ) : σ :=
  (List.finRange n).foldl (fun s i => f i s) s

/-- Some entry number meets `p`. -/
def someIx (n : Nat) (p : Fin n → Bool) : Bool := (List.finRange n).any p

/-- The lowest entry number that meets `p`. -/
def firstIx (n : Nat) (p : Fin n → Bool) : Option (Fin n) := (List.finRange n).find? p

/-- A record index of the link, 1 upward, as an entry number; none where it is out of range. -/
def entryOf (n : Nat) (index : Byte) : Option (Fin n) :=
  if h : 1 ≤ index.toNat ∧ index.toNat ≤ n then some ⟨index.toNat - 1, by omega⟩ else none

end Sys2Proof
end

