-- ==== Sys2Proof/Syntax.lean ====
section
/-!
DEFINITION. The commands of the part: one constructor of `Instr` for each row of
spec/opcode_table.json, with the operands the manual gives it.
-/

namespace Sys2Proof

/-- The eleven record kinds, which are also the record classes (R200). -/
inductive Kind
  | perf | hold | incident | zone | iron | group | call | czone | circuit | status | station
  deriving DecidableEq, Repr

/-- The seven request codes (R200). -/
inductive ReqCode
  | look | raise | amend | retire | summary | store | restart
  deriving DecidableEq, Repr

/-- The electrical state of a detection loop (R64). -/
inductive Band
  | normal | active | openLoop | short
  deriving DecidableEq, Repr

/-- One field of a frame: its id and its 16-bit value (R200). -/
structure FieldVal where
  id : Byte
  value : Word
  deriving DecidableEq, Repr

/-- What a good frame carries besides its request code and record kind (R180). -/
structure Req where
  station : Byte
  index : Byte
  issue : Byte
  fields : List FieldVal
  deriving DecidableEq, Repr

/-- A request whose row names one of its fields: the fields the frame carries before that field and
after it. -/
structure AmendReq where
  station : Byte
  index : Byte
  issue : Byte
  before : List FieldVal
  after : List FieldVal
  deriving DecidableEq, Repr

/-- The whole request: the row's own field in its place among the others. -/
def AmendReq.withField (a : AmendReq) (id : Byte) (value : Word) : Req :=
  { station := a.station, index := a.index, issue := a.issue,
    fields := a.before ++ ⟨id, value⟩ :: a.after }

/-- What the part reads from its pins and memories at a start (R62, R79, R165, R175). -/
structure Plant where
  /-- the mains sense line reads present -/
  mainsPresent : Bool
  /-- the supply-low warning line is asserted -/
  supplyLow : Bool
  /-- the cell sense reports good -/
  cellGood : Bool
  /-- the retained copy came through the time without power whole -/
  copyIntact : Bool
  /-- limit IN of channel A, B, C is made: bits 0, 1, 2 -/
  limitIn : BitVec 3
  /-- the local release of channel A, B, C is pressed: bits 0, 1, 2 -/
  pressed : BitVec 3
  /-- the band on each loop -/
  bands : Vector Band 24
  /-- the open-load test of circuit i + 1 sees its load: bit i -/
  loads : BitVec 16
  deriving DecidableEq, Repr

/-- The commands: the rows of spec/opcode_table.json. -/
inductive Instr
  -- requests of a station
  | look (kind : Kind) (r : Req)
  | summary (kind : Kind) (r : Req)
  | store (kind : Kind) (r : Req)
  /-- `loads`: what the open-load tests made by the restart see (R166) -/
  | restart (kind : Kind) (r : Req) (loads : BitVec 16)
  /-- the request code and record kind characters as received: an unknown code or kind, or a RAISE or RETIRE of a
  fixed kind, which no other row spells (R184) -/
  | unknownRequest (code : Byte) (kind : Byte) (r : Req)
  | amendPhasePrepare (a : AmendReq)
  | amendPhaseHouseOpen (a : AmendReq)
  | amendPhaseBeginners (a : AmendReq)
  | amendPhaseRunning (a : AmendReq)
  | amendPhaseInterval (a : AmendReq)
  | amendPhaseClosing (a : AmendReq)
  | amendPhaseHalted (a : AmendReq)
  | amendPhaseDark (a : AmendReq)
  /-- `limitIn`: whether the named channel's limit IN is made, read where the amendment makes an
  IRON channel present (R34) -/
  | settingsAmendment (kind : Kind) (r : Req) (limitIn : Bool)
  | commissioningLock (a : AmendReq) (value : Word)
  | raiseHold (r : Req)
  | retireHold (r : Req)
  | raiseIncident (r : Req)
  | acknowledge (a : AmendReq)
  | amendIncidentStage (a : AmendReq) (stage : Word)
  | silence (a : AmendReq)
  | retireIncident (r : Req)
  | demandOut (a : AmendReq)
  | demandIn (a : AmendReq)
  | clearFault (a : AmendReq)
  | isolate (a : AmendReq)
  | restoreZone (a : AmendReq)
  | resetNoise (a : AmendReq)
  | amendTarget (a : AmendReq) (target : Word)
  | raiseCall (r : Req)
  | amendCall (r : Req)
  | retireCall (r : Req)
  | resetCircuit (a : AmendReq)
  -- link events: the characters received after the start byte
  | frameError (chars : List Byte)
  | frameDiscarded (chars : List Byte)
  | frameGapTimeout (chars : List Byte)
  | frameForOtherAddress (chars : List Byte)
  | storeComplete
  -- curtain channels
  | encoderCount (ch : Fin 3) (up : Bool)
  | indexEvent (ch : Fin 3)
  | limitInEvent (ch : Fin 3)
  | limitOutEvent (ch : Fin 3)
  | localReleasePress (ch : Fin 3)
  | localReleaseLetGo (ch : Fin 3)
  | descentSample (ch : Fin 3)
  | stall (ch : Fin 3)
  | tooSlow (ch : Fin 3)
  | raiseTimeout (ch : Fin 3)
  -- detection zones
  | bandEvent (z : Fin 24) (band : Band)
  | confirmTimerExpiry (z : Fin 24)
  | quietTimerExpiry (z : Fin 24)
  | loopTimerExpiry (z : Fin 24)
  -- incident timers
  | acknowledgeTimerExpiry (i : Fin 25)
  | investigationTimerExpiry (i : Fin 25)
  -- fade engine
  | fadeStep
  | fadeComplete (g : Fin 12)
  -- calls
  | notBeforeDue (c : Fin 32) (z : Fin 8)
  | strokeOnElapsed (z : Fin 8)
  | strokeGapElapsed (z : Fin 8)
  | burstEnd (z : Fin 8)
  -- circuits
  | patternPartEnd (c : Fin 16)
  | testTimerExpiry (c : Fin 16) (loadSeen : Bool)
  | overloadEvent (c : Fin 16)
  | retryTimerExpiry (c : Fin 16)
  | cleanTimerExpiry (c : Fin 16)
  | offTimerExpiry (c : Fin 16)
  -- supply
  | mainsSenseChange (present : Bool)
  | lossTimerExpiry
  | settlingTimerExpiry
  | supplyLowLineChange (asserted : Bool)
  | safetySupplyTimerExpiry
  | cellSenseChange (good : Bool)
  | cellTimerExpiry
  -- starts and stops
  | coldStart (p : Plant)
  | resetPin (p : Plant)
  | powerFail
  -- link
  | replyEnd
  | amendHold (r : Req)
  deriving DecidableEq, Repr

end Sys2Proof
end

