-- ==== Sys2Proof/Config.lean ====
section
/-!
DEFINITION. What is fixed for the part: its times and bounds as the manual states them, and the free
values, which nothing in the model determines.
-/

namespace Sys2Proof

/-- DESIGN CHOICE, safe (log entries 5, 6 and 33): where the manual lets two blocks act on one
announcement in either order, the n-th such order is this free value. -/
opaque Config.orderChoice : Nat → Bool

/-- Free (log entry 13): the silicon revision is `1 upward` (R200) and each silicon has its own. -/
opaque Config.siliconSeed : Nat

/-- The silicon revision: 1..65535, otherwise unknown (R200). -/
def Config.siliconRevision : Nat := Config.siliconSeed % 65535 + 1

/-- Milliseconds in a tenth of a second, the unit of the settings' times (00, Conventions). -/
def Config.tenth : Nat := 100

/-- One step of the fade engine, in ms (R110). -/
def Config.fadeStepMs : Nat := 20

/-- The spacing of a channel's samples, in ms (R53). -/
def Config.sampleMs : Nat := 100

/-- The loss timer, in ms (R168). -/
def Config.lossMs : Nat := 500

/-- The settling timer, in ms (R169). -/
def Config.settlingMs : Nat := 10000

/-- The warning line must be asserted this long, in ms, for LOW (R171). -/
def Config.safetyLowMs : Nat := 1000

/-- The warning line must be released this long, in ms, for GOOD (R171). -/
def Config.safetyGoodMs : Nat := 5000

/-- The cell sense must report low this long, in ms (R172). -/
def Config.cellLowMs : Nat := 1000

/-- The cell sense must report good this long, in ms (R172). -/
def Config.cellGoodMs : Nat := 5000

/-- The quiet timer, in ms (R72). -/
def Config.quietMs : Nat := 600000

/-- The loop timer, in ms (R74). -/
def Config.loopMs : Nat := 5000

/-- The test timer of a circuit, in ms (R158). -/
def Config.testMs : Nat := 10000

/-- The retry timer of a circuit, in ms (R159). -/
def Config.retryMs : Nat := 5000

/-- The clean timer of a circuit, in ms (R160). -/
def Config.cleanMs : Nat := 10000

/-- The off timer of a circuit, in ms (R161). -/
def Config.offMs : Nat := 2000

/-- The top of the noise counter, where the zone is unstable (R72). -/
def Config.noiseTop : Nat := 32

/-- The top of the frame error counter, where the link is degraded (R182). -/
def Config.errorTop : Nat := 32

/-- The overload trip that makes a circuit FAILED (R159). -/
def Config.tripLimit : Nat := 4

/-- The full level of a light group (R106). -/
def Config.fullLevel : Nat := 1000

/-- The longest fade time of a target amendment, in tenths (R108). -/
def Config.fadeTimeTop : Nat := 6000

end Sys2Proof
end

