-- ==== Sys2Proof/Machine/State.lean ====
section
/-!
DEFINITION. The state of the part: the settings, the records of the ten blocks, the input lines as
last seen and the queue of waiting commands. All of it is plain data. INVENTORY.md lists every
field with the rule that names it.
-/

namespace Sys2Proof.Machine

/-! ## The settings store (10) and the settings of every record kind -/

/-- PERF settings (R3). -/
structure PerfSettings where
  present : Bool
  occupiedMin : Nat
  presetLevel : Nat
  presetFade : Nat
  closingFade : Nat
  deriving DecidableEq, Repr

/-- IRON settings (R33). -/
structure IronSettings where
  present : Bool
  travel : Nat
  slowdown : Nat
  indexPos : Nat
  driftTol : Nat
  descentMin : Nat
  descentMax : Nat
  finalMin : Nat
  vFinalMax : Nat
  stallTime : Nat
  raiseMax : Nat
  deriving DecidableEq, Repr

/-- The type of a zone (R65). -/
inductive ZoneType
  | detector | callpoint | interface
  deriving DecidableEq, Repr

/-- ZONE settings (R65). -/
structure ZoneSettings where
  present : Bool
  type : ZoneType
  stageHouse : Bool
  auds : AudSet
  alarms : AlarmSet
  callZones : CallZoneSet
  confirmTime : Nat
  directGeneral : Bool
  deriving DecidableEq, Repr

/-- The kind of a light group (R104). -/
inductive GroupKind
  | house | aisle | foyer
  deriving DecidableEq, Repr

/-- The supply a group's dimmer draws from (R104). -/
inductive Feed
  | mains | standby
  deriving DecidableEq, Repr

/-- How a driven level is turned into a drive value (R104). -/
inductive DriveLaw
  | linear | square
  deriving DecidableEq, Repr

/-- GROUP settings (R104). -/
structure GroupSettings where
  present : Bool
  kind : GroupKind
  aud : Fin 3
  callZone : Fin 8
  feed : Feed
  law : DriveLaw
  evacuation : Nat
  safetyMin : Nat
  dip : Nat
  restoreFade : Nat
  deriving DecidableEq, Repr

/-- CZONE settings (R128); the stroke times are in ms. -/
structure CZoneSettings where
  present : Bool
  serves : AudSet
  strokeOn : Nat
  strokeGap : Nat
  deriving DecidableEq, Repr

/-- CIRCUIT settings (R155). -/
structure CircuitSettings where
  serves : AudSet
  retry : Bool
  deriving DecidableEq, Repr

/-- The role of a station (R186). -/
inductive Role
  | none | view | stage | foh | fire | engineer
  deriving DecidableEq, Repr

/-- STATION settings (R186). -/
structure StationSettings where
  role : Role
  aud : Fin 3
  mask : ClassSet
  deriving DecidableEq, Repr

/-- The settings held in the STATUS record: the part address (R179) and the alarm settings (R84). -/
structure PartSettings where
  address : Nat
  ackTime : Nat
  investTime : Nat
  brigadeLink : Bool
  deriving DecidableEq, Repr

/-- Every setting of the part: what the image holds (R193). -/
structure Settings where
  perfs : Vector PerfSettings 3
  irons : Vector IronSettings 3
  zones : Vector ZoneSettings 24
  groups : Vector GroupSettings 12
  czones : Vector CZoneSettings 8
  circuits : Vector CircuitSettings 16
  stations : Vector StationSettings 8
  part : PartSettings
  deriving DecidableEq, Repr

/-- The default of every setting (R3, R33, R65, R84, R104, R128, R155, R179, R186). -/
def Settings.defaults : Settings where
  perfs := tab fun a =>
    { present := a == 0, occupiedMin := 200, presetLevel := 800, presetFade := 30, closingFade := 20 }
  irons := tab fun a =>
    { present := a == 0, travel := 24000, slowdown := 3000, indexPos := 23800, driftTol := 200,
      descentMin := 150, descentMax := 300, finalMin := 40, vFinalMax := 80, stallTime := 20,
      raiseMax := 900 }
  zones := tab fun _ =>
    { present := false, type := .detector, stageHouse := false, auds := 0, alarms := 0,
      callZones := 0, confirmTime := 20, directGeneral := false }
  groups := tab fun _ =>
    { present := false, kind := .house, aud := 0, callZone := 0, feed := .mains, law := .linear,
      evacuation := 1000, safetyMin := 150, dip := 300, restoreFade := 50 }
  czones := tab fun _ => { present := false, serves := 0, strokeOn := 400, strokeGap := 800 }
  circuits := tab fun c =>
    { serves :=
        match c.1 with
        | 0 => 0b001
        | 1 => 0b001
        | 2 => 0b010
        | 3 => 0b100
        | 4 => 0b111
        | 5 => 0b111
        | _ => 0
      retry := true }
  stations := tab fun i =>
    { role := if i = 0 then .engineer else .none, aud := 0, mask := if i = 0 then BitVec.allOnes 11 else 0 }
  part := { address := 1, ackTime := 300, investTime := 1800, brigadeLink := true }

/-- What last happened between the settings in force and the image (R193). -/
inductive StoreState
  | loaded | defaults | storing | stored
  deriving DecidableEq, Repr

/-- The settings store's live fields (R193, R196). -/
structure Store where
  state : StoreState
  changed : Bool
  locked : Bool
  deriving DecidableEq, Repr

/-! ## The performance unit (01) -/

/-- The eight phases, in the order of their codes (R4, R200). -/
inductive Phase
  | dark | prepare | houseOpen | beginners | running | interval | closing | halted
  deriving DecidableEq, Repr

/-- Whether the safety curtain has been proved for the performance (R4). -/
inductive IronProved
  | notRequired | notYet | proved | failed
  deriving DecidableEq, Repr

/-- PERF live fields (R4). -/
structure Perf where
  phase : Phase
  act : Nat
  ironProved : IronProved
  interrupted : Bool
  openedBy : Option (Fin 8)
  deriving DecidableEq, Repr

/-- The fault codes of an iron (R36). -/
inductive IronFault
  | stall | drift | overspeed | checkFailure | tooSlow | raiseTimeout | direction
  deriving DecidableEq, Repr

/-- The cause of a hold (R20). -/
inductive HoldCause
  | station | iron | fire | supply | system
  deriving DecidableEq, Repr

/-- The reason of a hold: the detail of what raised it (R20, R24..R27, R200). -/
inductive HoldReason
  | code (n : Nat)
  | zone (z : Fin 24)
  | circuit (c : Fin 16)
  | ironFault (f : IronFault)
  | proof
  | mains
  | safety
  | link
  | stationIncident (st : Fin 8)
  deriving DecidableEq, Repr

/-- A HOLD record but for its auditorium, which its slot gives (R20); no origin means PART. -/
structure Hold where
  origin : Option (Fin 8)
  cause : HoldCause
  reason : HoldReason
  deriving DecidableEq, Repr

/-- A hold slot: its issue and its occupant (R20). -/
structure HoldSlot where
  issue : Nat
  hold : Option Hold
  deriving DecidableEq, Repr

/-! ## The curtain unit (02) -/

/-- The motion states IN, RAISING, OUT, STOPPED, DESCENDING (R35). -/
inductive Motion
  | atIn | raising | atOut | stopped | descending
  deriving DecidableEq, Repr

/-- The kind of a descent (R35). -/
inductive DescentKind
  | full | part
  deriving DecidableEq, Repr

/-- The stage of a descent in progress (R35). -/
inductive SubPhase
  | free | checked
  deriving DecidableEq, Repr

/-- What began a descent (R35). -/
inductive ReleaseReason
  | demand | localRelease | fire | restart
  deriving DecidableEq, Repr

/-- Why a channel is STOPPED (R35). -/
inductive StopCause
  | supply | timeout
  deriving DecidableEq, Repr

/-- The judgement of a descent (R35). -/
inductive DescentResult
  | proofPass | pass | tooFast | tooSlow | stall | overspeed | drift | partialEnd
  deriving DecidableEq, Repr

/-- IRON live fields (R35), and below them the supervision of the channel that no LOOK returns. -/
structure Iron where
  motion : Motion
  kind : Option DescentKind
  sub : Option SubPhase
  position : Nat
  referenced : Bool
  /-- demand: yes OUT, no IN -/
  demandOut : Bool
  reason : Option ReleaseReason
  stop : Option StopCause
  fault : Option IronFault
  further : Bool
  pressed : Bool
  result : Option DescentResult
  td : Nat
  tf : Nat
  /-- the descent's first fault (R36) -/
  firstFault : Option IronFault
  /-- the descent timer, in tenths (R53) -/
  descentTimer : Nat
  /-- the final timer, in tenths; none while it does not run (R54) -/
  finalTimer : Option Nat
  /-- the crossing time, in tenths (R54) -/
  crossing : Option Nat
  /-- consecutive samples without movement (R56) -/
  still : Nat
  /-- OVERSPEED, STALL, TOO_SLOW recorded in this descent (R55..R57) -/
  sawOverspeed : Bool
  sawStall : Bool
  sawTooSlow : Bool
  /-- the moment the raise began: the raise timer's start (R43) -/
  raiseStart : Nat
  raiseTravel : Int
  raiseTop : Int
  /-- the rest travel (R52), and whether creep was recorded in this spell at rest -/
  restTravel : Int
  sawCreep : Bool
  /-- counts since the last sample, the position at it and its moment (R53) -/
  sampleMove : Nat
  samplePos : Nat
  sampleAt : Nat
  deriving DecidableEq, Repr

/-! ## The detection unit (03) -/

/-- The detection state of a zone (R67). -/
inductive Detection
  | normal | pending | alarm
  deriving DecidableEq, Repr

/-- The condition of a zone (R67). -/
inductive ZoneCondition
  | sound | fault | unstable | isolated
  deriving DecidableEq, Repr

/-- ZONE live fields (R67) and timers, each a deadline or stopped (R68, R72, R74). -/
structure Zone where
  band : Band
  detection : Detection
  condition : ZoneCondition
  loopFault : Bool
  isolated : Bool
  noise : Nat
  incident : Option (Fin 25)
  confirmAt : Option Nat
  quietAt : Option Nat
  loopAt : Option Nat
  deriving DecidableEq, Repr

/-! ## The alarm unit (04) -/

/-- What raised an incident (R82). -/
inductive Source
  | zone (z : Fin 24)
  | station (st : Fin 8)
  deriving DecidableEq, Repr

/-- The stage of an incident (R82). -/
inductive Stage
  | staff | general
  deriving DecidableEq, Repr

/-- Why an incident is at GENERAL (R82). -/
inductive EscalationCause
  | direct | unoccupied | ackTimeout | investigationTimeout | secondZone | station | manual
  deriving DecidableEq, Repr

/-- An INCIDENT record (R82): seconds open is computed from `raisedAt` and timer remaining from
`timerAt`, the deadline of the timer that runs. -/
structure Incident where
  source : Source
  auds : AudSet
  stage : Stage
  cause : Option EscalationCause
  ackBy : Option (Fin 8)
  silenced : Bool
  reactivations : Nat
  raisedAt : Nat
  timerAt : Option Nat
  deriving DecidableEq, Repr

/-- An incident slot (R81). -/
structure IncidentSlot where
  issue : Nat
  incident : Option Incident
  deriving DecidableEq, Repr

/-! ## The lighting unit (05) -/

/-- GROUP live fields (R106). -/
structure LightGroup where
  level : Nat
  target : Nat
  fading : Bool
  start : Nat
  steps : Nat
  step : Nat
  causes : CauseSet
  flickerActive : Bool
  driven : Nat
  drive : Nat
  deriving DecidableEq, Repr

/-- The flicker request of a call zone, and whether the step last judged is a dip (R123, R124). -/
structure Flicker where
  code : Nat
  start : Nat
  dip : Bool
  deriving DecidableEq, Repr

/-! ## The call unit (06) -/

/-- The state of a delivery (R132). -/
inductive DeliveryState
  | waiting | sounding | done | undelivered | abandoned | overtaken
  deriving DecidableEq, Repr

/-- A delivery (R132); times are moments of the model's clock. -/
structure Delivery where
  zone : Fin 8
  state : DeliveryState
  notBefore : Nat
  lastStart : Option Nat
  burstsLeft : Nat
  degraded : Bool
  resumes : Bool
  deriving DecidableEq, Repr

/-- Whom a call is for (R131). -/
inductive Purpose
  | audience | staff
  deriving DecidableEq, Repr

/-- How a call went (R131). -/
inductive CallOutcome
  | complete | degraded | partly | abandoned | overtaken
  deriving DecidableEq, Repr

/-- A CALL record (R131); `outcome` is empty while `finished` is no. -/
structure Call where
  origin : Fin 8
  aud : Option (Fin 3)
  purpose : Purpose
  priority : Nat
  strokes : Nat
  bursts : Nat
  interval : Nat
  flicker : Nat
  finished : Bool
  outcome : Option CallOutcome
  deliveries : List Delivery
  deriving DecidableEq, Repr

/-- A call slot (R133). -/
structure CallSlot where
  issue : Nat
  call : Option Call
  deriving DecidableEq, Repr

/-- How a burst sounds (R130). -/
inductive BurstMode
  | chimeFlicker | chime | flicker
  deriving DecidableEq, Repr

/-- CZONE live fields (R130), and below them the timing of the burst in progress (R141, R142). -/
structure CallZone where
  sounding : Option (Fin 32)
  mode : Option BurstMode
  burstStart : Option Nat
  strokesSounded : Nat
  queue : List (Fin 32)
  suppressed : Bool
  barred : Bool
  flickerCode : Nat
  /-- the end of the burst's length -/
  burstEnd : Option Nat
  /-- the stroke times the burst started with, in ms, and its strokes -/
  strokeOn : Nat
  strokeGap : Nat
  strokes : Nat
  /-- the end of the stroke now sounding -/
  strokeEnd : Option Nat
  /-- the end of the stroke gap now running -/
  gapEnd : Option Nat
  deriving DecidableEq, Repr

/-! ## The circuit supervisor (07) -/

/-- How a driven circuit is switched (R155). -/
inductive Pattern
  | continuous | fast | slow
  deriving DecidableEq, Repr

/-- The health of a circuit (R155). -/
inductive CircuitCondition
  | sound | openLoad | overload | failed
  deriving DecidableEq, Repr

/-- CIRCUIT live fields (R155), the switched output (R157) and the timers, each a deadline or
stopped (R157..R161). -/
structure Circuit where
  demand : Bool
  pattern : Pattern
  drive : Bool
  condition : CircuitCondition
  overloads : Nat
  switchedOn : Bool
  partEnd : Option Nat
  retryAt : Option Nat
  cleanAt : Option Nat
  offAt : Option Nat
  testAt : Nat
  deriving DecidableEq, Repr

/-! ## The supply monitor and the retained store (08) -/

/-- The state of the public supply (R167). -/
inductive Mains
  | present | lost | settling
  deriving DecidableEq, Repr

/-- How the part last started (R167). -/
inductive RestartCause
  | coldStart | resetPin | softRestart | cellLost
  deriving DecidableEq, Repr

/-- The supply fields (R167) and timers, each a deadline or stopped (R168..R172). -/
structure Supply where
  mains : Mains
  safetyLow : Bool
  cellLow : Bool
  retainedValid : Bool
  restartCause : RestartCause
  lossAt : Option Nat
  settlingAt : Option Nat
  safetyAt : Option Nat
  cellAt : Option Nat
  deriving DecidableEq, Repr

/-- One entry of the retained copy (R173). -/
structure RetainedEntry where
  phase : Phase
  act : Nat
  ironProved : IronProved
  deriving DecidableEq, Repr

/-- The retained copy and whether its check word agrees with it (R173). -/
structure Retained where
  entries : Vector RetainedEntry 3
  checkGood : Bool
  deriving DecidableEq, Repr

/-- The input lines as last seen: mains sense, supply-low warning, cell sense (R168..R172), the loop
bands, read for absent zones too (R66), and the local releases (R31). -/
structure Lines where
  mainsPresent : Bool
  supplyLow : Bool
  cellGood : Bool
  bands : Vector Band 24
  pressed : BitVec 3
  deriving DecidableEq, Repr

/-! ## The link port (09) -/

/-- The status of a reply (R183). -/
inductive Status
  | done | adjusted | refused | noRecord | full | locked | badField | busy | notPermitted
  deriving DecidableEq, Repr

/-- The reason that goes with REFUSED (R183). -/
inductive Reason
  | holdPresent | ironNotOut | ironNotIn | wrongPhase | wrongStage | alarmActive | inputActive
  | notSilenced | forced | motion | releaseActive | faultPresent | supply | zoneInAlarm
  | notAmendable | performanceActive
  deriving DecidableEq, Repr

/-- A reply (R183): the address and station number it carries, its status and reason, the record it
names and its fields. -/
structure Reply where
  address : Nat
  station : Byte
  status : Status
  reason : Option Reason
  kind : Byte
  index : Byte
  issue : Byte
  fields : List FieldVal
  deriving DecidableEq, Repr

/-- The link port: the frame error counter, link degraded (R182), and the reply being sent, there
while the line driver is enabled and the receiver is closed (R179). -/
structure Link where
  errors : Nat
  degraded : Bool
  reply : Option Reply
  deriving DecidableEq, Repr

/-- STATION live fields (R186). -/
structure StationLive where
  flags : ClassSet
  armed : ClassSet
  deriving DecidableEq, Repr

/-! ## The whole -/

/-- The state of the part and the queue of commands that wait. -/
structure State where
  powered : Bool
  now : Nat
  draws : Nat
  settings : Settings
  image : Settings
  imageGood : Bool
  store : Store
  perfs : Vector Perf 3
  holds : Vector (Vector HoldSlot 8) 3
  holdLists : Vector (List (Fin 8)) 3
  irons : Vector Iron 3
  zones : Vector Zone 24
  incidents : Vector IncidentSlot 25
  incidentList : List (Fin 25)
  groups : Vector LightGroup 12
  flickers : Vector Flicker 8
  fadeAt : Nat
  lit : Vector Bool 8
  calls : Vector CallSlot 32
  callList : List (Fin 32)
  czones : Vector CallZone 8
  circuits : Vector Circuit 16
  supply : Supply
  retained : Retained
  lines : Lines
  link : Link
  stations : Vector StationLive 8
  pending : List Instr
  deriving DecidableEq, Repr

/-- Why a command stops the model. -/
inductive Fault
  /-- Raised by CONFIRM_TIMER_EXPIRY where a zone without an incident confirms and every INCIDENT slot
  is filled. R81 rules this out in every state the part reaches. Safe (log entry 15). -/
  | incidentListFull
  deriving DecidableEq, Repr

/-- Why a command has no meaning. -/
inductive Refusal
  /-- Raised by `exec` for a row of the table without a meaning; no arm does. Safe. -/
  | notModelled (mnemonic : String)
  deriving DecidableEq, Repr

/-! ## Reset -/

/-- A channel whose present setting is no (R34). -/
def Iron.absent : Iron where
  motion := .atIn
  kind := none
  sub := none
  position := 0
  referenced := false
  demandOut := false
  reason := none
  stop := none
  fault := none
  further := false
  pressed := false
  result := none
  td := 0
  tf := 0
  firstFault := none
  descentTimer := 0
  finalTimer := none
  crossing := none
  still := 0
  sawOverspeed := false
  sawStall := false
  sawTooSlow := false
  raiseStart := 0
  raiseTravel := 0
  raiseTop := 0
  restTravel := 0
  sawCreep := false
  sampleMove := 0
  samplePos := 0
  sampleAt := 0

/-- A zone that is not present, and the start of one that is (R79). -/
def Zone.cleared : Zone where
  band := .normal
  detection := .normal
  condition := .sound
  loopFault := false
  isolated := false
  noise := 0
  incident := none
  confirmAt := none
  quietAt := none
  loopAt := none

/-- An absent group (R105), and the cold-start state of a present one before its forces (R126). -/
def LightGroup.dark : LightGroup where
  level := 0
  target := 0
  fading := false
  start := 0
  steps := 0
  step := 0
  causes := 0
  flickerActive := false
  driven := 0
  drive := 0

/-- A call zone that is free, its queue empty (R153), and an absent one (R129). -/
def CallZone.idle : CallZone where
  sounding := none
  mode := none
  burstStart := none
  strokesSounded := 0
  queue := []
  suppressed := false
  barred := false
  flickerCode := 0
  burstEnd := none
  strokeOn := 0
  strokeGap := 0
  strokes := 0
  strokeEnd := none
  gapEnd := none

/-- A circuit as a start sets it, its test timer started at `now` (R165). -/
def Circuit.cleared (now : Nat) : Circuit where
  demand := false
  pattern := .continuous
  drive := false
  condition := .sound
  overloads := 0
  switchedOn := false
  partEnd := none
  retryAt := none
  cleanAt := none
  offAt := none
  testAt := now + Config.testMs

/-- The machine right after reset: what a cold start leaves on a new board. DESIGN CHOICE, unsafe
(log entry 1): the manual makes the start depend on the plant's inputs and on two memories, so the
model names them: image blank, copy invalid, mains line present, warning line released, cell good,
limit IN of A made, releases let go, every loop NORMAL, every load seen. -/
def State.reset : State where
  powered := true
  now := 0
  draws := 0
  settings := Settings.defaults
  image := Settings.defaults
  imageGood := false
  store := { state := .defaults, changed := true, locked := false }
  perfs := tab fun a =>
    { phase := .dark, act := 0, ironProved := if a = 0 then .notYet else .notRequired,
      interrupted := false, openedBy := none }
  holds := tab fun _ => tab fun _ => { issue := 0, hold := none }
  holdLists := tab fun _ => []
  irons := tab fun a => if a = 0 then { Iron.absent with referenced := true } else Iron.absent
  zones := tab fun _ => Zone.cleared
  incidents := tab fun _ => { issue := 0, incident := none }
  incidentList := []
  groups := tab fun _ => LightGroup.dark
  flickers := tab fun _ => { code := 0, start := 0, dip := false }
  fadeAt := 0
  lit := tab fun _ => false
  calls := tab fun _ => { issue := 0, call := none }
  callList := []
  czones := tab fun _ => CallZone.idle
  circuits := tab fun _ => Circuit.cleared 0
  supply :=
    { mains := .settling, safetyLow := false, cellLow := false, retainedValid := true,
      restartCause := .cellLost, lossAt := none, settlingAt := some Config.settlingMs,
      safetyAt := none, cellAt := none }
  retained :=
    { entries := tab fun a =>
        { phase := .dark, act := 0, ironProved := if a = 0 then .notYet else .notRequired }
      checkGood := true }
  lines :=
    { mainsPresent := true, supplyLow := false, cellGood := true, bands := tab fun _ => .normal,
      pressed := 0 }
  link := { errors := 0, degraded := false, reply := none }
  stations := tab fun i =>
    { flags := if i = 0 then BitVec.allOnes 11 else 0, armed := 0 }
  pending := []

end Sys2Proof.Machine
end

