-- ==== Sys2Proof/Machine/Flags.lean ====
section
/-!
DEFINITION. The attention flags (09, R187..R190): marking a record class, arming at a SUMMARY,
clearing at a LOOK, and setting every flag at a start.
-/

namespace Sys2Proof.Machine

/-- The code of a record kind (R200). -/
def kindCode : Kind → Nat
  | .perf => 1
  | .hold => 2
  | .incident => 3
  | .zone => 4
  | .iron => 5
  | .group => 6
  | .call => 7
  | .czone => 8
  | .circuit => 9
  | .status => 10
  | .station => 11

/-- The kind a code stands for; none outside the eleven (R200). -/
def kindOf (code : Nat) : Option Kind :=
  match code with
  | 1 => some .perf
  | 2 => some .hold
  | 3 => some .incident
  | 4 => some .zone
  | 5 => some .iron
  | 6 => some .group
  | 7 => some .call
  | 8 => some .czone
  | 9 => some .circuit
  | 10 => some .status
  | 11 => some .station
  | _ => none

/-- The set holding the one class `k`: its bit is the kind's code less 1 (R200). -/
def classBit (k : Kind) : ClassSet := single 11 (kindCode k - 1)

/-- A station whose role is not NONE and whose mask includes the class is told of its changes
(R187). -/
def listens (cfg : StationSettings) (k : Kind) : Bool :=
  cfg.role != .none && cfg.mask.getLsbD (kindCode k - 1)

/-- One station at a mark of class `k`: the flag set and its arming cancelled (R187). -/
def markStation (k : Kind) (cfg : StationSettings) (st : StationLive) : StationLive :=
  if listens cfg k then
    { flags := st.flags ||| classBit k, armed := st.armed &&& ~~~classBit k }
  else st

/-- A block marks a record class: every station that listens has the flag set (R187). -/
def State.mark (k : Kind) (s : State) : State :=
  { s with stations := tab fun i => markStation k s.settings.stations[i] s.stations[i] }

/-- Mark the class where something of it changed. -/
def State.markIf (b : Bool) (k : Kind) (s : State) : State := if b then s.mark k else s

/-- A SUMMARY arms the flags as they stand (R188). -/
def State.arm (i : Fin 8) (s : State) : State :=
  { s with stations := put s.stations i { s.stations[i] with armed := s.stations[i].flags } }

/-- A LOOK of a class armed for the station clears its flag and arming (R189). -/
def State.lookClears (i : Fin 8) (k : Kind) (s : State) : State :=
  let st := s.stations[i]
  let kept := ~~~classBit k
  if st.armed.getLsbD (kindCode k - 1) then
    { s with stations := put s.stations i ⟨st.flags &&& kept, st.armed &&& kept⟩ }
  else s

/-- At a start every station whose role is not NONE has its flags set to its mask and none armed
(R191, R192). DEDUCED (log entry 40): a station whose role is NONE, of which the rules do not speak, has none. -/
def State.flagAll (s : State) : State :=
  { s with stations := tab fun i =>
      let cfg := s.settings.stations[i]
      { flags := if cfg.role = .none then 0 else cfg.mask, armed := 0 } }

/-- The attention line is asserted while a station whose role is not NONE has a flag set, and
released while the part is unpowered (R190, R178). -/
def State.attentionLine (s : State) : Bool :=
  s.powered && someIx 8 fun i => s.settings.stations[i].role != .none && s.stations[i].flags != 0

end Sys2Proof.Machine
end

