-- ==== Sys2Proof/Machine/Ops.lean ====
section
/-!
DEFINITION. The shared operations over the records: reading them by number, and writing them so that
each change marks its record class as the owner's chapter says.
-/

namespace Sys2Proof.Machine

/-! ## Time -/

/-- DESIGN CHOICE (log entries 2 and 3): an event that falls due at `t` finds the clock at `t` or
later. -/
def State.reach (t : Nat) (s : State) : State := { s with now := max s.now t }

/-- A time in tenths of a second, in ms of the model's clock (00, Conventions). -/
def tenths (n : Nat) : Nat := n * Config.tenth

/-- Tenths elapsed since `t`, stopping at 65534 (R200). DEDUCED: whole tenths (log entry 9). -/
def State.elapsed (s : State) (t : Nat) : Nat := min 65534 ((s.now - t) / Config.tenth)

/-- Tenths remaining until `t`, 0 once passed (R200). DEDUCED: a tenth begun counts (log entry 9). -/
def State.remaining (s : State) (t : Nat) : Nat := (t - s.now + (Config.tenth - 1)) / Config.tenth

/-- The n-th free choice, and the next one drawn (log entries 5, 6 and 33). -/
def State.choice (s : State) : Bool := Config.orderChoice s.draws

/-- Count the free choice as taken. -/
def State.drawn (s : State) : State := { s with draws := s.draws + 1 }

/-- The issue number of a slot's next occupant: one more, and 1 after 255 (00, "Records, kinds and
indices"). -/
def nextIssue (n : Nat) : Nat := if n ≥ 255 then 1 else n + 1

/-! ## Reading -/

/-- An auditorium is occupied in the six audience phases (R1). -/
def Phase.occupied : Phase → Bool
  | .dark => false
  | .prepare => false
  | _ => true

/-- The phase of a performance. -/
def State.phase (s : State) (a : Fin 3) : Phase := s.perfs[a].phase

/-- Every performance is DARK: the performance lock is open (R195). -/
def State.allDark (s : State) : Bool := !someIx 3 fun a => s.phase a != .dark

/-- Auditorium `a` is in the set. -/
def has (set : AudSet) (a : Fin 3) : Bool := set.getLsbD a.1

/-- The role of a station. -/
def State.role (s : State) (st : Fin 8) : Role := s.settings.stations[st].role

/-- The station's role is STAGE with auditorium `a` (R5, R186). -/
def State.isStageOf (s : State) (st : Fin 8) (a : Fin 3) : Bool :=
  s.role st == .stage && s.settings.stations[st].aud == a

/-- The open incidents, oldest first (R81). -/
def State.openIncidents (s : State) : List Incident :=
  s.incidentList.filterMap fun i => s.incidents[i].incident

/-- The auditoria that some open GENERAL incident concerns (R2, R14). -/
def State.generalSet (s : State) : AudSet :=
  (s.openIncidents.filter (·.stage == .general)).foldl (fun set x => set ||| x.auds) 0

/-- The open incident in a slot. -/
def State.incident? (s : State) (i : Fin 25) : Option Incident := s.incidents[i].incident

/-- The call in a slot. -/
def State.call? (s : State) (c : Fin 32) : Option Call := s.calls[c].call

/-- The hold in a slot. -/
def State.hold? (s : State) (a : Fin 3) (k : Fin 8) : Option Hold := s.holds[a][k].hold

/-! ## Writing -/

/-- Write a PERF record's live fields: a change marks PERF, and a change of phase, act or iron_proved
is rewritten into the retained copy at the same event (R6, R173). -/
def State.writePerf (a : Fin 3) (p : Perf) (s : State) : State :=
  let old := s.perfs[a]
  let s1 := { s with perfs := put s.perfs a p }
  let s2 :=
    if old.phase = p.phase ∧ old.act = p.act ∧ old.ironProved = p.ironProved then s1
    else { s1 with retained :=
             { entries := put s.retained.entries a ⟨p.phase, p.act, p.ironProved⟩, checkGood := true } }
  s2.markIf (old != p) .perf

/-- The live fields of a channel whose change marks the IRON class at once: all but the position,
whose mark waits for the sample (R35). -/
def Iron.shown (x : Iron) : Iron :=
  { Iron.absent with
    motion := x.motion, kind := x.kind, sub := x.sub, referenced := x.referenced,
    demandOut := x.demandOut, reason := x.reason, stop := x.stop, fault := x.fault,
    further := x.further, pressed := x.pressed, result := x.result, td := x.td, tf := x.tf }

/-- Write a channel (R35). -/
def State.writeIron (ch : Fin 3) (x : Iron) (s : State) : State :=
  let old := s.irons[ch]
  ({ s with irons := put s.irons ch x } : State).markIf (old.shown != x.shown) .iron

/-- The live fields of a zone (R67), its timers left out. -/
def Zone.shown (x : Zone) : Zone := { x with confirmAt := none, quietAt := none, loopAt := none }

/-- Write a zone; a change of a live field marks ZONE (R67). -/
def State.writeZone (z : Fin 24) (x : Zone) (s : State) : State :=
  let old := s.zones[z]
  ({ s with zones := put s.zones z x } : State).markIf (old.shown != x.shown) .zone

/-- The fields of an incident whose change marks INCIDENT: all but the two times (R83). -/
def Incident.shown (x : Incident) : Incident := { x with raisedAt := 0, timerAt := none }

/-- Write an open incident (R83). -/
def State.writeIncident (i : Fin 25) (x : Incident) (s : State) : State :=
  let old := s.incidents[i]
  ({ s with incidents := put s.incidents i { old with incident := some x } } : State).markIf
    (old.incident.map Incident.shown != some x.shown) .incident

/-- Write a group at an event that is not a fade step: a change of a live field marks GROUP (R106). -/
def State.writeGroup (g : Fin 12) (x : LightGroup) (s : State) : State :=
  let old := s.groups[g]
  ({ s with groups := put s.groups g x } : State).markIf (old != x) .group

/-- The fields of a call zone whose change marks CZONE: strokes sounded and the times are left out
(R130). -/
def CallZone.shown (x : CallZone) : CallZone :=
  { CallZone.idle with
    sounding := x.sounding, mode := x.mode, queue := x.queue, suppressed := x.suppressed,
    barred := x.barred, flickerCode := x.flickerCode }

/-- Write a call zone (R130). -/
def State.writeCZone (z : Fin 8) (x : CallZone) (s : State) : State :=
  let old := s.czones[z]
  ({ s with czones := put s.czones z x } : State).markIf (old.shown != x.shown) .czone

/-- The fields of a call whose change marks CALL at every event: the deliveries' times are left out, since they
change with another field, or at an amendment, which marks its own change (R133, R138). -/
def Call.shown (x : Call) : Call :=
  { x with deliveries := x.deliveries.map fun d => { d with notBefore := 0, lastStart := none } }

/-- Write a call in its slot (R133). -/
def State.writeCall (c : Fin 32) (x : Call) (s : State) : State :=
  let old := s.calls[c]
  ({ s with calls := put s.calls c { old with call := some x } } : State).markIf
    (old.call.map Call.shown != some x.shown) .call

/-- A chime circuit, 7..14, follows every stroke and does not mark its class for demand and drive
(R164). -/
def isChime (c : Fin 16) : Bool := 6 ≤ c.1 && c.1 < 14

/-- Write a circuit: changes of condition and count mark CIRCUIT, and on all but the chime circuits
changes of demand, pattern and drive too (R164). -/
def State.writeCircuit (c : Fin 16) (x : Circuit) (s : State) : State :=
  let old := s.circuits[c]
  ({ s with circuits := put s.circuits c x } : State).markIf
    (old.condition != x.condition || old.overloads != x.overloads ||
      (!isChime c && (old.demand != x.demand || old.pattern != x.pattern || old.drive != x.drive)))
    .circuit

/-- Write the supply fields and timers: a change of a field marks STATUS (R167). -/
def State.writeSupply (x : Supply) (s : State) : State :=
  let old := s.supply
  ({ s with supply := x } : State).markIf
    (old.mains != x.mains || old.safetyLow != x.safetyLow || old.cellLow != x.cellLow ||
      old.retainedValid != x.retainedValid || old.restartCause != x.restartCause) .status

/-- Write the settings store's fields: a change marks STATUS (R193). -/
def State.writeStore (x : Store) (s : State) : State :=
  let old := s.store
  ({ s with store := x } : State).markIf (old != x) .status

/-! ## Outputs that follow from the records -/

/-- The HOLD output of a channel: energised in RAISING, OUT and STOPPED of a present channel, and
off without the part's power (R32, R178). -/
def State.holdOutput (s : State) (ch : Fin 3) : Bool :=
  s.powered && s.settings.irons[ch].present &&
    match s.irons[ch].motion with
    | .raising => true
    | .atOut => true
    | .stopped => true
    | .atIn => false
    | .descending => false

/-- The RAISE output of a channel (R32, R178). -/
def State.raiseOutput (s : State) (ch : Fin 3) : Bool :=
  s.powered && s.settings.irons[ch].present && s.irons[ch].motion == .raising

/-- The CHECK output of a channel: on in DESCENDING, sub-phase CHECKED (R32, R178). -/
def State.checkOutput (s : State) (ch : Fin 3) : Bool :=
  s.powered && s.settings.irons[ch].present && s.irons[ch].motion == .descending &&
    s.irons[ch].sub == some .checked

/-- A supervised output is switched on (R157, R178). -/
def State.circuitOutput (s : State) (c : Fin 16) : Bool := s.powered && s.circuits[c].switchedOn

/-- The value latched on a dimmer output; it stays there without the part's power (R114, R178). -/
def State.dimmerOutput (s : State) (g : Fin 12) : Nat := s.groups[g].drive

/-- The link driver is enabled while a reply is being sent (R179, R178). -/
def State.linkDriver (s : State) : Bool := s.powered && s.link.reply.isSome

/-- The link port takes a frame: the part is powered and its receiver is open (R178, R179). -/
def State.listening (s : State) : Bool := s.powered && s.link.reply.isNone

end Sys2Proof.Machine
end

