-- ==== Sys2Proof/Machine/Circuits.lean ====
section
/-!
DEFINITION. One supervised circuit (07): its demand and drive, its pattern, its open-load tests and
its overload trips. What a change of condition sets off in other blocks is in Supervisor.lean.
-/

namespace Sys2Proof.Machine

/-- The circuit number `n` as an entry (circuit 1 is entry 0). -/
def circuitNo (n : Nat) (h : n < 16 := by decide) : Fin 16 := ⟨n, h⟩

/-- The chime circuit of call zone Fn is circuit 6 + n (R128). -/
def chimeOf (z : Fin 8) : Fin 16 := ⟨6 + z.1, by omega⟩

/-- The call zone of a chime circuit (R164). -/
def zoneOfChime (c : Fin 16) : Option (Fin 8) :=
  if h : 6 ≤ c.1 ∧ c.1 < 14 then some ⟨c.1 - 6, by omega⟩ else none

/-- Circuit 15, the staff alert line. -/
def staffAlert : Fin 16 := 14

/-- Circuit 16, the brigade relay. -/
def brigadeRelay : Fin 16 := 15

/-- The on part of a pattern, in ms; none for CONTINUOUS (R157). -/
def Pattern.onPart : Pattern → Option Nat
  | .continuous => none
  | .fast => some 250
  | .slow => some 500

/-- The off part of a pattern, in ms (R157). -/
def Pattern.offPart : Pattern → Nat
  | .continuous => 0
  | .fast => 250
  | .slow => 3500

/-- The circuit with a new period of its pattern begun, on part first (R157). -/
def Circuit.newPeriod (now : Nat) (x : Circuit) : Circuit :=
  { x with switchedOn := true, partEnd := x.pattern.onPart.map (now + ·) }

/-- The circuit is in OVERLOAD. -/
def Circuit.inOverload (x : Circuit) : Bool := x.condition == .overload

/-- The drive goes on; in OVERLOAD the clean timer starts (R157, R160). -/
def Circuit.driveOn (now : Nat) (x : Circuit) : Circuit :=
  { x.newPeriod now with
    drive := true
    cleanAt := if x.inOverload then some (now + Config.cleanMs) else x.cleanAt }

/-- The drive goes off and the output with it; the clean timer stops (R156, R160). -/
def Circuit.driveOff (x : Circuit) : Circuit :=
  { x with drive := false, switchedOn := false, partEnd := none, cleanAt := none }

/-- The drive that R156 gives a demand: a circuit in OVERLOAD waits for its retry time. -/
def Circuit.wantsDrive (x : Circuit) : Bool :=
  x.demand &&
    match x.condition with
    | .sound => true
    | .openLoad => true
    | .overload => x.retryAt.isNone
    | .failed => false

/-- Set the drive from the demand and the condition (R156). -/
def Circuit.setDrive (now : Nat) (x : Circuit) : Circuit :=
  if x.wantsDrive then (if x.drive then x else x.driveOn now)
  else if x.drive then x.driveOff else x

/-- An owner writes the demand and, for circuit 15, the pattern. A write that changes neither is no
event. In OVERLOAD the off timer starts when the demand goes off and stops when it goes on; a change
of pattern begins a new period (R156, R157, R161). -/
def Circuit.demandEvent (now : Nat) (on : Bool) (pat : Pattern) (x : Circuit) : Circuit :=
  if x.demand = on ∧ x.pattern = pat then x
  else
    let y := { x with
      demand := on, pattern := pat
      offAt :=
        if x.inOverload then
          (if on then none else if x.demand then some (now + Config.offMs) else x.offAt)
        else x.offAt }
    let w := y.setDrive now
    if x.drive && w.drive then w.newPeriod now else w

/-- Write the demand of a circuit (R156). -/
def State.demand (c : Fin 16) (on : Bool) (pat : Pattern) (s : State) : State :=
  s.writeCircuit c (s.circuits[c].demandEvent s.now on pat)

/-- The part of the pattern now running ends, and the output switches (R157). -/
def Circuit.partEnds (t : Nat) (x : Circuit) : Circuit :=
  match x.pattern.onPart with
  | none => x
  | some onMs =>
      if x.switchedOn then { x with switchedOn := false, partEnd := some (t + x.pattern.offPart) }
      else { x with switchedOn := true, partEnd := some (t + onMs) }

/-- The open-load test: it is made with the drive off, in SOUND and OPEN alone (R158). -/
def Circuit.tested (loadSeen : Bool) (x : Circuit) : Circuit :=
  if x.drive then x
  else match x.condition with
    | .sound => if loadSeen then x else { x with condition := .openLoad }
    | .openLoad => if loadSeen then { x with condition := .sound } else x
    | .overload => x
    | .failed => x

/-- An overload event trips a driven circuit whose output is switched on: FAILED at the fourth trip or
with retry off, and otherwise OVERLOAD with its retry timer started (R159, R162). -/
def Circuit.trip (now : Nat) (retry : Bool) (x : Circuit) : Circuit :=
  let y := { x.driveOff with overloads := x.overloads + 1 }
  if y.overloads ≥ Config.tripLimit ∨ retry = false then
    { y with condition := .failed, retryAt := none, offAt := none }
  else { y with condition := .overload, retryAt := some (now + Config.retryMs) }

/-- The retry time has run: the drive goes on if the demand is on (R160). -/
def Circuit.retryRun (now : Nat) (x : Circuit) : Circuit :=
  ({ x with retryAt := none } : Circuit).setDrive now

/-- The circuit is judged clean: SOUND, count 0 and its overload timers stopped (R160, R161, R163). -/
def Circuit.judgedClean (x : Circuit) : Circuit :=
  { x with condition := .sound, overloads := 0, retryAt := none, cleanAt := none, offAt := none }

/-- A station reset: a circuit in OVERLOAD or FAILED is SOUND with a count of 0 and driven from its
demand; one in SOUND or OPEN is left (R163). -/
def Circuit.resetByStation (now : Nat) (x : Circuit) : Circuit :=
  match x.condition with
  | .sound => x
  | .openLoad => x
  | .overload => x.judgedClean.setDrive now
  | .failed => x.judgedClean.setDrive now

end Sys2Proof.Machine
end

