-- ==== Sys2Proof/Machine/Lighting.lean ====
section
/-!
DEFINITION. The lighting unit (05): fades, the driven level and drive value, force causes, lighting
responses and flicker.
-/

namespace Sys2Proof.Machine

/-- The auditoria a group serves: its own, or those of its call zone (R104). -/
def State.groupServes (s : State) (g : Fin 12) : AudSet :=
  let cfg := s.settings.groups[g]
  match cfg.kind with
  | .foyer => s.settings.czones[cfg.callZone].serves
  | .house => single 3 cfg.aud.1
  | .aisle => single 3 cfg.aud.1

/-- The set of the force causes that hold (R200). -/
def causeSet (general supply restore mains : Bool) : CauseSet :=
  (if general then 1 else 0) ||| (if supply then 2 else 0) ||| (if restore then 4 else 0) |||
    (if mains then 8 else 0)

/-- MAINS is among the causes. -/
def hasMains (c : CauseSet) : Bool := c.getLsbD 3

/-- The force causes of a present group (R115). -/
def State.causesOf (s : State) (g : Fin 12) : CauseSet :=
  let cfg := s.settings.groups[g]
  let serves := s.groupServes g
  let dead := s.supply.mains != .present
  causeSet (meets s.generalSet serves)
    (cfg.feed == .standby && dead && someIx 3 fun a => has serves a && s.phase a != .dark)
    (cfg.kind != .foyer && s.perfs[cfg.aud].interrupted)
    (cfg.feed == .mains && dead)

/-- The driven level E of a present group (R113). -/
def State.drivenOf (s : State) (g : Fin 12) (x : LightGroup) : Nat :=
  let cfg := s.settings.groups[g]
  if hasMains x.causes then 0
  else if x.causes != 0 then cfg.evacuation
  else match cfg.kind with
    | .house => x.level
    | .foyer =>
        let f := s.flickers[cfg.callZone]
        if f.code != 0 && f.dip then min x.level cfg.dip else x.level
    | .aisle => if s.phase cfg.aud != .dark then max x.level cfg.safetyMin else x.level

/-- The drive value of a driven level (R114). -/
def driveOf (law : DriveLaw) (e : Nat) : Nat :=
  match law with
  | .linear => (e * 1023 + 500) / 1000
  | .square => ((e * e + 500) / 1000 * 1023 + 500) / 1000

/-- Flicker active: a present FOYER group whose call zone's code is not 0 and whose force causes are
empty (R123). -/
def State.flickerFollows (s : State) (g : Fin 12) (x : LightGroup) : Bool :=
  let cfg := s.settings.groups[g]
  cfg.kind == .foyer && s.flickers[cfg.callZone].code != 0 && x.causes == 0

/-- A group with its flicker active field, driven level and drive value computed again. -/
def State.relit (s : State) (g : Fin 12) (x : LightGroup) : LightGroup :=
  let e := s.drivenOf g x
  { x with
    flickerActive := s.flickerFollows g x, driven := e, drive := driveOf s.settings.groups[g].law e }

/-- A fade to `t` over `d` tenths starts from the group's level; with no steps the level is `t` at
once (R109). -/
def LightGroup.startFade (t d : Nat) (x : LightGroup) : LightGroup :=
  if d = 0 then
    { x with target := t, start := x.level, steps := 0, step := 0, level := t, fading := false }
  else { x with target := t, start := x.level, steps := 5 * d, step := 0, fading := true }

/-- Start a fade on a group; the start marks GROUP (R109, R111). -/
def State.beginFade (g : Fin 12) (t d : Nat) (s : State) : State :=
  ({ s with groups := put s.groups g (s.relit g (s.groups[g].startFade t d)) } : State).mark .group

/-- The level at step `k` of a fade from `s0` to `t` in `n` steps: the quotient is rounded toward zero
(R110). -/
def fadeLevel (s0 t n k : Nat) : Nat :=
  ((s0 : Int) + Int.tdiv (((t : Int) - (s0 : Int)) * (k : Int)) (n : Int)).toNat

/-- One step of a group's fade; at the last one it is STEADY at its target (R110). -/
def LightGroup.stepFade (x : LightGroup) : LightGroup :=
  if x.fading then
    let k := x.step + 1
    { x with step := k, level := fadeLevel x.start x.target x.steps k, fading := k < x.steps }
  else x

/-- The force causes of a group become `c`: taken into force (R119), released (R120) or changed
(R115). A release fades from the driven level over the restore fade. -/
def LightGroup.force (c : CauseSet) (restoreFade : Nat) (x : LightGroup) : LightGroup :=
  if c = x.causes then x
  else if x.causes = 0 then { x with causes := c, fading := false }
  else if c = 0 then ({ x with causes := 0, level := x.driven } : LightGroup).startFade x.target restoreFade
  else { x with causes := c }

/-- Derive the force causes of a group again, act on the change, and compute its output (R115, R113).
A change of the causes marks GROUP whatever else it changes. -/
def State.refreshGroup (g : Fin 12) (s : State) : State :=
  let cfg := s.settings.groups[g]
  if cfg.present then
    s.writeGroup g (s.relit g (s.groups[g].force (s.causesOf g) cfg.restoreFade))
  else s

/-- Derive every group again; the call unit is told of lit changes by `announceLit`. -/
def State.refreshGroups (s : State) : State := forAll 12 State.refreshGroup s

/-- A lighting response: every present HOUSE and AISLE group of the auditorium takes the target, and
fades to it if it is not forced (R122, R119). -/
def State.respond (a : Fin 3) (t d : Nat) (s : State) : State :=
  forAll 12 (fun g s =>
    let cfg := s.settings.groups[g]
    let x := s.groups[g]
    if cfg.present && cfg.kind != .foyer && cfg.aud == a then
      if x.causes = 0 then s.beginFade g t d else s.writeGroup g { x with target := t }
    else s) s

/-- The rate of a flicker code in quarter-hertz (R124). -/
def flickerRate (code : Nat) : Nat :=
  match code with
  | 1 => 1
  | 2 => 2
  | 3 => 4
  | 4 => 8
  | 5 => 12
  | 6 => 16
  | _ => 0

/-- The dip limit of a flicker code (R124). -/
def flickerLimit (code : Nat) : Nat :=
  match code with
  | 1 => 500
  | 2 => 1000
  | _ => 2000

/-- Whether a step `t` ms after the start is a dip (R124): every one for code 7, none for code 0. -/
def isDip (code t : Nat) : Bool :=
  match code with
  | 0 => false
  | 7 => true
  | _ => t * flickerRate code % 4000 < flickerLimit code

/-- The call unit hands a flicker request for a call zone, or ends it with code 0: every present FOYER
group of the zone follows at once (R123). At the request t is 0, a dip for every code (R124). -/
def State.flickerRequest (z : Fin 8) (code : Nat) (s : State) : State :=
  let s1 := { s with flickers := put s.flickers z { code := code, start := s.now, dip := isDip code 0 } }
  forAll 12 (fun g s =>
    let cfg := s.settings.groups[g]
    if cfg.present && cfg.kind == .foyer && cfg.callZone == z then s.writeGroup g (s.relit g s.groups[g])
    else s) s1

/-- A call zone is lit while a present FOYER group of it has empty force causes (R125). -/
def State.litNow (s : State) (z : Fin 8) : Bool :=
  someIx 12 fun g =>
    let cfg := s.settings.groups[g]
    cfg.present && cfg.kind == .foyer && cfg.callZone == z && s.groups[g].causes == 0

/-- One step of the fade engine for one group: its fade advances and its output is computed; only the
end of a fade marks GROUP (R106, R110, R113). -/
def State.stepGroup (g : Fin 12) (s : State) : State :=
  if s.settings.groups[g].present then
    let x := s.groups[g]
    let y := s.relit g x.stepFade
    ({ s with groups := put s.groups g y } : State).markIf
      ((x.fading && !y.fading) || x.flickerActive != y.flickerActive) .group
  else s

/-- The moment of the next step of the fade grid (R110). DESIGN CHOICE (log entry 2). -/
def State.fadeDue (s : State) : Nat := max s.now (s.fadeAt + Config.fadeStepMs)

/-- Judge every call zone's dip at the step (R124). -/
def State.judgeDips (s : State) : State :=
  { s with flickers := tab fun z =>
      { s.flickers[z] with dip := isDip s.flickers[z].code (s.now - s.flickers[z].start) } }

/-- The whole step of the fade engine: one grid for all twelve groups (R110). -/
def State.fadeEngineStep (s : State) : State :=
  let t := s.fadeDue
  forAll 12 State.stepGroup ({ s with now := t, fadeAt := t } : State).judgeDips

/-- The step at which a group's fade reaches N is one step of the grid for all groups (R110; log entry
7). -/
def State.fadeEnds (g : Fin 12) (s : State) : State :=
  let x := s.groups[g]
  if s.settings.groups[g].present ∧ x.fading ∧ x.steps ≤ x.step + 1 then s.fadeEngineStep else s

/-- An amendment of a group's settings marks GROUP; a group made present takes the cold-start state
and one made absent goes dark; the rest is derived again (R105). -/
def State.groupAmended (g : Fin 12) (old : GroupSettings) (s : State) : State :=
  let cfg := s.settings.groups[g]
  let s1 :=
    if old.present != cfg.present then s.writeGroup g LightGroup.dark else s
  (s1.refreshGroup g).markIf (old != cfg) .group

end Sys2Proof.Machine
end

