-- ==== Sys2Proof/Machine/Calls.lean ====
section
/-!
DEFINITION. The call unit (06): deliveries and queues, the arbiter, bursts, suppression and barring,
call notices, and the finishing of calls.
-/

namespace Sys2Proof.Machine

/-! ## Calls and deliveries -/

/-- The delivery of a call in a zone (R132). -/
def Call.delivery? (x : Call) (z : Fin 8) : Option Delivery := x.deliveries.find? (·.zone == z)

/-- The call with its delivery in `z` changed by `f`. -/
def Call.editDelivery (z : Fin 8) (f : Delivery → Delivery) (x : Call) : Call :=
  { x with deliveries := x.deliveries.map fun d => if d.zone = z then f d else d }

/-- The delivery of call `c` in zone `z`. -/
def State.delivery? (s : State) (c : Fin 32) (z : Fin 8) : Option Delivery :=
  (s.call? c).bind (·.delivery? z)

/-- Change one delivery of a call. -/
def State.editDelivery (c : Fin 32) (z : Fin 8) (f : Delivery → Delivery) (s : State) : State :=
  match s.call? c with
  | none => s
  | some x => s.writeCall c (x.editDelivery z f)

/-- A delivery that has not ended is WAITING or SOUNDING (R132). -/
def Delivery.unended (d : Delivery) : Bool := d.state == .waiting || d.state == .sounding

/-- The outcome of a call none of whose deliveries is unended: the first row that applies (R152). -/
def outcomeOf (ds : List Delivery) : CallOutcome :=
  if ds.any (·.state == .abandoned) then .abandoned
  else if ds.any (·.state == .overtaken) then .overtaken
  else if ds.any (·.state == .undelivered) then .partly
  else if ds.any (·.degraded) then .degraded
  else .complete

/-- A call finishes when none of its deliveries is WAITING or SOUNDING (R152). -/
def State.finishCall (c : Fin 32) (s : State) : State :=
  match s.call? c with
  | none => s
  | some x =>
      if x.finished || x.deliveries.any Delivery.unended then s
      else s.writeCall c { x with finished := true, outcome := some (outcomeOf x.deliveries) }

/-- A delivery ends in state `st`; resumes becomes no, and the call may finish (R137, R152). DEDUCED (log entry
37): bursts left keeps its count in a delivery that has ended with bursts to sound, UNDELIVERED among them. -/
def State.endDelivery (c : Fin 32) (z : Fin 8) (st : DeliveryState) (s : State) : State :=
  (s.editDelivery c z fun d => { d with state := st, resumes := false }).finishCall c

/-! ## Queues (R137) -/

/-- A call's place in the table's order, oldest first (R133). -/
def State.callAge (s : State) (c : Fin 32) : Nat := s.callList.idxOf c

/-- Delivery of call `a` stands before that of call `b` in a queue: higher priority, then resumes,
then the older call (R137). -/
def State.ahead (s : State) (z : Fin 8) (a b : Fin 32) : Bool :=
  let pa := ((s.call? a).map (·.priority)).getD 0
  let pb := ((s.call? b).map (·.priority)).getD 0
  let ra := ((s.delivery? a z).map (·.resumes)).getD false
  let rb := ((s.delivery? b z).map (·.resumes)).getD false
  if pa != pb then pb < pa
  else if ra != rb then ra
  else s.callAge a < s.callAge b

/-- The queue `q` with the delivery of call `c` in the place the order gives it: before the first that it is
ahead of (R137). -/
def State.queuePlace (s : State) (z : Fin 8) (c : Fin 32) (q : List (Fin 32)) : List (Fin 32) :=
  q.takeWhile (fun b => !s.ahead z c b) ++ c :: q.dropWhile (fun b => !s.ahead z c b)

/-- A WAITING delivery joins its zone's queue, or moves in it. -/
def State.joinQueue (z : Fin 8) (c : Fin 32) (s : State) : State :=
  let cz := s.czones[z]
  s.writeCZone z { cz with queue := s.queuePlace z c (cz.queue.erase c) }

/-- A delivery leaves its zone's queue. -/
def State.leaveQueue (z : Fin 8) (c : Fin 32) (s : State) : State :=
  let cz := s.czones[z]
  s.writeCZone z { cz with queue := cz.queue.erase c }

/-- A queued delivery is due once its not before has passed (R140). -/
def State.isDue (s : State) (z : Fin 8) (c : Fin 32) : Bool :=
  match s.delivery? c z with
  | none => false
  | some d => d.state == .waiting && d.notBefore ≤ s.now

/-! ## Bursts (R141..R145) -/

/-- The zone's chime circuit is SOUND (R141). -/
def State.chimeSound (s : State) (z : Fin 8) : Bool := s.circuits[chimeOf z].condition == .sound

/-- The mode and flicker code of a burst, from the chime's condition and the lit state; none where the
zone cannot sound at all (R141). -/
def burstMode (chime lit : Bool) (code : Nat) : Option (BurstMode × Nat) :=
  match chime, lit with
  | true, true => if code = 0 then some (.chime, 0) else some (.chimeFlicker, code)
  | true, false => some (.chime, 0)
  | false, true => some (.flicker, if code = 0 then 3 else code)
  | false, false => none

/-- The next stroke of a burst begins: counted, and the chime demand on (R142). -/
def State.beginStroke (z : Fin 8) (s : State) : State :=
  let cz := s.czones[z]
  (s.writeCZone z { cz with
      strokesSounded := cz.strokesSounded + 1, strokeEnd := some (s.now + cz.strokeOn), gapEnd := none }).demand
    (chimeOf z) true .continuous

/-- Hand the lighting unit a flicker code and keep it in the zone's field (R142). -/
def State.handFlicker (z : Fin 8) (code : Nat) (s : State) : State :=
  let cz := s.czones[z]
  (s.writeCZone z { cz with flickerCode := code }).flickerRequest z code

/-- A burst starts for the delivery of call `c` (R141, R142). -/
def State.startBurst (z : Fin 8) (c : Fin 32) (mode : BurstMode) (code : Nat) (s : State) : State :=
  let cfg := s.settings.czones[z]
  let strokes := ((s.call? c).map (·.strokes)).getD 0
  let s1 := s.editDelivery c z fun d => { d with state := .sounding, resumes := false }
  let cz := s1.czones[z]
  let s2 := s1.writeCZone z { cz with
    queue := cz.queue.erase c, sounding := some c, mode := some mode, burstStart := some s.now,
    strokesSounded := 0, burstEnd := some (s.now + strokes * (cfg.strokeOn + cfg.strokeGap)),
    strokeOn := cfg.strokeOn, strokeGap := cfg.strokeGap, strokes := strokes, strokeEnd := none,
    gapEnd := none }
  match mode with
  | .chime => s2.beginStroke z
  | .chimeFlicker => (s2.handFlicker z code).beginStroke z
  | .flicker => s2.handFlicker z code

/-- The arbiter looks: a present, free zone that is neither suppressed nor barred starts a burst for
the first due delivery in its queue; one that cannot sound is UNDELIVERED and it looks again (R140,
R141). `fuel` bounds the deliveries it can pass over. -/
def State.lookFor (z : Fin 8) (fuel : Nat) (s : State) : State :=
  match fuel with
  | 0 => s
  | fuel + 1 =>
      let cz := s.czones[z]
      if !s.settings.czones[z].present || cz.sounding.isSome || cz.suppressed || cz.barred then s
      else match cz.queue.find? (s.isDue z) with
        | none => s
        | some c =>
            match burstMode (s.chimeSound z) (s.litNow z) (((s.call? c).map (·.flicker)).getD 0) with
            | some (mode, code) => s.startBurst z c mode code
            | none => ((s.leaveQueue z c).endDelivery c z .undelivered).lookFor z fuel

/-- The arbiter of a zone looks for a burst to start (R140). -/
def State.arbitrate (z : Fin 8) (s : State) : State := s.lookFor z (s.czones[z].queue.length + 1)

/-- The chime demand and the flicker request of a burst end (R142). -/
def State.endSignals (z : Fin 8) (s : State) : State :=
  let s1 := s.demand (chimeOf z) false .continuous
  if s1.czones[z].flickerCode = 0 then s1 else s1.handFlicker z 0

/-- The zone is free: no sounding delivery, no burst (R143). DEDUCED: strokes sounded is left until
the next burst writes it (log entry 14). -/
def State.freeZone (z : Fin 8) (s : State) : State :=
  let cz := s.czones[z]
  s.writeCZone z { cz with
    sounding := none, mode := none, burstStart := none, burstEnd := none, strokeEnd := none,
    gapEnd := none }

/-- A burst is stopped: its signals end and the zone is free; nothing is counted (R143). -/
def State.stopBurst (z : Fin 8) (s : State) : State := (s.endSignals z).freeZone z

/-- A delivery after a counted burst: DONE with none left, and otherwise WAITING for the burst start
plus the interval (R143). -/
def Delivery.counted (start interval : Nat) (byFlicker : Bool) (d : Delivery) : Delivery :=
  let left := d.burstsLeft - 1
  { d with
    burstsLeft := left, lastStart := some start, degraded := d.degraded || byFlicker
    state := if left = 0 then .done else .waiting
    notBefore := if left = 0 then d.notBefore else start + tenths interval }

/-- The burst of a zone ends and is counted; the delivery is DONE or waits again, and the arbiter
looks (R143). -/
def State.countBurst (z : Fin 8) (s : State) : State :=
  let cz := s.czones[z]
  match cz.sounding with
  | none => s
  | some c =>
      let start := cz.burstStart.getD s.now
      let interval := ((s.call? c).map (·.interval)).getD 0
      let s1 := (s.stopBurst z).editDelivery c z (Delivery.counted start interval (cz.mode == some .flicker))
      let s2 :=
        if (s1.delivery? c z).map (·.state) = some .waiting then s1.joinQueue z c else s1.finishCall c
      s2.arbitrate z

/-- The chime of a zone is lost during a chime burst: no further stroke, and the burst goes on as
flicker or, in a zone that is not lit, ends counted (R144). -/
def State.chimeLost (z : Fin 8) (s : State) : State :=
  let silent (s : State) : State :=
    let cz := s.czones[z]
    (s.writeCZone z { cz with mode := some .flicker, strokeEnd := none, gapEnd := none }).demand
      (chimeOf z) false .continuous
  let cz := s.czones[z]
  match cz.mode with
  | some .chimeFlicker => silent s
  | some .chime =>
      if s.litNow z then
        let code := ((cz.sounding.bind s.call?).map (·.flicker)).getD 0
        (silent s).handFlicker z (if code = 0 then 3 else code)
      else (silent s).countBurst z
  | some .flicker => s
  | none => s

/-- The zone has ceased to be lit during a burst (R145). -/
def State.litLost (z : Fin 8) (s : State) : State :=
  let cz := s.czones[z]
  match cz.mode with
  | some .chimeFlicker => (s.writeCZone z { cz with mode := some .chime }).handFlicker z 0
  | some .flicker => s.countBurst z
  | some .chime => s
  | none => s

/-- The lighting unit announces each change of a call zone between lit and not lit; a zone that is no
longer lit acts on its burst (R125, R145). -/
def State.announceLit (s : State) : State :=
  forAll 8 (fun z s =>
    let now := s.litNow z
    let was := s.lit[z]
    let s1 := { s with lit := put s.lit z now }
    if was && !now then s1.litLost z else s1) s

/-- Derive the groups' force causes again and announce the lit changes (R115, R125). -/
def State.refreshLights (s : State) : State := s.refreshGroups.announceLit

/-! ## Losing deliveries -/

/-- Every unended delivery of the zone ends in state `st`, and the zone is free with an empty queue: a
bar (R149) or a zone made absent (R129). -/
def State.dropZone (z : Fin 8) (st : DeliveryState) (s : State) : State :=
  let cz := s.czones[z]
  let s1 := match cz.sounding with
    | some c => (s.stopBurst z).endDelivery c z st
    | none => s
  cz.queue.foldl (fun s c => (s.leaveQueue z c).endDelivery c z st) s1

/-- The zones of a call's deliveries that are in a burst. -/
def State.soundingZones (s : State) (cs : List (Fin 32)) : List (Fin 8) :=
  (List.finRange 8).filter fun z =>
    match s.czones[z].sounding with
    | some c => cs.contains c
    | none => false

/-- One unended delivery of a call is taken out of its zone: a burst stopped uncounted, or a place in
the queue left. -/
def State.withdraw (c : Fin 32) (z : Fin 8) (s : State) : State :=
  if s.czones[z].sounding = some c then s.stopBurst z else s.leaveQueue z c

/-- A call notice for auditorium `a`: every unended delivery of its ACTIVE AUDIENCE calls ends in
state `st`, the calls finish, and the zones left free look again (R150, R151). -/
def State.callNotice (a : Fin 3) (st : DeliveryState) (s : State) : State :=
  let cs := s.callList.filter fun c =>
    match s.call? c with
    | some x => !x.finished && x.purpose == .audience && x.aud == some a
    | none => false
  let freed := s.soundingZones cs
  let s1 := cs.foldl (fun s c =>
    ((s.call? c).map (·.deliveries)).getD [] |>.foldl (fun s d =>
      if d.unended then (s.withdraw c d.zone).endDelivery c d.zone st else s) s) s
  freed.foldl (fun s z => s.arbitrate z) s1

/-- A slot of the call table is emptied and the call leaves the order; its issue stays (R133). -/
def State.emptyCall (c : Fin 32) (s : State) : State :=
  ({ s with
      calls := put s.calls c { s.calls[c] with call := none }
      callList := s.callList.erase c } : State).mark .call

/-- A call is retired: its burst stops uncounted, its deliveries leave their queues, its slot is
emptied, and the zones left free look again (R139). -/
def State.retireCallAt (c : Fin 32) (s : State) : State :=
  let freed := s.soundingZones [c]
  let s1 := ((s.call? c).map (·.deliveries)).getD [] |>.foldl (fun s d =>
    if d.unended then s.withdraw c d.zone else s) s
  freed.foldl (fun s z => s.arbitrate z) (s1.emptyCall c)

/-! ## Suppression and barring (R146..R149) -/

/-- An open STAFF incident comes from a zone that lists the call zone (R146). -/
def State.suppressedNow (s : State) (z : Fin 8) : Bool :=
  s.openIncidents.any fun x =>
    x.stage == .staff &&
      match x.source with
      | .zone zn => s.settings.zones[zn].callZones.getLsbD z.1
      | .station _ => false

/-- An open GENERAL incident concerns an auditorium the zone serves (R149). -/
def State.barredNow (s : State) (z : Fin 8) : Bool := meets s.generalSet s.settings.czones[z].serves

/-- Suppression begins: a burst is stopped uncounted and its delivery stands first among its priority
(R147). DEDUCED (log entry 38): a delivery that an earlier suppression cut, and that has not sounded since, keeps
its resumes too. -/
def State.suppress (z : Fin 8) (s : State) : State :=
  let cz := s.czones[z]
  let s1 := s.writeCZone z { cz with suppressed := true }
  match cz.sounding with
  | none => s1
  | some c =>
      ((s1.stopBurst z).editDelivery c z fun d => { d with state := .waiting, resumes := true }).joinQueue z c

/-- The bar begins: every unended delivery of the zone is ABANDONED (R149). -/
def State.bar (z : Fin 8) (s : State) : State :=
  let cz := s.czones[z]
  (s.writeCZone z { cz with barred := true }).dropZone z .abandoned

/-- Derive barred and suppressed of one zone: the bar is applied first (R148), and the arbiter looks
where a bar has lifted or a suppression ended (R140). -/
def State.deriveSilence (z : Fin 8) (s : State) : State :=
  if !s.settings.czones[z].present then s
  else
    let cz := s.czones[z]
    let b := s.barredNow z
    let p := s.suppressedNow z
    let s1 :=
      if b && !cz.barred then s.bar z
      else if !b && cz.barred then s.writeCZone z { cz with barred := false } else s
    let cz1 := s1.czones[z]
    let s2 :=
      if p && !cz.suppressed then s1.suppress z
      else if !p && cz.suppressed then s1.writeCZone z { cz1 with suppressed := false } else s1
    if (cz.barred && !b) || (cz.suppressed && !p) then s2.arbitrate z else s2

/-- Derive barred and suppressed of every present zone, at an announcement of the alarm unit (R146,
R149). -/
def State.deriveSilences (s : State) : State := forAll 8 State.deriveSilence s

/-! ## Raising and amending a call -/

/-- The delivery of a new call in a zone (R136). -/
def newDelivery (now bursts : Nat) (z : Fin 8) : Delivery where
  zone := z
  state := .waiting
  notBefore := now
  lastStart := none
  burstsLeft := bursts
  degraded := false
  resumes := false

/-- The oldest FINISHED call of the table (R136). -/
def State.oldestFinished (s : State) : Option (Fin 32) :=
  s.callList.find? fun c => ((s.call? c).map (·.finished)).getD false

/-- The lowest-numbered empty slot of the call table (R133). -/
def State.freeCallSlot (s : State) : Option (Fin 32) := firstIx 32 fun c => (s.call? c).isNone

/-- A new call fills slot `c`; its deliveries join their queues and the arbiters look (R133, R136). -/
def State.fillCall (c : Fin 32) (x : Call) (s : State) : State :=
  let s1 := ({ s with
      calls := put s.calls c { issue := nextIssue s.calls[c].issue, call := some x }
      callList := s.callList.erase c ++ [c] } : State).mark .call
  let zs := x.deliveries.map (·.zone)
  zs.foldl (fun s z => s.arbitrate z) (zs.foldl (fun s z => s.joinQueue z c) s1)

/-- Room for a new call: an empty slot, or that of the oldest FINISHED call, which leaves the table
(R136). None where there is neither (R135). -/
def State.roomForCall (s : State) : Option (Fin 32 × State) :=
  match s.freeCallSlot with
  | some c => some (c, s)
  | none => s.oldestFinished.map fun c => (c, s.emptyCall c)

/-- A WAITING delivery with a counted burst takes its not before from a new burst interval (R138). -/
def Delivery.retimed (interval : Option Nat) (d : Delivery) : Delivery :=
  match d.state, d.lastStart, interval with
  | .waiting, some t, some iv => { d with notBefore := t + tenths iv }
  | _, _, _ => d

/-- A call's priority and burst interval are amended: its WAITING deliveries take their new places and
not-before times, and the arbiter looks in each zone in which one has moved in the queue or has a new not before
that has passed (R138; log entry 39). A change of any live field marks CALL, a not before among them: it is the
passing of one alone that marks nothing (R133). -/
def State.amendCallAt (c : Fin 32) (priority interval : Option Nat) (s : State) : State :=
  match s.call? c with
  | none => s
  | some x =>
      let y := { x with
        priority := priority.getD x.priority
        interval := interval.getD x.interval
        deliveries := x.deliveries.map (Delivery.retimed interval) }
      let waiting := y.deliveries.filter (·.state == .waiting)
      let s1 := (s.writeCall c y).markIf (x != y) .call
      let s2 := if priority.isSome then waiting.foldl (fun s d => s.joinQueue d.zone c) s1 else s1
      let looks (d : Delivery) : Bool :=
        s2.czones[d.zone].queue != s.czones[d.zone].queue ||
          (interval.isSome && d.lastStart.isSome && d.notBefore ≤ s.now)
      (waiting.filter looks).foldl (fun s d => s.arbitrate d.zone) s2

/-! ## Events of a burst -/

/-- A queued delivery's not before passes: the zone's arbiter looks (R140). -/
def State.notBeforePasses (c : Fin 32) (z : Fin 8) (s : State) : State :=
  match s.delivery? c z with
  | none => s
  | some d => if d.state = .waiting then (s.reach d.notBefore).arbitrate z else s

/-- Stroke on has run: the chime demand is written off for the stroke gap (R142). -/
def State.strokeOnRuns (z : Fin 8) (s : State) : State :=
  let cz := s.czones[z]
  match cz.strokeEnd with
  | none => s
  | some t =>
      let s1 := s.reach t
      (s1.writeCZone z { cz with strokeEnd := none, gapEnd := some (s1.now + cz.strokeGap) }).demand
        (chimeOf z) false .continuous

/-- A stroke gap that is not the last ends and the next stroke begins (R142). -/
def State.strokeGapRuns (z : Fin 8) (s : State) : State :=
  let cz := s.czones[z]
  match cz.gapEnd with
  | none => s
  | some t => if cz.strokesSounded < cz.strokes then (s.reach t).beginStroke z else s

/-- A burst reaches the end of its length (R143). -/
def State.burstRuns (z : Fin 8) (s : State) : State :=
  match s.czones[z].burstEnd with
  | none => s
  | some t => (s.reach t).countBurst z

end Sys2Proof.Machine
end

