-- ==== Sys2Proof/Machine/Holds.lean ====
section
/-!
DEFINITION. The hold list of each performance (01, R20..R28): raising and removing holds, and the four
automatic holds.
-/

namespace Sys2Proof.Machine

/-- The fixed slot of an automatic hold: IRON 5, FIRE 6, SUPPLY 7, SYSTEM 8 (R20). -/
def holdSlot : HoldCause → Fin 8
  | .station => 0
  | .iron => 4
  | .fire => 5
  | .supply => 6
  | .system => 7

/-- A present zone that holds auditorium `a` and is in FAULT or UNSTABLE (R27). -/
def State.zoneHolds (s : State) (a : Fin 3) (z : Fin 24) : Bool :=
  let cfg := s.settings.zones[z]
  cfg.present && has cfg.auds a &&
    (s.zones[z].condition == .fault || s.zones[z].condition == .unstable)

/-- An alarm circuit, 1..6, that serves auditorium `a` and is not SOUND (R27). -/
def State.circuitHolds (s : State) (a : Fin 3) (c : Fin 16) : Bool :=
  c.1 < 6 && has s.settings.circuits[c].serves a && s.circuits[c].condition != .sound

/-- The reason the oldest open incident that concerns `a` gives the FIRE hold (R25). -/
def State.fireReason (s : State) (a : Fin 3) : Option HoldReason :=
  (s.openIncidents.find? fun x => has x.auds a).map fun x =>
    match x.source with
    | .zone z => .zone z
    | .station st => .stationIncident st

/-- The reason the SYSTEM hold would have: the lowest zone, then the lowest circuit, then the link
(R27). -/
def State.systemReason (s : State) (a : Fin 3) : Option HoldReason :=
  match firstIx 24 (s.zoneHolds a) with
  | some z => some (.zone z)
  | none =>
      match firstIx 16 (s.circuitHolds a) with
      | some c => some (.circuit c)
      | none => if s.link.degraded then some .link else none

/-- iron_proved is NOT_YET or FAILED. -/
def unproved (p : IronProved) : Bool := p == .notYet || p == .failed

/-- Whether the condition of an automatic hold is true, and the reason it gives (R24..R27). -/
def State.holdReason (s : State) (a : Fin 3) : HoldCause → Option HoldReason
  | .station => none
  | .iron =>
      match (if s.settings.irons[a].present then s.irons[a].fault else none) with
      | some f => some (.ironFault f)
      | none => if unproved s.perfs[a].ironProved then some .proof else none
  | .fire => s.fireReason a
  | .supply =>
      if s.supply.mains != .present then some .mains
      else if s.supply.safetyLow then some .safety else none
  | .system => s.systemReason a

/-- A hold is raised in a slot: the issue rises and it joins the end of the list (R20). -/
def State.fillHold (a : Fin 3) (k : Fin 8) (h : Hold) (s : State) : State :=
  let slot : HoldSlot := { issue := nextIssue s.holds[a][k].issue, hold := some h }
  ({ s with
      holds := put s.holds a (put s.holds[a] k slot)
      holdLists := put s.holdLists a (s.holdLists[a].erase k ++ [k]) } : State).mark .hold

/-- A hold is retired or removed: its slot is empty, keeps its issue, and it leaves the list (R20). -/
def State.emptyHold (a : Fin 3) (k : Fin 8) (s : State) : State :=
  let slot : HoldSlot := { s.holds[a][k] with hold := none }
  ({ s with
      holds := put s.holds a (put s.holds[a] k slot)
      holdLists := put s.holdLists a (s.holdLists[a].erase k) } : State).mark .hold

/-- Evaluate one automatic hold of one performance: raised where its condition has become true,
removed where it has become false, left as it is otherwise (R23). -/
def State.evalHold (c : HoldCause) (a : Fin 3) (s : State) : State :=
  if s.phase a = .dark then s
  else
    match s.holdReason a c, s.hold? a (holdSlot c) with
    | some r, none => s.fillHold a (holdSlot c) { origin := none, cause := c, reason := r }
    | none, some _ => s.emptyHold a (holdSlot c)
    | some _, some _ => s
    | none, none => s

/-- An announcement: the hold is evaluated for every performance that is not DARK (R23). -/
def State.evalHolds (c : HoldCause) (s : State) : State := forAll 3 (State.evalHold c) s

/-- The four automatic holds of one performance, in slot order (R7, R29). -/
def State.evalAllHolds (a : Fin 3) (s : State) : State :=
  (((s.evalHold .iron a).evalHold .fire a).evalHold .supply a).evalHold .system a

/-- Entry to DARK empties the hold list (R17). -/
def State.clearHolds (a : Fin 3) (s : State) : State :=
  forAll 8 (fun k s => if (s.hold? a k).isSome then s.emptyHold a k else s) s

/-- The performance holds something. -/
def State.held (s : State) (a : Fin 3) : Bool := s.holdLists[a] != []

/-- The oldest hold's slot (R28). -/
def State.oldestHold (s : State) (a : Fin 3) : Option (Fin 8) := s.holdLists[a].head?

/-- The HOLD index of slot `k` of performance `a`: A 1..8, B 9..16, C 17..24 (R20). -/
def holdIndex (a : Fin 3) (k : Fin 8) : Nat := a.1 * 8 + k.1 + 1

/-- The performance and slot a HOLD entry names (R20). -/
def holdAt (i : Fin 24) : Fin 3 × Fin 8 := (⟨i.1 / 8, by omega⟩, ⟨i.1 % 8, by omega⟩)

/-- The lowest-numbered empty station slot, 1..4 (R21). -/
def State.freeStationSlot (s : State) (a : Fin 3) : Option (Fin 8) :=
  firstIx 8 fun k => k.1 < 4 && (s.hold? a k).isNone

/-- A performance's PERF fields change and its IRON hold is evaluated if iron_proved changed (R24). -/
def State.setProved (a : Fin 3) (p : IronProved) (s : State) : State :=
  let old := s.perfs[a]
  if old.ironProved = p then s
  else (s.writePerf a { old with ironProved := p }).evalHold .iron a

end Sys2Proof.Machine
end

