-- ==== Sys2Proof/Machine/Supervisor.lean ====
section
/-!
DEFINITION. The circuit supervisor's events and what it announces (07, R157..R164).
-/

namespace Sys2Proof.Machine

/-- A change of a circuit's condition is announced: for circuits 1..6 to the performance unit, for a
chime circuit that leaves SOUND to the call unit (R164, R144). -/
def State.announceCondition (c : Fin 16) (old : CircuitCondition) (s : State) : State :=
  let new := s.circuits[c].condition
  if old = new then s
  else if c.1 < 6 then s.evalHolds .system
  else
    match zoneOfChime c with
    | some z => if old = .sound then s.chimeLost z else s
    | none => s

/-- Change a circuit and announce the change of its condition. -/
def State.changeCircuit (c : Fin 16) (x : Circuit) (s : State) : State :=
  (s.writeCircuit c x).announceCondition c s.circuits[c].condition

/-- The on or off part of the pattern ends (R157). -/
def State.patternRuns (c : Fin 16) (s : State) : State :=
  let x := s.circuits[c]
  match x.partEnd with
  | none => s
  | some t => if x.drive then let s1 := s.reach t; s1.writeCircuit c (x.partEnds s1.now) else s

/-- The test timer expires and starts again; the test is made if the circuit is undriven and SOUND or
OPEN (R158). -/
def State.testRuns (c : Fin 16) (loadSeen : Bool) (s : State) : State :=
  let x := s.circuits[c]
  let s1 := s.reach x.testAt
  s1.changeCircuit c { x.tested loadSeen with testAt := s1.now + Config.testMs }

/-- An overload event: judged only while the circuit is driven and its output switched on (R155, R156,
R159). -/
def State.overloads (c : Fin 16) (s : State) : State :=
  let x := s.circuits[c]
  if x.drive && x.switchedOn then s.changeCircuit c (x.trip s.now s.settings.circuits[c].retry) else s

/-- The retry timer of a circuit in OVERLOAD expires (R160). -/
def State.retryRuns (c : Fin 16) (s : State) : State :=
  let x := s.circuits[c]
  match x.retryAt with
  | none => s
  | some t => let s1 := s.reach t; s1.changeCircuit c (x.retryRun s1.now)

/-- The clean timer expires: SOUND with a count of 0 (R160). -/
def State.cleanRuns (c : Fin 16) (s : State) : State :=
  let x := s.circuits[c]
  match x.cleanAt with
  | none => s
  | some t => (s.reach t).changeCircuit c x.judgedClean

/-- The off timer expires: SOUND with a count of 0 (R161). -/
def State.offRuns (c : Fin 16) (s : State) : State :=
  let x := s.circuits[c]
  match x.offAt with
  | none => s
  | some t => (s.reach t).changeCircuit c x.judgedClean

end Sys2Proof.Machine
end

