-- ==== Sys2Proof/Machine/Performance.lean ====
section
/-!
DEFINITION. The performance unit (01, R5..R19): the phase transitions with their side effects, the
halt of a GENERAL announcement, and the handling of descent judgements.
-/

namespace Sys2Proof.Machine

/-- Which stations a transition takes: STAGE of the auditorium, FOH, or both (R5). -/
structure Admission where
  stage : Bool
  foh : Bool
  deriving DecidableEq, Repr

/-- The transitions a station may ask for, and who may (R7..R18). -/
def transition : Phase → Phase → Option Admission
  | .dark, .prepare => some ⟨true, true⟩
  | .prepare, .houseOpen => some ⟨false, true⟩
  | .houseOpen, .beginners => some ⟨true, false⟩
  | .interval, .beginners => some ⟨true, false⟩
  | .beginners, .running => some ⟨true, false⟩
  | .running, .interval => some ⟨true, false⟩
  | .running, .closing => some ⟨true, false⟩
  | .interval, .closing => some ⟨true, true⟩
  | .houseOpen, .halted => some ⟨true, true⟩
  | .beginners, .halted => some ⟨true, true⟩
  | .running, .halted => some ⟨true, true⟩
  | .interval, .halted => some ⟨true, true⟩
  | .halted, .beginners => some ⟨true, false⟩
  | .halted, .closing => some ⟨true, true⟩
  | .closing, .dark => some ⟨false, true⟩
  | .prepare, .dark => some ⟨true, true⟩
  | _, _ => none

/-- iron_proved at PREPARE and DARK entry: NOT_YET where the iron channel is present (R7, R17). -/
def State.freshProof (s : State) (a : Fin 3) : IronProved :=
  if s.settings.irons[a].present then .notYet else .notRequired

/-- A lighting response of a phase change: its target and fade time (R6). -/
structure Response where
  target : Nat
  fade : Nat
  deriving DecidableEq, Repr

/-- Apply a response if there is one. -/
def State.respondWith (a : Fin 3) (r : Option Response) (s : State) : State :=
  match r with
  | none => s
  | some r => s.respond a r.target r.fade

/-- A phase change with its effects: the record, the response as the group stood before, the force
causes, and the call notice (R6, R121). -/
def State.enterPhase (a : Fin 3) (p : Perf) (r : Option Response) (notice : Option DeliveryState)
    (s : State) : State :=
  let s1 := ((s.writePerf a p).respondWith a r).refreshLights
  match notice with
  | none => s1
  | some st => s1.callNotice a st

/-- DARK to PREPARE (R7). -/
def State.enterPrepare (a : Fin 3) (st : Fin 8) (s : State) : State :=
  (s.enterPhase a
    { phase := .prepare, act := 0, ironProved := s.freshProof a, interrupted := false, openedBy := some st }
    none none).evalAllHolds a

/-- PREPARE to HOUSE_OPEN (R8). -/
def State.enterHouseOpen (a : Fin 3) (s : State) : State :=
  let cfg := s.settings.perfs[a]
  s.enterPhase a { s.perfs[a] with phase := .houseOpen } (some ⟨cfg.presetLevel, cfg.presetFade⟩) none

/-- Entry to BEGINNERS; from HALTED interrupted becomes no (R9, R15). -/
def State.enterBeginners (a : Fin 3) (s : State) : State :=
  let p := s.perfs[a]
  s.enterPhase a
    { p with phase := .beginners, interrupted := if p.phase = .halted then false else p.interrupted }
    none none

/-- BEGINNERS to RUNNING (R10). -/
def State.enterRunning (a : Fin 3) (s : State) : State :=
  let p := s.perfs[a]
  s.enterPhase a { p with phase := .running, act := if p.act ≥ 15 then 15 else p.act + 1 }
    none (some .overtaken)

/-- RUNNING to INTERVAL (R11). -/
def State.enterInterval (a : Fin 3) (s : State) : State :=
  let cfg := s.settings.perfs[a]
  s.enterPhase a { s.perfs[a] with phase := .interval } (some ⟨cfg.presetLevel, cfg.presetFade⟩) none

/-- Entry to CLOSING; from HALTED interrupted becomes no (R12, R16). -/
def State.enterClosing (a : Fin 3) (s : State) : State :=
  let p := s.perfs[a]
  s.enterPhase a
    { p with phase := .closing, interrupted := if p.phase = .halted then false else p.interrupted }
    (some ⟨Config.fullLevel, s.settings.perfs[a].closingFade⟩) (some .abandoned)

/-- The record, response and notice of a halt, without the force causes (R13, R14): a halt does not
move a phase between DARK and any other. -/
def State.halt (a : Fin 3) (s : State) : State :=
  ((s.writePerf a { s.perfs[a] with phase := .halted }).respond a Config.fullLevel 0).callNotice a .abandoned

/-- Entry to DARK: the hold list is emptied (R17, R18). -/
def State.enterDark (a : Fin 3) (s : State) : State :=
  ((s.clearHolds a).enterPhase a
    { s.perfs[a] with
      phase := .dark, ironProved := s.freshProof a, interrupted := false, openedBy := none }
    (some ⟨0, s.settings.perfs[a].presetFade⟩) none)

/-- The four phases that a GENERAL announcement halts (R14). -/
def Phase.haltable : Phase → Bool
  | .houseOpen => true
  | .beginners => true
  | .running => true
  | .interval => true
  | _ => false

/-- A GENERAL announcement moves each performance it concerns to HALTED, each move with its response and its call
notice (R14). DESIGN CHOICE (log entry 36): where it moves more than one, they are moved in the order A, B, C. -/
def State.haltSet (set : AudSet) (s : State) : State :=
  forAll 3 (fun a s => if has set a && (s.phase a).haltable then s.halt a else s) s

/-- The circumstances of a proof drop (R19). -/
def Perf.proofDrop (p : Perf) : Bool :=
  match p.phase with
  | .prepare => true
  | .halted => unproved p.ironProved
  | .beginners => unproved p.ironProved
  | _ => false

/-- The performance unit takes a descent judgement (R19): a PARTIAL descent changes nothing, and a
FULL one outside the circumstances of a proof drop changes nothing. -/
def State.takeJudgement (a : Fin 3) (kind : DescentKind) (passed : Bool) (s : State) : State :=
  match kind with
  | .part => s
  | .full =>
      if s.perfs[a].proofDrop then s.setProved a (if passed then .proved else .failed) else s

end Sys2Proof.Machine
end

