-- ==== Sys2Proof/Machine/Curtain.lean ====
section
/-!
DEFINITION. The curtain unit (02): faults, releases, raises, position counting, samples, descent
supervision and judgement.
-/

namespace Sys2Proof.Machine

/-- The channel STOPPED: RAISE off, HOLD on, the rest travel from 0 (R45, R46, R48). -/
def Iron.stopRaise (why : Option StopCause) (x : Iron) : Iron :=
  { x with motion := .stopped, stop := why, restTravel := 0, sawCreep := false }

/-- The fault code written: the first stays, a later one sets further faults, and a descent in progress
keeps its own first fault (R36). -/
def Iron.noteFault (f : IronFault) (x : Iron) : Iron :=
  { x with
    fault := some (x.fault.getD f)
    further := x.further || x.fault.isSome
    firstFault :=
      if x.motion = .descending then some (x.firstFault.getD f) else x.firstFault }

/-- A check finds a fault: it is recorded, and the performance unit is told of a first one (R36). -/
def State.recordFault (ch : Fin 3) (f : IronFault) (s : State) : State :=
  let x := s.irons[ch]
  let s1 := s.writeIron ch (x.noteFault f)
  if x.fault.isSome then s1 else s1.evalHolds .iron

/-- A fault found during a raise by a check other than the limit OUT reload stops it (R47). -/
def State.faultInMotion (ch : Fin 3) (f : IronFault) (s : State) : State :=
  let s1 := s.recordFault ch f
  let x := s1.irons[ch]
  if x.motion = .raising then
    s1.writeIron ch (x.stopRaise (if f = .raiseTimeout then some .timeout else none))
  else s1

/-- A release: the channel falls, FULL from OUT and PARTIAL from RAISING or STOPPED; in DESCENDING and
IN it changes nothing (R40). -/
def Iron.release (why : ReleaseReason) (x : Iron) : Iron :=
  let fall (k : DescentKind) : Iron :=
    { x with
      motion := .descending, kind := some k, reason := some why, demandOut := false, stop := none,
      sub := some .free, firstFault := none, descentTimer := 0, still := 0, finalTimer := none,
      crossing := none, sawOverspeed := false, sawStall := false, sawTooSlow := false }
  match x.motion with
  | .atOut => fall .full
  | .raising => fall .part
  | .stopped => fall .part
  | .descending => x
  | .atIn => x

/-- Release a channel (R40). -/
def State.release (ch : Fin 3) (why : ReleaseReason) (s : State) : State :=
  s.writeIron ch (s.irons[ch].release why)

/-- A raise begins (R43). -/
def Iron.beginRaise (now : Nat) (x : Iron) : Iron :=
  { x with
    motion := .raising, demandOut := true, stop := none, sub := none, firstFault := none,
    raiseStart := now, raiseTravel := 0, raiseTop := 0 }

/-- The incident comes from a zone whose stage house setting is yes (R42). -/
def State.fromStageHouse (s : State) (x : Incident) : Bool :=
  match x.source with
  | .zone z => s.settings.zones[z].stageHouse
  | .station _ => false

/-- The fire release of an announced incident: a RAISING channel it concerns is released, an OUT or
STOPPED one if the source is a stage house zone or the stage is GENERAL (R42, R47). -/
def State.fireRelease (inc : Incident) (s : State) : State :=
  forAll 3 (fun ch s =>
    if s.settings.irons[ch].present && has inc.auds ch then
      match s.irons[ch].motion with
      | .raising => s.release ch .fire
      | .atOut => if s.fromStageHouse inc || inc.stage == .general then s.release ch .fire else s
      | .stopped => if s.fromStageHouse inc || inc.stage == .general then s.release ch .fire else s
      | .atIn => s
      | .descending => s
    else s) s

/-- Mains LOST stops every raise, with no fault (R48). -/
def State.stopRaises (s : State) : State :=
  forAll 3 (fun ch s =>
    if s.irons[ch].motion = .raising then s.writeIron ch (s.irons[ch].stopRaise (some .supply)) else s) s

/-! ## Position (R49..R52) -/

/-- The drift check: a referenced channel whose position is off by more than the tolerance (R50). -/
def Iron.drifted (tol at_ : Nat) (x : Iron) : Bool :=
  x.referenced && (tol < x.position - at_ || tol < at_ - x.position)

/-- The position is loaded with `at_` and referenced becomes yes (R50, R51). -/
def Iron.load (at_ : Nat) (x : Iron) : Iron := { x with position := at_, referenced := true }

/-- A reload of the position, preceded by its drift check (R50, R51). `stops`: a DRIFT found during a
raise stops it, which the limit OUT reload does not (R44, R47). -/
def State.reload (ch : Fin 3) (at_ : Nat) (stops : Bool) (s : State) : State :=
  let x := s.irons[ch]
  let s1 :=
    if x.drifted s.settings.irons[ch].driftTol at_ then
      (if stops then s.faultInMotion ch .drift else s.recordFault ch .drift)
    else s
  s1.writeIron ch (s1.irons[ch].load at_)

/-- The totals that a count adds to: sample movement, raise travel and its highest value, rest travel
(R49). -/
def Iron.tally (up : Bool) (x : Iron) : Iron :=
  let d : Int := if up then 1 else -1
  let raising := x.motion == .raising
  let resting := x.motion == .atOut || x.motion == .stopped
  { x with
    sampleMove := x.sampleMove + 1
    raiseTravel := if raising then x.raiseTravel + d else x.raiseTravel
    raiseTop := if raising then max x.raiseTop (x.raiseTravel + d) else x.raiseTop
    restTravel := if resting then x.restTravel + d else x.restTravel }

/-- The count is one that the position cannot follow (R49). -/
def Iron.saturates (up : Bool) (x : Iron) : Bool :=
  if up then x.position ≥ 65535 else x.position = 0

/-- The position after a count (R49). -/
def Iron.count (up : Bool) (x : Iron) : Iron :=
  { x with position := if up then min 65535 (x.position + 1) else x.position - 1 }

/-- One encoder count of a present channel: position and totals, then saturation, direction and creep
in that order (R46, R49, R52). DEDUCED order (log entry 19). -/
def State.countEncoder (ch : Fin 3) (up : Bool) (s : State) : State :=
  if !s.settings.irons[ch].present then s
  else
    let x := s.irons[ch]
    let tol : Int := s.settings.irons[ch].driftTol
    let s1 := s.writeIron ch ((x.tally up).count up)
    let s2 := if x.saturates up then s1.faultInMotion ch .drift else s1
    let y := s2.irons[ch]
    if y.motion = .raising ∧ y.raiseTravel + tol < y.raiseTop then s2.faultInMotion ch .direction
    else if (x.motion = .atOut ∨ x.motion = .stopped) ∧ y.restTravel + tol < 0 ∧ y.sawCreep = false then
      (s2.writeIron ch { y with sawCreep := true }).recordFault ch .drift
    else s2

/-- An index event (R50). -/
def State.indexSeen (ch : Fin 3) (s : State) : State :=
  if !s.settings.irons[ch].present then s
  else s.reload ch s.settings.irons[ch].indexPos true

/-- The channel enters IN with all outputs off (R51, R58). -/
def Iron.enterIn (x : Iron) : Iron :=
  { x with motion := .atIn, sub := none, stop := none, finalTimer := none }

/-- The judgement of a descent that has arrived: its result, and whether CHECK_FAILURE is recorded
(R59). -/
def Iron.judge (cfg : IronSettings) (x : Iron) : DescentResult × Bool :=
  if x.kind != some .full then (.partialEnd, false)
  else if x.td < cfg.descentMin then (.tooFast, true)
  else if x.tf < cfg.finalMin then (.tooFast, true)
  else match x.firstFault with
    | some .stall => (.stall, false)
    | some .overspeed => (.overspeed, false)
    | some .tooSlow => (.tooSlow, false)
    | some _ => (.drift, false)
    | none => (.pass, false)

/-- A descent ends at IN: Td is the descent timer and Tf what it has run since the crossing (R58). -/
def Iron.landed (x : Iron) : Iron :=
  { x.enterIn with
    td := x.descentTimer
    tf := match x.crossing with
      | some t => x.descentTimer - t
      | none => 0 }

/-- The result of a descent is written, and CHECK_FAILURE among its faults where it was recorded (R59).
-/
def Iron.judged (result : DescentResult) (failed : Bool) (y : Iron) : Iron :=
  { y with
    result := some result
    firstFault := if failed then some (y.firstFault.getD .checkFailure) else y.firstFault }

/-- The arrival of a descent: IN, Td and Tf written, the descent judged and handed to the performance
unit, PROOF_PASS in place of PASS in the circumstances of a proof drop (R58..R60). -/
def State.arrive (ch : Fin 3) (s : State) : State :=
  let x := s.irons[ch]
  let v := x.landed.judge s.settings.irons[ch]
  let s1 := s.writeIron ch x.landed
  let s2 := if v.2 then s1.recordFault ch .checkFailure else s1
  let result := if v.1 = .pass ∧ s2.perfs[ch].proofDrop then .proofPass else v.1
  let s3 := s2.writeIron ch (s2.irons[ch].judged result v.2)
  s3.takeJudgement ch (x.kind.getD .part) (v.1 == .pass)

/-- A limit IN event (R51): the arrival of a descent, an uncommanded fall in OUT and STOPPED, and
otherwise a reload. -/
def State.limitInMade (ch : Fin 3) (s : State) : State :=
  if !s.settings.irons[ch].present then s
  else
    let x := s.irons[ch]
    let s1 := s.reload ch 0 true
    let uncommanded : State :=
      let s2 := if x.drifted s.settings.irons[ch].driftTol 0 then s1 else s1.recordFault ch .drift
      s2.writeIron ch s2.irons[ch].enterIn
    match x.motion with
    | .descending => s1.arrive ch
    | .atOut => uncommanded
    | .stopped => uncommanded
    | .raising => s1
    | .atIn => s1

/-- A limit OUT event (R51): the arrival of a raise at OUT, whatever its reload finds (R44), and
otherwise a reload. -/
def State.limitOutMade (ch : Fin 3) (s : State) : State :=
  if !s.settings.irons[ch].present then s
  else
    let s1 := s.reload ch s.settings.irons[ch].travel false
    let y := s1.irons[ch]
    if y.motion = .raising then
      s1.writeIron ch { y with motion := .atOut, restTravel := 0, sawCreep := false }
    else s1

/-- The local release is pressed: one event, which releases a held channel (R31, R41). -/
def State.pressRelease (ch : Fin 3) (s : State) : State :=
  let s1 := { s with lines := { s.lines with pressed := s.lines.pressed ||| single 3 ch.1 } }
  if !s.settings.irons[ch].present || s.irons[ch].pressed then s1
  else s1.writeIron ch { s1.irons[ch].release .localRelease with pressed := true }

/-- The local release is seen released (R41). -/
def State.letGoRelease (ch : Fin 3) (s : State) : State :=
  let s1 := { s with lines := { s.lines with pressed := s.lines.pressed &&& ~~~single 3 ch.1 } }
  if !s.settings.irons[ch].present then s1
  else s1.writeIron ch { s1.irons[ch] with pressed := false }

/-! ## Samples (R53..R57) -/

/-- The timers of a descent at a sample: the descent timer, and the final timer once CHECKED, have
risen by one tenth (R53). -/
def Iron.advance (x : Iron) : Iron :=
  { x with
    descentTimer := min 65535 (x.descentTimer + 1)
    finalTimer := x.finalTimer.map fun t => min 65535 (t + 1)
    still := if x.sampleMove = 0 then x.still + 1 else 0 }

/-- The channel takes the first sample of its descent as the crossing: one that is unreferenced (R54), and one in
the descent of a cold start, whatever has referenced it since (R62). -/
def Iron.crossesFirst (x : Iron) : Bool := !x.referenced || x.reason == some .restart

/-- The sample finds the slowdown crossing: the first one, FREE, at or below the slowdown point, or the first of a
descent that does not wait for it (R54, R62). -/
def Iron.crosses (cfg : IronSettings) (x : Iron) : Bool :=
  x.sub == some .free && (x.position ≤ cfg.slowdown || (x.crossesFirst && x.descentTimer ≤ 1))

/-- The sub-phase becomes CHECKED and the final timer starts (R54). -/
def Iron.cross (x : Iron) : Iron :=
  { x with sub := some .checked, finalTimer := some 0, crossing := some x.descentTimer }

/-- The check of R55 finds OVERSPEED: after the crossing sample, once in a descent. -/
def Iron.overspeeds (cfg : IronSettings) (x : Iron) : Bool :=
  x.sub == some .checked && cfg.vFinalMax < x.sampleMove && !x.sawOverspeed

/-- The check of R56 finds STALL, once in a descent. -/
def Iron.stalls (cfg : IronSettings) (x : Iron) : Bool := cfg.stallTime ≤ x.still && !x.sawStall

/-- The check of R57 finds TOO_SLOW, in a FULL descent, once. -/
def Iron.tooLate (cfg : IronSettings) (x : Iron) : Bool :=
  x.kind == some .full && cfg.descentMax ≤ x.descentTimer && !x.sawTooSlow

/-- The descent checks of one sample, in the order of their rules (R54..R57; log entry 19). -/
def State.superviseDescent (ch : Fin 3) (s : State) : State :=
  let cfg := s.settings.irons[ch]
  let x := s.irons[ch].advance
  let crossed := x.crosses cfg
  let s1 := s.writeIron ch (if crossed then x.cross else x)
  let s2 :=
    if !crossed && x.overspeeds cfg then
      (s1.writeIron ch { s1.irons[ch] with sawOverspeed := true }).recordFault ch .overspeed
    else s1
  let s3 :=
    if x.stalls cfg then
      (s2.writeIron ch { s2.irons[ch] with sawStall := true }).recordFault ch .stall
    else s2
  if x.tooLate cfg then
    (s3.writeIron ch { s3.irons[ch] with sawTooSlow := true }).recordFault ch .tooSlow
  else s3

/-- The sample of a present channel (R53): supervision while DESCENDING, the IRON mark if the position
has changed since the last sample, and the movement counted from 0 again. DEDUCED (log entry 35): a position
that has changed and come back to its value between two samples has not moved, and marks nothing. -/
def State.sample (ch : Fin 3) (s : State) : State :=
  if !s.settings.irons[ch].present then s
  else
    let x := s.irons[ch]
    let t := max s.now (x.sampleAt + Config.sampleMs)
    let s1 : State := { s with now := t }
    let s2 := if x.motion = .descending then s1.superviseDescent ch else s1
    let y := s2.irons[ch]
    (s2.writeIron ch { y with sampleMove := 0, samplePos := y.position, sampleAt := t }).markIf
      (x.samplePos != x.position) .iron

/-- The sample at which the count of still samples reaches the stall time (R56; log entry 7). -/
def State.stallSample (ch : Fin 3) (s : State) : State :=
  let x := s.irons[ch]
  if x.motion = .descending ∧ x.advance.stalls s.settings.irons[ch] then s.sample ch else s

/-- The sample at which the descent timer of a FULL descent reaches t_descent_max (R57; log entry 7). -/
def State.slowSample (ch : Fin 3) (s : State) : State :=
  let x := s.irons[ch]
  if x.motion = .descending ∧ x.advance.tooLate s.settings.irons[ch] then s.sample ch else s

/-- The raise timer reaches t_raise_max while the channel is RAISING (R45). -/
def State.raiseTimesOut (ch : Fin 3) (s : State) : State :=
  let x := s.irons[ch]
  if x.motion = .raising then
    (s.reach (x.raiseStart + tenths s.settings.irons[ch].raiseMax)).faultInMotion ch .raiseTimeout
  else s

/-- A recorded fault is cleared in IN and the performance unit is told (R61). -/
def State.clearIronFault (ch : Fin 3) (s : State) : State :=
  let x := s.irons[ch]
  if x.fault.isSome then (s.writeIron ch { x with fault := none, further := false }).evalHolds .iron else s

/-- The state a start gives a present channel from its limit IN and release inputs (R62). -/
def Iron.atStart (cfg : IronSettings) (limitIn pressed : Bool) (now : Nat) : Iron :=
  let base := { Iron.absent with pressed := pressed, sampleAt := now }
  if limitIn then { base with referenced := true }
  else
    { base with
      motion := .descending, kind := some .part, sub := some .free, reason := some .restart,
      position := cfg.travel, samplePos := cfg.travel }

/-- The present setting of a channel has changed (R34). -/
def State.ironPresence (ch : Fin 3) (limitIn : Bool) (s : State) : State :=
  let cfg := s.settings.irons[ch]
  let x :=
    if cfg.present then Iron.atStart cfg limitIn (s.lines.pressed.getLsbD ch.1) s.now
    else { Iron.absent with sampleAt := s.now }
  ((s.writeIron ch x).markIf cfg.present .iron).evalHolds .iron

/-- A soft restart empties the last descent result, Td and Tf, and keeps the rest (R63). -/
def Iron.softRestart (x : Iron) : Iron := { x with result := none, td := 0, tf := 0 }

end Sys2Proof.Machine
end

