-- ==== Sys2Proof/Machine/Alarm.lean ====
section
/-!
DEFINITION. The alarm unit (04): incidents and their stages, the demands on the circuits, and the
announcements to the other blocks.
-/

namespace Sys2Proof.Machine

/-! ## Demands (R94..R96) -/

/-- The AUD circuits of a set of auditoria: AUD_A circuit 2, AUD_B circuit 3, AUD_C circuit 4 (R95). -/
def audCircuits (set : AudSet) : AlarmSet := set.zeroExtend 6 <<< 1

/-- The alarm circuits that an unsilenced GENERAL incident demands (R95). -/
def State.sounders (s : State) (x : Incident) : AlarmSet :=
  audCircuits x.auds |||
    match x.source with
    | .zone z => s.settings.zones[z].alarms
    | .station _ => single 6 4

/-- The alarm circuits demanded by at least one unsilenced GENERAL incident (R95). -/
def State.sounderSet (s : State) : AlarmSet :=
  (s.openIncidents.filter fun x => x.stage == .general && !x.silenced).foldl
    (fun set x => set ||| s.sounders x) 0

/-- Evaluate the six sounder demands (R95). -/
def State.demandSounders (s : State) : State :=
  let set := s.sounderSet
  forAll 6 (fun c s => s.demand (c.castLE (by decide)) (set.getLsbD c.1) .continuous) s

/-- The pattern of the staff alert demand; none for off (R94). -/
def State.alertPattern (s : State) : Option Pattern :=
  let staff := s.openIncidents.filter (·.stage == .staff)
  if staff = [] then none
  else if staff.any (·.ackBy.isNone) then some .fast else some .slow

/-- Evaluate the staff alert demand (R94). -/
def State.demandAlert (s : State) : State :=
  match s.alertPattern with
  | some p => s.demand staffAlert true p
  | none => s.demand staffAlert false .continuous

/-- Evaluate the brigade relay demand (R96). -/
def State.demandBrigade (s : State) : State :=
  s.demand brigadeRelay
    (s.settings.part.brigadeLink && s.openIncidents.any (·.stage == .general)) .continuous

/-- The three demands are evaluated again. -/
def State.demandAll (s : State) : State := s.demandAlert.demandSounders.demandBrigade

/-! ## Announcements -/

/-- `f` is done now if a free choice says so, and left for later if it says not. -/
def State.maybe (f : State → State) (s : State) : State := if s.choice then f s.drawn else s.drawn

/-- The lighting unit and the call unit take an announcement of the alarm unit. The order in which the
call unit hears of it and of the lit changes it causes is a free choice (log entry 6). -/
def State.lightsAndCalls (groupsDone : State) : State :=
  if groupsDone.choice then groupsDone.drawn.deriveSilences.announceLit
  else groupsDone.drawn.announceLit.deriveSilences

/-- The auditoria whose performances the announced incidents halt: those that a GENERAL one concerns
(R14). -/
def State.haltsOf (s : State) (ids : List (Fin 25)) : AudSet :=
  ids.foldl (fun set i =>
    match s.incident? i with
    | some x => if x.stage = .general then set ||| x.auds else set
    | none => set) 0

/-- Between the forces and the halts the call unit may have heard of the lit changes, of the incidents, of
both in either order, or of neither (log entry 33). -/
def State.maybeLightsAndCalls (s : State) : State :=
  ((s.maybe State.announceLit).maybe State.deriveSilences).maybe State.announceLit

/-- The alarm unit announces incidents raised, escalated or widened (04, "What the alarm unit
announces"): FIRE holds, halts and forces in a free order (R121; log entry 5), fire releases,
suppression and barring. The call notice of a halt comes before or after the bar and the lit changes: that
too is a free choice, since R151 says only which order is the usual one (log entry 33); what has been
heard is not acted on again. -/
def State.announceIncidents (ids : List (Fin 25)) (s : State) : State :=
  let set := (s.evalHolds .fire).haltsOf ids
  let s1 := (s.evalHolds .fire).maybe State.deriveSilences
  let s2 :=
    if s1.choice then s1.drawn.refreshGroups.maybeLightsAndCalls.haltSet set
    else ((s1.drawn.haltSet set).maybe State.deriveSilences).refreshGroups
  let s3 := ids.foldl (fun s i =>
    match s.incident? i with
    | some x => s.fireRelease x
    | none => s) s2
  s3.lightsAndCalls

/-- The detection unit is told that a zone's incident has been retired (R78). -/
def State.zoneRetired (z : Fin 24) (s : State) : State :=
  let x := s.zones[z]
  (s.writeZone z { x with
    incident := none
    detection :=
      if s.settings.zones[z].type = .callpoint ∧ x.detection = .alarm then .normal else x.detection }).mark
    .zone

/-! ## Raising, escalating, retiring -/

/-- The lowest-numbered empty slot of the incident list (R81). -/
def State.freeIncidentSlot (s : State) : Option (Fin 25) := firstIx 25 fun i => (s.incident? i).isNone

/-- An incident fills a slot: the issue rises and it joins the end of the list (R81). -/
def State.fillIncident (i : Fin 25) (x : Incident) (s : State) : State :=
  ({ s with
      incidents := put s.incidents i { issue := nextIssue s.incidents[i].issue, incident := some x }
      incidentList := s.incidentList.erase i ++ [i] } : State).mark .incident

/-- An incident's slot is emptied and it leaves the list; the issue stays (R81). -/
def State.emptyIncident (i : Fin 25) (s : State) : State :=
  ({ s with
      incidents := put s.incidents i { s.incidents[i] with incident := none }
      incidentList := s.incidentList.erase i } : State).mark .incident

/-- Escalation of a STAFF incident; one that is GENERAL is left (R89). -/
def Incident.escalate (why : EscalationCause) (x : Incident) : Incident :=
  if x.stage = .staff then { x with stage := .general, cause := some why, timerAt := none } else x

/-- Change an open incident. -/
def State.editIncident (i : Fin 25) (f : Incident → Incident) (s : State) : State :=
  match s.incident? i with
  | none => s
  | some x => s.writeIncident i (f x)

/-- A STAFF incident goes to GENERAL: demands evaluated, escalation announced (R89). -/
def State.escalateIncident (i : Fin 25) (why : EscalationCause) (s : State) : State :=
  ((s.editIncident i (Incident.escalate why)).demandAll).announceIncidents [i]

/-- No auditorium of the set is occupied (R85). -/
def State.unoccupied (s : State) (set : AudSet) : Bool :=
  !someIx 3 fun a => has set a && (s.phase a).occupied

/-- The open incidents that share an auditorium with the set (R86). -/
def State.sharing (s : State) (set : AudSet) : List (Fin 25) :=
  s.incidentList.filter fun i =>
    match s.incident? i with
    | some x => meets x.auds set
    | none => false

/-- The starting stage of a zone incident and its cause (R85, R86). -/
def State.startStage (s : State) (z : Fin 24) : Stage × Option EscalationCause :=
  let cfg := s.settings.zones[z]
  if cfg.directGeneral then (.general, some .direct)
  else if s.unoccupied cfg.auds then (.general, some .unoccupied)
  else if s.sharing cfg.auds != [] then (.general, some .secondZone)
  else (.staff, none)

/-- A new zone incident (R85): its acknowledge timer runs if it starts at STAFF (R90). -/
def State.newZoneIncident (s : State) (z : Fin 24) : Incident :=
  let (stage, why) := s.startStage z
  { source := .zone z, auds := s.settings.zones[z].auds, stage := stage, cause := why, ackBy := none,
    silenced := false, reactivations := 0, raisedAt := s.now,
    timerAt := if stage = .staff then some (s.now + tenths s.settings.part.ackTime) else none }

/-- A confirmed alarm raises an incident in slot `i`; the STAFF incidents it shares an auditorium with
escalate with it, as one event (R85, R86). -/
def State.raiseZoneIncident (z : Fin 24) (i : Fin 25) (s : State) : State :=
  let x := s.newZoneIncident z
  let shared := (s.sharing x.auds).filter fun j => ((s.incident? j).map (·.stage)) == some .staff
  let s1 := s.fillIncident i x
  let s2 := s1.writeZone z { s1.zones[z] with incident := some i }
  let s3 := shared.foldl (fun s j => s.editIncident j (Incident.escalate .secondZone)) s2
  s3.demandAll.announceIncidents (i :: shared)

/-- A zone confirms again while its incident is open (R98). -/
def State.reactivate (i : Fin 25) (s : State) : State :=
  (s.editIncident i fun x =>
    { x with
      reactivations := if x.reactivations ≥ 255 then 255 else x.reactivations + 1
      silenced := false }).demandAll.mark .incident

/-- The open station incident (R87). -/
def State.stationIncident (s : State) : Option (Fin 25) :=
  s.incidentList.find? fun i =>
    match s.incident? i with
    | some x => match x.source with
      | .station _ => true
      | .zone _ => false
    | none => false

/-- A station incident is raised in slot `i` (R87). -/
def State.raiseStationIncident (st : Fin 8) (set : AudSet) (i : Fin 25) (s : State) : State :=
  ((s.fillIncident i
    { source := .station st, auds := set, stage := .general, cause := some .station, ackBy := none,
      silenced := false, reactivations := 0, raisedAt := s.now, timerAt := none }).demandAll).announceIncidents
    [i]

/-- The open station incident is widened and unsilenced; it is announced if its set has grown (R88). -/
def State.widenIncident (i : Fin 25) (set : AudSet) (s : State) : State :=
  match s.incident? i with
  | none => s
  | some x =>
      let s1 := (s.writeIncident i { x with auds := x.auds ||| set, silenced := false }).demandAll
      if x.auds ||| set = x.auds then s1 else s1.announceIncidents [i]

/-- A retirement: the slot emptied, the demands evaluated, and the readers told (R101, R78). -/
def State.retireIncidentAt (i : Fin 25) (s : State) : State :=
  match s.incident? i with
  | none => s
  | some x =>
      let s1 := (s.emptyIncident i).demandAll
      let s2 := match x.source with
        | .zone z => s1.zoneRetired z
        | .station _ => s1
      ((s2.evalHolds .fire).refreshLights).deriveSilences

/-- The input of a zone incident still signals: its band is ACTIVE, or a CALLPOINT's is not NORMAL
(R100). -/
def State.stillSignals (s : State) (x : Incident) : Bool :=
  match x.source with
  | .zone z =>
      match s.settings.zones[z].type with
      | .callpoint => s.zones[z].band != .normal
      | .detector => s.zones[z].band == .active
      | .interface => s.zones[z].band == .active
  | .station _ => false

/-- The acknowledge timer of an unacknowledged STAFF incident expires (R90). -/
def State.ackRunsOut (i : Fin 25) (s : State) : State :=
  match s.incident? i with
  | none => s
  | some x =>
      match x.stage, x.ackBy, x.timerAt with
      | .staff, none, some t => (s.reach t).escalateIncident i .ackTimeout
      | _, _, _ => s

/-- The investigation timer of an acknowledged STAFF incident expires (R92). -/
def State.investigationRunsOut (i : Fin 25) (s : State) : State :=
  match s.incident? i with
  | none => s
  | some x =>
      match x.stage, x.ackBy, x.timerAt with
      | .staff, some _, some t => (s.reach t).escalateIncident i .investigationTimeout
      | _, _, _ => s

/-- A station acknowledges a STAFF incident that is not acknowledged (R91). -/
def State.acknowledgeIncident (i : Fin 25) (st : Fin 8) (s : State) : State :=
  (s.editIncident i fun x =>
    { x with ackBy := some st, timerAt := some (s.now + tenths s.settings.part.investTime) }).demandAlert

/-- A station silences a GENERAL incident (R97). -/
def State.silenceIncident (i : Fin 25) (s : State) : State :=
  (s.editIncident i fun x => { x with silenced := true }).demandSounders

end Sys2Proof.Machine
end

