-- ==== Sys2Proof/Machine/Zones.lean ====
section
/-!
DEFINITION. The detection unit (03): confirmation, transients and the noise counter, loop faults,
condition and isolation.
-/

namespace Sys2Proof.Machine

/-- OPEN and SHORT are fault bands (R74). -/
def faultBand (b : Band) : Bool := b == .openLoop || b == .short

/-- The condition that the three aspects give (R75). -/
def Zone.derived (x : Zone) : ZoneCondition :=
  if x.isolated then .isolated
  else if x.loopFault then .fault
  else if x.noise ≥ Config.noiseTop then .unstable
  else .sound

/-- Derive the condition again; a change is written and announced to the performance unit (R75). -/
def State.deriveCondition (z : Fin 24) (s : State) : State :=
  let x := s.zones[z]
  if x.condition = x.derived then s
  else (s.writeZone z { x with condition := x.derived }).evalHolds .system

/-- Confirmation starts: PENDING, the confirm timer from 0 (R68). -/
def Zone.startConfirm (now confirmTime : Nat) (x : Zone) : Zone :=
  { x with detection := .pending, confirmAt := some (now + tenths confirmTime) }

/-- A transient: NORMAL, and the noise counter one higher, with its quiet timer started below 32 and
stopped at 32 (R70, R72). -/
def Zone.transient (now : Nat) (x : Zone) : Zone :=
  let n := min Config.noiseTop (x.noise + 1)
  { x with
    detection := .normal, confirmAt := none, noise := n
    quietAt := if n < Config.noiseTop then some (now + Config.quietMs) else none }

/-- The confirmation mechanism at a band event (R68, R70, R71): `x` has the band it had, `b` is the new
one. -/
def Zone.confirmation (now : Nat) (cfg : ZoneSettings) (b : Band) (x : Zone) : Zone :=
  match x.detection with
  | .normal => if b = .active ∧ x.isolated = false then x.startConfirm now cfg.confirmTime else x
  | .pending => if b = .active then x else x.transient now
  | .alarm => if b = .active ∨ cfg.type = .callpoint then x else { x with detection := .normal }

/-- The loop timer at a band event (R74). -/
def Zone.loopTimer (now : Nat) (b : Band) (x : Zone) : Zone :=
  if x.loopFault then
    { x with loopAt := if b = .normal then some (now + Config.loopMs) else none }
  else if faultBand b then
    (if faultBand x.band then x else { x with loopAt := some (now + Config.loopMs) })
  else { x with loopAt := none }

/-- A band event of a zone (R64): the line is followed for every zone, and a present zone takes a change
of band. -/
def State.bandChanges (z : Fin 24) (b : Band) (s : State) : State :=
  let s1 := { s with lines := { s.lines with bands := put s.lines.bands z b } }
  let cfg := s.settings.zones[z]
  let x := s.zones[z]
  if !cfg.present || x.band == b then s1
  else
    let y := (x.confirmation s.now cfg b).loopTimer s.now b
    (s1.writeZone z { y with band := b }).deriveCondition z

/-- The confirm timer of a PENDING zone expires: ALARM, and the hand-over of R69. -/
def State.confirms (z : Fin 24) (s : State) : Host.Outcome State Fault Refusal :=
  let x := s.zones[z]
  match x.detection, x.confirmAt with
  | .pending, some t =>
      let s1 := (s.reach t).writeZone z { x with detection := .alarm, confirmAt := none }
      match x.incident, s.settings.zones[z].type with
      | none, _ =>
          match s1.freeIncidentSlot with
          | some i => .next (s1.raiseZoneIncident z i)
          | none => .fault .incidentListFull
      | some i, .detector => .next (s1.reactivate i)
      | some _, .callpoint => .next s1
      | some _, .interface => .next s1
  | _, _ => .next s

/-- The quiet timer reaches 10 minutes: the noise counter drops by 1 (R72). -/
def State.quietRuns (z : Fin 24) (s : State) : State :=
  let x := s.zones[z]
  match x.quietAt with
  | none => s
  | some t =>
      let s1 := s.reach t
      let n := x.noise - 1
      (s1.writeZone z { x with
        noise := n, quietAt := if n = 0 then none else some (s1.now + Config.quietMs) }).deriveCondition z

/-- The loop timer expires: the loop fault is set or cleared (R74). -/
def State.loopRuns (z : Fin 24) (s : State) : State :=
  let x := s.zones[z]
  match x.loopAt with
  | none => s
  | some t =>
      ((s.reach t).writeZone z { x with loopFault := !x.loopFault, loopAt := none }).deriveCondition z

/-- Reset noise: the counter to 0 and the quiet timer stopped (R73). -/
def Zone.resetNoise (x : Zone) : Zone := { x with noise := 0, quietAt := none }

/-- Isolate: a PENDING zone leaves confirmation without a transient (R76). -/
def Zone.isolate (x : Zone) : Zone :=
  { x with
    isolated := true, confirmAt := none
    detection := if x.detection = .pending then .normal else x.detection }

/-- Restore: an ACTIVE band starts confirmation as if it had just become ACTIVE (R76). -/
def Zone.restore (now confirmTime : Nat) (x : Zone) : Zone :=
  let y := { x with isolated := false }
  if y.band = .active ∧ y.detection = .normal then y.startConfirm now confirmTime else y

/-- The isolated field is amended; the value it has already changes nothing (R76). -/
def Zone.setIsolated (now confirmTime : Nat) (on : Bool) (x : Zone) : Zone :=
  if x.isolated = on then x else if on then x.isolate else x.restore now confirmTime

/-- A start reads the band of a present zone: ACTIVE starts confirmation, if the zone is not isolated,
and OPEN or SHORT starts the loop timer (R79, R80). -/
def Zone.readBand (now confirmTime : Nat) (b : Band) (x : Zone) : Zone :=
  let y := { x with band := b, loopAt := if faultBand b then some (now + Config.loopMs) else none }
  if b = .active ∧ y.isolated = false then y.startConfirm now confirmTime else y

/-- The set-up of a zone at a cold start or when it becomes present (R79, R66). -/
def Zone.atStart (now : Nat) (cfg : ZoneSettings) (b : Band) : Zone :=
  if cfg.present then Zone.cleared.readBand now cfg.confirmTime b else Zone.cleared

/-- The present setting of a zone has changed (R66). -/
def State.zonePresence (z : Fin 24) (s : State) : State :=
  let x := Zone.atStart s.now s.settings.zones[z] s.lines.bands[z]
  let old := s.zones[z].condition
  let s1 := (s.writeZone z x).mark .zone
  if old = x.condition then s1 else s1.evalHolds .system

/-- A soft restart of a present zone (R80): a PENDING spell ends without a transient and the band is read
again. -/
def Zone.softRestart (now : Nat) (cfg : ZoneSettings) (b : Band) (x : Zone) : Zone :=
  if cfg.present then
    let y : Zone :=
      { Zone.cleared with
        isolated := x.isolated, condition := if x.isolated then .isolated else .sound, incident := x.incident }
    y.readBand now cfg.confirmTime b
  else x

end Sys2Proof.Machine
end

