-- ==== Sys2Proof/Machine/Supply.lean ====
section
/-!
DEFINITION. The supply monitor (08, R168..R173): mains, safety supply and cell, with their timers,
the announcement of mains, and the retained copy written whole.
-/

namespace Sys2Proof.Machine

/-- A change of the mains state is announced: lights, raises, SUPPLY holds (R170). -/
def State.announceMains (s : State) : State :=
  let lit := s.refreshLights
  (if s.supply.mains = .lost then lit.stopRaises else lit).evalHolds .supply

/-- Write the mains state and announce it (R170). -/
def State.setMains (x : Supply) (s : State) : State := (s.writeSupply x).announceMains

/-- The mains sense line goes absent or reads present (R168, R169). A line that reads as it did is no
event. -/
def State.mainsLine (present : Bool) (s : State) : State :=
  if s.lines.mainsPresent = present then s
  else
    let s1 := { s with lines := { s.lines with mainsPresent := present } }
    let x := s.supply
    match x.mains, present with
    | .present, false => s1.writeSupply { x with lossAt := some (s.now + Config.lossMs) }
    | .present, true => s1.writeSupply { x with lossAt := none }
    | .lost, true => s1.setMains { x with mains := .settling, settlingAt := some (s.now + Config.settlingMs) }
    | .settling, false => s1.setMains { x with mains := .lost, settlingAt := none }
    | .lost, false => s1
    | .settling, true => s1

/-- The loss timer expires: mains is LOST (R168). -/
def State.lossRuns (s : State) : State :=
  match s.supply.lossAt with
  | none => s
  | some t => (s.reach t).setMains { s.supply with mains := .lost, lossAt := none }

/-- The settling timer expires: mains is PRESENT (R169). -/
def State.settlingRuns (s : State) : State :=
  match s.supply.settlingAt with
  | none => s
  | some t => (s.reach t).setMains { s.supply with mains := .present, settlingAt := none }

/-- The timer of a judged line: it runs while the line is against the judgement, for `toBad` or
`toGood` ms, and is stopped by any change back (R171, R172). -/
def judgeTimer (bad line : Bool) (now toBad toGood : Nat) : Option Nat :=
  if line = bad then none else some (now + if bad then toGood else toBad)

/-- The supply-low warning line changes (R171). -/
def State.supplyLine (asserted : Bool) (s : State) : State :=
  if s.lines.supplyLow = asserted then s
  else
    ({ s with lines := { s.lines with supplyLow := asserted } } : State).writeSupply
      { s.supply with
        safetyAt := judgeTimer s.supply.safetyLow asserted s.now Config.safetyLowMs Config.safetyGoodMs }

/-- The safety supply timer expires: LOW from GOOD, GOOD from LOW, announced (R171). -/
def State.safetyRuns (s : State) : State :=
  match s.supply.safetyAt with
  | none => s
  | some t =>
      ((s.reach t).writeSupply
        { s.supply with safetyLow := !s.supply.safetyLow, safetyAt := none }).evalHolds .supply

/-- The cell sense line changes (R172). -/
def State.cellLine (good : Bool) (s : State) : State :=
  if s.lines.cellGood = good then s
  else
    ({ s with lines := { s.lines with cellGood := good } } : State).writeSupply
      { s.supply with
        cellAt := judgeTimer s.supply.cellLow (!good) s.now Config.cellLowMs Config.cellGoodMs }

/-- The whole retained copy written from the three PERF records with a fresh check word (R172, R175). -/
def State.writeRetained (s : State) : State :=
  { s with retained :=
      { entries := tab fun a => ⟨s.perfs[a].phase, s.perfs[a].act, s.perfs[a].ironProved⟩
        checkGood := true } }

/-- The cell timer expires: LOW makes the copy invalid; GOOD has it rewritten whole and valid (R172). -/
def State.cellRuns (s : State) : State :=
  match s.supply.cellAt with
  | none => s
  | some t =>
      if s.supply.cellLow then
        (s.reach t).writeRetained.writeSupply
          { s.supply with cellLow := false, cellAt := none, retainedValid := true }
      else
        (s.reach t).writeSupply { s.supply with cellLow := true, cellAt := none, retainedValid := false }

end Sys2Proof.Machine
end

