-- ==== Sys2Proof/Machine/Start.lean ====
section
/-!
DEFINITION. The starts and the stop of the part (08, R174..R178, and each block's own rule): cold
start, soft restart, loss of power; and the completion of a STORE (R198).
-/

namespace Sys2Proof.Machine

/-! ## Cold start -/

/-- The image is loaded if its check word agrees, and otherwise the defaults (R199). The lock is
clear. -/
def State.loadSettings (s : State) : State :=
  if s.imageGood then
    { s with settings := s.image, store := { state := .loaded, changed := false, locked := false } }
  else
    { s with
      settings := Settings.defaults, store := { state := .defaults, changed := true, locked := false } }

/-- The supply fields from the sense lines, and the restart cause (R174, R175). -/
def startSupply (p : Plant) (copyValid fromPin : Bool) : Supply where
  mains := if p.mainsPresent then .settling else .lost
  safetyLow := p.supplyLow
  cellLow := !p.cellGood
  retainedValid := p.cellGood
  restartCause := if copyValid then (if fromPin then .resetPin else .coldStart) else .cellLost
  lossAt := none
  settlingAt := if p.mainsPresent then some Config.settlingMs else none
  safetyAt := none
  cellAt := none

/-- The phase a retained phase is restored as, before the corrections (R29). -/
def Phase.restored : Phase → Phase
  | .dark => .dark
  | .prepare => .prepare
  | .houseOpen => .halted
  | .beginners => .halted
  | .running => .halted
  | .interval => .halted
  | .closing => .closing
  | .halted => .halted

/-- iron_proved corrected against the channel's present setting (R29). -/
def IronProved.corrected (ironPresent : Bool) (p : IronProved) : IronProved :=
  if ironPresent then (if p = .notRequired then .notYet else p) else .notRequired

/-- A performance restored from its entry of a valid copy, or from none, with the four corrections
(R29). -/
def Perf.restored (present ironPresent defaults : Bool) (entry : Option RetainedEntry) : Perf :=
  let fresh : IronProved := if ironPresent then .notYet else .notRequired
  if defaults then
    { phase := .dark, act := 0, ironProved := fresh, interrupted := false, openedBy := none }
  else
    let phase := (entry.map (·.phase.restored)).getD .halted
    let proof := ((entry.map (·.ironProved)).getD fresh).corrected ironPresent
    { phase :=
        if present = false then .dark
        else if phase = .closing ∧ ironPresent = true ∧ proof ≠ .proved then .halted else phase
      act := (entry.map (·.act)).getD 0
      ironProved := proof
      interrupted := present && phase.occupied
      openedBy := none }

/-- The retained copy is valid: the cell sense reports good and the check word agrees (R175). -/
def State.copyValid (p : Plant) (s : State) : Bool :=
  p.cellGood && p.copyIntact && s.retained.checkGood

/-- A channel after a cold start (R62). -/
def startIron (cfg : IronSettings) (limitIn pressed : Bool) : Iron :=
  if cfg.present then Iron.atStart cfg limitIn pressed 0 else Iron.absent

/-- Every block but the lighting unit set up from the settings, the plant and the retained copy (R29,
R62, R79, R102, R153, R165, R175, R191). The waiting commands stay. -/
def State.setUp (p : Plant) (fromPin : Bool) (s : State) : State :=
  let valid := s.copyValid p
  let cfg := s.settings
  { s with
    powered := true, now := 0, fadeAt := 0
    perfs := tab fun a => Perf.restored cfg.perfs[a].present cfg.irons[a].present
      (s.store.state == .defaults) (if valid then some s.retained.entries[a] else none)
    holds := tab fun _ => tab fun _ => { issue := 0, hold := none }
    holdLists := tab fun _ => []
    irons := tab fun ch => startIron cfg.irons[ch] (p.limitIn.getLsbD ch.1) (p.pressed.getLsbD ch.1)
    zones := tab fun z => Zone.atStart 0 cfg.zones[z] p.bands[z]
    incidents := tab fun _ => { issue := 0, incident := none }
    incidentList := []
    calls := tab fun _ => { issue := 0, call := none }
    callList := []
    czones := tab fun _ => CallZone.idle
    circuits := tab fun c => (Circuit.cleared 0).tested (p.loads.getLsbD c.1)
    supply := startSupply p valid fromPin
    lines :=
      { mainsPresent := p.mainsPresent, supplyLow := p.supplyLow, cellGood := p.cellGood,
        bands := p.bands, pressed := p.pressed }
    link := { errors := 0, degraded := false, reply := none } }

/-- A group after a cold start, its output computed from its forces (R126). -/
def State.startGroup (s : State) (g : Fin 12) : LightGroup :=
  if s.settings.groups[g].present then s.relit g { LightGroup.dark with causes := s.causesOf g }
  else LightGroup.dark

/-- The lighting unit's start: every present group at level 0, its forces derived, and the lit state
announced as it stands (R126). -/
def State.startLights (s : State) : State :=
  let s1 := { s with flickers := tab fun _ => { code := 0, start := 0, dip := false } }
  let s2 := { s1 with groups := tab s1.startGroup }
  { s2 with lit := tab fun z => s2.litNow z }

/-- The automatic holds of every performance restored out of DARK (R29). -/
def State.startHolds (s : State) : State := forAll 3 State.evalAllHolds s

/-- A cold start (R174, R175). -/
def State.start (p : Plant) (fromPin : Bool) (s : State) : State :=
  ((s.loadSettings.setUp p fromPin).writeRetained.startLights).startHolds.flagAll

/-! ## Soft restart -/

/-- The call unit at a soft restart: bursts stopped uncounted, queues and table emptied, issues kept
(R154). -/
def State.dropCalls (s : State) : State :=
  let s1 := forAll 8 (fun z s =>
    let t := s.stopBurst z
    t.writeCZone z { t.czones[z] with queue := [], suppressed := false, barred := false }) s
  { s1 with calls := tab fun c => { s1.calls[c] with call := none }, callList := [] }

/-- A group at a soft restart: its fade stopped at the level it has reached (R127). -/
def LightGroup.stopFade (x : LightGroup) : LightGroup := { x with fading := false, target := x.level }

/-- The lighting unit at a soft restart (R127). -/
def State.restartLights (s : State) : State :=
  let s1 := { s with
    flickers := tab fun z => { s.flickers[z] with code := 0, dip := false }
    groups := tab fun g =>
      if s.settings.groups[g].present then s.groups[g].stopFade else s.groups[g] }
  let s2 := s1.refreshGroups
  { s2 with lit := tab fun z => s2.litNow z }

/-- The circuit supervisor at a soft restart: every circuit set as at a cold start and tested at once
(R166). -/
def State.restartCircuits (loads : BitVec 16) (s : State) : State :=
  forAll 16 (fun c s =>
    let t := s.changeCircuit c (Circuit.cleared s.now)
    t.changeCircuit c (t.circuits[c].tested (loads.getLsbD c.1))) s

/-- The detection unit at a soft restart (R80). -/
def State.restartZones (s : State) : State :=
  forAll 24 (fun z s =>
    let old := s.zones[z].condition
    let x := s.zones[z].softRestart s.now s.settings.zones[z] s.lines.bands[z]
    let t := s.writeZone z x
    if old = x.condition then t else t.evalHolds .system) s

/-- The curtain unit at a soft restart (R63). -/
def State.restartIrons (s : State) : State :=
  forAll 3 (fun ch s => s.writeIron ch s.irons[ch].softRestart) s

/-- Link degraded changes: STATUS is marked and the SYSTEM holds evaluated (R182). -/
def State.setDegraded (on : Bool) (s : State) : State :=
  if s.link.degraded = on then s
  else (({ s with link := { s.link with degraded := on } } : State).mark .status).evalHolds .system

/-- The link port at a soft restart (R192). -/
def State.restartLink (s : State) : State :=
  ({ s with link := { s.link with errors := 0 } } : State).setDegraded false

/-- A soft restart (R177 and each block's own rule). -/
def State.softRestart (loads : BitVec 16) (s : State) : State :=
  let s1 := s.dropCalls.restartLights
  let s2 := ((s1.restartCircuits loads).restartZones).restartIrons
  ((s2.writeSupply { s2.supply with restartCause := .softRestart }).restartLink).flagAll

/-! ## Loss of power, and the end of a STORE -/

/-- The part's own power fails: it takes no further events and its outputs, computed in Ops.lean, go
to their unpowered state (R178). A reply being sent is cut. -/
def State.failPower (s : State) : State :=
  { s with powered := false, link := { s.link with reply := none } }

/-- The write of the image completes (R198). -/
def State.storeCompletes (s : State) : State :=
  if s.store.state = .storing then
    ({ s with image := s.settings, imageGood := true } : State).writeStore
      { s.store with state := .stored, changed := false }
  else s

end Sys2Proof.Machine
end

