-- ==== Sys2Proof/Machine/Codes.lean ====
section
/-!
DEFINITION. The codes of the link (11, R200): what each enumerated value is written as in a frame, and
what a code in a request stands for.
-/

namespace Sys2Proof.Machine

/-- yes 1, no 0. -/
def yesNo (b : Bool) : Nat := if b then 1 else 0

/-- yes and no as a request writes them. -/
def yesNoOf (v : Nat) : Option Bool :=
  match v with
  | 0 => some false
  | 1 => some true
  | _ => none

/-- A value that may be absent, 0 for empty. -/
def orZero {α : Type} (code : α → Nat) (x : Option α) : Nat :=
  match x with
  | none => 0
  | some a => code a

/-- An entry number as its index, 1 upward. -/
def oneUp {n : Nat} (i : Fin n) : Nat := i.1 + 1

/-- A number 1..n of a request as an entry. -/
def entryNo (n : Nat) (v : Nat) : Option (Fin n) :=
  if h : 1 ≤ v ∧ v ≤ n then some ⟨v - 1, by omega⟩ else none

/-- A set as a request writes it; none where a bit beyond its members is set (R201). -/
def setOf (n : Nat) (v : Nat) : Option (BitVec n) := if v < 2 ^ n then some (BitVec.ofNat n v) else none

/-- An optional time, 0xFFFF for empty. -/
def orEmpty (x : Option Nat) : Nat := x.getD 0xFFFF

/-- Phase codes. -/
def Phase.code : Phase → Nat
  | .dark => 0
  | .prepare => 1
  | .houseOpen => 2
  | .beginners => 3
  | .running => 4
  | .interval => 5
  | .closing => 6
  | .halted => 7

/-- The phase a code stands for. -/
def Phase.ofCode (v : Nat) : Option Phase :=
  match v with
  | 0 => some .dark
  | 1 => some .prepare
  | 2 => some .houseOpen
  | 3 => some .beginners
  | 4 => some .running
  | 5 => some .interval
  | 6 => some .closing
  | 7 => some .halted
  | _ => none

/-- iron_proved codes. -/
def IronProved.code : IronProved → Nat
  | .notRequired => 0
  | .notYet => 1
  | .proved => 2
  | .failed => 3

/-- Iron fault codes; empty is 0. -/
def IronFault.code : IronFault → Nat
  | .stall => 1
  | .drift => 2
  | .overspeed => 3
  | .checkFailure => 4
  | .tooSlow => 5
  | .raiseTimeout => 6
  | .direction => 7

/-- Hold cause codes. -/
def HoldCause.code : HoldCause → Nat
  | .station => 0
  | .iron => 1
  | .fire => 2
  | .supply => 3
  | .system => 4

/-- A hold's reason: high byte the kind of detail, low byte the number. -/
def reasonCode : HoldReason → Nat
  | .code n => n
  | .zone z => 0x0100 + oneUp z
  | .circuit c => 0x0200 + oneUp c
  | .ironFault f => 0x0300 + f.code
  | .proof => 0x0400
  | .mains => 0x0500
  | .safety => 0x0600
  | .link => 0x0700
  | .stationIncident st => 0x0800 + oneUp st

/-- Incident source: zone 1..24, station s as 0x0100 + s. -/
def Source.code : Source → Nat
  | .zone z => oneUp z
  | .station st => 0x0100 + oneUp st

/-- Incident stage codes. -/
def Stage.code : Stage → Nat
  | .staff => 0
  | .general => 1

/-- The stage a code stands for. -/
def Stage.ofCode (v : Nat) : Option Stage :=
  match v with
  | 0 => some .staff
  | 1 => some .general
  | _ => none

/-- Escalation cause codes; empty is 0. -/
def EscalationCause.code : EscalationCause → Nat
  | .direct => 1
  | .unoccupied => 2
  | .ackTimeout => 3
  | .investigationTimeout => 4
  | .secondZone => 5
  | .station => 6
  | .manual => 7

/-- Zone type codes. -/
def ZoneType.code : ZoneType → Nat
  | .detector => 0
  | .callpoint => 1
  | .interface => 2

/-- The zone type a code stands for. -/
def ZoneType.ofCode (v : Nat) : Option ZoneType :=
  match v with
  | 0 => some .detector
  | 1 => some .callpoint
  | 2 => some .interface
  | _ => none

/-- Band codes. -/
def bandCode : Band → Nat
  | .normal => 0
  | .active => 1
  | .openLoop => 2
  | .short => 3

/-- Detection state codes. -/
def Detection.code : Detection → Nat
  | .normal => 0
  | .pending => 1
  | .alarm => 2

/-- Zone condition codes. -/
def ZoneCondition.code : ZoneCondition → Nat
  | .sound => 0
  | .fault => 1
  | .unstable => 2
  | .isolated => 3

/-- Motion state codes. -/
def Motion.code : Motion → Nat
  | .atIn => 0
  | .raising => 1
  | .atOut => 2
  | .stopped => 3
  | .descending => 4

/-- Descent kind codes; empty is 0. -/
def DescentKind.code : DescentKind → Nat
  | .full => 1
  | .part => 2

/-- Sub-phase codes; empty is 0. -/
def SubPhase.code : SubPhase → Nat
  | .free => 1
  | .checked => 2

/-- Release reason codes; empty is 0. -/
def ReleaseReason.code : ReleaseReason → Nat
  | .demand => 1
  | .localRelease => 2
  | .fire => 3
  | .restart => 4

/-- Stop cause codes; empty is 0. -/
def StopCause.code : StopCause → Nat
  | .supply => 1
  | .timeout => 2

/-- Descent result codes; empty is 0. -/
def DescentResult.code : DescentResult → Nat
  | .proofPass => 1
  | .pass => 2
  | .tooFast => 3
  | .tooSlow => 4
  | .stall => 5
  | .overspeed => 6
  | .drift => 7
  | .partialEnd => 8

/-- Group kind codes. -/
def GroupKind.code : GroupKind → Nat
  | .house => 0
  | .aisle => 1
  | .foyer => 2

/-- The group kind a code stands for. -/
def GroupKind.ofCode (v : Nat) : Option GroupKind :=
  match v with
  | 0 => some .house
  | 1 => some .aisle
  | 2 => some .foyer
  | _ => none

/-- Feed codes. -/
def Feed.code : Feed → Nat
  | .mains => 0
  | .standby => 1

/-- The feed a code stands for. -/
def Feed.ofCode (v : Nat) : Option Feed :=
  match v with
  | 0 => some .mains
  | 1 => some .standby
  | _ => none

/-- Drive law codes. -/
def DriveLaw.code : DriveLaw → Nat
  | .linear => 0
  | .square => 1

/-- The drive law a code stands for. -/
def DriveLaw.ofCode (v : Nat) : Option DriveLaw :=
  match v with
  | 0 => some .linear
  | 1 => some .square
  | _ => none

/-- Call purpose codes. -/
def Purpose.code : Purpose → Nat
  | .audience => 0
  | .staff => 1

/-- The purpose a code stands for. -/
def Purpose.ofCode (v : Nat) : Option Purpose :=
  match v with
  | 0 => some .audience
  | 1 => some .staff
  | _ => none

/-- Call outcome codes; empty is 0. -/
def CallOutcome.code : CallOutcome → Nat
  | .complete => 1
  | .degraded => 2
  | .partly => 3
  | .abandoned => 4
  | .overtaken => 5

/-- Delivery state codes. -/
def DeliveryState.code : DeliveryState → Nat
  | .waiting => 1
  | .sounding => 2
  | .done => 3
  | .undelivered => 4
  | .abandoned => 5
  | .overtaken => 6

/-- Burst mode codes; empty is 0. -/
def BurstMode.code : BurstMode → Nat
  | .chimeFlicker => 1
  | .chime => 2
  | .flicker => 3

/-- Pattern codes. -/
def Pattern.code : Pattern → Nat
  | .continuous => 0
  | .fast => 1
  | .slow => 2

/-- Circuit condition codes. -/
def CircuitCondition.code : CircuitCondition → Nat
  | .sound => 0
  | .openLoad => 1
  | .overload => 2
  | .failed => 3

/-- Mains codes. -/
def Mains.code : Mains → Nat
  | .present => 0
  | .lost => 1
  | .settling => 2

/-- Restart cause codes. -/
def RestartCause.code : RestartCause → Nat
  | .coldStart => 0
  | .resetPin => 1
  | .softRestart => 2
  | .cellLost => 3

/-- Store state codes. -/
def StoreState.code : StoreState → Nat
  | .loaded => 0
  | .defaults => 1
  | .storing => 2
  | .stored => 3

/-- Role codes. -/
def Role.code : Role → Nat
  | .none => 0
  | .view => 1
  | .stage => 2
  | .foh => 3
  | .fire => 4
  | .engineer => 5

/-- The role a code stands for. -/
def Role.ofCode (v : Nat) : Option Role :=
  match v with
  | 0 => some .none
  | 1 => some .view
  | 2 => some .stage
  | 3 => some .foh
  | 4 => some .fire
  | 5 => some .engineer
  | _ => none

/-- Status codes. -/
def Status.code : Status → Nat
  | .done => 0
  | .adjusted => 1
  | .refused => 2
  | .noRecord => 3
  | .full => 4
  | .locked => 5
  | .badField => 6
  | .busy => 7
  | .notPermitted => 8

/-- Reason codes; 0 where the status is not REFUSED. -/
def Reason.code : Reason → Nat
  | .holdPresent => 1
  | .ironNotOut => 2
  | .ironNotIn => 3
  | .wrongPhase => 4
  | .wrongStage => 5
  | .alarmActive => 6
  | .inputActive => 7
  | .notSilenced => 8
  | .forced => 9
  | .motion => 10
  | .releaseActive => 11
  | .faultPresent => 12
  | .supply => 13
  | .zoneInAlarm => 14
  | .notAmendable => 15
  | .performanceActive => 16

/-- Request codes. -/
def reqCode : ReqCode → Nat
  | .look => 1
  | .raise => 2
  | .amend => 3
  | .retire => 4
  | .summary => 5
  | .store => 6
  | .restart => 7

/-- The request a code stands for; none outside the seven. -/
def reqOf (v : Nat) : Option ReqCode :=
  match v with
  | 1 => some .look
  | 2 => some .raise
  | 3 => some .amend
  | 4 => some .retire
  | 5 => some .summary
  | 6 => some .store
  | 7 => some .restart
  | _ => none

end Sys2Proof.Machine
end

