-- ==== Sys2Proof/Machine/Operands.lean ====
section
/-!
DEFINITION. The fields of a request: their form (R185, R201), the settings they carry, and the ranges
the settings are brought into (R197).
-/

namespace Sys2Proof.Machine

/-- What is wrong with the form of a field (R185, R201). -/
inductive Flaw
  | badField | notAmendable
  deriving DecidableEq, Repr

/-- The id of a field. -/
def idOf (f : FieldVal) : Nat := f.id.toNat

/-- The value of a field. -/
def valOf (f : FieldVal) : Nat := f.value.toNat

/-- The field with an id, if the request carries it. -/
def fieldOf (fs : List FieldVal) (id : Nat) : Option FieldVal := fs.find? fun f => idOf f == id

/-- The value of a field, if the request carries it. -/
def askedFor (fs : List FieldVal) (id : Nat) : Option Nat := (fieldOf fs id).map valOf

/-- The request carries a field with this id. -/
def carries (fs : List FieldVal) (id : Nat) : Bool := (fieldOf fs id).isSome

/-- The first field, in the order of the request, that `judge` finds at fault (R185). -/
def firstFlaw (judge : FieldVal → Option Flaw) (fs : List FieldVal) : Option (Flaw × FieldVal) :=
  fs.findSome? fun f => (judge f).map fun w => (w, f)

/-- The fields of the request that stand before the one with this id. -/
def carriedBefore (fs : List FieldVal) (id other : Nat) : Bool :=
  carries (fs.takeWhile fun f => idOf f != id) other

/-- BAD_FIELD unless the value passes. -/
def orBad (pass : Bool) : Option Flaw := if pass then none else some .badField

/-- The setting ids of a kind run from 1 to this (R200). -/
def topSetting : Kind → Nat
  | .perf => 5
  | .zone => 8
  | .iron => 11
  | .group => 10
  | .czone => 4
  | .circuit => 2
  | .status => 4
  | .station => 3
  | .hold => 0
  | .incident => 0
  | .call => 0

/-- The request is a settings amendment: it carries a setting field (R194). -/
def amendsSettings (k : Kind) (fs : List FieldVal) : Bool :=
  fs.any fun f => 1 ≤ idOf f && idOf f ≤ topSetting k

/-- A value brought to the nearer end of a range. -/
def clamp (lo hi v : Nat) : Nat := max lo (min hi v)

/-- yes or no. -/
def isYesNo (v : Nat) : Bool := v ≤ 1

/-- The field `v` writes yes. -/
def saysYes (v : Nat) : Bool := v == 1

/-! ## Form, field by field -/

/-- PERF fields (R3, R4, R5). -/
def perfForm (f : FieldVal) : Option Flaw :=
  match idOf f with
  | 1 => orBad (isYesNo (valOf f))
  | 2 => none
  | 3 => none
  | 4 => none
  | 5 => none
  | 32 => orBad (valOf f ≤ 7)
  | _ => some .notAmendable

/-- IRON fields (R33, R35, R37): a second action field is a fault. -/
def ironForm (fs : List FieldVal) (f : FieldVal) : Option Flaw :=
  match idOf f with
  | 1 => orBad (isYesNo (valOf f))
  | 37 => orBad (isYesNo (valOf f) && !carriedBefore fs 37 128)
  | 128 => orBad (valOf f == 1 && !carriedBefore fs 128 37)
  | id => if 2 ≤ id ∧ id ≤ 11 then none else some .notAmendable

/-- ZONE fields (R65, R67, R77). -/
def zoneForm (f : FieldVal) : Option Flaw :=
  match idOf f with
  | 1 => orBad (isYesNo (valOf f))
  | 2 => orBad (valOf f ≤ 2)
  | 3 => orBad (isYesNo (valOf f))
  | 4 => orBad (setOf 3 (valOf f)).isSome
  | 5 => orBad (setOf 6 (valOf f)).isSome
  | 6 => orBad (setOf 8 (valOf f)).isSome
  | 7 => none
  | 8 => orBad (isYesNo (valOf f))
  | 36 => orBad (isYesNo (valOf f))
  | 128 => orBad (valOf f == 1)
  | _ => some .notAmendable

/-- GROUP fields (R104, R106, R107): a fade time needs a target. -/
def groupForm (fs : List FieldVal) (f : FieldVal) : Option Flaw :=
  match idOf f with
  | 1 => orBad (isYesNo (valOf f))
  | 2 => orBad (valOf f ≤ 2)
  | 3 => orBad (entryNo 3 (valOf f)).isSome
  | 4 => orBad (entryNo 8 (valOf f)).isSome
  | 5 => orBad (valOf f ≤ 1)
  | 6 => orBad (valOf f ≤ 1)
  | 7 => none
  | 8 => none
  | 9 => none
  | 10 => none
  | 33 => none
  | 128 => orBad (carries fs 33)
  | _ => some .notAmendable

/-- CZONE fields (R128, R130). -/
def czoneForm (f : FieldVal) : Option Flaw :=
  match idOf f with
  | 1 => orBad (isYesNo (valOf f))
  | 2 => orBad (setOf 3 (valOf f)).isSome
  | 3 => none
  | 4 => none
  | _ => some .notAmendable

/-- CIRCUIT fields (R155, R163): circuits 7..16 serve nothing. -/
def circuitForm (c : Fin 16) (f : FieldVal) : Option Flaw :=
  match idOf f with
  | 1 => orBad ((setOf 3 (valOf f)).isSome && (c.1 < 6 || valOf f == 0))
  | 2 => orBad (isYesNo (valOf f))
  | 128 => orBad (valOf f == 1)
  | _ => some .notAmendable

/-- STATUS fields (R84, R179, R185, R196). -/
def statusForm (f : FieldVal) : Option Flaw :=
  match idOf f with
  | 1 => none
  | 2 => none
  | 3 => none
  | 4 => orBad (isYesNo (valOf f))
  | 42 => orBad (isYesNo (valOf f))
  | _ => some .notAmendable

/-- STATION fields (R186). -/
def stationForm (f : FieldVal) : Option Flaw :=
  match idOf f with
  | 1 => orBad (valOf f ≤ 5)
  | 2 => orBad (entryNo 3 (valOf f)).isSome
  | 3 => orBad (setOf 11 (valOf f)).isSome
  | _ => some .notAmendable

/-- INCIDENT fields (R99): a second action field is a fault. -/
def incidentForm (fs : List FieldVal) (f : FieldVal) : Option Flaw :=
  match idOf f with
  | 128 => orBad (valOf f == 1 && !(carriedBefore fs 128 129 || carriedBefore fs 128 130))
  | 129 => orBad (valOf f ≤ 1 && !(carriedBefore fs 129 128 || carriedBefore fs 129 130))
  | 130 => orBad (valOf f == 1 && !(carriedBefore fs 130 128 || carriedBefore fs 130 129))
  | _ => some .notAmendable

/-- CALL fields of an AMEND (R138). -/
def callForm (f : FieldVal) : Option Flaw :=
  match idOf f with
  | 35 => orBad (valOf f ≤ 3)
  | 38 => none
  | _ => some .notAmendable

/-! ## Settings -/

/-- One setting field written into the PERF settings. -/
def PerfSettings.amend (x : PerfSettings) (f : FieldVal) : PerfSettings :=
  match idOf f with
  | 1 => { x with present := saysYes (valOf f) }
  | 2 => { x with occupiedMin := valOf f }
  | 3 => { x with presetLevel := valOf f }
  | 4 => { x with presetFade := valOf f }
  | 5 => { x with closingFade := valOf f }
  | _ => x

/-- PERF ranges; the preset level is raised to the occupied minimum (R3). -/
def PerfSettings.inRange (x : PerfSettings) : PerfSettings :=
  let low := min 1000 x.occupiedMin
  { x with
    occupiedMin := low, presetLevel := max low (min 1000 x.presetLevel)
    presetFade := min 600 x.presetFade, closingFade := min 600 x.closingFade }

/-- One setting field written into the IRON settings. -/
def IronSettings.amend (x : IronSettings) (f : FieldVal) : IronSettings :=
  match idOf f with
  | 1 => { x with present := saysYes (valOf f) }
  | 2 => { x with travel := valOf f }
  | 3 => { x with slowdown := valOf f }
  | 4 => { x with indexPos := valOf f }
  | 5 => { x with driftTol := valOf f }
  | 6 => { x with descentMin := valOf f }
  | 7 => { x with descentMax := valOf f }
  | 8 => { x with finalMin := valOf f }
  | 9 => { x with vFinalMax := valOf f }
  | 10 => { x with stallTime := valOf f }
  | 11 => { x with raiseMax := valOf f }
  | _ => x

/-- Each IRON number in its own fixed range (R33). -/
def IronSettings.fixed (x : IronSettings) : IronSettings :=
  { x with
    travel := clamp 1000 60000 x.travel, slowdown := max 100 x.slowdown
    driftTol := clamp 10 2000 x.driftTol, descentMin := clamp 50 1200 x.descentMin
    descentMax := clamp 50 1200 x.descentMax, finalMin := clamp 10 300 x.finalMin
    vFinalMax := clamp 1 5000 x.vFinalMax, stallTime := clamp 5 100 x.stallTime
    raiseMax := clamp 100 3000 x.raiseMax }

/-- The cross-field checks that refuse (R33), on the numbers in their fixed ranges. -/
def IronSettings.coherent (x : IronSettings) : Bool :=
  x.slowdown < x.travel && x.descentMin < x.descentMax

/-- The values brought into line with travel (R33). -/
def IronSettings.inRange (x : IronSettings) : IronSettings :=
  let y := x.fixed
  { y with slowdown := min y.slowdown (y.travel - 100), indexPos := min y.indexPos y.travel }

/-- One setting field written into the ZONE settings. -/
def ZoneSettings.amend (x : ZoneSettings) (f : FieldVal) : ZoneSettings :=
  match idOf f with
  | 1 => { x with present := saysYes (valOf f) }
  | 2 => { x with type := (ZoneType.ofCode (valOf f)).getD x.type }
  | 3 => { x with stageHouse := saysYes (valOf f) }
  | 4 => { x with auds := (setOf 3 (valOf f)).getD x.auds }
  | 5 => { x with alarms := (setOf 6 (valOf f)).getD x.alarms }
  | 6 => { x with callZones := (setOf 8 (valOf f)).getD x.callZones }
  | 7 => { x with confirmTime := valOf f }
  | 8 => { x with directGeneral := saysYes (valOf f) }
  | _ => x

/-- ZONE ranges (R65). -/
def ZoneSettings.inRange (x : ZoneSettings) : ZoneSettings :=
  { x with confirmTime := clamp 2 100 x.confirmTime }

/-- One setting field written into the GROUP settings. -/
def GroupSettings.amend (x : GroupSettings) (f : FieldVal) : GroupSettings :=
  match idOf f with
  | 1 => { x with present := saysYes (valOf f) }
  | 2 => { x with kind := (GroupKind.ofCode (valOf f)).getD x.kind }
  | 3 => { x with aud := (entryNo 3 (valOf f)).getD x.aud }
  | 4 => { x with callZone := (entryNo 8 (valOf f)).getD x.callZone }
  | 5 => { x with feed := (Feed.ofCode (valOf f)).getD x.feed }
  | 6 => { x with law := (DriveLaw.ofCode (valOf f)).getD x.law }
  | 7 => { x with evacuation := valOf f }
  | 8 => { x with safetyMin := valOf f }
  | 9 => { x with dip := valOf f }
  | 10 => { x with restoreFade := valOf f }
  | _ => x

/-- GROUP ranges (R104). -/
def GroupSettings.inRange (x : GroupSettings) : GroupSettings :=
  { x with
    evacuation := clamp 500 1000 x.evacuation, safetyMin := min 300 x.safetyMin
    dip := min 1000 x.dip, restoreFade := min 600 x.restoreFade }

/-- One setting field written into the CZONE settings. -/
def CZoneSettings.amend (x : CZoneSettings) (f : FieldVal) : CZoneSettings :=
  match idOf f with
  | 1 => { x with present := saysYes (valOf f) }
  | 2 => { x with serves := (setOf 3 (valOf f)).getD x.serves }
  | 3 => { x with strokeOn := valOf f }
  | 4 => { x with strokeGap := valOf f }
  | _ => x

/-- CZONE ranges (R128). -/
def CZoneSettings.inRange (x : CZoneSettings) : CZoneSettings :=
  { x with strokeOn := clamp 100 2000 x.strokeOn, strokeGap := clamp 200 3000 x.strokeGap }

/-- One setting field written into the CIRCUIT settings. -/
def CircuitSettings.amend (x : CircuitSettings) (f : FieldVal) : CircuitSettings :=
  match idOf f with
  | 1 => { x with serves := (setOf 3 (valOf f)).getD x.serves }
  | 2 => { x with retry := saysYes (valOf f) }
  | _ => x

/-- One setting field written into the settings of the STATUS record. -/
def PartSettings.amend (x : PartSettings) (f : FieldVal) : PartSettings :=
  match idOf f with
  | 1 => { x with address := valOf f }
  | 2 => { x with ackTime := valOf f }
  | 3 => { x with investTime := valOf f }
  | 4 => { x with brigadeLink := saysYes (valOf f) }
  | _ => x

/-- STATUS ranges (R84, R179). -/
def PartSettings.inRange (x : PartSettings) : PartSettings :=
  { x with
    address := clamp 1 31 x.address, ackTime := clamp 100 1200 x.ackTime
    investTime := clamp 600 6000 x.investTime }

/-- One setting field written into the STATION settings. -/
def StationSettings.amend (x : StationSettings) (f : FieldVal) : StationSettings :=
  match idOf f with
  | 1 => { x with role := (Role.ofCode (valOf f)).getD x.role }
  | 2 => { x with aud := (entryNo 3 (valOf f)).getD x.aud }
  | 3 => { x with mask := (setOf 11 (valOf f)).getD x.mask }
  | _ => x

end Sys2Proof.Machine
end

