-- ==== Sys2Proof/Machine/Records.lean ====
section
/-!
DEFINITION. The fields of every record as a reply carries them, settings and live fields in ascending
id order (11, R200).
-/

namespace Sys2Proof.Machine

/-- A field of a reply. -/
def fv (id value : Nat) : FieldVal := ⟨BitVec.ofNat 8 id, BitVec.ofNat 16 value⟩

/-- PERF fields. -/
def State.perfFields (s : State) (a : Fin 3) : List FieldVal :=
  let cfg := s.settings.perfs[a]
  let x := s.perfs[a]
  [fv 1 (yesNo cfg.present), fv 2 cfg.occupiedMin, fv 3 cfg.presetLevel, fv 4 cfg.presetFade,
   fv 5 cfg.closingFade,
   fv 32 x.phase.code, fv 33 x.act, fv 34 x.ironProved.code, fv 35 (yesNo x.interrupted),
   fv 36 (orZero oneUp x.openedBy)]

/-- HOLD fields; origin PART is 9. -/
def holdFields (a : Fin 3) (x : Hold) : List FieldVal :=
  [fv 32 (oneUp a), fv 33 (match x.origin with
     | some st => oneUp st
     | none => 9), fv 34 x.cause.code, fv 35 (reasonCode x.reason)]

/-- INCIDENT fields. Seconds open stops at 65535 (R83). -/
def State.incidentFields (s : State) (x : Incident) : List FieldVal :=
  [fv 32 x.source.code, fv 33 x.auds.toNat, fv 34 x.stage.code, fv 35 (orZero EscalationCause.code x.cause),
   fv 36 (orZero oneUp x.ackBy), fv 37 (yesNo x.silenced), fv 38 x.reactivations,
   fv 39 (min 65535 ((s.now - x.raisedAt) / 1000)), fv 40 (orEmpty (x.timerAt.map s.remaining))]

/-- ZONE fields. -/
def State.zoneFields (s : State) (z : Fin 24) : List FieldVal :=
  let cfg := s.settings.zones[z]
  let x := s.zones[z]
  [fv 1 (yesNo cfg.present), fv 2 cfg.type.code, fv 3 (yesNo cfg.stageHouse), fv 4 cfg.auds.toNat,
   fv 5 cfg.alarms.toNat, fv 6 cfg.callZones.toNat, fv 7 cfg.confirmTime, fv 8 (yesNo cfg.directGeneral),
   fv 32 (bandCode x.band), fv 33 x.detection.code, fv 34 x.condition.code, fv 35 (yesNo x.loopFault),
   fv 36 (yesNo x.isolated), fv 37 x.noise, fv 38 (orZero oneUp x.incident)]

/-- IRON fields. -/
def State.ironFields (s : State) (ch : Fin 3) : List FieldVal :=
  let cfg := s.settings.irons[ch]
  let x := s.irons[ch]
  [fv 1 (yesNo cfg.present), fv 2 cfg.travel, fv 3 cfg.slowdown, fv 4 cfg.indexPos, fv 5 cfg.driftTol,
   fv 6 cfg.descentMin, fv 7 cfg.descentMax, fv 8 cfg.finalMin, fv 9 cfg.vFinalMax, fv 10 cfg.stallTime,
   fv 11 cfg.raiseMax,
   fv 32 x.motion.code, fv 33 (orZero DescentKind.code x.kind), fv 34 (orZero SubPhase.code x.sub),
   fv 35 x.position, fv 36 (yesNo x.referenced), fv 37 (yesNo x.demandOut),
   fv 38 (orZero ReleaseReason.code x.reason), fv 39 (orZero StopCause.code x.stop),
   fv 40 (orZero IronFault.code x.fault), fv 41 (yesNo x.further), fv 42 (yesNo x.pressed),
   fv 43 (orZero DescentResult.code x.result), fv 44 x.td, fv 45 x.tf]

/-- GROUP fields. -/
def State.groupFields (s : State) (g : Fin 12) : List FieldVal :=
  let cfg := s.settings.groups[g]
  let x := s.groups[g]
  [fv 1 (yesNo cfg.present), fv 2 cfg.kind.code, fv 3 (oneUp cfg.aud), fv 4 (oneUp cfg.callZone),
   fv 5 cfg.feed.code, fv 6 cfg.law.code, fv 7 cfg.evacuation, fv 8 cfg.safetyMin, fv 9 cfg.dip,
   fv 10 cfg.restoreFade,
   fv 32 x.level, fv 33 x.target, fv 34 (yesNo x.fading), fv 35 x.start, fv 36 x.steps, fv 37 x.step,
   fv 38 x.causes.toNat, fv 39 (yesNo x.flickerActive), fv 40 x.driven, fv 41 x.drive]

/-- The six fields of a delivery: ids 64 + 8 × (n − 1) + j in zone Fn. -/
def State.deliveryFields (s : State) (d : Delivery) : List FieldVal :=
  let base := 64 + 8 * d.zone.1
  [fv base d.state.code,
   fv (base + 1) (if d.state = .waiting then s.remaining d.notBefore else 0xFFFF),
   fv (base + 2) (orEmpty (d.lastStart.map s.elapsed)), fv (base + 3) d.burstsLeft,
   fv (base + 4) (yesNo d.degraded), fv (base + 5) (yesNo d.resumes)]

/-- The call zone set of a call: the zones of its deliveries. -/
def Call.zones (x : Call) : CallZoneSet := x.deliveries.foldl (fun set d => set ||| single 8 d.zone.1) 0

/-- CALL fields, then those of its deliveries in zone order. -/
def State.callFields (s : State) (x : Call) : List FieldVal :=
  [fv 32 (oneUp x.origin), fv 33 (orZero oneUp x.aud), fv 34 x.purpose.code, fv 35 x.priority,
   fv 36 x.strokes, fv 37 x.bursts, fv 38 x.interval, fv 39 x.flicker, fv 40 x.zones.toNat,
   fv 41 (yesNo x.finished), fv 42 (orZero CallOutcome.code x.outcome)] ++
  x.deliveries.flatMap s.deliveryFields

/-- CZONE fields, then the entries of its queue. -/
def State.czoneFields (s : State) (z : Fin 8) : List FieldVal :=
  let cfg := s.settings.czones[z]
  let x := s.czones[z]
  [fv 1 (yesNo cfg.present), fv 2 cfg.serves.toNat, fv 3 cfg.strokeOn, fv 4 cfg.strokeGap,
   fv 32 (orZero oneUp x.sounding), fv 33 (orZero BurstMode.code x.mode),
   fv 34 (orEmpty (x.burstStart.map s.elapsed)), fv 35 x.strokesSounded, fv 36 (yesNo x.suppressed),
   fv 37 (yesNo x.barred), fv 38 x.flickerCode, fv 39 x.queue.length] ++
  x.queue.mapIdx fun i c => fv (64 + i) (oneUp c)

/-- CIRCUIT fields. -/
def State.circuitFields (s : State) (c : Fin 16) : List FieldVal :=
  let cfg := s.settings.circuits[c]
  let x := s.circuits[c]
  [fv 1 cfg.serves.toNat, fv 2 (yesNo cfg.retry),
   fv 32 (yesNo x.demand), fv 33 x.pattern.code, fv 34 (yesNo x.drive), fv 35 x.condition.code,
   fv 36 x.overloads]

/-- STATUS fields: family 3, product 3240. -/
def State.statusFields (s : State) : List FieldVal :=
  let cfg := s.settings.part
  [fv 1 cfg.address, fv 2 cfg.ackTime, fv 3 cfg.investTime, fv 4 (yesNo cfg.brigadeLink),
   fv 32 3, fv 33 3240, fv 34 Config.siliconRevision, fv 35 s.supply.mains.code,
   fv 36 (yesNo s.supply.safetyLow), fv 37 (yesNo s.supply.cellLow), fv 38 (yesNo s.supply.retainedValid),
   fv 39 s.supply.restartCause.code, fv 40 s.store.state.code, fv 41 (yesNo s.store.changed),
   fv 42 (yesNo s.store.locked), fv 43 s.link.errors, fv 44 (yesNo s.link.degraded)]

/-- The two set fields a SUMMARY returns (R188). -/
def State.summaryFields (s : State) (st : Fin 8) : List FieldVal :=
  [fv 32 s.stations[st].flags.toNat, fv 33 s.stations[st].armed.toNat]

/-- STATION fields. -/
def State.stationFields (s : State) (st : Fin 8) : List FieldVal :=
  let cfg := s.settings.stations[st]
  [fv 1 cfg.role.code, fv 2 (oneUp cfg.aud), fv 3 cfg.mask.toNat] ++ s.summaryFields st

/-- How many records a kind has (R184). -/
def kindSize : Kind → Nat
  | .perf => 3
  | .hold => 24
  | .incident => 25
  | .zone => 24
  | .iron => 3
  | .group => 12
  | .call => 32
  | .czone => 8
  | .circuit => 16
  | .status => 1
  | .station => 8

/-- HOLD, INCIDENT and CALL records are dynamic: they carry issues (00, "Records, kinds and
indices"). -/
def isDynamic : Kind → Bool
  | .hold => true
  | .incident => true
  | .call => true
  | .perf => false
  | .zone => false
  | .iron => false
  | .group => false
  | .czone => false
  | .circuit => false
  | .status => false
  | .station => false

/-- The record with index `i + 1` of a kind: its issue, 0 for a fixed record, and its fields; none for
an empty slot or an index beyond the kind's. -/
def State.record (s : State) (k : Kind) (index : Byte) : Option (Nat × List FieldVal) :=
  match k with
  | .perf => (entryOf 3 index).map fun a => (0, s.perfFields a)
  | .hold => (entryOf 24 index).bind fun i =>
      let (a, k) := holdAt i
      (s.hold? a k).map fun x => (s.holds[a][k].issue, holdFields a x)
  | .incident => (entryOf 25 index).bind fun i =>
      (s.incident? i).map fun x => (s.incidents[i].issue, s.incidentFields x)
  | .zone => (entryOf 24 index).map fun z => (0, s.zoneFields z)
  | .iron => (entryOf 3 index).map fun ch => (0, s.ironFields ch)
  | .group => (entryOf 12 index).map fun g => (0, s.groupFields g)
  | .call => (entryOf 32 index).bind fun c =>
      (s.call? c).map fun x => (s.calls[c].issue, s.callFields x)
  | .czone => (entryOf 8 index).map fun z => (0, s.czoneFields z)
  | .circuit => (entryOf 16 index).map fun c => (0, s.circuitFields c)
  | .status => (entryOf 1 index).map fun _ => (0, s.statusFields)
  | .station => (entryOf 8 index).map fun st => (0, s.stationFields st)

end Sys2Proof.Machine
end

