-- ==== Sys2Proof/Machine/Answers.lean ====
section
/-!
DEFINITION. How a request is answered (R183): the parts of a reply that its owner decides, and the
settings store's checks (R194).
-/

namespace Sys2Proof.Machine

/-- What the owner of a request answers: the reply but for its address and station number (R183). -/
structure Answer where
  status : Status
  reason : Option Reason
  kind : Byte
  index : Byte
  issue : Byte
  fields : List FieldVal
  deriving DecidableEq, Repr

/-- A request as its owner takes it: the sending station, the record kind and the request. -/
structure Ask where
  st : Fin 8
  kind : Kind
  req : Req
  deriving DecidableEq, Repr

/-- The decision of a request: its answer and the state it leaves. -/
abbrev Verdict := Answer × State

/-- The kind, index and issue of the request, with the fields given (R183). -/
def Ask.answer (q : Ask) (status : Status) (reason : Option Reason) (fields : List FieldVal) : Answer where
  status := status
  reason := reason
  kind := BitVec.ofNat 8 (kindCode q.kind)
  index := q.req.index
  issue := q.req.issue
  fields := fields

/-- A reply with a status that has no reason. -/
def Ask.says (q : Ask) (status : Status) (fields : List FieldVal) (s : State) : Verdict :=
  (q.answer status none fields, s)

/-- REFUSED with its reason; the state stays as it was. -/
def Ask.refuses (q : Ask) (why : Reason) (fields : List FieldVal) (s : State) : Verdict :=
  (q.answer .refused (some why) fields, s)

/-- DONE, or ADJUSTED where a value was brought into range (R185). -/
def okStatus (adjusted : Bool) : Status := if adjusted then .adjusted else .done

/-- The reply to a field at fault: BAD_FIELD, or NOT_AMENDABLE with the field named first (R183,
R201). `rec` is the record where the owner's rule has a refused reply carry it. DESIGN CHOICE (log entry 43): the
field named has the value the request gave it, in a set field too. -/
def Ask.flawed (q : Ask) (w : Flaw × FieldVal) (rec : List FieldVal) (s : State) : Verdict :=
  match w.1 with
  | .badField => q.says .badField rec s
  | .notAmendable => q.refuses .notAmendable (w.2 :: rec) s

/-- The checks on role and locks of a settings amendment, in order: ENGINEER, not STORING, every
performance DARK and the lock clear (R194). -/
def State.settingsBar (s : State) (st : Fin 8) : Option Status :=
  if s.role st != .engineer then some .notPermitted
  else if s.store.state == .storing then some .busy
  else if !s.allDark || s.store.locked then some .locked
  else none

/-- The settings checks of a request that may carry settings. -/
def State.settingsStop (s : State) (q : Ask) : Option Status :=
  if amendsSettings q.kind q.req.fields then s.settingsBar q.st else none

/-- An accepted amendment that changes a setting's value sets settings changed (R193). -/
def State.noteChange (changed : Bool) (s : State) : State :=
  if changed then s.writeStore { s.store with changed := true } else s

end Sys2Proof.Machine
end

