-- ==== Sys2Proof/Machine/AmendFixed.lean ====
section
/-!
DEFINITION. AMEND of the fixed records, in the order of checks of R194 and of each owner: PERF (R3,
R5), IRON (R33, R34, R37), ZONE (R66, R77), GROUP (R105, R107, R108), CZONE (R129), CIRCUIT (R163),
STATUS (R185, R196) and STATION (R186).
-/

namespace Sys2Proof.Machine

/-! ## PERF -/

/-- What stands in the way of a transition that is admitted (R7..R18). -/
inductive Obstacle
  /-- the auditorium is absent (R7) -/
  | absent
  /-- a hold, in this slot (R28) -/
  | hold (k : Fin 8)
  | reason (r : Reason)
  deriving DecidableEq, Repr

/-- The slot of the hold that blocks entry to HOUSE_OPEN and RUNNING: the oldest (R28). -/
def State.blockingHold (s : State) (a : Fin 3) : Option Obstacle := (s.oldestHold a).map .hold

/-- The auditorium has a present channel that is not in this motion state. -/
def State.ironNotAt (s : State) (a : Fin 3) (m : Motion) : Bool :=
  s.settings.irons[a].present && s.irons[a].motion != m

/-- The conditions of a transition, in the order of its rule (R7..R18). -/
def State.obstacle (s : State) (a : Fin 3) (p : Phase) : Option Obstacle :=
  match p with
  | .prepare => if s.settings.perfs[a].present then none else some .absent
  | .houseOpen => s.blockingHold a
  | .beginners =>
      if s.phase a = .halted ∧ has s.generalSet a then some (.reason .alarmActive) else none
  | .running =>
      match s.blockingHold a with
      | some o => some o
      | none => if s.ironNotAt a .atOut then some (.reason .ironNotOut) else none
  | .closing =>
      if s.phase a = .halted ∧ s.settings.irons[a].present ∧ unproved s.perfs[a].ironProved then
        some (.hold (holdSlot .iron))
      else none
  | .dark =>
      if s.phase a = .closing ∧ s.ironNotAt a .atIn then some (.reason .ironNotIn) else none
  | .interval => none
  | .halted => none

/-- The transition is made (R7..R18). -/
def State.enter (a : Fin 3) (st : Fin 8) (p : Phase) (s : State) : State :=
  match p with
  | .dark => s.enterDark a
  | .prepare => s.enterPrepare a st
  | .houseOpen => s.enterHouseOpen a
  | .beginners => s.enterBeginners a
  | .running => s.enterRunning a
  | .interval => s.enterInterval a
  | .closing => s.enterClosing a
  | .halted => s.halt a

/-- The station's role is among those a transition admits (R5). -/
def State.admits (s : State) (st : Fin 8) (a : Fin 3) (adm : Admission) : Bool :=
  (adm.foh && s.role st == .foh) || (adm.stage && s.isStageOf st a)

/-- The reply to a transition that a hold blocks: it names the hold in place of the PERF record, and
HOLD is marked again (R28). -/
def State.blockedBy (a : Fin 3) (k : Fin 8) (s : State) : Verdict :=
  ({ status := .refused, reason := some .holdPresent, kind := BitVec.ofNat 8 (kindCode .hold),
     index := BitVec.ofNat 8 (holdIndex a k), issue := BitVec.ofNat 8 s.holds[a][k].issue,
     fields := ((s.hold? a k).map (holdFields a)).getD [] },
   s.mark .hold)

/-- A phase request from a station that R5's second check admits: the third check and on (R5). -/
def State.phaseRequest (q : Ask) (a : Fin 3) (p : Phase) (s : State) : Verdict :=
  if s.phase a = p then q.says .done (s.perfFields a) s
  else
    match transition (s.phase a) p with
    | none => q.refuses .wrongPhase (s.perfFields a) s
    | some adm =>
        if !s.admits q.st a adm then q.says .notPermitted (s.perfFields a) s
        else
          match s.obstacle a p with
          | some .absent => q.says .badField (s.perfFields a) s
          | some (.hold k) => s.blockedBy a k
          | some (.reason r) => q.refuses r (s.perfFields a) s
          | none =>
              let t := s.enter a q.st p
              q.says .done (t.perfFields a) t

/-- The PERF settings of an amendment are applied (R3). -/
def State.applyPerf (q : Ask) (a : Fin 3) (s : State) : Verdict :=
  let old := s.settings.perfs[a]
  let asked := q.req.fields.foldl PerfSettings.amend old
  let new := asked.inRange
  let t := ({ s with settings := { s.settings with perfs := put s.settings.perfs a new } } : State).noteChange
    (old != new)
  q.says (okStatus (asked != new)) (if asked != new then t.perfFields a else []) t

/-- AMEND of a PERF record (R3..R5). -/
def State.amendPerf (q : Ask) (a : Fin 3) (s : State) : Verdict :=
  let fs := q.req.fields
  let rec_ := if carries fs 32 then s.perfFields a else []
  match firstFlaw perfForm fs with
  | some w => q.flawed w rec_ s
  | none =>
      if carries fs 32 && !(s.role q.st == .foh || s.isStageOf q.st a) then q.says .notPermitted rec_ s
      else
        match s.settingsStop q with
        | some status => q.says status rec_ s
        | none =>
            match (askedFor fs 32).bind Phase.ofCode with
            | some p => s.phaseRequest q a p
            | none => if fs = [] then q.says .done (s.perfFields a) s else s.applyPerf q a

/-! ## IRON -/

/-- The station's role admits the action fields of the request (R37). -/
def State.admitsIron (s : State) (st : Fin 8) (ch : Fin 3) (fs : List FieldVal) : Bool :=
  let stage := s.isStageOf st ch
  let role := s.role st
  (match askedFor fs 37 with
   | none => true
   | some 1 => stage || role == .fire
   | some _ => stage || role == .foh || role == .fire) &&
  (!carries fs 128 || stage || role == .engineer)

/-- The conditions of a raise in IN and STOPPED, in their order (R38). -/
def State.raiseBar (s : State) (ch : Fin 3) : Option Reason :=
  let x := s.irons[ch]
  if s.openIncidents.any fun i => has i.auds ch then some .alarmActive
  else if x.pressed then some .releaseActive
  else if x.fault.isSome then some .faultPresent
  else if s.supply.mains != .present then some .supply
  else none

/-- What a demand OUT meets (R38). -/
def State.outBar (s : State) (ch : Fin 3) : Option Reason :=
  match s.irons[ch].motion with
  | .descending => some .motion
  | .raising => none
  | .atOut => none
  | .atIn => s.raiseBar ch
  | .stopped => s.raiseBar ch

/-- A demand OUT that nothing stands in the way of (R38, R43). -/
def State.demandOut (ch : Fin 3) (s : State) : State :=
  match s.irons[ch].motion with
  | .atIn => s.writeIron ch (s.irons[ch].beginRaise s.now)
  | .stopped => s.writeIron ch (s.irons[ch].beginRaise s.now)
  | .raising => s
  | .atOut => s
  | .descending => s

/-- What the channel's state has against the request: a change of present (R34), a demand OUT (R38), a
clear fault (R61). -/
def State.ironBar (s : State) (ch : Fin 3) (fs : List FieldVal) (present : Bool) : Option Reason :=
  let notIn := s.irons[ch].motion != .atIn
  if notIn && (present != s.settings.irons[ch].present || carries fs 128) then some .ironNotIn
  else if askedFor fs 37 = some 1 then s.outBar ch
  else none

/-- The action and the settings of an accepted request are applied (R33, R34, R37). -/
def State.applyIron (ch : Fin 3) (fs : List FieldVal) (new : IronSettings) (limitIn : Bool) (s : State) :
    State :=
  let old := s.settings.irons[ch]
  let s1 := ({ s with settings := { s.settings with irons := put s.settings.irons ch new } } : State).noteChange
    (old != new)
  let s2 :=
    match askedFor fs 37 with
    | none => s1
    | some 1 => s1.demandOut ch
    | some _ => s1.release ch .demand
  let s3 := if carries fs 128 then s2.clearIronFault ch else s2
  if old.present != new.present then s3.ironPresence ch limitIn else s3

/-- AMEND of an IRON record (R33, R34, R37). DEDUCED (log entry 34): of a request with an action and
settings, R194's order is taken: the form of the fields, role, STORING and locks, the channel's state, and only
then the agreement of its numbers, although R37 puts R33's and R34's checks of the setting fields first. -/
def State.amendIron (q : Ask) (ch : Fin 3) (limitIn : Bool) (s : State) : Verdict :=
  let fs := q.req.fields
  let old := s.settings.irons[ch]
  let action := carries fs 37 || carries fs 128
  let rec_ := if action then s.ironFields ch else []
  match firstFlaw (ironForm fs) fs with
  | some w => q.flawed w rec_ s
  | none =>
      if action && !old.present then q.says .badField rec_ s
      else if !s.admitsIron q.st ch fs then q.says .notPermitted rec_ s
      else
        match s.settingsStop q with
        | some status => q.says status rec_ s
        | none =>
            let settles := amendsSettings .iron fs
            let asked := fs.foldl IronSettings.amend old
            let new := if settles then asked.inRange else old
            match s.ironBar ch fs asked.present with
            | some r => q.refuses r rec_ s
            | none =>
                if settles && !asked.fixed.coherent then q.says .badField rec_ s
                else
                  let adjusted := asked != new
                  let t := s.applyIron ch fs new limitIn
                  q.says (okStatus adjusted) (if action || adjusted || fs = [] then t.ironFields ch else []) t

/-! ## ZONE -/

/-- What the zone's state has against the request (R66, R76). -/
def State.zoneBar (s : State) (z : Fin 24) (fs : List FieldVal) (new : ZoneSettings) : Bool :=
  let old := s.settings.zones[z]
  let x := s.zones[z]
  ((new.present != old.present || new.type != old.type) && (x.detection != .normal || x.incident.isSome)) ||
    (askedFor fs 36 == some 1 && x.detection == .alarm)

/-- The actions of a request on a zone: reset noise first, isolation second (R77). -/
def Zone.acted (now confirmTime : Nat) (fs : List FieldVal) (x : Zone) : Zone :=
  let y := if carries fs 128 then x.resetNoise else x
  match askedFor fs 36 with
  | none => y
  | some v => y.setIsolated now confirmTime (saysYes v)

/-- The settings and actions of an accepted request are applied; the condition is derived once (R66,
R77), and the alarm and call units follow the zone's sets (R95, R146). -/
def State.applyZone (z : Fin 24) (fs : List FieldVal) (new : ZoneSettings) (s : State) : State :=
  let old := s.settings.zones[z]
  let s1 := ({ s with settings := { s.settings with zones := put s.settings.zones z new } } : State).noteChange
    (old != new)
  let s2 :=
    if old.present != new.present then s1.zonePresence z
    else if carries fs 128 || carries fs 36 then
      (s1.writeZone z (s1.zones[z].acted s1.now new.confirmTime fs)).deriveCondition z
    else s1
  let s3 := if old.alarms != new.alarms then s2.demandSounders else s2
  if old.callZones != new.callZones then s3.deriveSilences else s3

/-- AMEND of a ZONE record (R66, R77). -/
def State.amendZone (q : Ask) (z : Fin 24) (s : State) : Verdict :=
  let fs := q.req.fields
  let old := s.settings.zones[z]
  let rec_ := s.zoneFields z
  let action := carries fs 36 || carries fs 128
  match firstFlaw zoneForm fs with
  | some w => q.flawed w rec_ s
  | none =>
      if action && !old.present then q.says .badField rec_ s
      else if action && !(s.role q.st == .fire || s.role q.st == .engineer) then q.says .notPermitted rec_ s
      else
        match s.settingsStop q with
        | some status => q.says status rec_ s
        | none =>
            let asked := fs.foldl ZoneSettings.amend old
            let new := if amendsSettings .zone fs then asked.inRange else old
            if s.zoneBar z fs new then q.refuses .zoneInAlarm rec_ s
            else
              let t := s.applyZone z fs new
              q.says (okStatus (asked != new)) (t.zoneFields z) t

/-! ## GROUP -/

/-- A target as R108 clamps it. -/
def State.clampTarget (s : State) (g : Fin 12) (target : Nat) : Nat :=
  let cfg := s.settings.groups[g]
  let t := min Config.fullLevel target
  if cfg.kind != .foyer && (s.phase cfg.aud).occupied && s.phase cfg.aud != .running then
    max t s.settings.perfs[cfg.aud].occupiedMin
  else t

/-- The station's role admits a target on the group (R107). -/
def State.admitsTarget (s : State) (st : Fin 8) (g : Fin 12) : Bool :=
  let cfg := s.settings.groups[g]
  s.role st == .foh || (cfg.kind != .foyer && s.isStageOf st cfg.aud)

/-- A target amendment that has passed its checks is clamped and its fade started (R108). -/
def State.applyTarget (q : Ask) (g : Fin 12) (target : Nat) (s : State) : Verdict :=
  let asked := (askedFor q.req.fields 128).getD 0
  let t := s.clampTarget g target
  let d := min Config.fadeTimeTop asked
  let s1 := s.beginFade g t d
  q.says (okStatus (t != target || d != asked)) (s1.groupFields g) s1

/-- The GROUP settings of an amendment are applied (R105). -/
def State.applyGroup (q : Ask) (g : Fin 12) (s : State) : Verdict :=
  let old := s.settings.groups[g]
  let asked := q.req.fields.foldl GroupSettings.amend old
  let new := asked.inRange
  let s1 := ({ s with settings := { s.settings with groups := put s.settings.groups g new } } : State).noteChange
    (old != new)
  let t := (s1.groupAmended g old).announceLit
  q.says (okStatus (asked != new)) (if asked != new then t.groupFields g else []) t

/-- AMEND of a GROUP record (R105, R107, R108): a refused target or fade time carries the record. -/
def State.amendGroup (q : Ask) (g : Fin 12) (s : State) : Verdict :=
  let fs := q.req.fields
  let rec_ := if carries fs 33 || carries fs 128 then s.groupFields g else []
  match firstFlaw (groupForm fs) fs with
  | some w => q.flawed w rec_ s
  | none =>
      if carries fs 33 && !s.settings.groups[g].present then q.says .badField rec_ s
      else if carries fs 33 && !s.admitsTarget q.st g then q.says .notPermitted rec_ s
      else
        match s.settingsStop q with
        | some status => q.says status rec_ s
        | none =>
            match askedFor fs 33 with
            | some target =>
                if s.groups[g].causes != 0 then q.refuses .forced rec_ s else s.applyTarget q g target
            | none => if fs = [] then q.says .done (s.groupFields g) s else s.applyGroup q g

/-! ## CZONE -/

/-- A change of a CZONE setting takes effect (R129): a zone made absent loses its deliveries, one made
present starts free, and a change of serves is followed by barring and by the lights. -/
def State.czoneAmended (z : Fin 8) (old : CZoneSettings) (s : State) : State :=
  let new := s.settings.czones[z]
  let s1 := s.markIf (old != new) .czone
  let s2 :=
    if old.present && !new.present then (s1.dropZone z .undelivered).writeCZone z CallZone.idle
    else if !old.present && new.present then ((s1.writeCZone z CallZone.idle).deriveSilence z).arbitrate z
    else s1
  if old.serves = new.serves then s2
  else
    let ofZone := someIx 12 fun g =>
      let cfg := s2.settings.groups[g]
      cfg.present && cfg.kind == .foyer && cfg.callZone == z
    ((s2.deriveSilence z).refreshLights).markIf ofZone .group

/-- AMEND of a CZONE record (R128..R130). -/
def State.amendCZone (q : Ask) (z : Fin 8) (s : State) : Verdict :=
  let fs := q.req.fields
  match firstFlaw czoneForm fs with
  | some w => q.flawed w [] s
  | none =>
      match s.settingsStop q with
      | some status => q.says status [] s
      | none =>
          if fs = [] then q.says .done (s.czoneFields z) s
          else
            let old := s.settings.czones[z]
            let asked := fs.foldl CZoneSettings.amend old
            let new := asked.inRange
            let s1 := { s with settings := { s.settings with czones := put s.settings.czones z new } }
            let t := (s1.noteChange (old != new)).czoneAmended z old
            q.says (okStatus (asked != new)) (if asked != new then t.czoneFields z else []) t

/-! ## CIRCUIT -/

/-- The settings and the reset of an accepted request are applied (R163, R164). -/
def State.applyCircuit (c : Fin 16) (fs : List FieldVal) (s : State) : State :=
  let old := s.settings.circuits[c]
  let new := fs.foldl CircuitSettings.amend old
  let s1 := ({ s with settings := { s.settings with circuits := put s.settings.circuits c new } } : State).noteChange
    (old != new)
  let s2 := if old.serves != new.serves then (s1.mark .circuit).evalHolds .system else s1
  if carries fs 128 then s2.changeCircuit c (s2.circuits[c].resetByStation s2.now) else s2

/-- AMEND of a CIRCUIT record (R163). -/
def State.amendCircuit (q : Ask) (c : Fin 16) (s : State) : Verdict :=
  let fs := q.req.fields
  match firstFlaw (circuitForm c) fs with
  | some w => q.flawed w (s.circuitFields c) s
  | none =>
      if carries fs 128 && !(s.role q.st == .fire || s.role q.st == .engineer) then
        q.says .notPermitted (s.circuitFields c) s
      else
        match s.settingsStop q with
        | some status => q.says status (s.circuitFields c) s
        | none =>
            let t := s.applyCircuit c fs
            q.says .done (t.circuitFields c) t

/-! ## STATUS -/

/-- The settings and the lock of an accepted request are applied; a change of brigade link has the
relay's demand evaluated (R84, R196). -/
def State.applyStatus (fs : List FieldVal) (new : PartSettings) (s : State) : State :=
  let old := s.settings.part
  let s1 := ({ s with settings := { s.settings with part := new } } : State).noteChange (old != new)
  let s2 := if old.brigadeLink != new.brigadeLink then s1.demandBrigade else s1
  if askedFor fs 42 = some 1 then s2.writeStore { s2.store with locked := true } else s2

/-- AMEND of the STATUS record (R185, R194, R196). DEDUCED (log entry 42): a lock value other than set or clear
is BAD_FIELD for every role, since the form of a field is checked before the role; R196 gives no order. -/
def State.amendStatus (q : Ask) (s : State) : Verdict :=
  let fs := q.req.fields
  match firstFlaw statusForm fs with
  | some w => q.flawed w [] s
  | none =>
      if carries fs 42 && s.role q.st != .engineer then q.says .notPermitted [] s
      else
        match s.settingsStop q with
        | some status => q.says status [] s
        | none =>
            if askedFor fs 42 = some 0 ∧ s.store.locked then q.says .locked [] s
            else if fs = [] then q.says .done s.statusFields s
            else
              let old := s.settings.part
              let asked := fs.foldl PartSettings.amend old
              let new := if amendsSettings .status fs then asked.inRange else old
              let t := s.applyStatus fs new
              q.says (okStatus (asked != new)) (if asked != new then t.statusFields else []) t

/-! ## STATION -/

/-- What a change of a station's settings does to its flags and armed set (R186). DEDUCED (log entry 41): where
one amendment changes the role to or from NONE and the mask as well, the role decides. -/
def StationLive.amended (old new : StationSettings) (x : StationLive) : StationLive :=
  if old.role != .none && new.role == .none then { flags := 0, armed := 0 }
  else if old.role == .none && new.role != .none then { flags := new.mask, armed := 0 }
  else
    { flags := (x.flags ||| (new.mask &&& ~~~old.mask)) &&& (new.mask ||| ~~~old.mask)
      armed := x.armed &&& (new.mask ||| ~~~old.mask) }

/-- A change of a STATION setting takes effect (R186). -/
def State.applyStation (n : Fin 8) (new : StationSettings) (s : State) : State :=
  let old := s.settings.stations[n]
  let s1 : State := { s with
    settings := { s.settings with stations := put s.settings.stations n new }
    stations := put s.stations n (s.stations[n].amended old new) }
  (s1.noteChange (old != new)).markIf (old != new) .station

/-- Some station has role ENGINEER (R186). -/
def hasEngineer (stations : Vector StationSettings 8) : Bool :=
  someIx 8 fun i => stations[i].role == .engineer

/-- AMEND of a STATION record (R186). -/
def State.amendStation (q : Ask) (n : Fin 8) (s : State) : Verdict :=
  let fs := q.req.fields
  match firstFlaw stationForm fs with
  | some w => q.flawed w [] s
  | none =>
      match s.settingsStop q with
      | some status => q.says status [] s
      | none =>
          if fs = [] then q.says .done (s.stationFields n) s
          else
            let new := fs.foldl StationSettings.amend s.settings.stations[n]
            if hasEngineer (put s.settings.stations n new) then q.says .done [] (s.applyStation n new)
            else q.says .badField (fieldOf fs 1).toList s

end Sys2Proof.Machine
end

