-- ==== Sys2Proof/Machine/Dynamic.lean ====
section
/-!
DEFINITION. RAISE, AMEND and RETIRE of the dynamic records: HOLD (R20..R22), INCIDENT (R81, R87, R88,
R91..R101) and CALL (R134..R139).
-/

namespace Sys2Proof.Machine

/-- The answer to a RAISE: the record it filled or merged into (R21, R87, R88, R136). -/
def Ask.names (q : Ask) (status : Status) (index issue : Nat) (fields : List FieldVal) (s : State) : Verdict :=
  ({ q.answer status none fields with
     index := BitVec.ofNat 8 index, issue := BitVec.ofNat 8 issue }, s)

/-- An AMEND or RETIRE names the occupant of a slot by its issue; issue 0 names none (R20, R81, R133). -/
def namesOccupant (r : Req) (issue : Nat) : Bool := r.issue != 0 && r.issue.toNat == issue

/-! ## HOLD -/

/-- The auditorium and reason code of a hold RAISE; none where a field is missing, out of range or not
one of the two (R21, R201). -/
def holdAsked (fs : List FieldVal) : Option (Fin 3 × Nat) :=
  if fs.all fun f => idOf f == 32 || idOf f == 35 then
    match (askedFor fs 32).bind (entryNo 3), askedFor fs 35 with
    | some a, some n => if 1 ≤ n ∧ n ≤ 255 then some (a, n) else none
    | _, _ => none
  else none

/-- RAISE of a HOLD (R21). -/
def State.raiseHoldReq (q : Ask) (s : State) : Verdict :=
  match holdAsked q.req.fields with
  | none => q.says .badField [] s
  | some (a, n) =>
      if !(s.role q.st == .foh || s.isStageOf q.st a) then q.says .notPermitted [] s
      else if s.phase a = .dark then q.refuses .wrongPhase [] s
      else
        match s.freeStationSlot a with
        | none => q.says .full [] s
        | some k =>
            let h : Hold := { origin := some q.st, cause := .station, reason := .code n }
            let t := s.fillHold a k h
            q.names .done (holdIndex a k) t.holds[a][k].issue (holdFields a h) t

/-- The hold a request names by index and issue (R20). -/
def State.namedHold (s : State) (r : Req) : Option (Fin 3 × Fin 8 × Hold) :=
  (entryOf 24 r.index).bind fun i =>
    let (a, k) := holdAt i
    if namesOccupant r s.holds[a][k].issue then (s.hold? a k).map fun h => (a, k, h) else none

/-- A station has the role of the hold's origin station, and where that is STAGE its auditorium (R22).
-/
def State.sameRole (s : State) (st origin : Fin 8) : Bool :=
  s.role st == s.role origin &&
    (s.role st != .stage || s.settings.stations[st].aud == s.settings.stations[origin].aud)

/-- RETIRE of a HOLD (R22). -/
def State.retireHoldReq (q : Ask) (s : State) : Verdict :=
  match s.namedHold q.req with
  | none => q.says .noRecord [] s
  | some (a, k, h) =>
      match h.origin with
      | none => q.says .notPermitted [] s
      | some o =>
          if s.sameRole q.st o then q.says .done [] (s.emptyHold a k) else q.says .notPermitted [] s

/-- AMEND of a HOLD: it has no amendable field (R20, R201). -/
def State.amendHoldReq (q : Ask) (s : State) : Verdict :=
  match s.namedHold q.req with
  | none => q.says .noRecord [] s
  | some _ => q.refuses .notAmendable (q.req.fields.take 1) s

/-! ## INCIDENT -/

/-- The auditoria set of an incident RAISE: one field, not empty, no member beyond C (R87). -/
def incidentAsked (fs : List FieldVal) : Option AudSet :=
  match fs with
  | [f] =>
      if idOf f = 33 then
        match setOf 3 (valOf f) with
        | some set => if set = 0 then none else some set
        | none => none
      else none
  | _ => none

/-- RAISE of an INCIDENT (R87, R88). FULL answers a list without a free slot, which R81 rules out
(log entry 15). -/
def State.raiseIncidentReq (q : Ask) (s : State) : Verdict :=
  match incidentAsked q.req.fields with
  | none => q.says .badField [] s
  | some set =>
      if !(s.role q.st == .fire || s.role q.st == .foh) then q.says .notPermitted [] s
      else
        match s.stationIncident with
        | some i =>
            let t := s.widenIncident i set
            q.names .adjusted (oneUp i) t.incidents[i].issue
              (((t.incident? i).map t.incidentFields).getD []) t
        | none =>
            match s.freeIncidentSlot with
            | none => q.says .full [] s
            | some i =>
                let t := s.raiseStationIncident q.st set i
                q.names .done (oneUp i) t.incidents[i].issue
                  (((t.incident? i).map t.incidentFields).getD []) t

/-- The open incident a request names by index and issue (R81). -/
def State.namedIncident (s : State) (r : Req) : Option (Fin 25 × Incident) :=
  (entryOf 25 r.index).bind fun i =>
    if namesOccupant r s.incidents[i].issue then (s.incident? i).map fun x => (i, x) else none

/-- FOH, FIRE, or STAGE of an auditorium of the set (R91, R93). -/
def State.concerned (s : State) (st : Fin 8) (auds : AudSet) : Bool :=
  s.role st == .foh || s.role st == .fire || someIx 3 fun a => has auds a && s.isStageOf st a

/-- The station's role admits the action (R91, R93, R97). -/
def State.admitsIncident (s : State) (st : Fin 8) (x : Incident) (fs : List FieldVal) : Bool :=
  ((!carries fs 128 && !carries fs 129) || s.concerned st x.auds) &&
    (!carries fs 130 || s.role st == .fire || s.role st == .foh)

/-- The action is against the incident's stage (R91, R93, R97). -/
def wrongStage (x : Incident) (fs : List FieldVal) : Bool :=
  (carries fs 128 && x.stage == .general) || (askedFor fs 129 == some 0 && x.stage == .general) ||
    (carries fs 130 && x.stage == .staff)

/-- The action of an accepted request (R91, R93, R97). -/
def State.actIncident (i : Fin 25) (x : Incident) (st : Fin 8) (fs : List FieldVal) (s : State) : State :=
  if carries fs 128 then (if x.ackBy.isNone then s.acknowledgeIncident i st else s)
  else if askedFor fs 129 = some 1 then
    (if x.stage = .staff then s.escalateIncident i .manual else s)
  else if carries fs 130 then (if x.silenced then s else s.silenceIncident i)
  else s

/-- AMEND of an INCIDENT (R99). -/
def State.amendIncidentReq (q : Ask) (s : State) : Verdict :=
  match s.namedIncident q.req with
  | none => q.says .noRecord [] s
  | some (i, x) =>
      let fs := q.req.fields
      match firstFlaw (incidentForm fs) fs with
      | some w => q.flawed w (s.incidentFields x) s
      | none =>
          if !s.admitsIncident q.st x fs then q.says .notPermitted (s.incidentFields x) s
          else if wrongStage x fs then q.refuses .wrongStage (s.incidentFields x) s
          else
            let t := s.actIncident i x q.st fs
            q.says .done (((t.incident? i).map t.incidentFields).getD []) t

/-- The station may cancel or retire the incident at its stage (R100). -/
def State.mayRetire (s : State) (st : Fin 8) (x : Incident) : Bool :=
  s.role st == .fire || (x.stage == .staff && s.role st == .foh)

/-- RETIRE of an INCIDENT (R100). -/
def State.retireIncidentReq (q : Ask) (s : State) : Verdict :=
  match s.namedIncident q.req with
  | none => q.says .noRecord [] s
  | some (i, x) =>
      if !s.mayRetire q.st x then q.says .notPermitted [] s
      else if x.stage == .general && !x.silenced then q.refuses .notSilenced [] s
      else if s.stillSignals x then q.refuses .inputActive [] s
      else q.says .done [] (s.retireIncidentAt i)

/-! ## CALL -/

/-- The call zones of a set that are present settings of the part (R134). -/
def State.callZonesOk (s : State) (v : Nat) : Bool :=
  match setOf 8 v with
  | none => false
  | some set =>
      set != 0 && !someIx 8 fun z => set.getLsbD z.1 && !s.settings.czones[z].present

/-- An auditorium goes with an AUDIENCE call and none with a STAFF call (R134). -/
def audFits (purpose : Option Purpose) (aud : Option (Fin 3)) : Bool :=
  match purpose with
  | some .audience => aud.isSome
  | some .staff => aud.isNone
  | none => true

/-- The purpose a call RAISE asks for. -/
def purposeAsked (fs : List FieldVal) : Option Purpose := (askedFor fs 34).bind Purpose.ofCode

/-- The auditorium a call RAISE asks for; left out is none (R134). -/
def audAsked (fs : List FieldVal) : Option (Fin 3) := (askedFor fs 33).bind (entryNo 3)

/-- A field of a call RAISE passes (R134). -/
def State.callFieldOk (s : State) (fs : List FieldVal) (f : FieldVal) : Bool :=
  match idOf f with
  | 33 => valOf f ≤ 3 && audFits (purposeAsked fs) (entryNo 3 (valOf f))
  | 34 => valOf f ≤ 1
  | 35 => valOf f ≤ 3
  | 36 => true
  | 37 => true
  | 38 => true
  | 39 => valOf f ≤ 7
  | 40 => s.callZonesOk (valOf f)
  | _ => false

/-- What is carried, taken together, makes a call: purpose and call zone set are there, and the
auditorium goes with the purpose (R134). -/
def callWhole (fs : List FieldVal) : Bool :=
  (purposeAsked fs).isSome && carries fs 40 && audFits (purposeAsked fs) (audAsked fs)

/-- The call of a RAISE that passes, with the clamps of R134, and whether one changed a value. -/
def State.newCall (s : State) (st : Fin 8) (fs : List FieldVal) : Call × Bool :=
  let strokes := (askedFor fs 36).getD 3
  let bursts := (askedFor fs 37).getD 1
  let interval := (askedFor fs 38).getD 600
  let n := clamp 1 16 bursts
  let set : CallZoneSet := ((askedFor fs 40).bind (setOf 8)).getD 0
  ({ origin := st, aud := audAsked fs, purpose := (purposeAsked fs).getD .staff,
     priority := (askedFor fs 35).getD 1, strokes := clamp 1 8 strokes, bursts := n,
     interval := clamp 50 6000 interval, flicker := (askedFor fs 39).getD 0, finished := false,
     outcome := none,
     deliveries := ((List.finRange 8).filter fun z => set.getLsbD z.1).map (newDelivery s.now n) },
   clamp 1 8 strokes != strokes || n != bursts || clamp 50 6000 interval != interval)

/-- The station may raise the call (R135). -/
def State.mayCall (s : State) (st : Fin 8) (x : Call) : Bool :=
  s.role st == .foh ||
    (x.purpose == .audience &&
      match x.aud with
      | some a => s.isStageOf st a
      | none => false)

/-- The phases in which an audience may be called (R135). -/
def Phase.callable : Phase → Bool
  | .houseOpen => true
  | .beginners => true
  | .interval => true
  | _ => false

/-- An AUDIENCE call is against its performance's phase (R135). -/
def State.callTooLate (s : State) (x : Call) : Bool :=
  x.purpose == .audience &&
    match x.aud with
    | some a => !(s.phase a).callable
    | none => false

/-- RAISE of a CALL (R134..R136). DESIGN CHOICE (log entry 43): the field that BAD_FIELD names has the value the
request gave it, in the call zone set too. -/
def State.raiseCallReq (q : Ask) (s : State) : Verdict :=
  let fs := q.req.fields
  match fs.find? fun f => !s.callFieldOk fs f with
  | some f => q.says .badField [f] s
  | none =>
      if !callWhole fs then q.says .badField [] s
      else
        let (x, adjusted) := s.newCall q.st fs
        if !s.mayCall q.st x then q.says .notPermitted [] s
        else if s.callTooLate x then q.refuses .wrongPhase [] s
        else if x.deliveries.any fun d => s.czones[d.zone].barred then q.refuses .alarmActive [] s
        else
          match s.roomForCall with
          | none => q.says .full [] s
          | some (c, room) =>
              let t := room.fillCall c x
              q.names (okStatus adjusted) (oneUp c) t.calls[c].issue
                (((t.call? c).map t.callFields).getD []) t

/-- The call a request names by index and issue (R133). -/
def State.namedCall (s : State) (r : Req) : Option (Fin 32 × Call) :=
  (entryOf 32 r.index).bind fun c =>
    if namesOccupant r s.calls[c].issue then (s.call? c).map fun x => (c, x) else none

/-- The station is the call's origin or a FOH station (R138, R139). -/
def State.ownsCall (s : State) (st : Fin 8) (x : Call) : Bool := x.origin == st || s.role st == .foh

/-- AMEND of a CALL (R138). -/
def State.amendCallReq (q : Ask) (s : State) : Verdict :=
  match s.namedCall q.req with
  | none => q.says .noRecord [] s
  | some (c, x) =>
      let fs := q.req.fields
      match firstFlaw callForm fs with
      | some w => q.flawed w [] s
      | none =>
          if !s.ownsCall q.st x then q.says .notPermitted [] s
          else
            let interval := askedFor fs 38
            let t := s.amendCallAt c (askedFor fs 35) (interval.map (clamp 50 6000))
            q.says (okStatus (interval.map (clamp 50 6000) != interval))
              (((t.call? c).map t.callFields).getD []) t

/-- RETIRE of a CALL (R139). -/
def State.retireCallReq (q : Ask) (s : State) : Verdict :=
  match s.namedCall q.req with
  | none => q.says .noRecord [] s
  | some (c, x) =>
      if s.ownsCall q.st x then q.says .done [] (s.retireCallAt c) else q.says .notPermitted [] s

end Sys2Proof.Machine
end

