-- ==== Sys2Proof/WellFormed.lean ====
section
/-!
DEFINITION. Which commands are ones the link or the plant can put: the checks on operands that the
types of `Instr` do not make already.
-/

namespace Sys2Proof

/-- The station number of a good frame is 1..8 (R181). -/
def stationOk (station : Byte) : Bool := 1 ≤ station.toNat && station.toNat ≤ 8

/-- A request holds at most 24 fields (R180). -/
def Req.ok (r : Req) : Bool := stationOk r.station && r.fields.length ≤ 24

/-- As `Req.ok`, the row's own field counted. -/
def AmendReq.ok (a : AmendReq) : Bool :=
  stationOk a.station && a.before.length + a.after.length + 1 ≤ 24

/-- A request code character is one of the seven (R200). -/
def knownCode (code : Byte) : Bool := 1 ≤ code.toNat && code.toNat ≤ 7

/-- A record kind character is one of the eleven (R200). -/
def knownKind (kind : Byte) : Bool := 1 ≤ kind.toNat && kind.toNat ≤ 11

/-- A RAISE (code 2) or a RETIRE (code 4) of a known kind that is none of HOLD, INCIDENT and CALL (R184, R200). -/
def raisesFixed (code kind : Byte) : Bool :=
  (code == 2 || code == 4) && knownKind kind && !(kind == 2 || kind == 3 || kind == 7)

/-- A code and kind that no row but UNKNOWN_REQUEST spells: an unknown code or kind, or a RAISE or RETIRE of a
fixed kind (R184). -/
def rowless (code kind : Byte) : Bool :=
  !(knownCode code && knownKind kind) || raisesFixed code kind

/-- A frame received whole: 7 header characters, the fields its count gives, and 2 of CRC (R180). -/
def wholeFrame (chars : List Byte) : Bool :=
  match chars[6]? with
  | some n => n.toNat ≤ 24 && chars.length == 9 + 3 * n.toNat
  | none => false

/-- A frame cut short: fewer characters than a whole frame with its field count has (R180). -/
def partFrame (chars : List Byte) : Bool :=
  match chars[6]? with
  | some n => 24 < n.toNat || chars.length < 9 + 3 * n.toNat
  | none => true

/-- The command is one its row of the table names: a good frame where the row is a request (R180,
R181), a code and kind of no other row where the row says so (R184), a frame of the shape the row names. -/
def WellFormed : Instr → Bool
  | .look _ r => r.ok
  | .summary _ r => r.ok
  | .store _ r => r.ok
  | .restart _ r _ => r.ok
  | .unknownRequest code kind r => r.ok && rowless code kind
  | .amendPhasePrepare a => a.ok
  | .amendPhaseHouseOpen a => a.ok
  | .amendPhaseBeginners a => a.ok
  | .amendPhaseRunning a => a.ok
  | .amendPhaseInterval a => a.ok
  | .amendPhaseClosing a => a.ok
  | .amendPhaseHalted a => a.ok
  | .amendPhaseDark a => a.ok
  | .settingsAmendment _ r _ => r.ok
  | .commissioningLock a _ => a.ok
  | .raiseHold r => r.ok
  | .retireHold r => r.ok
  | .raiseIncident r => r.ok
  | .acknowledge a => a.ok
  | .amendIncidentStage a _ => a.ok
  | .silence a => a.ok
  | .retireIncident r => r.ok
  | .demandOut a => a.ok
  | .demandIn a => a.ok
  | .clearFault a => a.ok
  | .isolate a => a.ok
  | .restoreZone a => a.ok
  | .resetNoise a => a.ok
  | .amendTarget a _ => a.ok
  | .raiseCall r => r.ok
  | .amendCall r => r.ok
  | .retireCall r => r.ok
  | .resetCircuit a => a.ok
  | .frameError chars => wholeFrame chars
  | .frameDiscarded chars => partFrame chars
  | .frameGapTimeout chars => partFrame chars
  | .frameForOtherAddress chars => wholeFrame chars
  | .storeComplete => true
  | .encoderCount _ _ => true
  | .indexEvent _ => true
  | .limitInEvent _ => true
  | .limitOutEvent _ => true
  | .localReleasePress _ => true
  | .localReleaseLetGo _ => true
  | .descentSample _ => true
  | .stall _ => true
  | .tooSlow _ => true
  | .raiseTimeout _ => true
  | .bandEvent _ _ => true
  | .confirmTimerExpiry _ => true
  | .quietTimerExpiry _ => true
  | .loopTimerExpiry _ => true
  | .acknowledgeTimerExpiry _ => true
  | .investigationTimerExpiry _ => true
  | .fadeStep => true
  | .fadeComplete _ => true
  | .notBeforeDue _ _ => true
  | .strokeOnElapsed _ => true
  | .strokeGapElapsed _ => true
  | .burstEnd _ => true
  | .patternPartEnd _ => true
  | .testTimerExpiry _ _ => true
  | .overloadEvent _ => true
  | .retryTimerExpiry _ => true
  | .cleanTimerExpiry _ => true
  | .offTimerExpiry _ => true
  | .mainsSenseChange _ => true
  | .lossTimerExpiry => true
  | .settlingTimerExpiry => true
  | .supplyLowLineChange _ => true
  | .safetySupplyTimerExpiry => true
  | .cellSenseChange _ => true
  | .cellTimerExpiry => true
  | .coldStart _ => true
  | .resetPin _ => true
  | .powerFail => true
  | .replyEnd => true
  | .amendHold r => r.ok

end Sys2Proof
end

