-- ==== Sys2Proof/Machine/Frame.lean ====
section
/-!
DEFINITION. Frames as characters (R180, R181, R200): the CRC, the characters of a reply and of a
request, and the judgement of a frame received whole.
-/

namespace Sys2Proof.Machine

/-- One bit of the CRC register, generator 0x1021 (R200). -/
def crcBit (r : Word) : Word := if r.getLsbD 15 then (r <<< 1) ^^^ 0x1021#16 else r <<< 1

/-- One character into the CRC, most significant bit first (R200). -/
def crcByte (r : Word) (c : Byte) : Word :=
  let x := r ^^^ (c.zeroExtend 16 <<< 8)
  crcBit (crcBit (crcBit (crcBit (crcBit (crcBit (crcBit (crcBit x)))))))

/-- The CRC of the characters after the start byte: the register starts at 0xFFFF (R200). -/
def crc (chars : List Byte) : Word := chars.foldl crcByte 0xFFFF#16

/-- The two characters of a word, high byte first (R200). -/
def wordBytes (w : Word) : List Byte := [(w >>> 8).setWidth 8, w.setWidth 8]

/-- The three characters of a field: id, value high byte, value low byte (R200). -/
def fieldBytes (f : FieldVal) : List Byte := f.id :: wordBytes f.value

/-- Start byte, the characters and their CRC. -/
def framed (chars : List Byte) : List Byte := 0xC3#8 :: (chars ++ wordBytes (crc chars))

/-- The characters of a reply, its start byte first (R200). -/
def Reply.bytes (r : Reply) : List Byte :=
  framed
    ([BitVec.ofNat 8 (r.address + 0x80), r.station, BitVec.ofNat 8 r.status.code,
      BitVec.ofNat 8 (orZero Reason.code r.reason), r.kind, r.index, r.issue,
      BitVec.ofNat 8 r.fields.length] ++ r.fields.flatMap fieldBytes)

/-- The characters of a request frame after its start byte (R180, R200). -/
def requestBytes (address : Nat) (code : ReqCode) (kind : Kind) (r : Req) : List Byte :=
  let chars :=
    [BitVec.ofNat 8 address, r.station, BitVec.ofNat 8 (reqCode code), BitVec.ofNat 8 (kindCode kind),
     r.index, r.issue, BitVec.ofNat 8 r.fields.length] ++ r.fields.flatMap fieldBytes
  chars ++ wordBytes (crc chars)

/-- The address character, if it has been received, is the part's (R180). -/
def addressed (address : Nat) (chars : List Byte) : Bool :=
  match chars with
  | [] => false
  | c :: _ => c.toNat == address

/-- The two CRC characters agree with the characters before them (R181). -/
def crcAgrees (chars : List Byte) : Bool :=
  let n := chars.length - 2
  chars.drop n == wordBytes (crc (chars.take n))

/-- The station number of a frame lies in 1..8 (R181). -/
def stationAgrees (chars : List Byte) : Bool :=
  match chars[1]? with
  | some st => stationOk st
  | none => false

/-- A frame received whole for the part is a frame error: a bad CRC, or a station number outside 1..8
(R181). -/
def frameIsError (address : Nat) (chars : List Byte) : Bool :=
  wholeFrame chars && addressed address chars && !(crcAgrees chars && stationAgrees chars)

end Sys2Proof.Machine
end

