-- ==== Sys2Proof/Machine/Link.lean ====
section
/-!
DEFINITION. The link port (09): the checks on every good request, the requests it and the supply
monitor and the settings store handle, the frame error counter, and the reply.
-/

namespace Sys2Proof.Machine

/-! ## The frame error counter (R182) -/

/-- A frame error: the counter rises to at most 32, where the link is degraded (R182). -/
def State.frameFails (s : State) : State :=
  let n := min Config.errorTop (s.link.errors + 1)
  let s1 := { s with link := { s.link with errors := n } }
  if n = Config.errorTop then s1.setDegraded true else s1

/-- A good frame: the counter falls, and at 0 the link has recovered (R182). -/
def State.frameGood (s : State) : State :=
  let n := s.link.errors - 1
  let s1 := { s with link := { s.link with errors := n } }
  if n = 0 then s1.setDegraded false else s1

/-! ## The checks of R184 -/

/-- A field id appears twice (R184). -/
def repeated : List FieldVal → Bool
  | [] => false
  | f :: fs => carries fs (idOf f) || repeated fs

/-- The requests a role admits before any owner is asked: none for NONE, LOOK and SUMMARY for VIEW
(R184). -/
def roleAdmits (role : Role) (code : ReqCode) : Bool :=
  match role with
  | .none => false
  | .view => code == .look || code == .summary
  | _ => true

/-- The first check of R184 that fails decides the reply; `kind` and `code` are those of a known
request. -/
def State.linkStop (s : State) (st : Fin 8) (code : ReqCode) (kind : Kind) (r : Req) : Option Status :=
  if !roleAdmits (s.role st) code then some .notPermitted
  else if (code == .raise || code == .retire) && !isDynamic kind then some .badField
  else if code == .raise && !(r.index == 0 && r.issue == 0) then some .badField
  else if (code == .look || code == .amend || code == .retire) &&
      (!(1 ≤ r.index.toNat && r.index.toNat ≤ kindSize kind) || (!isDynamic kind && r.issue != 0)) then
    some .noRecord
  else if (code == .look || code == .summary || code == .retire) && r.fields != [] then some .badField
  else if repeated r.fields then some .badField
  else none

/-! ## The reply (R183) -/

/-- The reply begins: the driver is enabled, and it carries the address the request was sent to
(R179, R183). -/
def State.reply (address : Nat) (station : Byte) (a : Answer) (s : State) : State :=
  let sent : Reply :=
    { address := address, station := station, status := a.status, reason := a.reason, kind := a.kind,
      index := a.index, issue := a.issue, fields := a.fields }
  { s with link := { s.link with reply := some sent } }

/-- A frame for the part, its CRC good: lost while the receiver is closed, a frame error where its
station number or field count is out of range (log entry 12), and otherwise a good frame that `decide`
answers (R181, R182, R183). -/
def State.serve (r : Req) (decide : Fin 8 → State → Verdict) (s : State) : State :=
  if !s.listening then s
  else
    match (if r.fields.length ≤ 24 then entryOf 8 r.station else none) with
    | none => s.frameFails
    | some st =>
        let (a, t) := decide st s.frameGood
        t.reply s.settings.part.address r.station a

/-- The decision on a request of a known code and kind: the checks of R184, then its handler. -/
def State.decide (code : ReqCode) (kind : Kind) (r : Req) (handler : Ask → State → Verdict) (st : Fin 8)
    (s : State) : Verdict :=
  let q : Ask := { st := st, kind := kind, req := r }
  match s.linkStop st code kind r with
  | some status => q.says status [] s
  | none => handler q s

/-- Serve a request of a known code and kind. -/
def State.request (code : ReqCode) (kind : Kind) (r : Req) (handler : Ask → State → Verdict) (s : State) :
    State :=
  s.serve r (State.decide code kind r handler)

/-! ## LOOK (R184, R189) -/

/-- The owner of the record answers a LOOK: DONE with every field, or NO_RECORD (R20, R81, R133,
R184). -/
def State.lookReq (q : Ask) (s : State) : Verdict :=
  match s.record q.kind q.req.index with
  | none => q.says .noRecord [] s
  | some (issue, fields) =>
      if q.req.issue = 0 ∨ q.req.issue.toNat = issue then
        ({ q.answer .done none fields with issue := BitVec.ofNat 8 issue }, s)
      else q.says .noRecord [] s

/-- A LOOK answered DONE or NO_RECORD clears its class where it is armed (R189). -/
def lookRead (kind : Kind) (st : Fin 8) (v : Verdict) : Verdict :=
  if v.1.status == .done || v.1.status == .noRecord then (v.1, v.2.lookClears st kind) else v

/-- Serve a LOOK. -/
def State.look (kind : Kind) (r : Req) (s : State) : State :=
  s.serve r fun st t => lookRead kind st (State.decide .look kind r State.lookReq st t)

/-! ## SUMMARY (R188) -/

/-- SUMMARY names kind STATION, the station's own index and issue 0; the armed set becomes the flags
(R188). -/
def State.summaryReq (q : Ask) (s : State) : Verdict :=
  if q.kind = .station ∧ entryOf 8 q.req.index = some q.st ∧ q.req.issue = 0 then
    let t := s.arm q.st
    q.says .done (t.summaryFields q.st) t
  else q.says .badField [] s

/-! ## STORE and RESTART (R176, R198) -/

/-- The request names STATUS, index 1, issue 0 and carries no field (R176, R198). -/
def Ask.namesStatus (q : Ask) : Bool :=
  q.kind == .status && q.req.index == 1 && q.req.issue == 0 && q.req.fields == []

/-- A STORE begins: the old image is written over, so it is not good until the write completes (R198,
R199). -/
def State.beginStore (s : State) : State :=
  ({ s with imageGood := false } : State).writeStore { s.store with state := .storing }

/-- STORE (R198). -/
def State.storeReq (q : Ask) (s : State) : Verdict :=
  if !q.namesStatus then q.says .badField [] s
  else if s.role q.st != .engineer then q.says .notPermitted [] s
  else if s.store.state = .storing then q.says .busy [] s
  else
    let t := s.beginStore
    q.says .done t.statusFields t

/-- RESTART (R176); `loads` is what the open-load tests of the restart see (R166). -/
def State.restartReq (loads : BitVec 16) (q : Ask) (s : State) : Verdict :=
  if !q.namesStatus then q.says .badField [] s
  else if s.role q.st != .engineer then q.says .notPermitted [] s
  else if s.store.state = .storing then q.says .busy [] s
  else if !s.allDark then q.refuses .performanceActive [] s
  else if s.incidentList != [] then q.refuses .alarmActive [] s
  else
    let t := s.softRestart loads
    q.says .done t.statusFields t

/-! ## A code or kind the part does not know (R184) -/

/-- The status of the reply to an unknown code or kind, or to a RAISE or RETIRE of a fixed kind: a code outside
the seven comes before the role, the kind after it (R184). -/
def State.unknownStop (s : State) (st : Fin 8) (code : Byte) : Status :=
  match reqOf code.toNat with
  | none => .badField
  | some c => if roleAdmits (s.role st) c then .badField else .notPermitted

/-- Serve a request that no other row of the table spells: its code or kind is not known, or it is a RAISE or
a RETIRE of a fixed kind, which the same checks turn away (R184). Any other pair of a known code and kind is
another row and has no effect here (log entry 22). -/
def State.unknown (code kind : Byte) (r : Req) (s : State) : State :=
  if !rowless code kind then s
  else
    s.serve r fun st t =>
      ({ status := t.unknownStop st code, reason := none, kind := kind, index := r.index, issue := r.issue,
         fields := [] }, t)

/-! ## AMEND and RETIRE -/

/-- The owner of the kind takes an AMEND (R184, R185). -/
def State.amendReq (limitIn : Bool) (q : Ask) (s : State) : Verdict :=
  match q.kind with
  | .perf => match entryOf 3 q.req.index with
      | some a => s.amendPerf q a
      | none => q.says .noRecord [] s
  | .hold => s.amendHoldReq q
  | .incident => s.amendIncidentReq q
  | .zone => match entryOf 24 q.req.index with
      | some z => s.amendZone q z
      | none => q.says .noRecord [] s
  | .iron => match entryOf 3 q.req.index with
      | some ch => s.amendIron q ch limitIn
      | none => q.says .noRecord [] s
  | .group => match entryOf 12 q.req.index with
      | some g => s.amendGroup q g
      | none => q.says .noRecord [] s
  | .call => s.amendCallReq q
  | .czone => match entryOf 8 q.req.index with
      | some z => s.amendCZone q z
      | none => q.says .noRecord [] s
  | .circuit => match entryOf 16 q.req.index with
      | some c => s.amendCircuit q c
      | none => q.says .noRecord [] s
  | .status => s.amendStatus q
  | .station => match entryOf 8 q.req.index with
      | some n => s.amendStation q n
      | none => q.says .noRecord [] s

/-- Serve an AMEND. -/
def State.amend (kind : Kind) (r : Req) (limitIn : Bool) (s : State) : State :=
  s.request .amend kind r (State.amendReq limitIn)

/-- Serve an AMEND whose row names one of its fields. -/
def State.amendWith (kind : Kind) (id value : Nat) (a : AmendReq) (s : State) : State :=
  s.amend kind (a.withField (BitVec.ofNat 8 id) (BitVec.ofNat 16 value)) false

/-! ## Frames that are no good request (R180, R181) -/

/-- A frame received whole for the part with a bad CRC or station number counts as a frame error
(R181). -/
def State.frameJudged (chars : List Byte) (s : State) : State :=
  if s.listening && frameIsError s.settings.part.address chars then s.frameFails else s

/-- A discarded frame counts as a frame error once its address has been received and is the part's
(R180). -/
def State.frameDropped (chars : List Byte) (s : State) : State :=
  if s.listening && addressed s.settings.part.address chars then s.frameFails else s

/-- The last character of the reply has gone: the driver is disabled and the receiver reopens (R179). -/
def State.replyEnds (s : State) : State := { s with link := { s.link with reply := none } }

/-- An event of the plant or of a timer: the part takes it while it is powered (R178). -/
def State.takes (s : State) (f : State → State) : Host.Outcome State Fault Refusal :=
  .next (if s.powered then f s else s)

end Sys2Proof.Machine
end

