-- ==== Sys2Proof/Machine/LinkEvents.lean ====
section
/-!
DEFINITION. The meanings of the link events and of the end of a STORE.
-/

namespace Sys2Proof.Machine

/-- FRAME_ERROR (R181: counted where its CRC or station number is bad). -/
def execFrameError (chars : List Byte) (s : State) : Host.Outcome State Fault Refusal :=
  .next (s.frameJudged chars)

/-- FRAME_DISCARDED (R180: at a broken character or a field count above 24). -/
def execFrameDiscarded (chars : List Byte) (s : State) : Host.Outcome State Fault Refusal :=
  .next (s.frameDropped chars)

/-- FRAME_GAP_TIMEOUT (R180: more than 5 ms between two characters). -/
def execFrameGapTimeout (chars : List Byte) (s : State) : Host.Outcome State Fault Refusal :=
  .next (s.frameDropped chars)

/-- FRAME_FOR_OTHER_ADDRESS (R181: ignored and not counted). -/
def execFrameForOtherAddress (_chars : List Byte) (s : State) : Host.Outcome State Fault Refusal :=
  .next s

/-- REPLY_END (R179). -/
def execReplyEnd (s : State) : Host.Outcome State Fault Refusal :=
  s.takes State.replyEnds

/-- STORE_COMPLETE (R198). -/
def execStoreComplete (s : State) : Host.Outcome State Fault Refusal :=
  s.takes State.storeCompletes

end Sys2Proof.Machine
end

