-- ==== Sys2Proof/Machine/PlantEvents.lean ====
section
/-!
DEFINITION. The meanings of the events of the plant, of the timers and of the starts.
-/

namespace Sys2Proof.Machine

/-- ENCODER_COUNT (R46, R49, R52). -/
def execEncoderCount (ch : Fin 3) (up : Bool) (s : State) : Host.Outcome State Fault Refusal :=
  s.takes (State.countEncoder ch up)

/-- INDEX_EVENT (R50). -/
def execIndexEvent (ch : Fin 3) (s : State) : Host.Outcome State Fault Refusal :=
  s.takes (State.indexSeen ch)

/-- LIMIT_IN_EVENT (R51, R58..R60). -/
def execLimitInEvent (ch : Fin 3) (s : State) : Host.Outcome State Fault Refusal :=
  s.takes (State.limitInMade ch)

/-- LIMIT_OUT_EVENT (R44, R51). -/
def execLimitOutEvent (ch : Fin 3) (s : State) : Host.Outcome State Fault Refusal :=
  s.takes (State.limitOutMade ch)

/-- LOCAL_RELEASE_PRESS (R41). -/
def execLocalReleasePress (ch : Fin 3) (s : State) : Host.Outcome State Fault Refusal :=
  s.takes (State.pressRelease ch)

/-- LOCAL_RELEASE_LET_GO (R41). -/
def execLocalReleaseLetGo (ch : Fin 3) (s : State) : Host.Outcome State Fault Refusal :=
  s.takes (State.letGoRelease ch)

/-- DESCENT_SAMPLE (R53..R57). -/
def execDescentSample (ch : Fin 3) (s : State) : Host.Outcome State Fault Refusal :=
  s.takes (State.sample ch)

/-- STALL (R56). -/
def execStall (ch : Fin 3) (s : State) : Host.Outcome State Fault Refusal :=
  s.takes (State.stallSample ch)

/-- TOO_SLOW (R57). -/
def execTooSlow (ch : Fin 3) (s : State) : Host.Outcome State Fault Refusal :=
  s.takes (State.slowSample ch)

/-- RAISE_TIMEOUT (R45). -/
def execRaiseTimeout (ch : Fin 3) (s : State) : Host.Outcome State Fault Refusal :=
  s.takes (State.raiseTimesOut ch)

/-- BAND_EVENT (R64). -/
def execBandEvent (z : Fin 24) (band : Band) (s : State) : Host.Outcome State Fault Refusal :=
  s.takes (State.bandChanges z band)

/-- CONFIRM_TIMER_EXPIRY (R69). -/
def execConfirmTimerExpiry (z : Fin 24) (s : State) : Host.Outcome State Fault Refusal :=
  if s.powered then s.confirms z else .next s

/-- QUIET_TIMER_EXPIRY (R72). -/
def execQuietTimerExpiry (z : Fin 24) (s : State) : Host.Outcome State Fault Refusal :=
  s.takes (State.quietRuns z)

/-- LOOP_TIMER_EXPIRY (R74). -/
def execLoopTimerExpiry (z : Fin 24) (s : State) : Host.Outcome State Fault Refusal :=
  s.takes (State.loopRuns z)

/-- ACKNOWLEDGE_TIMER_EXPIRY (R90). -/
def execAcknowledgeTimerExpiry (i : Fin 25) (s : State) : Host.Outcome State Fault Refusal :=
  s.takes (State.ackRunsOut i)

/-- INVESTIGATION_TIMER_EXPIRY (R92). -/
def execInvestigationTimerExpiry (i : Fin 25) (s : State) : Host.Outcome State Fault Refusal :=
  s.takes (State.investigationRunsOut i)

/-- FADE_STEP (R110). -/
def execFadeStep (s : State) : Host.Outcome State Fault Refusal :=
  s.takes State.fadeEngineStep

/-- FADE_COMPLETE (R110). -/
def execFadeComplete (g : Fin 12) (s : State) : Host.Outcome State Fault Refusal :=
  s.takes (State.fadeEnds g)

/-- NOT_BEFORE_DUE (R140). -/
def execNotBeforeDue (c : Fin 32) (z : Fin 8) (s : State) : Host.Outcome State Fault Refusal :=
  s.takes (State.notBeforePasses c z)

/-- STROKE_ON_ELAPSED (R142). -/
def execStrokeOnElapsed (z : Fin 8) (s : State) : Host.Outcome State Fault Refusal :=
  s.takes (State.strokeOnRuns z)

/-- STROKE_GAP_ELAPSED (R142). -/
def execStrokeGapElapsed (z : Fin 8) (s : State) : Host.Outcome State Fault Refusal :=
  s.takes (State.strokeGapRuns z)

/-- BURST_END (R143). -/
def execBurstEnd (z : Fin 8) (s : State) : Host.Outcome State Fault Refusal :=
  s.takes (State.burstRuns z)

/-- PATTERN_PART_END (R157). -/
def execPatternPartEnd (c : Fin 16) (s : State) : Host.Outcome State Fault Refusal :=
  s.takes (State.patternRuns c)

/-- TEST_TIMER_EXPIRY (R158). -/
def execTestTimerExpiry (c : Fin 16) (loadSeen : Bool) (s : State) : Host.Outcome State Fault Refusal :=
  s.takes (State.testRuns c loadSeen)

/-- OVERLOAD_EVENT (R159). -/
def execOverloadEvent (c : Fin 16) (s : State) : Host.Outcome State Fault Refusal :=
  s.takes (State.overloads c)

/-- RETRY_TIMER_EXPIRY (R160). -/
def execRetryTimerExpiry (c : Fin 16) (s : State) : Host.Outcome State Fault Refusal :=
  s.takes (State.retryRuns c)

/-- CLEAN_TIMER_EXPIRY (R160). -/
def execCleanTimerExpiry (c : Fin 16) (s : State) : Host.Outcome State Fault Refusal :=
  s.takes (State.cleanRuns c)

/-- OFF_TIMER_EXPIRY (R161). -/
def execOffTimerExpiry (c : Fin 16) (s : State) : Host.Outcome State Fault Refusal :=
  s.takes (State.offRuns c)

/-- MAINS_SENSE_CHANGE (R168, R169). -/
def execMainsSenseChange (present : Bool) (s : State) : Host.Outcome State Fault Refusal :=
  s.takes (State.mainsLine present)

/-- LOSS_TIMER_EXPIRY (R168). -/
def execLossTimerExpiry (s : State) : Host.Outcome State Fault Refusal :=
  s.takes State.lossRuns

/-- SETTLING_TIMER_EXPIRY (R169). -/
def execSettlingTimerExpiry (s : State) : Host.Outcome State Fault Refusal :=
  s.takes State.settlingRuns

/-- SUPPLY_LOW_LINE_CHANGE (R171). -/
def execSupplyLowLineChange (asserted : Bool) (s : State) : Host.Outcome State Fault Refusal :=
  s.takes (State.supplyLine asserted)

/-- SAFETY_SUPPLY_TIMER_EXPIRY (R171). -/
def execSafetySupplyTimerExpiry (s : State) : Host.Outcome State Fault Refusal :=
  s.takes State.safetyRuns

/-- CELL_SENSE_CHANGE (R172). -/
def execCellSenseChange (good : Bool) (s : State) : Host.Outcome State Fault Refusal :=
  s.takes (State.cellLine good)

/-- CELL_TIMER_EXPIRY (R172). -/
def execCellTimerExpiry (s : State) : Host.Outcome State Fault Refusal :=
  s.takes State.cellRuns

/-- COLD_START (R174, R175). -/
def execColdStart (p : Plant) (s : State) : Host.Outcome State Fault Refusal :=
  .next (s.start p false)

/-- RESET_PIN (R174, R175). -/
def execResetPin (p : Plant) (s : State) : Host.Outcome State Fault Refusal :=
  s.takes (State.start p true)

/-- POWER_FAIL (R178). -/
def execPowerFail (s : State) : Host.Outcome State Fault Refusal :=
  s.takes State.failPower

end Sys2Proof.Machine
end

