-- ==== Sys2Proof/Machine/Requests.lean ====
section
/-!
DEFINITION. The meanings of the requests of a station: one definition per row of the table, over the link
port's shared operations (Link.lean).
-/

namespace Sys2Proof.Machine

/-- LOOK (R184, R189). -/
def execLook (kind : Kind) (r : Req) (s : State) : Host.Outcome State Fault Refusal :=
  .next (s.look kind r)

/-- SUMMARY (R188). -/
def execSummary (kind : Kind) (r : Req) (s : State) : Host.Outcome State Fault Refusal :=
  .next (s.request .summary kind r State.summaryReq)

/-- STORE (R198). -/
def execStore (kind : Kind) (r : Req) (s : State) : Host.Outcome State Fault Refusal :=
  .next (s.request .store kind r State.storeReq)

/-- RESTART (R176). -/
def execRestart (kind : Kind) (r : Req) (loads : BitVec 16) (s : State) : Host.Outcome State Fault Refusal :=
  .next (s.request .restart kind r (State.restartReq loads))

/-- UNKNOWN_REQUEST (R184). -/
def execUnknownRequest (code kind : Byte) (r : Req) (s : State) : Host.Outcome State Fault Refusal :=
  .next (s.unknown code kind r)

/-- AMEND_PHASE_PREPARE (R7). -/
def execAmendPhasePrepare (a : AmendReq) (s : State) : Host.Outcome State Fault Refusal :=
  .next (s.amendWith .perf 32 1 a)

/-- AMEND_PHASE_HOUSE_OPEN (R8). -/
def execAmendPhaseHouseOpen (a : AmendReq) (s : State) : Host.Outcome State Fault Refusal :=
  .next (s.amendWith .perf 32 2 a)

/-- AMEND_PHASE_BEGINNERS (R9, R15). -/
def execAmendPhaseBeginners (a : AmendReq) (s : State) : Host.Outcome State Fault Refusal :=
  .next (s.amendWith .perf 32 3 a)

/-- AMEND_PHASE_RUNNING (R10). -/
def execAmendPhaseRunning (a : AmendReq) (s : State) : Host.Outcome State Fault Refusal :=
  .next (s.amendWith .perf 32 4 a)

/-- AMEND_PHASE_INTERVAL (R11). -/
def execAmendPhaseInterval (a : AmendReq) (s : State) : Host.Outcome State Fault Refusal :=
  .next (s.amendWith .perf 32 5 a)

/-- AMEND_PHASE_CLOSING (R12, R16). -/
def execAmendPhaseClosing (a : AmendReq) (s : State) : Host.Outcome State Fault Refusal :=
  .next (s.amendWith .perf 32 6 a)

/-- AMEND_PHASE_HALTED (R13). -/
def execAmendPhaseHalted (a : AmendReq) (s : State) : Host.Outcome State Fault Refusal :=
  .next (s.amendWith .perf 32 7 a)

/-- AMEND_PHASE_DARK (R17, R18). -/
def execAmendPhaseDark (a : AmendReq) (s : State) : Host.Outcome State Fault Refusal :=
  .next (s.amendWith .perf 32 0 a)

/-- SETTINGS_AMENDMENT (R194). -/
def execSettingsAmendment (kind : Kind) (r : Req) (limitIn : Bool) (s : State) :
    Host.Outcome State Fault Refusal :=
  .next (s.amend kind r limitIn)

/-- COMMISSIONING_LOCK (R196). -/
def execCommissioningLock (a : AmendReq) (value : Word) (s : State) : Host.Outcome State Fault Refusal :=
  .next (s.amendWith .status 42 value.toNat a)

/-- RAISE_HOLD (R21). -/
def execRaiseHold (r : Req) (s : State) : Host.Outcome State Fault Refusal :=
  .next (s.request .raise .hold r State.raiseHoldReq)

/-- RETIRE_HOLD (R22). -/
def execRetireHold (r : Req) (s : State) : Host.Outcome State Fault Refusal :=
  .next (s.request .retire .hold r State.retireHoldReq)

/-- RAISE_INCIDENT (R87, R88). -/
def execRaiseIncident (r : Req) (s : State) : Host.Outcome State Fault Refusal :=
  .next (s.request .raise .incident r State.raiseIncidentReq)

/-- ACKNOWLEDGE (R91). -/
def execAcknowledge (a : AmendReq) (s : State) : Host.Outcome State Fault Refusal :=
  .next (s.amendWith .incident 128 1 a)

/-- AMEND_INCIDENT_STAGE (R93). -/
def execAmendIncidentStage (a : AmendReq) (stage : Word) (s : State) : Host.Outcome State Fault Refusal :=
  .next (s.amendWith .incident 129 stage.toNat a)

/-- SILENCE (R97). -/
def execSilence (a : AmendReq) (s : State) : Host.Outcome State Fault Refusal :=
  .next (s.amendWith .incident 130 1 a)

/-- RETIRE_INCIDENT (R100). -/
def execRetireIncident (r : Req) (s : State) : Host.Outcome State Fault Refusal :=
  .next (s.request .retire .incident r State.retireIncidentReq)

/-- DEMAND_OUT (R38). -/
def execDemandOut (a : AmendReq) (s : State) : Host.Outcome State Fault Refusal :=
  .next (s.amendWith .iron 37 1 a)

/-- DEMAND_IN (R39). -/
def execDemandIn (a : AmendReq) (s : State) : Host.Outcome State Fault Refusal :=
  .next (s.amendWith .iron 37 0 a)

/-- CLEAR_FAULT (R61). -/
def execClearFault (a : AmendReq) (s : State) : Host.Outcome State Fault Refusal :=
  .next (s.amendWith .iron 128 1 a)

/-- ISOLATE (R76). -/
def execIsolate (a : AmendReq) (s : State) : Host.Outcome State Fault Refusal :=
  .next (s.amendWith .zone 36 1 a)

/-- RESTORE_ZONE (R76). -/
def execRestoreZone (a : AmendReq) (s : State) : Host.Outcome State Fault Refusal :=
  .next (s.amendWith .zone 36 0 a)

/-- RESET_NOISE (R73). -/
def execResetNoise (a : AmendReq) (s : State) : Host.Outcome State Fault Refusal :=
  .next (s.amendWith .zone 128 1 a)

/-- AMEND_TARGET (R107, R108). -/
def execAmendTarget (a : AmendReq) (target : Word) (s : State) : Host.Outcome State Fault Refusal :=
  .next (s.amendWith .group 33 target.toNat a)

/-- RAISE_CALL (R134..R136). -/
def execRaiseCall (r : Req) (s : State) : Host.Outcome State Fault Refusal :=
  .next (s.request .raise .call r State.raiseCallReq)

/-- AMEND_CALL (R138). -/
def execAmendCall (r : Req) (s : State) : Host.Outcome State Fault Refusal :=
  .next (s.request .amend .call r State.amendCallReq)

/-- RETIRE_CALL (R139). -/
def execRetireCall (r : Req) (s : State) : Host.Outcome State Fault Refusal :=
  .next (s.request .retire .call r State.retireCallReq)

/-- RESET_CIRCUIT (R163). -/
def execResetCircuit (a : AmendReq) (s : State) : Host.Outcome State Fault Refusal :=
  .next (s.amendWith .circuit 128 1 a)

/-- AMEND_HOLD (R20). -/
def execAmendHold (r : Req) (s : State) : Host.Outcome State Fault Refusal :=
  .next (s.request .amend .hold r State.amendHoldReq)

end Sys2Proof.Machine
end

