-- ==== Sys2Proof/Machine/Dispatch.lean ====
section
/-!
DEFINITION. What each command does to everything but the queue: one arm per command.
-/

namespace Sys2Proof.Machine

def exec (i : Instr) (s : State) : Host.Outcome State Fault Refusal :=
  match i with
  | .look kind r => Sys2Proof.Machine.execLook kind r s
  | .summary kind r => Sys2Proof.Machine.execSummary kind r s
  | .store kind r => Sys2Proof.Machine.execStore kind r s
  | .restart kind r loads => Sys2Proof.Machine.execRestart kind r loads s
  | .unknownRequest code kind r => Sys2Proof.Machine.execUnknownRequest code kind r s
  | .amendPhasePrepare a => Sys2Proof.Machine.execAmendPhasePrepare a s
  | .amendPhaseHouseOpen a => Sys2Proof.Machine.execAmendPhaseHouseOpen a s
  | .amendPhaseBeginners a => Sys2Proof.Machine.execAmendPhaseBeginners a s
  | .amendPhaseRunning a => Sys2Proof.Machine.execAmendPhaseRunning a s
  | .amendPhaseInterval a => Sys2Proof.Machine.execAmendPhaseInterval a s
  | .amendPhaseClosing a => Sys2Proof.Machine.execAmendPhaseClosing a s
  | .amendPhaseHalted a => Sys2Proof.Machine.execAmendPhaseHalted a s
  | .amendPhaseDark a => Sys2Proof.Machine.execAmendPhaseDark a s
  | .settingsAmendment kind r limitIn => Sys2Proof.Machine.execSettingsAmendment kind r limitIn s
  | .commissioningLock a value => Sys2Proof.Machine.execCommissioningLock a value s
  | .raiseHold r => Sys2Proof.Machine.execRaiseHold r s
  | .retireHold r => Sys2Proof.Machine.execRetireHold r s
  | .raiseIncident r => Sys2Proof.Machine.execRaiseIncident r s
  | .acknowledge a => Sys2Proof.Machine.execAcknowledge a s
  | .amendIncidentStage a stage => Sys2Proof.Machine.execAmendIncidentStage a stage s
  | .silence a => Sys2Proof.Machine.execSilence a s
  | .retireIncident r => Sys2Proof.Machine.execRetireIncident r s
  | .demandOut a => Sys2Proof.Machine.execDemandOut a s
  | .demandIn a => Sys2Proof.Machine.execDemandIn a s
  | .clearFault a => Sys2Proof.Machine.execClearFault a s
  | .isolate a => Sys2Proof.Machine.execIsolate a s
  | .restoreZone a => Sys2Proof.Machine.execRestoreZone a s
  | .resetNoise a => Sys2Proof.Machine.execResetNoise a s
  | .amendTarget a target => Sys2Proof.Machine.execAmendTarget a target s
  | .raiseCall r => Sys2Proof.Machine.execRaiseCall r s
  | .amendCall r => Sys2Proof.Machine.execAmendCall r s
  | .retireCall r => Sys2Proof.Machine.execRetireCall r s
  | .resetCircuit a => Sys2Proof.Machine.execResetCircuit a s
  | .frameError chars => Sys2Proof.Machine.execFrameError chars s
  | .frameDiscarded chars => Sys2Proof.Machine.execFrameDiscarded chars s
  | .frameGapTimeout chars => Sys2Proof.Machine.execFrameGapTimeout chars s
  | .frameForOtherAddress chars => Sys2Proof.Machine.execFrameForOtherAddress chars s
  | .storeComplete => Sys2Proof.Machine.execStoreComplete s
  | .encoderCount ch up => Sys2Proof.Machine.execEncoderCount ch up s
  | .indexEvent ch => Sys2Proof.Machine.execIndexEvent ch s
  | .limitInEvent ch => Sys2Proof.Machine.execLimitInEvent ch s
  | .limitOutEvent ch => Sys2Proof.Machine.execLimitOutEvent ch s
  | .localReleasePress ch => Sys2Proof.Machine.execLocalReleasePress ch s
  | .localReleaseLetGo ch => Sys2Proof.Machine.execLocalReleaseLetGo ch s
  | .descentSample ch => Sys2Proof.Machine.execDescentSample ch s
  | .stall ch => Sys2Proof.Machine.execStall ch s
  | .tooSlow ch => Sys2Proof.Machine.execTooSlow ch s
  | .raiseTimeout ch => Sys2Proof.Machine.execRaiseTimeout ch s
  | .bandEvent z band => Sys2Proof.Machine.execBandEvent z band s
  | .confirmTimerExpiry z => Sys2Proof.Machine.execConfirmTimerExpiry z s
  | .quietTimerExpiry z => Sys2Proof.Machine.execQuietTimerExpiry z s
  | .loopTimerExpiry z => Sys2Proof.Machine.execLoopTimerExpiry z s
  | .acknowledgeTimerExpiry slot => Sys2Proof.Machine.execAcknowledgeTimerExpiry slot s
  | .investigationTimerExpiry slot => Sys2Proof.Machine.execInvestigationTimerExpiry slot s
  | .fadeStep => Sys2Proof.Machine.execFadeStep s
  | .fadeComplete g => Sys2Proof.Machine.execFadeComplete g s
  | .notBeforeDue c z => Sys2Proof.Machine.execNotBeforeDue c z s
  | .strokeOnElapsed z => Sys2Proof.Machine.execStrokeOnElapsed z s
  | .strokeGapElapsed z => Sys2Proof.Machine.execStrokeGapElapsed z s
  | .burstEnd z => Sys2Proof.Machine.execBurstEnd z s
  | .patternPartEnd c => Sys2Proof.Machine.execPatternPartEnd c s
  | .testTimerExpiry c loadSeen => Sys2Proof.Machine.execTestTimerExpiry c loadSeen s
  | .overloadEvent c => Sys2Proof.Machine.execOverloadEvent c s
  | .retryTimerExpiry c => Sys2Proof.Machine.execRetryTimerExpiry c s
  | .cleanTimerExpiry c => Sys2Proof.Machine.execCleanTimerExpiry c s
  | .offTimerExpiry c => Sys2Proof.Machine.execOffTimerExpiry c s
  | .mainsSenseChange present => Sys2Proof.Machine.execMainsSenseChange present s
  | .lossTimerExpiry => Sys2Proof.Machine.execLossTimerExpiry s
  | .settlingTimerExpiry => Sys2Proof.Machine.execSettlingTimerExpiry s
  | .supplyLowLineChange asserted => Sys2Proof.Machine.execSupplyLowLineChange asserted s
  | .safetySupplyTimerExpiry => Sys2Proof.Machine.execSafetySupplyTimerExpiry s
  | .cellSenseChange good => Sys2Proof.Machine.execCellSenseChange good s
  | .cellTimerExpiry => Sys2Proof.Machine.execCellTimerExpiry s
  | .coldStart p => Sys2Proof.Machine.execColdStart p s
  | .resetPin p => Sys2Proof.Machine.execResetPin p s
  | .powerFail => Sys2Proof.Machine.execPowerFail s
  | .replyEnd => Sys2Proof.Machine.execReplyEnd s
  | .amendHold r => Sys2Proof.Machine.execAmendHold r s

end Sys2Proof.Machine
end

