-- ==== Sys2Proof/Machine/Step.lean ====
section
/-!
DEFINITION. The step: the command at the front of the queue, or a millisecond of waiting.
-/

namespace Sys2Proof.Machine

/-- The state without the command at the front of its queue. -/
def State.withRest (s : State) (rest : List Instr) : State := { s with pending := rest }

/-- Nothing is commanded: a millisecond of the model's clock passes while the part is powered. DESIGN
CHOICE (log entry 25). -/
def State.idle (s : State) : State := if s.powered then { s with now := s.now + 1 } else s

/-- One step: the first waiting command is taken whole, at one event (00, "How time is told"). -/
def step (s : State) : Host.Outcome State Fault Refusal :=
  match s.pending with
  | [] => .next s.idle
  | i :: rest => exec i (s.withRest rest)

/-- The command a word spells, put at the front of the queue; no row of the table gives bits, so no
word spells one. -/
def State.withFetchWord (s : State) (nbits w : Nat) : State :=
  match decodeTableWord nbits w with
  | none => s
  | some i => { s with pending := i :: s.pending }

end Sys2Proof.Machine
end

