-- ==== Sys2Proof/Safety.lean ====
section
/-!
DEFINITION. The terms in which claims are made: the parts of the state and what a command leaves
unchanged, requests that are heard, replies, and the laws the part keeps at every step.
-/

namespace Sys2Proof.Machine

/-! ## Frames -/

/-- The parts of the state that a frame names. -/
inductive Part
  | power | clock | choices | settings | image | store | perfs | holds | irons | zones | incidents
  | groups | flickers | grid | lit | calls | czones | circuits | supply | retained | lines | link
  | stations | pending
  deriving DecidableEq, Repr

/-- Two states agree on a part. -/
def Part.same (p : Part) (s t : State) : Prop :=
  match p with
  | .power => t.powered = s.powered
  | .clock => t.now = s.now
  | .choices => t.draws = s.draws
  | .settings => t.settings = s.settings
  | .image => t.image = s.image ∧ t.imageGood = s.imageGood
  | .store => t.store = s.store
  | .perfs => t.perfs = s.perfs
  | .holds => t.holds = s.holds ∧ t.holdLists = s.holdLists
  | .irons => t.irons = s.irons
  | .zones => t.zones = s.zones
  | .incidents => t.incidents = s.incidents ∧ t.incidentList = s.incidentList
  | .groups => t.groups = s.groups
  | .flickers => t.flickers = s.flickers
  | .grid => t.fadeAt = s.fadeAt
  | .lit => t.lit = s.lit
  | .calls => t.calls = s.calls ∧ t.callList = s.callList
  | .czones => t.czones = s.czones
  | .circuits => t.circuits = s.circuits
  | .supply => t.supply = s.supply
  | .retained => t.retained = s.retained
  | .lines => t.lines = s.lines
  | .link => t.link = s.link
  | .stations => t.stations = s.stations
  | .pending => t.pending = s.pending

/-- Between `s` and `t` nothing has changed outside the parts `ps`. -/
structure ChangesOnly (ps : List Part) (s t : State) : Prop where
  same : ∀ p, p ∉ ps → p.same s t

/-- Of a table, only entry `i` has changed. -/
def OnlyAt {α : Type} {n : Nat} (i : Fin n) (v w : Vector α n) : Prop := ∀ j : Fin n, j ≠ i → w[j] = v[j]

/-- What a burst of a call can change: deliveries, call zones, chimes, and flickered groups. -/
def burstParts : List Part := [.calls, .czones, .circuits, .groups, .flickers, .stations]

/-- What a change of the force causes can change: `burstParts` and the lit state. -/
def lightParts : List Part := [.lit, .calls, .czones, .circuits, .groups, .flickers, .stations]

/-- What every request can change: the link, the flags, and the holds for a link that recovers. -/
def requestParts : List Part := [.link, .holds, .stations]

/-- What an announcement of incidents can change. -/
def incidentParts : List Part :=
  [.incidents, .choices, .holds, .perfs, .retained, .irons, .lit, .calls, .czones, .circuits, .groups,
   .flickers, .stations]

/-- What a start can change. -/
def startParts : List Part :=
  [.power, .clock, .settings, .store, .perfs, .holds, .irons, .zones, .incidents, .groups, .flickers,
   .grid, .lit, .calls, .czones, .circuits, .supply, .retained, .lines, .link, .stations]

/-- The parts of the state that each command can change; every other part is left as it was. -/
def touches : Instr → List Part
  | .look _ _ => requestParts
  | .summary _ _ => requestParts
  | .store _ _ => [.link, .holds, .stations, .store, .image]
  | .restart _ _ _ => [.link, .holds, .stations, .supply, .zones, .irons] ++ lightParts
  | .unknownRequest _ _ _ => requestParts
  | .amendPhasePrepare _ => [.link, .holds, .perfs, .retained] ++ lightParts
  | .amendPhaseHouseOpen _ => [.link, .holds, .perfs, .retained] ++ lightParts
  | .amendPhaseBeginners _ => [.link, .holds, .perfs, .retained] ++ lightParts
  | .amendPhaseRunning _ => [.link, .holds, .perfs, .retained] ++ lightParts
  | .amendPhaseInterval _ => [.link, .holds, .perfs, .retained] ++ lightParts
  | .amendPhaseClosing _ => [.link, .holds, .perfs, .retained] ++ lightParts
  | .amendPhaseHalted _ => [.link, .holds, .perfs, .retained] ++ lightParts
  | .amendPhaseDark _ => [.link, .holds, .perfs, .retained] ++ lightParts
  | .settingsAmendment _ _ _ => [.link, .settings, .store, .zones] ++ incidentParts
  | .commissioningLock _ _ => [.link, .holds, .stations, .settings, .store, .circuits]
  | .raiseHold _ => requestParts
  | .retireHold _ => requestParts
  | .raiseIncident _ => .link :: incidentParts
  | .acknowledge _ => [.link, .holds, .stations, .incidents, .circuits]
  | .amendIncidentStage _ _ => .link :: incidentParts
  | .silence _ => [.link, .holds, .stations, .incidents, .circuits]
  | .retireIncident _ => [.link, .holds, .incidents, .zones] ++ lightParts
  | .demandOut _ => [.link, .holds, .stations, .irons]
  | .demandIn _ => [.link, .holds, .stations, .irons]
  | .clearFault _ => [.link, .holds, .stations, .irons, .settings, .store]
  | .isolate _ => [.link, .holds, .zones, .settings, .store] ++ burstParts
  | .restoreZone _ => [.link, .holds, .zones, .settings, .store] ++ burstParts
  | .resetNoise _ => [.link, .holds, .zones, .settings, .store] ++ burstParts
  | .amendTarget _ _ => [.link, .holds, .stations, .groups]
  | .raiseCall _ => [.link, .holds] ++ burstParts
  | .amendCall _ => [.link, .holds] ++ burstParts
  | .retireCall _ => [.link, .holds] ++ burstParts
  | .resetCircuit _ => [.link, .holds, .settings, .store] ++ burstParts
  | .frameError _ => requestParts
  | .frameDiscarded _ => requestParts
  | .frameGapTimeout _ => requestParts
  | .frameForOtherAddress _ => []
  | .storeComplete => [.image, .store, .stations]
  | .encoderCount _ _ => [.irons, .holds, .stations]
  | .indexEvent _ => [.irons, .holds, .stations]
  | .limitInEvent _ => [.irons, .holds, .perfs, .retained, .stations]
  | .limitOutEvent _ => [.irons, .holds, .stations]
  | .localReleasePress _ => [.lines, .irons, .stations]
  | .localReleaseLetGo _ => [.lines, .irons, .stations]
  | .descentSample _ => [.clock, .irons, .holds, .stations]
  | .stall _ => [.clock, .irons, .holds, .stations]
  | .tooSlow _ => [.clock, .irons, .holds, .stations]
  | .raiseTimeout _ => [.clock, .irons, .holds, .stations]
  | .bandEvent _ _ => [.lines, .zones, .holds, .stations]
  | .confirmTimerExpiry _ => [.clock, .zones] ++ incidentParts
  | .quietTimerExpiry _ => [.clock, .zones, .holds, .stations]
  | .loopTimerExpiry _ => [.clock, .zones, .holds, .stations]
  | .acknowledgeTimerExpiry _ => .clock :: incidentParts
  | .investigationTimerExpiry _ => .clock :: incidentParts
  | .fadeStep => [.clock, .grid, .flickers, .groups, .stations]
  | .fadeComplete _ => [.clock, .grid, .flickers, .groups, .stations]
  | .notBeforeDue _ _ => .clock :: burstParts
  | .strokeOnElapsed _ => [.clock, .czones, .circuits, .stations]
  | .strokeGapElapsed _ => [.clock, .czones, .circuits, .stations]
  | .burstEnd _ => .clock :: burstParts
  | .patternPartEnd _ => [.clock, .circuits, .stations]
  | .testTimerExpiry _ _ => [.clock, .holds] ++ burstParts
  | .overloadEvent _ => .holds :: burstParts
  | .retryTimerExpiry _ => [.clock, .holds] ++ burstParts
  | .cleanTimerExpiry _ => [.clock, .holds] ++ burstParts
  | .offTimerExpiry _ => [.clock, .holds] ++ burstParts
  | .mainsSenseChange _ => [.lines, .supply, .irons, .holds] ++ lightParts
  | .lossTimerExpiry => [.clock, .supply, .irons, .holds] ++ lightParts
  | .settlingTimerExpiry => [.clock, .supply, .irons, .holds] ++ lightParts
  | .supplyLowLineChange _ => [.lines, .supply, .stations]
  | .safetySupplyTimerExpiry => [.clock, .supply, .holds, .stations]
  | .cellSenseChange _ => [.lines, .supply, .stations]
  | .cellTimerExpiry => [.clock, .supply, .retained, .stations]
  | .coldStart _ => startParts
  | .resetPin _ => startParts
  | .powerFail => [.power, .link]
  | .replyEnd => [.link]
  | .amendHold _ => requestParts

/-! ## Requests and replies -/

/-- The part is powered, its receiver is open, and the frame is a good one from station `st` (R178,
R179, R181). -/
def Heard (s : State) (r : Req) (st : Fin 8) : Prop :=
  s.powered = true ∧ s.link.reply = none ∧ r.fields.length ≤ 24 ∧ r.station.toNat = st.1 + 1

/-- As `Heard`, for an AMEND that carries the one field its row names, for the record `index` with
`issue`. -/
def HeardAlone (s : State) (a : AmendReq) (st : Fin 8) (index issue : Nat) : Prop :=
  s.powered = true ∧ s.link.reply = none ∧ a.before = [] ∧ a.after = [] ∧ a.station.toNat = st.1 + 1 ∧
    a.index.toNat = index ∧ a.issue.toNat = issue

/-- The reply being sent: the part's address, the station number of the request, and the rest as its
owner decides it (R183). -/
def Replies (t : State) (address : Nat) (station : Byte) (status : Status) (reason : Option Reason)
    (kind : Kind) (index issue : Nat) (fields : List FieldVal) : Prop :=
  t.link.reply = some
    { address := address, station := station, status := status, reason := reason,
      kind := BitVec.ofNat 8 (kindCode kind), index := BitVec.ofNat 8 index,
      issue := BitVec.ofNat 8 issue, fields := fields }

/-- The phase commands by the phase they ask for. -/
def phaseCommand : Phase → AmendReq → Instr
  | .dark => .amendPhaseDark
  | .prepare => .amendPhasePrepare
  | .houseOpen => .amendPhaseHouseOpen
  | .beginners => .amendPhaseBeginners
  | .running => .amendPhaseRunning
  | .interval => .amendPhaseInterval
  | .closing => .amendPhaseClosing
  | .halted => .amendPhaseHalted

/-- The commands that are a request of a known code and kind, with that code, kind and request. -/
def requestOf : Instr → Option (ReqCode × Kind × Req)
  | .look k r => some (.look, k, r)
  | .summary k r => some (.summary, k, r)
  | .store k r => some (.store, k, r)
  | .restart k r _ => some (.restart, k, r)
  | .amendPhasePrepare a => some (.amend, .perf, a.withField 32 1)
  | .amendPhaseHouseOpen a => some (.amend, .perf, a.withField 32 2)
  | .amendPhaseBeginners a => some (.amend, .perf, a.withField 32 3)
  | .amendPhaseRunning a => some (.amend, .perf, a.withField 32 4)
  | .amendPhaseInterval a => some (.amend, .perf, a.withField 32 5)
  | .amendPhaseClosing a => some (.amend, .perf, a.withField 32 6)
  | .amendPhaseHalted a => some (.amend, .perf, a.withField 32 7)
  | .amendPhaseDark a => some (.amend, .perf, a.withField 32 0)
  | .settingsAmendment k r _ => some (.amend, k, r)
  | .commissioningLock a v => some (.amend, .status, a.withField 42 v)
  | .raiseHold r => some (.raise, .hold, r)
  | .retireHold r => some (.retire, .hold, r)
  | .raiseIncident r => some (.raise, .incident, r)
  | .acknowledge a => some (.amend, .incident, a.withField 128 1)
  | .amendIncidentStage a v => some (.amend, .incident, a.withField 129 v)
  | .silence a => some (.amend, .incident, a.withField 130 1)
  | .retireIncident r => some (.retire, .incident, r)
  | .demandOut a => some (.amend, .iron, a.withField 37 1)
  | .demandIn a => some (.amend, .iron, a.withField 37 0)
  | .clearFault a => some (.amend, .iron, a.withField 128 1)
  | .isolate a => some (.amend, .zone, a.withField 36 1)
  | .restoreZone a => some (.amend, .zone, a.withField 36 0)
  | .resetNoise a => some (.amend, .zone, a.withField 128 1)
  | .amendTarget a v => some (.amend, .group, a.withField 33 v)
  | .raiseCall r => some (.raise, .call, r)
  | .amendCall r => some (.amend, .call, r)
  | .retireCall r => some (.retire, .call, r)
  | .resetCircuit a => some (.amend, .circuit, a.withField 128 1)
  | .amendHold r => some (.amend, .hold, r)
  | _ => none

/-! ## Records as a reply carries them (11, R200) -/

/-- The code of a value whose field lists its values in the order `names`, from 0 (R200). -/
def codeIn {α : Type} [DecidableEq α] (names : List α) (x : α) : Nat := names.idxOf x

/-- An entry number from 1, and 0 for none (R200). -/
def numberOf {n : Nat} (i : Option (Fin n)) : Nat := i.elim 0 fun a => a.1 + 1

/-- A time elapsed in tenths, stopping at 65534, and 0xFFFF for empty (R200); whole tenths by log entry 9. -/
def State.sinceOf (s : State) (t : Option Nat) : Nat := t.elim 0xFFFF fun a => min 65534 ((s.now - a) / 100)

/-- A time remaining in tenths, 0 once passed, and 0xFFFF for empty (R200); a tenth begun counts by log entry 9.
-/
def State.untilOf (s : State) (t : Option Nat) : Nat := t.elim 0xFFFF fun a => (a - s.now + 99) / 100

/-- The values of a phase field in the order of their codes. -/
def phaseNames : List Phase :=
  [.dark, .prepare, .houseOpen, .beginners, .running, .interval, .closing, .halted]

/-- The values of an iron fault field in the order of their codes. -/
def ironFaultNames : List (Option IronFault) :=
  [none, some .stall, some .drift, some .overspeed, some .checkFailure, some .tooSlow, some .raiseTimeout,
   some .direction]

/-- The ids and values of a PERF record. -/
def State.perfTable (s : State) (a : Fin 3) : List (Nat × Nat) :=
  let cfg := s.settings.perfs[a]
  let x := s.perfs[a]
  [(1, cfg.present.toNat), (2, cfg.occupiedMin), (3, cfg.presetLevel), (4, cfg.presetFade), (5, cfg.closingFade),
   (32, codeIn phaseNames x.phase), (33, x.act),
   (34, codeIn [.notRequired, .notYet, .proved, .failed] x.ironProved), (35, x.interrupted.toNat),
   (36, numberOf x.openedBy)]

/-- The detail of a hold's reason: the high byte says of what kind it is (R200). -/
def reasonNumber : HoldReason → Nat
  | .code n => n
  | .zone z => 0x0100 + (z.1 + 1)
  | .circuit c => 0x0200 + (c.1 + 1)
  | .ironFault f => 0x0300 + codeIn ironFaultNames (some f)
  | .proof => 0x0400
  | .mains => 0x0500
  | .safety => 0x0600
  | .link => 0x0700
  | .stationIncident st => 0x0800 + (st.1 + 1)

/-- The ids and values of a HOLD of auditorium `a`. -/
def holdTable (a : Fin 3) (x : Hold) : List (Nat × Nat) :=
  [(32, a.1 + 1), (33, x.origin.elim 9 fun st => st.1 + 1),
   (34, codeIn [.station, .iron, .fire, .supply, .system] x.cause), (35, reasonNumber x.reason)]

/-- The ids and values of an INCIDENT. -/
def State.incidentTable (s : State) (x : Incident) : List (Nat × Nat) :=
  [(32, match x.source with
     | .zone z => z.1 + 1
     | .station st => 0x0100 + (st.1 + 1)),
   (33, x.auds.toNat), (34, codeIn [.staff, .general] x.stage),
   (35, codeIn [none, some .direct, some .unoccupied, some .ackTimeout, some .investigationTimeout,
     some .secondZone, some .station, some .manual] x.cause),
   (36, numberOf x.ackBy), (37, x.silenced.toNat), (38, x.reactivations),
   (39, min 65535 ((s.now - x.raisedAt) / 1000)), (40, s.untilOf x.timerAt)]

/-- The ids and values of a ZONE record. -/
def State.zoneTable (s : State) (z : Fin 24) : List (Nat × Nat) :=
  let cfg := s.settings.zones[z]
  let x := s.zones[z]
  [(1, cfg.present.toNat), (2, codeIn [.detector, .callpoint, .interface] cfg.type), (3, cfg.stageHouse.toNat),
   (4, cfg.auds.toNat), (5, cfg.alarms.toNat), (6, cfg.callZones.toNat), (7, cfg.confirmTime),
   (8, cfg.directGeneral.toNat),
   (32, codeIn [.normal, .active, .openLoop, .short] x.band), (33, codeIn [.normal, .pending, .alarm] x.detection),
   (34, codeIn [.sound, .fault, .unstable, .isolated] x.condition), (35, x.loopFault.toNat),
   (36, x.isolated.toNat), (37, x.noise), (38, numberOf x.incident)]

/-- The ids and values of an IRON record. -/
def State.ironTable (s : State) (ch : Fin 3) : List (Nat × Nat) :=
  let cfg := s.settings.irons[ch]
  let x := s.irons[ch]
  [(1, cfg.present.toNat), (2, cfg.travel), (3, cfg.slowdown), (4, cfg.indexPos), (5, cfg.driftTol),
   (6, cfg.descentMin), (7, cfg.descentMax), (8, cfg.finalMin), (9, cfg.vFinalMax), (10, cfg.stallTime),
   (11, cfg.raiseMax),
   (32, codeIn [.atIn, .raising, .atOut, .stopped, .descending] x.motion),
   (33, codeIn [none, some .full, some .part] x.kind), (34, codeIn [none, some .free, some .checked] x.sub),
   (35, x.position), (36, x.referenced.toNat), (37, x.demandOut.toNat),
   (38, codeIn [none, some .demand, some .localRelease, some .fire, some .restart] x.reason),
   (39, codeIn [none, some .supply, some .timeout] x.stop), (40, codeIn ironFaultNames x.fault),
   (41, x.further.toNat), (42, x.pressed.toNat),
   (43, codeIn [none, some .proofPass, some .pass, some .tooFast, some .tooSlow, some .stall, some .overspeed,
     some .drift, some .partialEnd] x.result),
   (44, x.td), (45, x.tf)]

/-- The ids and values of a GROUP record. -/
def State.groupTable (s : State) (g : Fin 12) : List (Nat × Nat) :=
  let cfg := s.settings.groups[g]
  let x := s.groups[g]
  [(1, cfg.present.toNat), (2, codeIn [.house, .aisle, .foyer] cfg.kind), (3, cfg.aud.1 + 1),
   (4, cfg.callZone.1 + 1), (5, codeIn [.mains, .standby] cfg.feed), (6, codeIn [.linear, .square] cfg.law),
   (7, cfg.evacuation), (8, cfg.safetyMin), (9, cfg.dip), (10, cfg.restoreFade),
   (32, x.level), (33, x.target), (34, x.fading.toNat), (35, x.start), (36, x.steps), (37, x.step),
   (38, x.causes.toNat), (39, x.flickerActive.toNat), (40, x.driven), (41, x.drive)]

/-- The ids and values of a delivery: zone Fn has 64 + 8 × (n − 1) upward. -/
def State.deliveryTable (s : State) (d : Delivery) : List (Nat × Nat) :=
  let base := 64 + 8 * d.zone.1
  [(base, 1 + codeIn [.waiting, .sounding, .done, .undelivered, .abandoned, .overtaken] d.state),
   (base + 1, s.untilOf (if d.state = .waiting then some d.notBefore else none)), (base + 2, s.sinceOf d.lastStart),
   (base + 3, d.burstsLeft), (base + 4, d.degraded.toNat), (base + 5, d.resumes.toNat)]

/-- The ids and values of a CALL, its own fields and then those of its deliveries. -/
def State.callTable (s : State) (x : Call) : List (Nat × Nat) :=
  [(32, x.origin.1 + 1), (33, numberOf x.aud), (34, codeIn [.audience, .staff] x.purpose), (35, x.priority),
   (36, x.strokes), (37, x.bursts), (38, x.interval), (39, x.flicker),
   (40, x.deliveries.foldl (fun set d => set ||| 2 ^ d.zone.1) 0), (41, x.finished.toNat),
   (42, codeIn [none, some .complete, some .degraded, some .partly, some .abandoned, some .overtaken] x.outcome)] ++
  x.deliveries.flatMap s.deliveryTable

/-- The ids and values of a CZONE record, the last its queue from its head. -/
def State.czoneTable (s : State) (z : Fin 8) : List (Nat × Nat) :=
  let cfg := s.settings.czones[z]
  let x := s.czones[z]
  [(1, cfg.present.toNat), (2, cfg.serves.toNat), (3, cfg.strokeOn), (4, cfg.strokeGap),
   (32, numberOf x.sounding), (33, codeIn [none, some .chimeFlicker, some .chime, some .flicker] x.mode),
   (34, s.sinceOf x.burstStart), (35, x.strokesSounded), (36, x.suppressed.toNat), (37, x.barred.toNat),
   (38, x.flickerCode), (39, x.queue.length)] ++
  x.queue.mapIdx fun i c => (64 + i, c.1 + 1)

/-- The ids and values of a CIRCUIT record. -/
def State.circuitTable (s : State) (c : Fin 16) : List (Nat × Nat) :=
  let cfg := s.settings.circuits[c]
  let x := s.circuits[c]
  [(1, cfg.serves.toNat), (2, cfg.retry.toNat),
   (32, x.demand.toNat), (33, codeIn [.continuous, .fast, .slow] x.pattern), (34, x.drive.toNat),
   (35, codeIn [.sound, .openLoad, .overload, .failed] x.condition), (36, x.overloads)]

/-- The ids and values of the STATUS record. -/
def State.statusTable (s : State) : List (Nat × Nat) :=
  let cfg := s.settings.part
  [(1, cfg.address), (2, cfg.ackTime), (3, cfg.investTime), (4, cfg.brigadeLink.toNat),
   (32, 0x0003), (33, 3240), (34, Config.siliconRevision),
   (35, codeIn [.present, .lost, .settling] s.supply.mains), (36, s.supply.safetyLow.toNat),
   (37, s.supply.cellLow.toNat), (38, s.supply.retainedValid.toNat),
   (39, codeIn [.coldStart, .resetPin, .softRestart, .cellLost] s.supply.restartCause),
   (40, codeIn [.loaded, .defaults, .storing, .stored] s.store.state), (41, s.store.changed.toNat),
   (42, s.store.locked.toNat), (43, s.link.errors), (44, s.link.degraded.toNat)]

/-- The ids and values of a STATION record. -/
def State.stationTable (s : State) (n : Fin 8) : List (Nat × Nat) :=
  let cfg := s.settings.stations[n]
  [(1, codeIn [.none, .view, .stage, .foh, .fire, .engineer] cfg.role), (2, cfg.aud.1 + 1), (3, cfg.mask.toNat),
   (32, s.stations[n].flags.toNat), (33, s.stations[n].armed.toNat)]

/-- The record `index` of a kind: its issue, 0 for a fixed record, and its ids and values; none for an empty slot
and for an index that the kind does not have (R184, R200). -/
def State.table (s : State) (k : Kind) (index : Byte) : Option (Nat × List (Nat × Nat)) :=
  match k with
  | .perf => (entryOf 3 index).map fun a => (0, s.perfTable a)
  | .hold => (entryOf 24 index).bind fun i =>
      (s.hold? (holdAt i).1 (holdAt i).2).map fun x =>
        (s.holds[(holdAt i).1][(holdAt i).2].issue, holdTable (holdAt i).1 x)
  | .incident => (entryOf 25 index).bind fun i =>
      (s.incident? i).map fun x => (s.incidents[i].issue, s.incidentTable x)
  | .zone => (entryOf 24 index).map fun z => (0, s.zoneTable z)
  | .iron => (entryOf 3 index).map fun ch => (0, s.ironTable ch)
  | .group => (entryOf 12 index).map fun g => (0, s.groupTable g)
  | .call => (entryOf 32 index).bind fun c => (s.call? c).map fun x => (s.calls[c].issue, s.callTable x)
  | .czone => (entryOf 8 index).map fun z => (0, s.czoneTable z)
  | .circuit => (entryOf 16 index).map fun c => (0, s.circuitTable c)
  | .status => (entryOf 1 index).map fun _ => (0, s.statusTable)
  | .station => (entryOf 8 index).map fun n => (0, s.stationTable n)

/-- Ids and values as the fields of a frame (R200). -/
def inFrame (fs : List (Nat × Nat)) : List FieldVal :=
  fs.map fun f => ⟨BitVec.ofNat 8 f.1, BitVec.ofNat 16 f.2⟩

/-- The fields of record `index` of a kind as a reply carries them. -/
def State.reads (s : State) (k : Kind) (index : Byte) : List FieldVal :=
  (s.table k index).elim [] fun x => inFrame x.2

/-! ## Fields as an AMEND may carry them (11, R200, R201) -/

/-- The fields that an AMEND of a kind may carry, each with the least and the greatest value of its list or set; a
number that is brought into range may have any value (R3, R5, R33, R37, R65, R77, R84, R99, R104, R107, R128,
R138, R155, R163, R179, R186, R196). -/
def amendable (k : Kind) (index : Byte) : List (Nat × Nat × Nat) :=
  let number (id : Nat) : Nat × Nat × Nat := (id, 0, 65535)
  match k with
  | .perf => [(1, 0, 1), number 2, number 3, number 4, number 5, (32, 0, 7)]
  | .hold => []
  | .incident => [(128, 1, 1), (129, 0, 1), (130, 1, 1)]
  | .zone =>
      [(1, 0, 1), (2, 0, 2), (3, 0, 1), (4, 0, 7), (5, 0, 63), (6, 0, 255), number 7, (8, 0, 1), (36, 0, 1), (128, 1, 1)]
  | .iron =>
      [(1, 0, 1), number 2, number 3, number 4, number 5, number 6, number 7, number 8, number 9, number 10,
       number 11, (37, 0, 1), (128, 1, 1)]
  | .group =>
      [(1, 0, 1), (2, 0, 2), (3, 1, 3), (4, 1, 8), (5, 0, 1), (6, 0, 1), number 7, number 8, number 9, number 10,
       number 33, number 128]
  | .call => [(35, 0, 3), number 38]
  | .czone => [(1, 0, 1), (2, 0, 7), number 3, number 4]
  | .circuit => [(1, 0, if index.toNat ≤ 6 then 7 else 0), (2, 0, 1), (128, 1, 1)]
  | .status => [number 1, number 2, number 3, (4, 0, 1), (42, 0, 1)]
  | .station => [(1, 0, 5), (2, 1, 3), (3, 0, 2047)]

/-- A field that its rule refuses beside the others of the request: a second action on an IRON or an INCIDENT (R37,
R99), and a fade time without a target (R107). -/
def clashes (k : Kind) (fs : List FieldVal) (f : FieldVal) : Bool :=
  let before := (fs.takeWhile fun g => g.id != f.id).map fun g => g.id.toNat
  (k == .iron && ((f.id == 37 && before.contains 128) || (f.id == 128 && before.contains 37))) ||
    (k == .incident && 128 ≤ f.id.toNat && before.any fun id => 128 ≤ id && id ≤ 130) ||
    (k == .group && f.id == 128 && !(fs.any fun g => g.id == 33))

/-- What the form check of the record's owner finds in a field (R185, R194, R201). -/
def formOf (k : Kind) (index : Byte) (fs : List FieldVal) (f : FieldVal) : Option Flaw :=
  match (amendable k index).find? fun e => e.1 == f.id.toNat with
  | none => some .notAmendable
  | some (_, low, high) =>
      if low ≤ f.value.toNat ∧ f.value.toNat ≤ high ∧ clashes k fs f = false then none else some .badField

/-- A refused AMEND of the kind carries the record, by its owner's rule: where it carries the action or live field
of R5, R37, R107, and always on a ZONE, CIRCUIT or INCIDENT (R77, R99, R163); log entry 10. -/
def refusalShows (k : Kind) (fs : List FieldVal) : Bool :=
  match k with
  | .perf => fs.any fun f => f.id == 32
  | .iron => fs.any fun f => f.id == 37 || f.id == 128
  | .group => fs.any fun f => f.id == 33 || f.id == 128
  | .zone => true
  | .circuit => true
  | .incident => true
  | .hold => false
  | .call => false
  | .czone => false
  | .status => false
  | .station => false

/-- The reply to an AMEND whose first field at fault is `f`: BAD_FIELD, or NOT_AMENDABLE naming `f`; the record
`shown` follows where a refusal carries it. -/
def RepliesFlaw (t : State) (address : Nat) (station : Byte) (w : Flaw) (f : FieldVal) (k : Kind) (index issue : Nat)
    (shown : List FieldVal) : Prop :=
  (w = .badField → Replies t address station .badField none k index issue shown) ∧
    (w = .notAmendable → Replies t address station .refused (some .notAmendable) k index issue (f :: shown))

/-! ## Settings as an amendment leaves them -/

/-- The number a request asks for in a field, and `old` where it does not carry the field. -/
def asks (fs : List FieldVal) (id old : Nat) : Nat := (askedFor fs id).getD old

/-- A field that is yes or on at 1. -/
def asksYes (fs : List FieldVal) (id : Nat) (old : Bool) : Bool := ((askedFor fs id).map (· == 1)).getD old

/-- A field whose values `names` lists in the order of their codes, from 0. -/
def asksName {α : Type} (names : List α) (fs : List FieldVal) (id : Nat) (old : α) : α :=
  ((askedFor fs id).bind fun v => names[v]?).getD old

/-- A field that holds a set. -/
def asksSet {n : Nat} (fs : List FieldVal) (id : Nat) (old : BitVec n) : BitVec n :=
  ((askedFor fs id).map (BitVec.ofNat n)).getD old

/-- A field that holds an entry number from 1. -/
def asksEntry {n : Nat} (fs : List FieldVal) (id : Nat) (old : Fin n) : Fin n :=
  ((askedFor fs id).bind (entryNo n)).getD old

/-- PERF settings with the fields of a request written into them (R3). -/
def PerfSettings.asked (fs : List FieldVal) (x : PerfSettings) : PerfSettings where
  present := asksYes fs 1 x.present
  occupiedMin := asks fs 2 x.occupiedMin
  presetLevel := asks fs 3 x.presetLevel
  presetFade := asks fs 4 x.presetFade
  closingFade := asks fs 5 x.closingFade

/-- PERF settings in range, the preset level not below the occupied minimum (R3). -/
def PerfSettings.ranged (x : PerfSettings) : PerfSettings where
  present := x.present
  occupiedMin := min 1000 x.occupiedMin
  presetLevel := max (min 1000 x.occupiedMin) (min 1000 x.presetLevel)
  presetFade := min 600 x.presetFade
  closingFade := min 600 x.closingFade

/-- IRON settings with the fields of a request written into them (R33). -/
def IronSettings.asked (fs : List FieldVal) (x : IronSettings) : IronSettings where
  present := asksYes fs 1 x.present
  travel := asks fs 2 x.travel
  slowdown := asks fs 3 x.slowdown
  indexPos := asks fs 4 x.indexPos
  driftTol := asks fs 5 x.driftTol
  descentMin := asks fs 6 x.descentMin
  descentMax := asks fs 7 x.descentMax
  finalMin := asks fs 8 x.finalMin
  vFinalMax := asks fs 9 x.vFinalMax
  stallTime := asks fs 10 x.stallTime
  raiseMax := asks fs 11 x.raiseMax

/-- IRON settings in range, slowdown point and index position in line with travel (R33). -/
def IronSettings.ranged (x : IronSettings) : IronSettings where
  present := x.present
  travel := max 1000 (min 60000 x.travel)
  slowdown := min (max 100 x.slowdown) (max 1000 (min 60000 x.travel) - 100)
  indexPos := min x.indexPos (max 1000 (min 60000 x.travel))
  driftTol := max 10 (min 2000 x.driftTol)
  descentMin := max 50 (min 1200 x.descentMin)
  descentMax := max 50 (min 1200 x.descentMax)
  finalMin := max 10 (min 300 x.finalMin)
  vFinalMax := max 1 (min 5000 x.vFinalMax)
  stallTime := max 5 (min 100 x.stallTime)
  raiseMax := max 100 (min 3000 x.raiseMax)

/-- The cross-field checks that refuse IRON settings, on the numbers in their own ranges: a slowdown point at or
above travel, and t_descent_max at or below t_descent_min (R33). -/
def IronSettings.contradicts (x : IronSettings) : Bool :=
  max 1000 (min 60000 x.travel) ≤ max 100 x.slowdown ||
    max 50 (min 1200 x.descentMax) ≤ max 50 (min 1200 x.descentMin)

/-- ZONE settings with the fields of a request written into them (R65). -/
def ZoneSettings.asked (fs : List FieldVal) (x : ZoneSettings) : ZoneSettings where
  present := asksYes fs 1 x.present
  type := asksName [.detector, .callpoint, .interface] fs 2 x.type
  stageHouse := asksYes fs 3 x.stageHouse
  auds := asksSet fs 4 x.auds
  alarms := asksSet fs 5 x.alarms
  callZones := asksSet fs 6 x.callZones
  confirmTime := asks fs 7 x.confirmTime
  directGeneral := asksYes fs 8 x.directGeneral

/-- ZONE settings in range (R65). -/
def ZoneSettings.ranged (x : ZoneSettings) : ZoneSettings := { x with confirmTime := max 2 (min 100 x.confirmTime) }

/-- GROUP settings with the fields of a request written into them (R104). -/
def GroupSettings.asked (fs : List FieldVal) (x : GroupSettings) : GroupSettings where
  present := asksYes fs 1 x.present
  kind := asksName [.house, .aisle, .foyer] fs 2 x.kind
  aud := asksEntry fs 3 x.aud
  callZone := asksEntry fs 4 x.callZone
  feed := asksName [.mains, .standby] fs 5 x.feed
  law := asksName [.linear, .square] fs 6 x.law
  evacuation := asks fs 7 x.evacuation
  safetyMin := asks fs 8 x.safetyMin
  dip := asks fs 9 x.dip
  restoreFade := asks fs 10 x.restoreFade

/-- GROUP settings in range (R104). -/
def GroupSettings.ranged (x : GroupSettings) : GroupSettings :=
  { x with
    evacuation := max 500 (min 1000 x.evacuation), safetyMin := min 300 x.safetyMin, dip := min 1000 x.dip
    restoreFade := min 600 x.restoreFade }

/-- CZONE settings with the fields of a request written into them (R128). -/
def CZoneSettings.asked (fs : List FieldVal) (x : CZoneSettings) : CZoneSettings where
  present := asksYes fs 1 x.present
  serves := asksSet fs 2 x.serves
  strokeOn := asks fs 3 x.strokeOn
  strokeGap := asks fs 4 x.strokeGap

/-- CZONE settings in range (R128). -/
def CZoneSettings.ranged (x : CZoneSettings) : CZoneSettings :=
  { x with strokeOn := max 100 (min 2000 x.strokeOn), strokeGap := max 200 (min 3000 x.strokeGap) }

/-- CIRCUIT settings with the fields of a request written into them (R155). -/
def CircuitSettings.asked (fs : List FieldVal) (x : CircuitSettings) : CircuitSettings where
  serves := asksSet fs 1 x.serves
  retry := asksYes fs 2 x.retry

/-- The settings of the STATUS record with the fields of a request written into them (R84, R179). -/
def PartSettings.asked (fs : List FieldVal) (x : PartSettings) : PartSettings where
  address := asks fs 1 x.address
  ackTime := asks fs 2 x.ackTime
  investTime := asks fs 3 x.investTime
  brigadeLink := asksYes fs 4 x.brigadeLink

/-- The settings of the STATUS record in range (R84, R179). -/
def PartSettings.ranged (x : PartSettings) : PartSettings :=
  { x with
    address := max 1 (min 31 x.address), ackTime := max 100 (min 1200 x.ackTime)
    investTime := max 600 (min 6000 x.investTime) }

/-- STATION settings with the fields of a request written into them (R186). -/
def StationSettings.asked (fs : List FieldVal) (x : StationSettings) : StationSettings where
  role := asksName [.none, .view, .stage, .foh, .fire, .engineer] fs 1 x.role
  aud := asksEntry fs 2 x.aud
  mask := asksSet fs 3 x.mask

/-- The settings with the fields of a request written into record `index` of a kind. -/
def Settings.asked (k : Kind) (index : Byte) (fs : List FieldVal) (x : Settings) : Settings :=
  match k with
  | .perf => (entryOf 3 index).elim x fun i => { x with perfs := put x.perfs i (x.perfs[i].asked fs) }
  | .iron => (entryOf 3 index).elim x fun i => { x with irons := put x.irons i (x.irons[i].asked fs) }
  | .zone => (entryOf 24 index).elim x fun i => { x with zones := put x.zones i (x.zones[i].asked fs) }
  | .group => (entryOf 12 index).elim x fun i => { x with groups := put x.groups i (x.groups[i].asked fs) }
  | .czone => (entryOf 8 index).elim x fun i => { x with czones := put x.czones i (x.czones[i].asked fs) }
  | .circuit => (entryOf 16 index).elim x fun i => { x with circuits := put x.circuits i (x.circuits[i].asked fs) }
  | .status => { x with part := x.part.asked fs }
  | .station => (entryOf 8 index).elim x fun i => { x with stations := put x.stations i (x.stations[i].asked fs) }
  | .hold => x
  | .incident => x
  | .call => x

/-- The settings with those of record `index` of a kind brought into range (R197); CIRCUIT and STATION settings have
no ranges. -/
def Settings.ranged (k : Kind) (index : Byte) (x : Settings) : Settings :=
  match k with
  | .perf => (entryOf 3 index).elim x fun i => { x with perfs := put x.perfs i x.perfs[i].ranged }
  | .iron => (entryOf 3 index).elim x fun i => { x with irons := put x.irons i x.irons[i].ranged }
  | .zone => (entryOf 24 index).elim x fun i => { x with zones := put x.zones i x.zones[i].ranged }
  | .group => (entryOf 12 index).elim x fun i => { x with groups := put x.groups i x.groups[i].ranged }
  | .czone => (entryOf 8 index).elim x fun i => { x with czones := put x.czones i x.czones[i].ranged }
  | .status => { x with part := x.part.ranged }
  | .circuit => x
  | .station => x
  | .hold => x
  | .incident => x
  | .call => x

/-- The checks of a settings amendment on role, store state and locks, in their order (R194). -/
def State.lockedOut (s : State) (st : Fin 8) : Option (Status × Option Reason) :=
  if s.role st ≠ .engineer then some (.notPermitted, none)
  else if s.store.state = .storing then some (.busy, none)
  else if (∃ a : Fin 3, s.phase a ≠ .dark) ∨ s.store.locked = true then some (.locked, none)
  else none

/-- What the record's own state and the cross-field checks have against an amendment of its settings: a change of
present on a channel that is not IN (R34) and numbers that contradict each other (R33), a change of present or type
on a zone that signals or has an incident (R66), a station table without an ENGINEER (R186). -/
def State.settingsClash (s : State) (k : Kind) (index : Byte) (fs : List FieldVal) : Option (Status × Option Reason) :=
  match k with
  | .iron => (entryOf 3 index).bind fun ch =>
      let new := s.settings.irons[ch].asked fs
      if new.present ≠ s.settings.irons[ch].present ∧ s.irons[ch].motion ≠ .atIn then
        some (.refused, some .ironNotIn)
      else if new.contradicts then some (.badField, none) else none
  | .zone => (entryOf 24 index).bind fun z =>
      let old := s.settings.zones[z]
      let new := old.asked fs
      if (new.present ≠ old.present ∨ new.type ≠ old.type) ∧
          (s.zones[z].detection ≠ .normal ∨ s.zones[z].incident ≠ none) then
        some (.refused, some .zoneInAlarm)
      else none
  | .station =>
      if ∃ i : Fin 8, (s.settings.asked .station index fs).stations[i].role = .engineer then none
      else some (.badField, none)
  | .perf => none
  | .group => none
  | .czone => none
  | .circuit => none
  | .status => none
  | .hold => none
  | .incident => none
  | .call => none

/-- Of a request's fields, the record's settings are written as `new` and settings changed follows (R193). -/
def SettingsWritten (new : Settings) (s t : State) : Prop :=
  t.settings = new ∧ t.store = { s.store with changed := s.store.changed || decide (new ≠ s.settings) }

/-- Every station that listens to the class has its flag set and not armed (R187). -/
def Marked (k : Kind) (t : State) : Prop :=
  ∀ i : Fin 8, t.role i ≠ .none → t.settings.stations[i].mask.getLsbD (kindCode k - 1) = true →
    t.stations[i].flags.getLsbD (kindCode k - 1) = true ∧ t.stations[i].armed.getLsbD (kindCode k - 1) = false

/-! ## Effects in terms of the manual -/

/-- A group takes a lighting response: the target is written, and a fade of 5 × `d` steps starts from
the level unless the group is forced (R109, R119, R122). -/
def TakesResponse (t d : Nat) (x y : LightGroup) : Prop :=
  y.target = t ∧
    (x.causes = 0 →
      y.start = x.level ∧ y.steps = 5 * d ∧ y.step = 0 ∧ y.level = (if d = 0 then t else x.level) ∧
        y.fading = (d != 0)) ∧
    (x.causes ≠ 0 →
      y.start = x.start ∧ y.steps = x.steps ∧ y.step = x.step ∧ y.level = x.level ∧ y.fading = x.fading)

/-- A group's fade is left as it was. -/
def KeepsFade (x y : LightGroup) : Prop :=
  y.target = x.target ∧ y.level = x.level ∧ y.start = x.start ∧ y.steps = x.steps ∧ y.step = x.step ∧
    y.fading = x.fading ∧ y.causes = x.causes

/-- Group `g` is one that the responses of auditorium `a` reach (R6). -/
def State.follows (s : State) (g : Fin 12) (a : Fin 3) : Prop :=
  s.settings.groups[g].present = true ∧ s.settings.groups[g].kind ≠ .foyer ∧ s.settings.groups[g].aud = a

/-- A group released from its forces fades from its driven level to `t` over `d` tenths (R109, R120). -/
def ReleasedTo (t d : Nat) (x y : LightGroup) : Prop :=
  y.causes = 0 ∧ y.target = t ∧ y.start = x.driven ∧ y.steps = 5 * d ∧ y.step = 0 ∧
    y.level = (if d = 0 then t else x.driven) ∧ y.fading = (d != 0)

/-- Every AUDIENCE call for `a` that was ACTIVE in `s` is still in the table in `t`, no delivery of it is
WAITING or SOUNDING, those that were have ended in state `st`, and it is FINISHED if any was (R150..R152).
-/
def AudienceEnded (a : Fin 3) (st : DeliveryState) (s t : State) : Prop :=
  ∀ c ∈ s.callList, ∀ x, s.call? c = some x → x.finished = false → x.purpose = .audience → x.aud = some a →
    ∃ y, t.call? c = some y ∧ (∀ d ∈ y.deliveries, d.unended = false) ∧
      (∀ z d, x.delivery? z = some d → d.unended = true → (y.delivery? z).map (·.state) = some st) ∧
      (x.deliveries.any Delivery.unended = true → y.finished = true)

/-- A burst of call `c` has started in zone `z` of `w` in mode `m`, with `code` where it flickers: the delivery
has left the queue and sounds, and the first stroke of a burst with the chime has begun (R141, R142). -/
def BurstStarts (z : Fin 8) (c : Fin 32) (m : BurstMode) (code : Nat) (w t : State) : Prop :=
  t.czones[z].sounding = some c ∧ t.czones[z].queue = w.czones[z].queue.erase c ∧ t.czones[z].mode = some m ∧
    t.czones[z].burstStart = some w.now ∧ t.czones[z].strokeOn = w.settings.czones[z].strokeOn ∧
    t.czones[z].strokeGap = w.settings.czones[z].strokeGap ∧
    (∀ x, w.call? c = some x → t.czones[z].strokes = x.strokes ∧
      t.czones[z].burstEnd =
        some (w.now + x.strokes * (w.settings.czones[z].strokeOn + w.settings.czones[z].strokeGap))) ∧
    t.czones[z].strokesSounded = (if m = .flicker then 0 else 1) ∧ t.czones[z].gapEnd = none ∧
    t.czones[z].strokeEnd = (if m = .flicker then none else some (w.now + w.settings.czones[z].strokeOn)) ∧
    (m ≠ .flicker → t.circuits[chimeOf z].demand = true) ∧
    (m ≠ .chime → t.czones[z].flickerCode = code ∧ t.flickers[z].code = code ∧ t.flickers[z].start = w.now) ∧
    t.delivery? c z = (w.delivery? c z).map fun d => { d with state := .sounding, resumes := false }

/-- From `w`, in which zone `z` is free, its arbiter has looked (R140, R141): in a zone that is present and
neither suppressed nor barred, the first delivery of the queue that is due has started its burst; or, where the
zone cannot sound at all, every delivery that is due has left the queue UNDELIVERED; and otherwise the zone is as
it was. -/
def ArbiterLooks (z : Fin 8) (w t : State) : Prop :=
  (w.settings.czones[z].present = true → w.czones[z].suppressed = false → w.czones[z].barred = false →
    ∀ c, w.czones[z].queue.find? (w.isDue z) = some c → ∀ x, w.call? c = some x →
      (∀ m code, burstMode (w.circuits[chimeOf z].condition == .sound) (w.litNow z) x.flicker = some (m, code) →
        BurstStarts z c m code w t) ∧
      (w.circuits[chimeOf z].condition ≠ .sound → w.litNow z = false →
        t.czones[z].sounding = none ∧
          (w.czones[z].queue.Nodup →
            t.czones[z].queue = w.czones[z].queue.filter fun b => !w.isDue z b) ∧
          ∀ b ∈ w.czones[z].queue, w.isDue z b = true →
            (t.delivery? b z).map (·.state) = some .undelivered)) ∧
  (w.settings.czones[z].present = false ∨ w.czones[z].suppressed = true ∨ w.czones[z].barred = true ∨
      w.czones[z].queue.find? (w.isDue z) = none →
    t.czones[z] = w.czones[z])

/-- Zone `z` as a burst leaves it: free, with the queue `q`, nothing of the burst running (R142, R143). -/
def CallZone.freed (q : List (Fin 32)) (x : CallZone) : CallZone :=
  { x with
    sounding := none, mode := none, burstStart := none, burstEnd := none, strokeEnd := none, gapEnd := none
    flickerCode := 0, queue := q }

/-- The delivery of call `c` in zone `z` is `e`; the rest of the state is that of `s`. -/
def State.withDelivery (s : State) (c : Fin 32) (z : Fin 8) (e : Delivery) : State :=
  match s.call? c with
  | none => s
  | some x => { s with calls := put s.calls c ⟨s.calls[c].issue, some (x.editDelivery z fun _ => e)⟩ }

/-- The burst that zone `z` of `s` sounds has ended and been counted, as a FLICKER burst where `byFlicker` (R143):
its delivery is DONE, or WAITING in the place R137 gives it; its call finishes with its last delivery; the chime
demand and the flicker have ended; and the arbiter has looked. -/
def BurstCounted (z : Fin 8) (byFlicker : Bool) (s t : State) : Prop :=
  ∀ c, s.czones[z].sounding = some c → ∀ x, s.call? c = some x → ∀ d, x.delivery? z = some d →
    ∀ b0, s.czones[z].burstStart = some b0 → (x.deliveries.map (·.zone)).Nodup →
    ∀ e, e = { d with
          burstsLeft := d.burstsLeft - 1, lastStart := some b0, degraded := d.degraded || byFlicker
          state := if d.burstsLeft ≤ 1 then .done else .waiting
          notBefore := if d.burstsLeft ≤ 1 then d.notBefore else b0 + x.interval * 100 } →
    ∀ v, v = { s with now := t.now }.withDelivery c z e →
    ∀ w, w = { v with czones := put s.czones z (s.czones[z].freed
          (if d.burstsLeft ≤ 1 then s.czones[z].queue
           else v.queuePlace z c (s.czones[z].queue.erase c))) } →
    ArbiterLooks z w t ∧ OnlyAt z s.czones t.czones ∧
      (t.czones[z].sounding = none →
        t.circuits[chimeOf z].demand = false ∧ t.czones[z].flickerCode = 0 ∧ t.czones[z].mode = none ∧
          t.czones[z].burstStart = none ∧ t.czones[z].burstEnd = none) ∧
      (t.czones[z].sounding ≠ some c → ¬(w.isDue z c = true ∧ t.czones[z].sounding = none) →
        t.delivery? c z = some e) ∧
      (d.burstsLeft ≤ 1 → x.finished = false →
        x.deliveries.all (fun f => f.zone == z || !f.unended) = true →
        ∃ y, t.call? c = some y ∧ y.finished = true ∧ y.outcome = some (outcomeOf y.deliveries))

/-- The burst that zone `z` of `s` sounds has been stopped uncounted, its delivery changed by `f` and nothing else
of it, and the zone is free with the queue `q` (R142, R143). -/
def BurstStopped (z : Fin 8) (f : Delivery → Delivery) (q : List (Fin 32)) (s t : State) : Prop :=
  ∀ c, s.czones[z].sounding = some c →
    t.czones[z].sounding = none ∧ t.czones[z].queue = q ∧ t.czones[z].mode = none ∧
      t.czones[z].burstStart = none ∧ t.czones[z].burstEnd = none ∧ t.czones[z].strokeEnd = none ∧
      t.czones[z].gapEnd = none ∧ t.czones[z].flickerCode = 0 ∧ t.circuits[chimeOf z].demand = false ∧
      t.delivery? c z = (s.delivery? c z).map f

/-- A channel falls in a release of kind `k` (R40): its fault field, position and last judgement stay. -/
def Falls (k : DescentKind) (why : ReleaseReason) (x y : Iron) : Prop :=
  y.motion = .descending ∧ y.kind = some k ∧ y.reason = some why ∧ y.demandOut = false ∧ y.stop = none ∧
    y.sub = some .free ∧ y.firstFault = none ∧ y.descentTimer = 0 ∧ y.still = 0 ∧ y.finalTimer = none ∧
    y.crossing = none ∧ y.sawOverspeed = false ∧ y.sawStall = false ∧ y.sawTooSlow = false ∧
    y.position = x.position ∧ y.referenced = x.referenced ∧ y.fault = x.fault ∧ y.further = x.further ∧
    y.result = x.result ∧ y.td = x.td ∧ y.tf = x.tf

/-- A fault is recorded: the first code stays, and a later one sets further faults (R36). -/
def Recorded (f : IronFault) (x y : Iron) : Prop :=
  y.fault = some (x.fault.getD f) ∧ y.further = (x.further || x.fault.isSome)

/-- The position is off by more than the tolerance on a channel that knows it (R50). -/
def DriftsFrom (at_ tol : Nat) (x : Iron) : Prop :=
  x.referenced = true ∧ (at_ + tol < x.position ∨ x.position + tol < at_)

/-- A frame error has been counted: the counter is one higher, at most 32, and the link is degraded once it
stands there (R182). -/
def FrameCounted (s t : State) : Prop :=
  t.link.errors = min 32 (s.link.errors + 1) ∧ t.link.reply = s.link.reply ∧
    t.link.degraded = (s.link.degraded || decide (31 ≤ s.link.errors)) ∧ ChangesOnly requestParts s t ∧
    (t.link.degraded = s.link.degraded → ChangesOnly [.link] s t)

/-- Every present group carries the force causes that R115 derives, and the lit state last announced of
every call zone is its lit state (R115, R125). -/
def LightsDerived (s : State) : Prop :=
  (∀ g : Fin 12, s.settings.groups[g].present = true → s.groups[g].causes = s.causesOf g) ∧
    ∀ z : Fin 8, s.lit[z] = s.litNow z

/-- Every present group shows the driven level and drive value of R113 and R114 and follows flicker as R123
says; an absent one is dark (R105). -/
def OutputsDerived (s : State) : Prop :=
  ∀ g : Fin 12,
    (s.settings.groups[g].present = true →
      s.groups[g].driven = s.drivenOf g s.groups[g] ∧
        s.groups[g].drive = driveOf s.settings.groups[g].law s.groups[g].driven ∧
        s.groups[g].flickerActive = s.flickerFollows g s.groups[g]) ∧
      (s.settings.groups[g].present = false → s.groups[g] = LightGroup.dark)

/-- The six sounder circuits are demanded as the open incidents ask (R95). -/
def SoundersDerived (s : State) : Prop :=
  ∀ c : Fin 6, s.circuits[c.castLE (by decide : 6 ≤ 16)].demand = true ↔
    ∃ x ∈ s.openIncidents, x.stage = .general ∧ x.silenced = false ∧ (s.sounders x).getLsbD c.1 = true

/-- Every alarm demand is what the open incidents ask for: the six sounder circuits (R95), the staff alert
line with its pattern (R94) and the brigade relay (R96). -/
def DemandsDerived (s : State) : Prop :=
  SoundersDerived s ∧
  (s.circuits[staffAlert].demand = true ↔ ∃ x ∈ s.openIncidents, x.stage = .staff) ∧
  (s.circuits[staffAlert].demand = true →
    s.circuits[staffAlert].pattern =
      if ∃ x ∈ s.openIncidents, x.stage = .staff ∧ x.ackBy = none then .fast else .slow) ∧
  (s.circuits[brigadeRelay].demand = true ↔
    s.settings.part.brigadeLink = true ∧ ∃ x ∈ s.openIncidents, x.stage = .general)

/-- Every present call zone is barred and suppressed exactly as the open incidents have it (R146, R149). -/
def SilencesDerived (s : State) : Prop :=
  ∀ z : Fin 8, s.settings.czones[z].present = true →
    s.czones[z].barred = s.barredNow z ∧ s.czones[z].suppressed = s.suppressedNow z

/-- A zone sounds only while it is present and neither suppressed nor barred; a free zone has no burst, no
chime demand and no flicker; the code it has handed is the one the lighting unit keeps; and a burst by chime
alone has handed none (R123, R140, R142, R143). -/
def BurstsLawful (s : State) : Prop :=
  ∀ z : Fin 8,
    (s.czones[z].sounding.isSome = true →
      s.settings.czones[z].present = true ∧ s.czones[z].suppressed = false ∧ s.czones[z].barred = false ∧
        s.czones[z].mode.isSome = true) ∧
      (s.czones[z].sounding = none →
        s.czones[z].mode = none ∧ s.czones[z].burstStart = none ∧ s.czones[z].burstEnd = none ∧
          s.czones[z].strokeEnd = none ∧ s.czones[z].gapEnd = none ∧ s.czones[z].flickerCode = 0 ∧
          s.circuits[chimeOf z].demand = false) ∧
      s.flickers[z].code = s.czones[z].flickerCode ∧
      (s.czones[z].mode = some .chime → s.czones[z].flickerCode = 0)

/-- The FIRE hold of every performance that is not DARK stands exactly while an open incident concerns it
(R25). -/
def FireHoldsDerived (s : State) : Prop :=
  ∀ a : Fin 3, s.phase a ≠ .dark → (s.hold? a (holdSlot .fire)).isSome = (s.fireReason a).isSome

/-- The incident concerns a channel's auditorium in a way that releases it from its motion state (R42). -/
def State.burns (s : State) (x : Incident) (ch : Fin 3) : Prop :=
  s.settings.irons[ch].present = true ∧ has x.auds ch = true ∧
    (s.irons[ch].motion = .raising ∨
      ((s.irons[ch].motion = .atOut ∨ s.irons[ch].motion = .stopped) ∧
        (s.fromStageHouse x = true ∨ x.stage = .general)))

/-- The incidents in the slots `ids`, as they stand in `t`, have been announced to every block that reads
them: the performances a GENERAL one concerns are halted (R14), the channels are released (R42), and the
force causes, the lit states, the bars, the suppressions and the FIRE holds follow (R25, R115, R146, R149). -/
def Announced (ids : List (Fin 25)) (s t : State) : Prop :=
  (∀ a : Fin 3,
    ((∃ x ∈ ids.filterMap t.incident?, x.stage = .general ∧ has x.auds a = true) ∧
        (s.phase a).haltable = true → t.perfs[a] = { s.perfs[a] with phase := .halted }) ∧
      ((∀ x ∈ ids.filterMap t.incident?, x.stage = .general → has x.auds a = false) ∨
        (s.phase a).haltable = false → t.perfs[a] = s.perfs[a])) ∧
  (∀ ch : Fin 3,
    ((∃ x ∈ ids.filterMap t.incident?, s.burns x ch) →
      Falls (if s.irons[ch].motion = .atOut then .full else .part) .fire s.irons[ch] t.irons[ch]) ∧
    ((∀ x ∈ ids.filterMap t.incident?, ¬s.burns x ch) → t.irons[ch] = s.irons[ch])) ∧
  LightsDerived t ∧ SilencesDerived t ∧ FireHoldsDerived t

/-! ## What a change of settings does to the records -/

/-- A change of present makes the channel what a cold start makes it from its limit IN, or absent (R34, R62). -/
def PresenceOfIron (ch : Fin 3) (limitIn : Bool) (s t : State) : Prop :=
  ChangesOnly [.link, .settings, .store, .irons, .stations] s t ∧ OnlyAt ch s.irons t.irons ∧
    (t.settings.irons[ch].present = s.settings.irons[ch].present → t.irons = s.irons) ∧
    (s.settings.irons[ch].present = true → t.settings.irons[ch].present = false →
      t.irons[ch] = { Iron.absent with sampleAt := s.now }) ∧
    (s.settings.irons[ch].present = false → t.settings.irons[ch].present = true →
      t.irons[ch].motion = (if limitIn then .atIn else .descending) ∧
        t.irons[ch].kind = (if limitIn then none else some .part) ∧
        t.irons[ch].reason = (if limitIn then none else some .restart) ∧
        t.irons[ch].referenced = limitIn ∧
        t.irons[ch].position = (if limitIn then 0 else t.settings.irons[ch].travel) ∧
        t.irons[ch].pressed = s.lines.pressed.getLsbD ch.1 ∧ t.irons[ch].fault = none ∧
        t.irons[ch].demandOut = false ∧ t.irons[ch].stop = none ∧ t.irons[ch].result = none)

/-- A change of present makes the zone what a cold start makes it from its band, or clears it; a change of type
alone changes nothing in it (R66). The sounders and the call zones follow the zone's sets (R95, R146). -/
def PresenceOfZone (z : Fin 24) (s t : State) : Prop :=
  OnlyAt z s.zones t.zones ∧
    (t.settings.zones[z].present = s.settings.zones[z].present → t.zones = s.zones) ∧
    (s.settings.zones[z].present = true → t.settings.zones[z].present = false → t.zones[z] = Zone.cleared) ∧
    (s.settings.zones[z].present = false → t.settings.zones[z].present = true →
      t.zones[z] =
        { Zone.cleared with
          band := s.lines.bands[z]
          detection := if s.lines.bands[z] = .active then .pending else .normal
          confirmAt :=
            if s.lines.bands[z] = .active then some (s.now + t.settings.zones[z].confirmTime * 100) else none
          loopAt :=
            if s.lines.bands[z] = .openLoop ∨ s.lines.bands[z] = .short then some (s.now + 5000) else none }) ∧
    (t.settings.zones[z].alarms = s.settings.zones[z].alarms →
      t.settings.zones[z].callZones = s.settings.zones[z].callZones →
      ChangesOnly [.link, .settings, .store, .zones, .stations] s t) ∧
    (t.settings.zones[z].alarms ≠ s.settings.zones[z].alarms → SoundersDerived t) ∧
    (t.settings.zones[z].callZones ≠ s.settings.zones[z].callZones → SilencesDerived t)

/-- A change of present makes the group dark, with its forces derived where it is now present; a change of any
other setting keeps its fade, derives its forces and computes its output again, and a change of the forces acts as
it always does (R105, R119, R120). -/
def GroupFollowsSettings (g : Fin 12) (s t : State) : Prop :=
  (t.settings.groups[g].present = false → s.settings.groups[g].present = true →
    t.groups[g] = LightGroup.dark) ∧
  (t.settings.groups[g].present = true →
    t.groups[g].causes = t.causesOf g ∧ t.groups[g].driven = t.drivenOf g t.groups[g] ∧
      t.groups[g].drive = driveOf t.settings.groups[g].law t.groups[g].driven) ∧
  (t.settings.groups[g].present = true → s.settings.groups[g].present = false →
    t.groups[g].level = 0 ∧ t.groups[g].target = 0 ∧ t.groups[g].fading = false ∧ t.groups[g].start = 0 ∧
      t.groups[g].steps = 0 ∧ t.groups[g].step = 0) ∧
  (t.settings.groups[g].present = true → s.settings.groups[g].present = true →
    (t.causesOf g = s.groups[g].causes → KeepsFade s.groups[g] t.groups[g]) ∧
    (t.causesOf g ≠ 0 → t.groups[g].level = s.groups[g].level ∧ t.groups[g].target = s.groups[g].target) ∧
    (s.groups[g].causes = 0 → t.causesOf g ≠ 0 → t.groups[g].fading = false) ∧
    (s.groups[g].causes ≠ 0 → t.causesOf g = 0 →
      ReleasedTo s.groups[g].target t.settings.groups[g].restoreFade s.groups[g] t.groups[g])) ∧
  ∀ j : Fin 12, j ≠ g → KeepsFade s.groups[j] t.groups[j]

/-- A zone made absent ends its unended deliveries UNDELIVERED and is idle; one made present is free and empty,
barred and suppressed as the incidents have it; and a change of serves is followed by the bar and by the lights
(R129). -/
def CZoneFollowsSettings (z : Fin 8) (s t : State) : Prop :=
  (s.settings.czones[z].present = true → t.settings.czones[z].present = false →
    t.czones[z] = CallZone.idle ∧
      ∀ c : Fin 32, s.czones[z].sounding = some c ∨ c ∈ s.czones[z].queue → ∀ x, s.call? c = some x →
        (t.delivery? c z).map (·.state) = (x.delivery? z).map fun _ => .undelivered) ∧
  (s.settings.czones[z].present = false → t.settings.czones[z].present = true →
    t.czones[z] =
      { CallZone.idle with barred := t.barredNow z, suppressed := t.suppressedNow z }) ∧
  (t.settings.czones[z].present = true → t.settings.czones[z].serves ≠ s.settings.czones[z].serves →
    t.czones[z].barred = t.barredNow z ∧
      (s.czones[z].barred = false → t.czones[z].barred = true →
        t.czones[z].sounding = none ∧ t.czones[z].queue = []) ∧
      ∀ g : Fin 12, t.settings.groups[g].present = true → t.settings.groups[g].kind = .foyer →
        t.settings.groups[g].callZone = z → t.groups[g].causes = t.causesOf g) ∧
  (t.settings.czones[z].present = s.settings.czones[z].present →
    t.settings.czones[z].serves = s.settings.czones[z].serves →
    ChangesOnly [.link, .settings, .store, .stations] s t)

/-- A change of role empties or sets the flags of the station, and a change of mask sets the flags of the classes
it adds and takes the flags and arming of those it removes (R186); the marks of the amendment itself are those of
STATUS and STATION. -/
def FlagsFollowSettings (n : Fin 8) (s t : State) : Prop :=
  ChangesOnly [.link, .settings, .store, .stations] s t ∧
  (s.settings.stations[n].role ≠ .none → t.settings.stations[n].role = .none → t.stations[n] = ⟨0, 0⟩) ∧
  (s.settings.stations[n].role = .none → t.settings.stations[n].role ≠ .none →
    t.stations[n] = ⟨t.settings.stations[n].mask, 0⟩) ∧
  (s.settings.stations[n].role ≠ .none → t.settings.stations[n].role ≠ .none →
    ∀ k ∈ [Kind.perf, .hold, .incident, .zone, .iron, .group, .call, .czone, .circuit],
      (t.settings.stations[n].mask.getLsbD (kindCode k - 1) = s.settings.stations[n].mask.getLsbD (kindCode k - 1) →
        t.stations[n].flags.getLsbD (kindCode k - 1) = s.stations[n].flags.getLsbD (kindCode k - 1) ∧
          t.stations[n].armed.getLsbD (kindCode k - 1) = s.stations[n].armed.getLsbD (kindCode k - 1)) ∧
      (t.settings.stations[n].mask.getLsbD (kindCode k - 1) = true →
        s.settings.stations[n].mask.getLsbD (kindCode k - 1) = false →
        t.stations[n].flags.getLsbD (kindCode k - 1) = true) ∧
      (t.settings.stations[n].mask.getLsbD (kindCode k - 1) = false →
        s.settings.stations[n].mask.getLsbD (kindCode k - 1) = true →
        t.stations[n].flags.getLsbD (kindCode k - 1) = false ∧
          t.stations[n].armed.getLsbD (kindCode k - 1) = false))

/-- What an accepted amendment of settings, from `s` with every performance DARK, does to the live records of its
own kind. PERF and CIRCUIT settings change no record; those of STATUS change the brigade relay's demand alone
(R84, R96). -/
def SettingsTakeEffect (k : Kind) (index : Byte) (limitIn : Bool) (s t : State) : Prop :=
  match k with
  | .perf => ChangesOnly [.link, .settings, .store, .stations] s t
  | .iron => ∀ ch ∈ entryOf 3 index, PresenceOfIron ch limitIn s t
  | .zone => ∀ z ∈ entryOf 24 index, PresenceOfZone z s t
  | .group => ∀ g ∈ entryOf 12 index, GroupFollowsSettings g s t
  | .czone => ∀ z ∈ entryOf 8 index, CZoneFollowsSettings z s t
  | .circuit => ChangesOnly [.link, .settings, .store, .stations] s t
  | .status =>
      ChangesOnly [.link, .settings, .store, .circuits, .stations] s t ∧
        (t.settings.part.brigadeLink = s.settings.part.brigadeLink → t.circuits = s.circuits) ∧
        (t.settings.part.brigadeLink ≠ s.settings.part.brigadeLink →
          OnlyAt brigadeRelay s.circuits t.circuits ∧
            (t.circuits[brigadeRelay].demand = true ↔
              t.settings.part.brigadeLink = true ∧ ∃ x ∈ s.openIncidents, x.stage = .general))
  | .station => ∀ n ∈ entryOf 8 index, FlagsFollowSettings n s t
  | .hold => True
  | .incident => True
  | .call => True

/-! ## Laws of the part -/

/-- Each station's armed set is within its flags and its flags within its mask (R187). -/
def AttentionNested (s : State) : Prop :=
  ∀ i : Fin 8,
    s.stations[i].armed &&& ~~~s.stations[i].flags = 0 ∧
      s.stations[i].flags &&& ~~~s.settings.stations[i].mask = 0

/-- A RAISING channel is present, no open incident concerns its auditorium, its release is not pressed,
no fault is recorded on it and mains is PRESENT (R43). -/
def RaisesAreSafe (s : State) : Prop :=
  ∀ ch : Fin 3, s.irons[ch].motion = .raising →
    s.settings.irons[ch].present = true ∧ (∀ x ∈ s.openIncidents, has x.auds ch = false) ∧
      s.irons[ch].pressed = false ∧ s.irons[ch].fault = none ∧ s.supply.mains = .present

/-- A circuit is driven exactly when its demand and condition call for it (R156); its output is on only
while driven, and stays on under CONTINUOUS (R157); its timers run only where they may (R159..R161); and
its fourth trip makes it FAILED (R159). -/
def Circuit.lawful (x : Circuit) : Prop :=
  x.drive = x.wantsDrive ∧ (x.switchedOn = true → x.drive = true) ∧
    (x.partEnd.isSome = true → x.drive = true) ∧
    (x.drive = true → x.pattern = .continuous → x.switchedOn = true) ∧
    (x.retryAt.isSome = true → x.condition = .overload) ∧
    (x.cleanAt.isSome = true → x.condition = .overload ∧ x.drive = true) ∧
    (x.offAt.isSome = true → x.condition = .overload ∧ x.demand = false) ∧
    x.overloads ≤ Config.tripLimit ∧ (x.condition ≠ .failed → x.overloads < Config.tripLimit)

/-- Every circuit is lawful. -/
def DrivesFollowDemands (s : State) : Prop := ∀ c : Fin 16, s.circuits[c].lawful

/-- The bounded counters lie within their ranges: frame errors and noise within 0..32, acts within
0..15 (R4, R72, R182). -/
def CountersBounded (s : State) : Prop :=
  s.link.errors ≤ 32 ∧ (∀ z : Fin 24, s.zones[z].noise ≤ 32) ∧
    (∀ a : Fin 3, s.perfs[a].act ≤ 15 ∧ s.retained.entries[a].act ≤ 15)

/-- The hold list of each performance names its filled slots, once each; automatic holds stand in slots 5..8
and station holds in 1..4; a DARK performance has none; and in any other phase each automatic hold stands
exactly while its condition is true (R20, R23..R27). -/
def HoldsLawful (s : State) : Prop :=
  ∀ a : Fin 3,
    s.holdLists[a].Nodup ∧
      (∀ k : Fin 8, (s.hold? a k).isSome = s.holdLists[a].contains k ∧
        (s.hold? a k).all (fun h => h.origin.isNone == decide (4 ≤ k.1)) = true) ∧
      (s.phase a = .dark → s.holdLists[a] = []) ∧
      (s.phase a ≠ .dark → ∀ c ∈ [HoldCause.iron, .fire, .supply, .system],
        (s.hold? a (holdSlot c)).isSome = (s.holdReason a c).isSome)

/-- No performance that an open GENERAL incident concerns is in one of the four phases it would halt (R14);
an absent auditorium is DARK (R3); with a present iron, iron_proved is NOT_REQUIRED only in DARK and is
PROVED in RUNNING, INTERVAL and CLOSING (R7, R19); and only HALTED and CLOSING are interrupted (R29). -/
def PerformancesLawful (s : State) : Prop :=
  ∀ a : Fin 3,
    (has s.generalSet a = true → (s.phase a).haltable = false) ∧
      (s.settings.perfs[a].present = false → s.phase a = .dark) ∧
      (s.settings.irons[a].present = true →
        (s.phase a ≠ .dark → s.perfs[a].ironProved ≠ .notRequired) ∧
          (s.phase a = .running ∨ s.phase a = .interval ∨ s.phase a = .closing →
            s.perfs[a].ironProved = .proved)) ∧
      (s.perfs[a].interrupted = true → s.phase a = .halted ∨ s.phase a = .closing)

/-- An incident's own fields agree: its timer runs exactly at STAFF, and a cause stands exactly at GENERAL
(R82, R89, R90). -/
def Incident.lawful (x : Incident) : Prop :=
  (x.stage = .staff ↔ x.timerAt.isSome = true) ∧ (x.stage = .general ↔ x.cause.isSome = true)

/-- The incident comes from zone `z`. -/
def Incident.ofZone (z : Fin 24) (x : Incident) : Bool := x.source == .zone z

/-- The incident is a station's. -/
def Incident.ofStation (x : Incident) : Bool :=
  match x.source with
  | .zone _ => false
  | .station _ => true

/-- The incident list names the filled slots, once each; a zone and its one open incident name each other;
at most one station incident is open; and each incident's own fields agree (R81, R82, R87). -/
def IncidentsLawful (s : State) : Prop :=
  s.incidentList.Nodup ∧
    (∀ i : Fin 25, (s.incident? i).isSome = s.incidentList.contains i) ∧
    (∀ (i : Fin 25) (z : Fin 24),
      (s.zones[z].incident = some i ↔ (s.incident? i).any (Incident.ofZone z) = true)) ∧
    (∀ i j : Fin 25, (s.incident? i).any Incident.ofStation = true →
      (s.incident? j).any Incident.ofStation = true → i = j) ∧
    (∀ i : Fin 25, ∀ x ∈ s.incident? i, x.lawful)

/-- The call list names the filled slots, once each (R133); a call has at most one delivery in a zone (R132); and no
queue names a call twice (R137). -/
def CallsLawful (s : State) : Prop :=
  s.callList.Nodup ∧ (∀ c : Fin 32, (s.call? c).isSome = s.callList.contains c) ∧
    (∀ c : Fin 32, ∀ x ∈ s.call? c, (x.deliveries.map (·.zone)).Nodup) ∧
    ∀ z : Fin 8, s.czones[z].queue.Nodup

end Sys2Proof.Machine
end

