-- ==== Sys2Proof/Certificates/Slice0/Obligations.lean ====
section
/-!
DEFINITION. The statements for the provers. `u` is the state after the good frame that carries a request has
been counted (R181, R182): FramesCounted says what that does, and the rest is said from there.
-/

section
open Sys2Proof Sys2Proof.Machine

/-! ## The step, reset and the laws every command keeps -/

/-- 00, "How time is told": the part takes one event at a time. That the events wait in a queue, first in, first
out, is the model's choice (log entry 29), and so is what a step does on an empty queue: a powered part's clock
goes on and an unpowered part stands (log entries 25 and 2). -/
def Obligations.StepRunsFrontCommand : Prop :=
  (∀ (s : State) (c : Instr) (rest : List Instr), s.pending = c :: rest →
    step s = exec c { s with pending := rest }) ∧
  (∀ s : State, s.pending = [] → s.powered = true → step s = .next { s with now := s.now + 1 }) ∧
  (∀ s : State, s.pending = [] → s.powered = false → step s = .next s)

/-- What reset leaves (R29, R62, R79, R102, R153, R174, R175, R191, R199 on a board whose image and retained
copy are blank; the inputs at reset are the model's choice, log entry 1), and that every law holds there. -/
def Obligations.ResetIsLawfulStart : Prop :=
  let s := State.reset
  s.pending = [] ∧ s.powered = true ∧ s.settings = Settings.defaults ∧
    s.store = ⟨.defaults, true, false⟩ ∧ (∀ a : Fin 3, s.phase a = .dark ∧ s.perfs[a].act = 0 ∧ s.holdLists[a] = []) ∧
    s.incidentList = [] ∧ s.callList = [] ∧ s.link.errors = 0 ∧ s.link.degraded = false ∧
    s.supply.mains = .settling ∧ s.supply.restartCause = .cellLost ∧
    (∀ g : Fin 12, s.groups[g].level = 0 ∧ s.groups[g].fading = false) ∧
    (∀ c : Fin 16, s.circuits[c].demand = false ∧ s.circuits[c].condition = .sound ∧ s.circuits[c].overloads = 0) ∧
    AttentionNested s ∧ RaisesAreSafe s ∧ DrivesFollowDemands s ∧ CountersBounded s ∧ LightsDerived s ∧
    OutputsDerived s ∧ SilencesDerived s ∧ DemandsDerived s ∧ BurstsLawful s ∧ HoldsLawful s ∧ PerformancesLawful s ∧ IncidentsLawful s

/-- R187, last sentence: armed within flags, flags within mask, at every station, whatever command. -/
def Obligations.AttentionStaysNested : Prop :=
  ∀ s t : State, AttentionNested s → step s = .next t → AttentionNested t

/-- R43: what stands while a channel is RAISING stands through every command. -/
def Obligations.RaisesStaySafe : Prop :=
  ∀ s t : State, RaisesAreSafe s → step s = .next t → RaisesAreSafe t

/-- R156..R161: drive, output and timers of every circuit agree with its demand and condition. -/
def Obligations.DrivesStayLawful : Prop :=
  ∀ s t : State, DrivesFollowDemands s → step s = .next t → DrivesFollowDemands t

/-- R4, R72, R182: the bounded counters stay in their ranges. -/
def Obligations.CountersStayBounded : Prop :=
  ∀ s t : State, CountersBounded s → step s = .next t → CountersBounded t

/-- R105, R113..R115, R123, R125: force causes, lit states, driven levels, drive values and flicker follow
what they are computed from. -/
def Obligations.LightsStayDerived : Prop :=
  (∀ s t : State, LightsDerived s → step s = .next t → LightsDerived t) ∧
  (∀ s t : State, OutputsDerived s → step s = .next t → OutputsDerived t)

/-- R94..R96, R146, R149: alarm demands, bars and suppressions follow the open incidents. -/
def Obligations.DemandsAndSilencesFollowIncidents : Prop :=
  (∀ s t : State, DemandsDerived s → step s = .next t → DemandsDerived t) ∧
  (∀ s t : State, SilencesDerived s → step s = .next t → SilencesDerived t)

/-- R123, R140, R142, R143: bursts sound only where they may, and leave nothing on when they end. -/
def Obligations.BurstsStayLawful : Prop :=
  ∀ s t : State, BurstsLawful s → step s = .next t → BurstsLawful t

/-- R20, R23..R27: the automatic holds stand exactly while their conditions are true. -/
def Obligations.HoldsStayLawful : Prop :=
  ∀ s t : State, HoldsLawful s → step s = .next t → HoldsLawful t

/-- R3, R14, R19: GENERAL incidents keep performances out of the four phases, and a show with an iron runs
only with it proved. -/
def Obligations.PerformancesStayLawful : Prop :=
  ∀ s t : State, HoldsLawful s → PerformancesLawful s → step s = .next t → PerformancesLawful t

/-- R81, R82, R87: the incident list stays lawful, so it is never full when a zone confirms: no step faults.
-/
def Obligations.IncidentsStayLawful : Prop :=
  (∀ s t : State, IncidentsLawful s → step s = .next t → IncidentsLawful t) ∧
  (∀ (s : State) (f : Fault), IncidentsLawful s → step s ≠ .fault f) ∧
  (∀ (s : State) (r : Refusal), step s ≠ .refused r)

/-- R193, R195, R196: settings change only at a start or by an AMEND of an ENGINEER station with every
performance DARK, the lock clear and no STORE in progress; the lock clears only at a start. -/
def Obligations.SettingsChangeOnlyUnlocked : Prop :=
  ∀ (i : Instr) (s t : State), exec i s = .next t →
    (t.settings ≠ s.settings →
      (∃ p, i = .coldStart p ∨ i = .resetPin p) ∨
      ∃ k r st, requestOf i = some (.amend, k, r) ∧ Heard s r st ∧ s.role st = .engineer ∧
        (∀ a, s.phase a = .dark) ∧ s.store.locked = false ∧ s.store.state ≠ .storing) ∧
    (s.store.locked = true → t.store.locked = false → ∃ p, i = .coldStart p ∨ i = .resetPin p)

/-- Each chapter: a command changes the parts of the state that its rules name and no other. -/
def Obligations.CommandsTouchOnlyTheirParts : Prop :=
  ∀ (i : Instr) (s t : State), exec i s = .next t → ChangesOnly (touches i) s t

/-- R178: a powered part that loses its power takes no event but the cold start, and its outputs go to the
unpowered state. That the records stand as they were is log entry 23 (DESIGN CHOICE). -/
def Obligations.UnpoweredPartTakesNothing : Prop :=
  (∀ s : State, s.powered = true →
    ∃ t, exec .powerFail s = .next t ∧ t.powered = false ∧ t.link.reply = none ∧
      t.link.errors = s.link.errors ∧ t.link.degraded = s.link.degraded ∧ ChangesOnly [.power, .link] s t) ∧
  (∀ (s : State) (i : Instr), s.powered = false → (∀ p, i ≠ .coldStart p) → exec i s = .next s) ∧
  (∀ s : State, s.powered = false →
    s.attentionLine = false ∧ s.linkDriver = false ∧ (∀ c, s.circuitOutput c = false) ∧
      ∀ ch, s.holdOutput ch = false ∧ s.raiseOutput ch = false ∧ s.checkOutput ch = false)

/-! ## The link -/

/-- R187, R190: a mark sets the class's flag and cancels its arming at every station that listens, and the
attention line is asserted while a flag is set. -/
def Obligations.MarkSetsFlags : Prop :=
  ∀ (s : State) (k : Kind) (i : Fin 8),
    ChangesOnly [.stations] s (s.mark k) ∧
    (s.role i ≠ .none ∧ s.settings.stations[i].mask.getLsbD (kindCode k - 1) = true →
      (s.mark k).stations[i] =
        { flags := s.stations[i].flags ||| classBit k, armed := s.stations[i].armed &&& ~~~classBit k } ∧
      (s.powered = true → (s.mark k).attentionLine = true)) ∧
    (s.role i = .none ∨ s.settings.stations[i].mask.getLsbD (kindCode k - 1) = false →
      (s.mark k).stations[i] = s.stations[i]) ∧
    (s.attentionLine = true ↔ s.powered = true ∧ ∃ j : Fin 8, s.role j ≠ .none ∧ s.stations[j].flags ≠ 0)

/-- R184: the first of the link port's checks that fails gives the reply, for every request; an unknown code
comes before the role, an unknown kind and a RAISE or RETIRE of a fixed kind after it. -/
def Obligations.LinkChecksDecide : Prop :=
  (∀ (i : Instr) (code : ReqCode) (k : Kind) (r : Req) (st : Fin 8) (s : State) (status : Status),
    requestOf i = some (code, k, r) → Heard s r st →
    (if s.role st = .none ∨ (s.role st = .view ∧ code ≠ .look ∧ code ≠ .summary) then some .notPermitted
     else if ((code = .raise ∨ code = .retire) ∧ k ≠ .hold ∧ k ≠ .incident ∧ k ≠ .call) ∨
        (code = .raise ∧ (r.index ≠ 0 ∨ r.issue ≠ 0)) then some .badField
     else if (code = .look ∨ code = .amend ∨ code = .retire) ∧
        (r.index.toNat < 1 ∨ kindSize k < r.index.toNat ∨
          (k ≠ .hold ∧ k ≠ .incident ∧ k ≠ .call ∧ r.issue ≠ 0)) then some .noRecord
     else if ((code = .look ∨ code = .summary ∨ code = .retire) ∧ r.fields ≠ []) ∨
        ¬(r.fields.map (·.id)).Nodup then some .badField
     else none) = some status →
    ∃ t, exec i s = .next t ∧
      Replies t s.settings.part.address r.station status none k r.index.toNat r.issue.toNat [] ∧
      ChangesOnly [.link, .stations] s.frameGood t ∧
      (code ≠ .look ∨ status ≠ .noRecord → ChangesOnly [.link] s.frameGood t)) ∧
  (∀ (code kind : Byte) (r : Req) (st : Fin 8) (s : State),
    knownCode code = false ∨ knownKind kind = false ∨
      ((code = 2 ∨ code = 4) ∧ kind ≠ 2 ∧ kind ≠ 3 ∧ kind ≠ 7) → Heard s r st →
    ∃ t, exec (.unknownRequest code kind r) s = .next t ∧ ChangesOnly [.link] s.frameGood t ∧
      t.link.reply = some
        { address := s.settings.part.address, station := r.station,
          status :=
            if knownCode code = false then .badField
            else if s.role st = .none ∨ (s.role st = .view ∧ code ≠ 1 ∧ code ≠ 5) then .notPermitted
            else .badField,
          reason := none, kind := kind, index := r.index, issue := r.issue, fields := [] })

/-- R179..R182: which frames count as errors and what counting them does, what a good frame does to the counter,
and the end of a reply. Three clauses are the model's reading: characters that arrive while a reply is being
sent are lost and count nothing (log entry 11); and a FRAME_ERROR of a frame that is in fact good or another
part's, a discarded frame or gap of another part's, and a FRAME_FOR_OTHER_ADDRESS of any characters change
nothing, where the event named cannot arise (log entry 4). -/
def Obligations.FramesCounted : Prop :=
  (∀ (s : State) (chars : List Byte), s.powered = true → s.link.reply = none →
    (wholeFrame chars = true →
      (addressed s.settings.part.address chars = true →
        crcAgrees chars = false ∨ stationAgrees chars = false →
        ∃ t, exec (.frameError chars) s = .next t ∧ FrameCounted s t) ∧
      (addressed s.settings.part.address chars = false ∨ (crcAgrees chars = true ∧ stationAgrees chars = true) →
        exec (.frameError chars) s = .next s)) ∧
    (addressed s.settings.part.address chars = true →
      (∃ t, exec (.frameDiscarded chars) s = .next t ∧ FrameCounted s t) ∧
      ∃ t, exec (.frameGapTimeout chars) s = .next t ∧ FrameCounted s t) ∧
    (addressed s.settings.part.address chars = false →
      exec (.frameDiscarded chars) s = .next s ∧ exec (.frameGapTimeout chars) s = .next s)) ∧
  (∀ (s : State) (chars : List Byte), exec (.frameForOtherAddress chars) s = .next s) ∧
  (∀ (s : State) (chars : List Byte), s.link.reply ≠ none →
    exec (.frameError chars) s = .next s ∧ exec (.frameDiscarded chars) s = .next s ∧
      exec (.frameGapTimeout chars) s = .next s) ∧
  (∀ s : State,
    s.frameGood.link.errors = s.link.errors - 1 ∧ s.frameGood.link.reply = s.link.reply ∧
      s.frameGood.link.degraded = (s.link.degraded && decide (2 ≤ s.link.errors)) ∧
      ChangesOnly requestParts s s.frameGood ∧
      (s.frameGood.link.degraded = s.link.degraded → ChangesOnly [.link] s s.frameGood)) ∧
  (∀ s : State, s.powered = true →
    ∃ t, exec .replyEnd s = .next t ∧ t.link = { s.link with reply := none } ∧ ChangesOnly [.link] s t)

/-- R184, R189, R20, R81, R133, R200: a LOOK of a record that is there, with issue 0 or its own, is DONE with all its
fields, which State.table gives by their ids and values for each kind; any other is NO_RECORD; either clears its
class where it is armed. That the fields are those of the record before the class is cleared, which shows in the
station's own STATION record, is log entry 21 (DEDUCED); how a time is rounded to tenths is log entry 9 (DEDUCED),
and the silicon revision is a free value (log entry 13). -/
def Obligations.LookAnswersAndClears : Prop :=
  ∀ (k : Kind) (r : Req) (st : Fin 8) (s u : State),
    Heard s r st → r.fields = [] → s.role st ≠ .none → u = s.frameGood →
    ∃ t, exec (.look k r) s = .next t ∧ ChangesOnly [.link, .stations] u t ∧
      t.link.errors = u.link.errors ∧ t.link.degraded = u.link.degraded ∧
      OnlyAt st u.stations t.stations ∧
      t.stations[st] =
        (if u.stations[st].armed.getLsbD (kindCode k - 1) = true then
          { flags := u.stations[st].flags &&& ~~~classBit k, armed := u.stations[st].armed &&& ~~~classBit k }
        else u.stations[st]) ∧
      (∀ issue fields, u.table k r.index = some (issue, fields) → r.issue = 0 ∨ r.issue.toNat = issue →
        Replies t s.settings.part.address r.station .done none k r.index.toNat issue (inFrame fields)) ∧
      ((∀ issue fields, u.table k r.index = some (issue, fields) → r.issue ≠ 0 ∧ r.issue.toNat ≠ issue) →
        Replies t s.settings.part.address r.station .noRecord none k r.index.toNat r.issue.toNat [])

/-- R188, every sentence: what a SUMMARY names, who may send it, what it arms and what it returns. -/
def Obligations.SummaryArmsFlags : Prop :=
  (∀ (k : Kind) (r : Req) (st : Fin 8) (s u : State), Heard s r st → u = s.frameGood →
    (s.role st = .none →
      ∃ t, exec (.summary k r) s = .next t ∧ ChangesOnly [.link] u t ∧
        Replies t s.settings.part.address r.station .notPermitted none k r.index.toNat r.issue.toNat []) ∧
    (s.role st ≠ .none →
      (k ≠ .station ∨ r.index.toNat ≠ st.1 + 1 ∨ r.issue ≠ 0 ∨ r.fields ≠ [] →
        ∃ t, exec (.summary k r) s = .next t ∧ ChangesOnly [.link] u t ∧
          Replies t s.settings.part.address r.station .badField none k r.index.toNat r.issue.toNat []) ∧
      (k = .station → r.index.toNat = st.1 + 1 → r.issue = 0 → r.fields = [] →
        ∃ t, exec (.summary k r) s = .next t ∧ ChangesOnly [.link, .stations] u t ∧
          OnlyAt st u.stations t.stations ∧ t.stations[st].flags = u.stations[st].flags ∧
          t.stations[st].armed = u.stations[st].flags ∧
          Replies t s.settings.part.address r.station .done none .station (st.1 + 1) 0
            [fv 32 u.stations[st].flags.toNat, fv 33 u.stations[st].flags.toNat]))) ∧
  (∀ (s : State) (k : Kind) (st : Fin 8), s.role st ≠ .none →
    s.settings.stations[st].mask.getLsbD (kindCode k - 1) = true →
    (s.mark k).stations[st].armed.getLsbD (kindCode k - 1) = false ∧
      ((s.mark k).arm st).stations[st].armed.getLsbD (kindCode k - 1) = true)

/-- R198: a STORE of an ENGINEER station begins, is BUSY while one is in progress, and at its end the image
holds the settings as they then stand. That STORE_COMPLETE with no STORE in progress changes nothing is log
entry 4, and that the image is not good from the beginning of the STORE to its end is log entry 24 (both
DEDUCED). -/
def Obligations.StoreWritesImage : Prop :=
  (∀ (r : Req) (st : Fin 8) (s u : State),
    Heard s r st → r.index = 1 → r.issue = 0 → r.fields = [] → u = s.frameGood →
    (s.role st = .engineer → s.store.state ≠ .storing →
      ∃ t, exec (.store .status r) s = .next t ∧ t.store = { s.store with state := .storing } ∧
        t.image = s.image ∧ t.imageGood = false ∧ ChangesOnly [.link, .stations, .store, .image] u t ∧
        Replies t s.settings.part.address r.station .done none .status 1 0 t.statusFields) ∧
    (s.role st = .engineer → s.store.state = .storing →
      ∃ t, exec (.store .status r) s = .next t ∧ ChangesOnly [.link] u t ∧
        Replies t s.settings.part.address r.station .busy none .status 1 0 []) ∧
    (s.role st ≠ .engineer →
      ∃ t, exec (.store .status r) s = .next t ∧ ChangesOnly [.link] u t ∧
        Replies t s.settings.part.address r.station .notPermitted none .status 1 0 [])) ∧
  (∀ s : State, s.powered = true → s.store.state = .storing →
    ∃ t, exec .storeComplete s = .next t ∧ t.image = s.settings ∧ t.imageGood = true ∧
      t.store = { s.store with state := .stored, changed := false } ∧
      ChangesOnly [.image, .store, .stations] s t) ∧
  (∀ s : State, s.store.state ≠ .storing → exec .storeComplete s = .next s) ∧
  (∀ (k : Kind) (r : Req) (st : Fin 8) (s : State), Heard s r st → s.role st ≠ .none → s.role st ≠ .view →
    k ≠ .status ∨ r.index ≠ 1 ∨ r.issue ≠ 0 ∨ r.fields ≠ [] →
    ∃ t, exec (.store k r) s = .next t ∧ ChangesOnly [.link] s.frameGood t ∧
      Replies t s.settings.part.address r.station .badField none k r.index.toNat r.issue.toNat [])

/-- R176, R177, R63, R80, R127, R154, R166, R192: a RESTART that is admitted keeps the performances, the
settings and the issues, and clears what each block's own rule clears; otherwise the first failing check of R176
gives the reply. That a station of role NONE has no flags afterwards is log entry 40 (DEDUCED). -/
def Obligations.RestartClearsTheDay : Prop :=
  ∀ (r : Req) (loads : BitVec 16) (st : Fin 8) (s u : State),
    Heard s r st → r.index = 1 → r.issue = 0 → r.fields = [] → u = s.frameGood →
    (s.role st ≠ .engineer →
      ∃ t, exec (.restart .status r loads) s = .next t ∧ ChangesOnly [.link] u t ∧
        Replies t s.settings.part.address r.station .notPermitted none .status 1 0 []) ∧
    (s.role st = .engineer → s.store.state = .storing →
      ∃ t, exec (.restart .status r loads) s = .next t ∧ ChangesOnly [.link] u t ∧
        Replies t s.settings.part.address r.station .busy none .status 1 0 []) ∧
    (s.role st = .engineer → s.store.state ≠ .storing → (∃ a, s.phase a ≠ .dark) →
      ∃ t, exec (.restart .status r loads) s = .next t ∧ ChangesOnly [.link] u t ∧
        Replies t s.settings.part.address r.station .refused (some .performanceActive) .status 1 0 []) ∧
    (s.role st = .engineer → s.store.state ≠ .storing → (∀ a, s.phase a = .dark) → s.incidentList ≠ [] →
      ∃ t, exec (.restart .status r loads) s = .next t ∧ ChangesOnly [.link] u t ∧
        Replies t s.settings.part.address r.station .refused (some .alarmActive) .status 1 0 []) ∧
    (s.role st = .engineer → s.store.state ≠ .storing → (∀ a, s.phase a = .dark) → s.incidentList = [] →
      LightsDerived u →
      ∃ t, exec (.restart .status r loads) s = .next t ∧
        Replies t s.settings.part.address r.station .done none .status 1 0 t.statusFields ∧
        ChangesOnly ([.link, .stations, .supply, .zones, .irons] ++ lightParts) u t ∧
        t.supply = { s.supply with restartCause := .softRestart } ∧
        t.link.errors = 0 ∧ t.link.degraded = false ∧
        (∀ i : Fin 8, t.stations[i].armed = 0 ∧
          t.stations[i].flags = if s.role i = .none then 0 else s.settings.stations[i].mask) ∧
        (∀ ch : Fin 3, t.irons[ch] = { s.irons[ch] with result := none, td := 0, tf := 0 }) ∧
        t.callList = [] ∧ (∀ c : Fin 32, t.calls[c] = ⟨s.calls[c].issue, none⟩) ∧
        (∀ z : Fin 8, t.czones[z].sounding = none ∧ t.czones[z].queue = [] ∧ t.czones[z].suppressed = false ∧
          t.czones[z].barred = false ∧ t.flickers[z].code = 0) ∧
        (∀ c : Fin 16, t.circuits[c] =
          { Circuit.cleared s.now with
            condition := if loads.getLsbD c.1 then .sound else .openLoad }) ∧
        (∀ z : Fin 24, s.settings.zones[z].present = true →
          t.zones[z].isolated = s.zones[z].isolated ∧ t.zones[z].incident = s.zones[z].incident ∧
          t.zones[z].band = s.lines.bands[z] ∧ t.zones[z].noise = 0 ∧ t.zones[z].loopFault = false ∧
          t.zones[z].condition = (if s.zones[z].isolated then .isolated else .sound) ∧
          t.zones[z].detection =
            if s.lines.bands[z] = .active ∧ s.zones[z].isolated = false then .pending else .normal) ∧
        (∀ g : Fin 12, s.settings.groups[g].present = true →
          t.groups[g].level = s.groups[g].level ∧ t.groups[g].target = s.groups[g].level ∧
          t.groups[g].fading = false))

/-- R185: an AMEND that is answered with anything but DONE or ADJUSTED leaves every record as it was; the
flags alone can change, where a hold that blocks marks HOLD again (R28). -/
def Obligations.RefusedAmendLeavesState : Prop :=
  ∀ (i : Instr) (k : Kind) (r : Req) (st : Fin 8) (s t : State) (rep : Reply),
    requestOf i = some (.amend, k, r) → Heard s r st → exec i s = .next t → t.link.reply = some rep →
    rep.status ≠ .done → rep.status ≠ .adjusted →
    ChangesOnly [.link, .stations] s.frameGood t ∧
      (rep.reason ≠ some .holdPresent → ChangesOnly [.link] s.frameGood t)
/-! ## Performances and holds -/

/-- R7: DARK to PREPARE of a present auditorium, by its STAGE or by FOH. No light is sent anywhere, and the
holds whose conditions are true stand in slot order, the IRON hold among them where an iron is present. -/
def Obligations.PrepareEntered : Prop :=
  ∀ (q : AmendReq) (a : Fin 3) (st : Fin 8) (s u : State),
    HeardAlone s q st (a.1 + 1) 0 → u = s.frameGood → s.role st = .foh ∨ s.isStageOf st a = true →
    s.phase a = .dark →
    (s.settings.perfs[a].present = false →
      ∃ t, exec (.amendPhasePrepare q) s = .next t ∧ ChangesOnly [.link] u t ∧
        Replies t s.settings.part.address q.station .badField none .perf (a.1 + 1) 0 (u.perfFields a)) ∧
    (s.settings.perfs[a].present = true →
      ∃ t, exec (.amendPhasePrepare q) s = .next t ∧
        Replies t s.settings.part.address q.station .done none .perf (a.1 + 1) 0 (t.perfFields a) ∧
        ChangesOnly ([.link, .holds, .perfs, .retained] ++ lightParts) u t ∧
        t.perfs[a] =
          { phase := .prepare, act := 0, interrupted := false, openedBy := some st,
            ironProved := if s.settings.irons[a].present then .notYet else .notRequired } ∧
        OnlyAt a u.perfs t.perfs ∧
        t.retained.entries[a] = ⟨.prepare, 0, t.perfs[a].ironProved⟩ ∧
        OnlyAt a u.retained.entries t.retained.entries ∧ t.retained.checkGood = true ∧
        (∀ g : Fin 12, t.groups[g].target = u.groups[g].target) ∧
        OnlyAt a u.holdLists t.holdLists ∧
        (HoldsLawful u →
          t.holdLists[a] = [HoldCause.iron, .fire, .supply, .system].filterMap
            (fun c => if (t.holdReason a c).isSome then some (holdSlot c) else none) ∧
          (s.settings.irons[a].present = true → (t.holdLists[a])[0]? = some 4) ∧
          ∀ c ∈ [HoldCause.iron, .fire, .supply, .system], ∀ why, t.holdReason a c = some why →
            t.holds[a][holdSlot c] =
              ⟨nextIssue u.holds[a][holdSlot c].issue, some ⟨none, c, why⟩⟩))

/-- R8: PREPARE to HOUSE_OPEN by FOH with no hold: the house goes to the preset level over the preset fade.
-/
def Obligations.HouseOpenEntered : Prop :=
  ∀ (q : AmendReq) (a : Fin 3) (st : Fin 8) (s u : State),
    HeardAlone s q st (a.1 + 1) 0 → u = s.frameGood → s.role st = .foh → s.phase a = .prepare →
    u.holdLists[a] = [] → LightsDerived u →
    ∃ t, exec (.amendPhaseHouseOpen q) s = .next t ∧
      Replies t s.settings.part.address q.station .done none .perf (a.1 + 1) 0 (t.perfFields a) ∧
      ChangesOnly [.link, .perfs, .retained, .groups, .stations] u t ∧
      t.perfs[a] = { s.perfs[a] with phase := .houseOpen } ∧ OnlyAt a u.perfs t.perfs ∧
      t.retained.entries[a] = ⟨.houseOpen, s.perfs[a].act, s.perfs[a].ironProved⟩ ∧
      OnlyAt a u.retained.entries t.retained.entries ∧ t.retained.checkGood = true ∧
      (∀ g : Fin 12, u.follows g a →
        TakesResponse s.settings.perfs[a].presetLevel s.settings.perfs[a].presetFade u.groups[g] t.groups[g]) ∧
      ∀ g : Fin 12, ¬u.follows g a → KeepsFade u.groups[g] t.groups[g]

/-- R9: HOUSE_OPEN and INTERVAL to BEGINNERS for STAGE alone, with no conditions, no response and no notice;
in BEGINNERS AUDIENCE calls may be raised, and those there stand as they did. -/
def Obligations.BeginnersEntered : Prop :=
  ∀ (q : AmendReq) (a : Fin 3) (st : Fin 8) (s u : State),
    HeardAlone s q st (a.1 + 1) 0 → u = s.frameGood → s.phase a = .houseOpen ∨ s.phase a = .interval →
    (s.isStageOf st a = true → LightsDerived u →
      ∃ t, exec (.amendPhaseBeginners q) s = .next t ∧
        Replies t s.settings.part.address q.station .done none .perf (a.1 + 1) 0 (t.perfFields a) ∧
        ChangesOnly [.link, .perfs, .retained, .groups, .stations] u t ∧
        t.perfs[a] = { s.perfs[a] with phase := .beginners } ∧ OnlyAt a u.perfs t.perfs ∧
        t.retained.entries[a] = ⟨.beginners, s.perfs[a].act, s.perfs[a].ironProved⟩ ∧
        OnlyAt a u.retained.entries t.retained.entries ∧ t.retained.checkGood = true ∧
        (∀ g : Fin 12, KeepsFade u.groups[g] t.groups[g]) ∧
        (∀ x : Call, x.purpose = .audience → x.aud = some a → t.callTooLate x = false)) ∧
    (s.role st = .foh →
      ∃ t, exec (.amendPhaseBeginners q) s = .next t ∧ ChangesOnly [.link] u t ∧
        Replies t s.settings.part.address q.station .notPermitted none .perf (a.1 + 1) 0 (u.perfFields a))

/-- R15, R120: HALTED to BEGINNERS by STAGE with no GENERAL incident: interrupted becomes no, and a group that
RESTORE alone forced fades from its output to its target; with one it is refused with ALARM_ACTIVE. -/
def Obligations.HaltedToBeginners : Prop :=
  ∀ (q : AmendReq) (a : Fin 3) (st : Fin 8) (s u : State),
    HeardAlone s q st (a.1 + 1) 0 → u = s.frameGood → s.phase a = .halted → s.isStageOf st a = true →
    ((∃ x ∈ s.openIncidents, x.stage = .general ∧ has x.auds a = true) →
      ∃ t, exec (.amendPhaseBeginners q) s = .next t ∧ ChangesOnly [.link] u t ∧
        Replies t s.settings.part.address q.station .refused (some .alarmActive) .perf (a.1 + 1) 0
          (u.perfFields a)) ∧
    ((∀ x ∈ s.openIncidents, x.stage = .general → has x.auds a = false) → LightsDerived u →
      ∃ t, exec (.amendPhaseBeginners q) s = .next t ∧
        Replies t s.settings.part.address q.station .done none .perf (a.1 + 1) 0 (t.perfFields a) ∧
        ChangesOnly [.link, .perfs, .retained, .groups, .stations] u t ∧
        t.perfs[a] = { s.perfs[a] with phase := .beginners, interrupted := false } ∧
        OnlyAt a u.perfs t.perfs ∧
        (∀ g : Fin 12, u.follows g a → s.groups[g].causes = 4 →
          ReleasedTo s.groups[g].target s.settings.groups[g].restoreFade s.groups[g] t.groups[g]) ∧
        ∀ g : Fin 12, s.perfs[a].interrupted = false ∨ ¬u.follows g a → KeepsFade s.groups[g] t.groups[g])

/-- R10, R150: BEGINNERS to RUNNING by STAGE with no hold and the iron OUT: act rises to at most 15 and the
performance's AUDIENCE calls end OVERTAKEN; with the iron elsewhere it is refused with IRON_NOT_OUT. -/
def Obligations.RunningEntered : Prop :=
  ∀ (q : AmendReq) (a : Fin 3) (st : Fin 8) (s u : State),
    HeardAlone s q st (a.1 + 1) 0 → u = s.frameGood → s.phase a = .beginners → s.isStageOf st a = true →
    u.holdLists[a] = [] →
    (s.settings.irons[a].present = true → s.irons[a].motion ≠ .atOut →
      ∃ t, exec (.amendPhaseRunning q) s = .next t ∧ ChangesOnly [.link] u t ∧
        Replies t s.settings.part.address q.station .refused (some .ironNotOut) .perf (a.1 + 1) 0
          (u.perfFields a)) ∧
    (s.settings.irons[a].present = false ∨ s.irons[a].motion = .atOut → LightsDerived u →
      ∃ t, exec (.amendPhaseRunning q) s = .next t ∧
        Replies t s.settings.part.address q.station .done none .perf (a.1 + 1) 0 (t.perfFields a) ∧
        ChangesOnly [.link, .perfs, .retained, .groups, .flickers, .calls, .czones, .circuits, .stations] u t ∧
        t.perfs[a] = { s.perfs[a] with phase := .running, act := min 15 (s.perfs[a].act + 1) } ∧
        OnlyAt a u.perfs t.perfs ∧
        t.retained.entries[a] = ⟨.running, t.perfs[a].act, s.perfs[a].ironProved⟩ ∧
        OnlyAt a u.retained.entries t.retained.entries ∧ t.retained.checkGood = true ∧
        (∀ g : Fin 12, KeepsFade u.groups[g] t.groups[g]) ∧ AudienceEnded a .overtaken u t)

/-- R11: RUNNING to INTERVAL for STAGE alone, with no conditions: the house goes to the preset level over the
preset fade. -/
def Obligations.IntervalEntered : Prop :=
  ∀ (q : AmendReq) (a : Fin 3) (st : Fin 8) (s u : State),
    HeardAlone s q st (a.1 + 1) 0 → u = s.frameGood → s.phase a = .running →
    (s.isStageOf st a = true → LightsDerived u →
      ∃ t, exec (.amendPhaseInterval q) s = .next t ∧
        Replies t s.settings.part.address q.station .done none .perf (a.1 + 1) 0 (t.perfFields a) ∧
        ChangesOnly [.link, .perfs, .retained, .groups, .stations] u t ∧
        t.perfs[a] = { s.perfs[a] with phase := .interval } ∧ OnlyAt a u.perfs t.perfs ∧
        t.retained.entries[a] = ⟨.interval, s.perfs[a].act, s.perfs[a].ironProved⟩ ∧
        OnlyAt a u.retained.entries t.retained.entries ∧ t.retained.checkGood = true ∧
        (∀ g : Fin 12, u.follows g a →
          TakesResponse s.settings.perfs[a].presetLevel s.settings.perfs[a].presetFade u.groups[g]
            t.groups[g]) ∧
        ∀ g : Fin 12, ¬u.follows g a → KeepsFade u.groups[g] t.groups[g]) ∧
    (s.role st = .foh →
      ∃ t, exec (.amendPhaseInterval q) s = .next t ∧ ChangesOnly [.link] u t ∧
        Replies t s.settings.part.address q.station .notPermitted none .perf (a.1 + 1) 0 (u.perfFields a))

/-- R12, R16: entry to CLOSING from RUNNING, INTERVAL and HALTED: full light over the closing fade, the
AUDIENCE calls end ABANDONED, and interrupted becomes no from HALTED. From HALTED an unproved iron blocks it
with the IRON hold (R28). -/
def Obligations.ClosingEntered : Prop :=
  ∀ (q : AmendReq) (a : Fin 3) (st : Fin 8) (s u : State),
    HeardAlone s q st (a.1 + 1) 0 → u = s.frameGood →
    (s.phase a = .running ∧ s.isStageOf st a = true) ∨
      ((s.phase a = .interval ∨ s.phase a = .halted) ∧ (s.isStageOf st a = true ∨ s.role st = .foh)) →
    (s.phase a = .halted → s.settings.irons[a].present = true → unproved s.perfs[a].ironProved = true →
      ∀ h, u.hold? a 4 = some h →
        ∃ t, exec (.amendPhaseClosing q) s = .next t ∧ ChangesOnly [.link, .stations] u t ∧
          Replies t s.settings.part.address q.station .refused (some .holdPresent) .hold (holdIndex a 4)
            u.holds[a][(4 : Fin 8)].issue (holdFields a h)) ∧
    (s.phase a ≠ .halted ∨ s.settings.irons[a].present = false ∨ unproved s.perfs[a].ironProved = false →
      LightsDerived u →
      ∃ t, exec (.amendPhaseClosing q) s = .next t ∧
        Replies t s.settings.part.address q.station .done none .perf (a.1 + 1) 0 (t.perfFields a) ∧
        ChangesOnly [.link, .perfs, .retained, .groups, .flickers, .calls, .czones, .circuits, .stations] u t ∧
        t.perfs[a] =
          { s.perfs[a] with
            phase := .closing
            interrupted := if s.phase a = .halted then false else s.perfs[a].interrupted } ∧
        OnlyAt a u.perfs t.perfs ∧
        t.retained.entries[a] = ⟨.closing, s.perfs[a].act, s.perfs[a].ironProved⟩ ∧
        OnlyAt a u.retained.entries t.retained.entries ∧ t.retained.checkGood = true ∧
        (∀ g : Fin 12, u.follows g a → t.groups[g].target = 1000) ∧
        (s.phase a ≠ .halted ∨ s.perfs[a].interrupted = false → ∀ g : Fin 12, u.follows g a →
          TakesResponse 1000 s.settings.perfs[a].closingFade u.groups[g] t.groups[g]) ∧
        (s.phase a = .halted → ∀ g : Fin 12, u.follows g a → u.groups[g].causes = 4 →
          ReleasedTo 1000 s.settings.groups[g].restoreFade u.groups[g] t.groups[g]) ∧
        (∀ g : Fin 12, ¬u.follows g a → KeepsFade u.groups[g] t.groups[g]) ∧ AudienceEnded a .abandoned u t)

/-- R13: a station stop halts from the four phases, by STAGE or FOH: full light at once, the AUDIENCE calls
end ABANDONED, and neither interrupted nor the curtain is touched. -/
def Obligations.HaltEntered : Prop :=
  ∀ (q : AmendReq) (a : Fin 3) (st : Fin 8) (s u : State),
    HeardAlone s q st (a.1 + 1) 0 → u = s.frameGood → s.isStageOf st a = true ∨ s.role st = .foh →
    s.phase a = .houseOpen ∨ s.phase a = .beginners ∨ s.phase a = .running ∨ s.phase a = .interval →
    ∃ t, exec (.amendPhaseHalted q) s = .next t ∧
      Replies t s.settings.part.address q.station .done none .perf (a.1 + 1) 0 (t.perfFields a) ∧
      ChangesOnly [.link, .perfs, .retained, .groups, .flickers, .calls, .czones, .circuits, .stations] u t ∧
      t.perfs[a] = { s.perfs[a] with phase := .halted } ∧ OnlyAt a u.perfs t.perfs ∧
      t.retained.entries[a] = ⟨.halted, s.perfs[a].act, s.perfs[a].ironProved⟩ ∧
      OnlyAt a u.retained.entries t.retained.entries ∧ t.retained.checkGood = true ∧
      (∀ g : Fin 12, u.follows g a → TakesResponse 1000 0 u.groups[g] t.groups[g]) ∧
      (∀ g : Fin 12, ¬u.follows g a → KeepsFade u.groups[g] t.groups[g]) ∧ AudienceEnded a .abandoned u t

/-- R17, R18: entry to DARK from CLOSING by FOH with the iron IN, and from PREPARE by STAGE or FOH: every hold
goes, act stays, the proof is fresh, and the house fades to 0 over the preset fade. From CLOSING with the iron
anywhere else it is refused with IRON_NOT_IN. -/
def Obligations.DarkEntered : Prop :=
  ∀ (q : AmendReq) (a : Fin 3) (st : Fin 8) (s u : State),
    HeardAlone s q st (a.1 + 1) 0 → u = s.frameGood →
    (s.phase a = .closing → s.role st = .foh → s.settings.irons[a].present = true → s.irons[a].motion ≠ .atIn →
      ∃ t, exec (.amendPhaseDark q) s = .next t ∧ ChangesOnly [.link] u t ∧
        Replies t s.settings.part.address q.station .refused (some .ironNotIn) .perf (a.1 + 1) 0
          (u.perfFields a)) ∧
    ((s.phase a = .closing ∧ s.role st = .foh ∧
        (s.settings.irons[a].present = false ∨ s.irons[a].motion = .atIn)) ∨
      (s.phase a = .prepare ∧ (s.role st = .foh ∨ s.isStageOf st a = true)) →
      ∃ t, exec (.amendPhaseDark q) s = .next t ∧
        Replies t s.settings.part.address q.station .done none .perf (a.1 + 1) 0 (t.perfFields a) ∧
        ChangesOnly ([.link, .holds, .perfs, .retained] ++ lightParts) u t ∧
        t.perfs[a] =
          { phase := .dark, act := s.perfs[a].act, interrupted := false, openedBy := none,
            ironProved := if s.settings.irons[a].present then .notYet else .notRequired } ∧
        OnlyAt a u.perfs t.perfs ∧
        t.retained.entries[a] = ⟨.dark, s.perfs[a].act, t.perfs[a].ironProved⟩ ∧
        OnlyAt a u.retained.entries t.retained.entries ∧ t.retained.checkGood = true ∧
        (∀ k : Fin 8, t.holds[a][k] = ⟨u.holds[a][k].issue, none⟩) ∧ OnlyAt a u.holds t.holds ∧
        OnlyAt a u.holdLists t.holdLists ∧ (HoldsLawful u → t.holdLists[a] = []) ∧
        (∀ g : Fin 12, u.follows g a → t.groups[g].target = 0) ∧
        (∀ g : Fin 12, ¬u.follows g a → t.groups[g].target = u.groups[g].target) ∧
        (LightsDerived u → s.supply.mains = .present → s.perfs[a].interrupted = false →
          ∀ g : Fin 12, u.follows g a →
            TakesResponse 0 s.settings.perfs[a].presetFade u.groups[g] t.groups[g]))

/-- R4, R5, R28: the checks of a phase request in their order, for every phase command: the form of the
fields, the role, the phase as it is, the sixteen transitions, the role of the transition, and the holds that
block HOUSE_OPEN and RUNNING. -/
def Obligations.PhaseRequestChecked : Prop :=
  ∀ (p : Phase) (q : AmendReq) (r : Req) (a : Fin 3) (st : Fin 8) (s u : State),
    r = q.withField 32 (BitVec.ofNat 16 p.code) → Heard s r st → u = s.frameGood →
    s.role st ≠ .none → s.role st ≠ .view → (r.fields.map (·.id)).Nodup →
    q.index.toNat = a.1 + 1 → q.issue = 0 →
    (∀ f ∈ r.fields, (∀ f' ∈ r.fields.takeWhile (fun x => x != f), formOf .perf q.index r.fields f' = none) →
      (formOf .perf q.index r.fields f = some .badField →
        ∃ t, exec (phaseCommand p q) s = .next t ∧ ChangesOnly [.link] u t ∧
          Replies t s.settings.part.address q.station .badField none .perf (a.1 + 1) 0 (u.perfFields a)) ∧
      (formOf .perf q.index r.fields f = some .notAmendable →
        ∃ t, exec (phaseCommand p q) s = .next t ∧ ChangesOnly [.link] u t ∧
          Replies t s.settings.part.address q.station .refused (some .notAmendable) .perf (a.1 + 1) 0
            (f :: u.perfFields a))) ∧
    ((∀ f ∈ r.fields, formOf .perf q.index r.fields f = none) →
      (s.role st ≠ .foh ∧ s.isStageOf st a = false ∨ amendsSettings .perf r.fields = true →
        ∃ t, exec (phaseCommand p q) s = .next t ∧ ChangesOnly [.link] u t ∧
          Replies t s.settings.part.address q.station .notPermitted none .perf (a.1 + 1) 0
            (u.perfFields a)) ∧
      (s.role st = .foh ∨ s.isStageOf st a = true → amendsSettings .perf r.fields = false →
        (s.phase a = p →
          ∃ t, exec (phaseCommand p q) s = .next t ∧ ChangesOnly [.link] u t ∧
            Replies t s.settings.part.address q.station .done none .perf (a.1 + 1) 0 (u.perfFields a)) ∧
        (s.phase a ≠ p →
          (s.phase a, p) ∉ [(Phase.dark, Phase.prepare), (.prepare, .houseOpen), (.houseOpen, .beginners),
            (.interval, .beginners), (.beginners, .running), (.running, .interval), (.running, .closing),
            (.interval, .closing), (.houseOpen, .halted), (.beginners, .halted), (.running, .halted),
            (.interval, .halted), (.halted, .beginners), (.halted, .closing), (.closing, .dark),
            (.prepare, .dark)] →
          ∃ t, exec (phaseCommand p q) s = .next t ∧ ChangesOnly [.link] u t ∧
            Replies t s.settings.part.address q.station .refused (some .wrongPhase) .perf (a.1 + 1) 0
              (u.perfFields a)) ∧
        ((s.role st = .foh ∧ (s.phase a, p) ∈ [(Phase.houseOpen, Phase.beginners), (.interval, .beginners),
              (.beginners, .running), (.running, .interval), (.running, .closing), (.halted, .beginners)]) ∨
            (s.isStageOf st a = true ∧
              (s.phase a, p) ∈ [(Phase.prepare, Phase.houseOpen), (.closing, .dark)]) →
          ∃ t, exec (phaseCommand p q) s = .next t ∧ ChangesOnly [.link] u t ∧
            Replies t s.settings.part.address q.station .notPermitted none .perf (a.1 + 1) 0
              (u.perfFields a)) ∧
        (∀ k h, u.holdLists[a][0]? = some k → u.hold? a k = some h →
          (s.phase a = .prepare ∧ p = .houseOpen ∧ s.role st = .foh) ∨
            (s.phase a = .beginners ∧ p = .running ∧ s.isStageOf st a = true) →
          ∃ t, exec (phaseCommand p q) s = .next t ∧ ChangesOnly [.link, .stations] u t ∧
            t.stations = (u.mark .hold).stations ∧
            Replies t s.settings.part.address q.station .refused (some .holdPresent) .hold (holdIndex a k)
              u.holds[a][k].issue (holdFields a h))))

/-- R20, R21, R22: a station raises a hold in the lowest empty station slot of a performance that is not DARK,
at the end of its list and with a new issue, and a station of the same role retires it; a hold has no amendable
field; and an AMEND or RETIRE that names no hold of its slot by its issue is NO_RECORD. That an AMEND of a HOLD
without a field is refused too, and that the reply names the first field, is log entry 30 (DEDUCED). -/
def Obligations.StationHoldsRaisedAndRetired : Prop :=
  (∀ (r : Req) (a : Fin 3) (n : Nat) (st : Fin 8) (k : Fin 8) (s u : State),
    Heard s r st → r.index = 0 → r.issue = 0 → u = s.frameGood →
    (r.fields = [⟨32, BitVec.ofNat 16 (a.1 + 1)⟩, ⟨35, BitVec.ofNat 16 n⟩] ∨
      r.fields = [⟨35, BitVec.ofNat 16 n⟩, ⟨32, BitVec.ofNat 16 (a.1 + 1)⟩]) → 1 ≤ n → n ≤ 255 →
    (s.role st = .foh ∨ s.isStageOf st a = true) →
    (s.phase a = .dark →
      ∃ t, exec (.raiseHold r) s = .next t ∧ ChangesOnly [.link] u t ∧
        Replies t s.settings.part.address r.station .refused (some .wrongPhase) .hold 0 0 []) ∧
    (s.phase a ≠ .dark → (∀ j : Fin 8, j.1 < 4 → u.hold? a j ≠ none) →
      ∃ t, exec (.raiseHold r) s = .next t ∧ ChangesOnly [.link] u t ∧
        Replies t s.settings.part.address r.station .full none .hold 0 0 []) ∧
    (s.phase a ≠ .dark → k.1 < 4 → u.hold? a k = none → (∀ j : Fin 8, j < k → u.hold? a j ≠ none) →
      ∃ t, exec (.raiseHold r) s = .next t ∧ ChangesOnly requestParts u t ∧
        t.holds[a][k] =
          ⟨if u.holds[a][k].issue < 255 then u.holds[a][k].issue + 1 else 1,
            some ⟨some st, .station, .code n⟩⟩ ∧
        OnlyAt k u.holds[a] t.holds[a] ∧ OnlyAt a u.holds t.holds ∧
        (k ∉ u.holdLists[a] → t.holdLists[a] = u.holdLists[a] ++ [k]) ∧ OnlyAt a u.holdLists t.holdLists ∧
        Replies t s.settings.part.address r.station .done none .hold (holdIndex a k) t.holds[a][k].issue
          [fv 32 (a.1 + 1), fv 33 (st.1 + 1), fv 34 0, fv 35 n])) ∧
  (∀ (r : Req) (st : Fin 8) (s : State), Heard s r st → r.index = 0 → r.issue = 0 →
    (r.fields.map (·.id)).Nodup → s.role st ≠ .none → s.role st ≠ .view →
    ((∃ f ∈ r.fields, f.id ≠ 32 ∧ f.id ≠ 35) ∨
        (∀ f ∈ r.fields, f.id = 32 → f.value.toNat < 1 ∨ 3 < f.value.toNat) ∨
        (∀ f ∈ r.fields, f.id = 35 → f.value.toNat < 1 ∨ 255 < f.value.toNat) →
      ∃ t, exec (.raiseHold r) s = .next t ∧ ChangesOnly [.link] s.frameGood t ∧
        Replies t s.settings.part.address r.station .badField none .hold 0 0 []) ∧
    (∀ (a : Fin 3) (n : Word), r.fields = [⟨32, BitVec.ofNat 16 (a.1 + 1)⟩, ⟨35, n⟩] → 1 ≤ n.toNat →
      n.toNat ≤ 255 → s.role st ≠ .foh → s.isStageOf st a = false →
      ∃ t, exec (.raiseHold r) s = .next t ∧ ChangesOnly [.link] s.frameGood t ∧
        Replies t s.settings.part.address r.station .notPermitted none .hold 0 0 [])) ∧
  (∀ (r : Req) (a : Fin 3) (k : Fin 8) (h : Hold) (st : Fin 8) (s u : State),
    Heard s r st → r.index.toNat = holdIndex a k → u.holds[a][k] = ⟨r.issue.toNat, some h⟩ → r.issue ≠ 0 →
    u = s.frameGood → s.role st ≠ .none → s.role st ≠ .view →
    (r.fields = [] →
      (∀ o, h.origin = some o → s.role st = s.role o →
        (s.role st = .stage → s.settings.stations[st].aud = s.settings.stations[o].aud) →
        ∃ t, exec (.retireHold r) s = .next t ∧ ChangesOnly requestParts u t ∧
          t.holds[a][k] = ⟨r.issue.toNat, none⟩ ∧ OnlyAt k u.holds[a] t.holds[a] ∧ OnlyAt a u.holds t.holds ∧
          t.holdLists[a] = u.holdLists[a].erase k ∧ OnlyAt a u.holdLists t.holdLists ∧
          Replies t s.settings.part.address r.station .done none .hold (holdIndex a k) r.issue.toNat []) ∧
      (h.origin = none ∨ (∃ o, h.origin = some o ∧ (s.role st ≠ s.role o ∨
          (s.role st = .stage ∧ s.settings.stations[st].aud ≠ s.settings.stations[o].aud))) →
        ∃ t, exec (.retireHold r) s = .next t ∧ ChangesOnly [.link] u t ∧
          Replies t s.settings.part.address r.station .notPermitted none .hold (holdIndex a k) r.issue.toNat
            [])) ∧
    ((r.fields.map (·.id)).Nodup →
      ∃ t, exec (.amendHold r) s = .next t ∧ ChangesOnly [.link] u t ∧
        Replies t s.settings.part.address r.station .refused (some .notAmendable) .hold (holdIndex a k)
          r.issue.toNat (r.fields.take 1))) ∧
  (∀ (r : Req) (a : Fin 3) (k : Fin 8) (st : Fin 8) (s u : State),
    Heard s r st → r.index.toNat = holdIndex a k → u = s.frameGood → s.role st ≠ .none → s.role st ≠ .view →
    (r.fields.map (·.id)).Nodup →
    u.hold? a k = none ∨ r.issue = 0 ∨ u.holds[a][k].issue ≠ r.issue.toNat →
    (∃ t, exec (.amendHold r) s = .next t ∧ ChangesOnly [.link] u t ∧
      Replies t s.settings.part.address r.station .noRecord none .hold (holdIndex a k) r.issue.toNat []) ∧
    (r.fields = [] →
      ∃ t, exec (.retireHold r) s = .next t ∧ ChangesOnly [.link] u t ∧
        Replies t s.settings.part.address r.station .noRecord none .hold (holdIndex a k) r.issue.toNat []))

/-- R23: what evaluating an automatic hold does: raised at the end of the list with a new issue and the
reason of that moment, removed, or left as it is; nothing in DARK. -/
def Obligations.AutomaticHoldEvaluated : Prop :=
  ∀ (c : HoldCause) (a : Fin 3) (s : State) (t : State), t = s.evalHold c a →
    ChangesOnly [.holds, .stations] s t ∧ OnlyAt a s.holds t.holds ∧ OnlyAt a s.holdLists t.holdLists ∧
    OnlyAt (holdSlot c) s.holds[a] t.holds[a] ∧
    (s.phase a = .dark → t = s) ∧
    (s.phase a ≠ .dark → ∀ why, s.holdReason a c = some why →
      (∀ h, s.hold? a (holdSlot c) = some h → t = s) ∧
      (s.hold? a (holdSlot c) = none →
        t.holds[a][holdSlot c] = ⟨nextIssue s.holds[a][holdSlot c].issue, some ⟨none, c, why⟩⟩ ∧
        (holdSlot c ∉ s.holdLists[a] → t.holdLists[a] = s.holdLists[a] ++ [holdSlot c]))) ∧
    (s.phase a ≠ .dark → s.holdReason a c = none →
      (s.hold? a (holdSlot c) = none → t = s) ∧
      (∀ h, s.hold? a (holdSlot c) = some h →
        t.holds[a][holdSlot c] = ⟨s.holds[a][holdSlot c].issue, none⟩ ∧
        t.holdLists[a] = s.holdLists[a].erase (holdSlot c)))
/-! ## The curtain -/

/-- R37, R38, R43, R45: a demand OUT by STAGE of the auditorium or FIRE, judged on the motion state and then on
the four conditions of a raise in their order; a raise that begins has HOLD and RAISE on; and one that has run
for t_raise_max is STOPPED with stop cause TIMEOUT. That the clock then stands at the deadline or later is log
entry 3 (DESIGN CHOICE), and that RAISE_TIMEOUT of a channel that is not RAISING changes nothing is log entry 4
(DEDUCED). -/
def Obligations.RaiseJudgedAndTimed : Prop :=
  (∀ (ch : Fin 3) (s : State) (x : Iron), s.powered = true → x = s.irons[ch] → x.motion = .raising →
    ∃ t, exec (.raiseTimeout ch) s = .next t ∧ ChangesOnly [.clock, .irons, .holds, .stations] s t ∧
      OnlyAt ch s.irons t.irons ∧ t.irons[ch].motion = .stopped ∧ t.irons[ch].stop = some .timeout ∧
      Recorded .raiseTimeout x t.irons[ch] ∧ t.irons[ch].restTravel = 0 ∧
      t.now = max s.now (x.raiseStart + s.settings.irons[ch].raiseMax * 100) ∧
      t.raiseOutput ch = false ∧ (s.settings.irons[ch].present = true → t.holdOutput ch = true)) ∧
  (∀ (ch : Fin 3) (s : State), s.irons[ch].motion ≠ .raising → exec (.raiseTimeout ch) s = .next s) ∧
  ∀ (q : AmendReq) (ch : Fin 3) (st : Fin 8) (s u : State) (x : Iron),
    HeardAlone s q st (ch.1 + 1) 0 → u = s.frameGood → x = s.irons[ch] → s.role st ≠ .none → s.role st ≠ .view →
    (s.settings.irons[ch].present = false →
      ∃ t, exec (.demandOut q) s = .next t ∧ ChangesOnly [.link] u t ∧
        Replies t s.settings.part.address q.station .badField none .iron (ch.1 + 1) 0 (u.ironFields ch)) ∧
    (s.settings.irons[ch].present = true → s.role st ≠ .fire → s.isStageOf st ch = false →
      ∃ t, exec (.demandOut q) s = .next t ∧ ChangesOnly [.link] u t ∧
        Replies t s.settings.part.address q.station .notPermitted none .iron (ch.1 + 1) 0 (u.ironFields ch)) ∧
    (s.settings.irons[ch].present = true → s.role st = .fire ∨ s.isStageOf st ch = true →
      (x.motion = .raising ∨ x.motion = .atOut →
        ∃ t, exec (.demandOut q) s = .next t ∧ ChangesOnly [.link] u t ∧
          Replies t s.settings.part.address q.station .done none .iron (ch.1 + 1) 0 (u.ironFields ch)) ∧
      (∀ why,
        (if x.motion = .descending then some Reason.motion
         else if x.motion = .raising ∨ x.motion = .atOut then none
         else if ∃ i ∈ s.openIncidents, has i.auds ch = true then some .alarmActive
         else if x.pressed = true then some .releaseActive
         else if x.fault ≠ none then some .faultPresent
         else if s.supply.mains ≠ .present then some .supply
         else none) = some why →
        ∃ t, exec (.demandOut q) s = .next t ∧ ChangesOnly [.link] u t ∧
          Replies t s.settings.part.address q.station .refused (some why) .iron (ch.1 + 1) 0
            (u.ironFields ch)) ∧
      (x.motion = .atIn ∨ x.motion = .stopped → (∀ i ∈ s.openIncidents, has i.auds ch = false) →
        x.pressed = false → x.fault = none → s.supply.mains = .present →
        ∃ t, exec (.demandOut q) s = .next t ∧ ChangesOnly [.link, .irons, .stations] u t ∧
          OnlyAt ch u.irons t.irons ∧
          t.irons[ch] =
            { x with
              motion := .raising, demandOut := true, stop := none, sub := none, firstFault := none,
              raiseStart := s.now, raiseTravel := 0, raiseTop := 0 } ∧
          t.holdOutput ch = true ∧ t.raiseOutput ch = true ∧ t.checkOutput ch = false ∧
          Replies t s.settings.part.address q.station .done none .iron (ch.1 + 1) 0 (t.ironFields ch)))

/-- R39, every sentence: a demand IN of a station whose role admits it is never refused on a present channel;
it releases a channel in OUT, RAISING or STOPPED, and changes nothing in IN or DESCENDING. -/
def Obligations.DemandInReleases : Prop :=
  ∀ (q : AmendReq) (ch : Fin 3) (st : Fin 8) (s u : State) (x : Iron),
    HeardAlone s q st (ch.1 + 1) 0 → u = s.frameGood → x = s.irons[ch] →
    s.settings.irons[ch].present = true → s.role st = .fire ∨ s.role st = .foh ∨ s.isStageOf st ch = true →
    ∃ t, exec (.demandIn q) s = .next t ∧ ChangesOnly [.link, .irons, .stations] u t ∧
      OnlyAt ch u.irons t.irons ∧
      Replies t s.settings.part.address q.station .done none .iron (ch.1 + 1) 0 (t.ironFields ch) ∧
      (x.motion = .atIn ∨ x.motion = .descending → t.irons[ch] = x ∧ ChangesOnly [.link] u t) ∧
      (x.motion = .atOut → Falls .full .demand x t.irons[ch]) ∧
      (x.motion = .raising ∨ x.motion = .stopped → Falls .part .demand x t.irons[ch]) ∧
      (x.motion ≠ .atIn → x.motion ≠ .descending →
        t.holdOutput ch = false ∧ t.raiseOutput ch = false ∧ t.checkOutput ch = false)

/-- R37, R61: a fault is cleared in IN alone, by STAGE of the auditorium or ENGINEER; iron_proved and the last
judgement stay, and the IRON hold goes unless the proof keeps it. R37, R194: an action beside settings: a clear
fault by an ENGINEER with the locks open, applied whole, and a demand by nobody. That such a request is checked in
the order of R194 is log entry 34, and that a present setting it takes away is acted on after the clear fault is
log entry 27 (both DEDUCED). -/
def Obligations.ClearFaultEmptiesField : Prop :=
  (∀ (q : AmendReq) (ch : Fin 3) (st : Fin 8) (s u : State) (x : Iron),
    HeardAlone s q st (ch.1 + 1) 0 → u = s.frameGood → x = s.irons[ch] →
    s.settings.irons[ch].present = true →
    (s.role st ≠ .none → s.role st ≠ .view → s.role st ≠ .engineer → s.isStageOf st ch = false →
      ∃ t, exec (.clearFault q) s = .next t ∧ ChangesOnly [.link] u t ∧
        Replies t s.settings.part.address q.station .notPermitted none .iron (ch.1 + 1) 0 (u.ironFields ch)) ∧
    (s.role st = .engineer ∨ s.isStageOf st ch = true →
      (x.motion ≠ .atIn →
        ∃ t, exec (.clearFault q) s = .next t ∧ ChangesOnly [.link] u t ∧
          Replies t s.settings.part.address q.station .refused (some .ironNotIn) .iron (ch.1 + 1) 0
            (u.ironFields ch)) ∧
      (x.motion = .atIn → x.fault = none →
        ∃ t, exec (.clearFault q) s = .next t ∧ ChangesOnly [.link] u t ∧
          Replies t s.settings.part.address q.station .done none .iron (ch.1 + 1) 0 (u.ironFields ch)) ∧
      (x.motion = .atIn → x.fault ≠ none →
        ∃ t, exec (.clearFault q) s = .next t ∧ ChangesOnly [.link, .irons, .holds, .stations] u t ∧
          t.irons[ch] = { x with fault := none, further := false } ∧ OnlyAt ch u.irons t.irons ∧
          (HoldsLawful u → s.phase ch ≠ .dark →
            (unproved s.perfs[ch].ironProved = true → t.holds[ch] = u.holds[ch]) ∧
            (unproved s.perfs[ch].ironProved = false → t.hold? ch 4 = none)) ∧
          Replies t s.settings.part.address q.station .done none .iron (ch.1 + 1) 0 (t.ironFields ch)))) ∧
  (∀ (q : AmendReq) (r : Req) (act : Instr) (ch : Fin 3) (st : Fin 8) (s u : State),
    (act = .clearFault q ∧ r = q.withField 128 1) ∨ (act = .demandOut q ∧ r = q.withField 37 1) ∨
      (act = .demandIn q ∧ r = q.withField 37 0) →
    Heard s r st → r.index.toNat = ch.1 + 1 → r.issue = 0 → u = s.frameGood → s.role st ≠ .none →
    s.role st ≠ .view → (r.fields.map (·.id)).Nodup → q.before ++ q.after ≠ [] →
    (∀ f ∈ q.before ++ q.after, 1 ≤ f.id.toNat ∧ f.id.toNat ≤ 11 ∧ formOf .iron r.index r.fields f = none) →
    (s.settings.irons[ch].present = false →
      ∃ t, exec act s = .next t ∧ ChangesOnly [.link] u t ∧
        Replies t s.settings.part.address r.station .badField none .iron (ch.1 + 1) 0 (u.reads .iron r.index)) ∧
    (s.settings.irons[ch].present = true →
      (act ≠ .clearFault q →
        ∃ t, exec act s = .next t ∧ ChangesOnly [.link] u t ∧
          Replies t s.settings.part.address r.station .notPermitted none .iron (ch.1 + 1) 0
            (u.reads .iron r.index)) ∧
      (act = .clearFault q → ∀ asked : Settings, asked = s.settings.asked .iron r.index r.fields →
        ∀ new : Settings, new = asked.ranged .iron r.index →
        (∀ status why,
          (match s.lockedOut st with
           | some w => some w
           | none =>
              if s.irons[ch].motion ≠ .atIn then some (.refused, some .ironNotIn)
              else s.settingsClash .iron r.index r.fields) = some (status, why) →
          ∃ t, exec act s = .next t ∧ ChangesOnly [.link] u t ∧
            Replies t s.settings.part.address r.station status why .iron (ch.1 + 1) 0 (u.reads .iron r.index)) ∧
        (s.lockedOut st = none → s.irons[ch].motion = .atIn → s.settingsClash .iron r.index r.fields = none →
          ∃ t, exec act s = .next t ∧ ChangesOnly [.link, .settings, .store, .irons, .stations] u t ∧
            SettingsWritten new u t ∧ OnlyAt ch u.irons t.irons ∧
            t.irons[ch] =
              (if new.irons[ch].present = false then { Iron.absent with sampleAt := s.now }
               else if s.irons[ch].fault = none then s.irons[ch]
               else { s.irons[ch] with fault := none, further := false }) ∧
            Replies t s.settings.part.address r.station (if asked = new then .done else .adjusted) none .iron
              (ch.1 + 1) 0 (t.reads .iron r.index)))))

/-- R41, every sentence, with R31's: a press releases a channel in OUT, RAISING or STOPPED and in every motion
state is held as pressed until it is let go; while pressed a raise is refused, and after it a demand OUT may
raise again; an absent channel ignores its release. -/
def Obligations.LocalReleasePressed : Prop :=
  (∀ (ch : Fin 3) (s : State) (x : Iron),
    s.powered = true → s.settings.irons[ch].present = true → x = s.irons[ch] →
    (x.pressed = false →
      ∃ t, exec (.localReleasePress ch) s = .next t ∧ ChangesOnly [.lines, .irons, .stations] s t ∧
        OnlyAt ch s.irons t.irons ∧ t.irons[ch].pressed = true ∧
        (x.motion = .atOut → Falls .full .localRelease x t.irons[ch]) ∧
        (x.motion = .raising ∨ x.motion = .stopped → Falls .part .localRelease x t.irons[ch]) ∧
        (x.motion = .descending ∨ x.motion = .atIn → t.irons[ch] = { x with pressed := true })) ∧
    (x.pressed = true → ∃ t, exec (.localReleasePress ch) s = .next t ∧ ChangesOnly [.lines] s t) ∧
    ∃ t, exec (.localReleaseLetGo ch) s = .next t ∧ ChangesOnly [.lines, .irons, .stations] s t ∧
      OnlyAt ch s.irons t.irons ∧ t.irons[ch] = { x with pressed := false }) ∧
  (∀ (ch : Fin 3) (s : State), s.powered = true → s.settings.irons[ch].present = false →
    (∃ t, exec (.localReleasePress ch) s = .next t ∧ ChangesOnly [.lines] s t) ∧
    ∃ t, exec (.localReleaseLetGo ch) s = .next t ∧ ChangesOnly [.lines] s t) ∧
  (∀ (q : AmendReq) (ch : Fin 3) (st : Fin 8) (s u : State),
    HeardAlone s q st (ch.1 + 1) 0 → u = s.frameGood → s.settings.irons[ch].present = true →
    s.role st = .fire ∨ s.isStageOf st ch = true → (∀ i ∈ s.openIncidents, has i.auds ch = false) →
    s.irons[ch].motion = .atIn ∨ s.irons[ch].motion = .stopped →
    (s.irons[ch].pressed = true →
      ∃ t, exec (.demandOut q) s = .next t ∧ ChangesOnly [.link] u t ∧
        Replies t s.settings.part.address q.station .refused (some .releaseActive) .iron (ch.1 + 1) 0
          (u.ironFields ch)) ∧
    (s.irons[ch].pressed = false → s.irons[ch].fault = none → s.supply.mains = .present →
      ∃ t, exec (.demandOut q) s = .next t ∧ t.irons[ch].motion = .raising))

/-- R46, R49, R52: what one count does to the position and the totals, and the faults it can show: a count the
position cannot follow, the wrong direction under the motor, and creep at rest. That a count both lost and wrong
records DRIFT alone, since saturation is judged before direction, is log entry 19, and that a count of an absent
channel changes nothing is R31 (log entry 4; both entries DEDUCED). -/
def Obligations.EncoderCountMoves : Prop :=
  (∀ (ch : Fin 3) (up : Bool) (s : State), s.settings.irons[ch].present = false →
    exec (.encoderCount ch up) s = .next s) ∧
  ∀ (ch : Fin 3) (up : Bool) (s : State) (x : Iron) (d tol : Int) (resting lost wrong creeps : Prop),
    s.powered = true → s.settings.irons[ch].present = true → x = s.irons[ch] → d = (if up then 1 else -1) →
    tol = s.settings.irons[ch].driftTol → (resting ↔ x.motion = .atOut ∨ x.motion = .stopped) →
    (lost ↔ if up then 65535 ≤ x.position else x.position = 0) →
    (wrong ↔ x.motion = .raising ∧ x.raiseTravel + d + tol < max x.raiseTop (x.raiseTravel + d)) →
    (creeps ↔ resting ∧ x.restTravel + d + tol < 0 ∧ x.sawCreep = false) →
    ∃ t, exec (.encoderCount ch up) s = .next t ∧ ChangesOnly [.irons, .holds, .stations] s t ∧
      OnlyAt ch s.irons t.irons ∧
      t.irons[ch].position = (if up then min 65535 (x.position + 1) else x.position - 1) ∧
      t.irons[ch].sampleMove = x.sampleMove + 1 ∧
      (x.motion = .raising → t.irons[ch].raiseTravel = x.raiseTravel + d ∧
        t.irons[ch].raiseTop = max x.raiseTop (x.raiseTravel + d)) ∧
      (resting → t.irons[ch].restTravel = x.restTravel + d) ∧
      (x.motion ≠ .raising → t.irons[ch].motion = x.motion) ∧
      (¬lost → ¬wrong → ¬creeps → t.irons[ch].fault = x.fault ∧ t.irons[ch].further = x.further ∧
        t.irons[ch].motion = x.motion ∧ ChangesOnly [.irons] s t) ∧
      (lost → ¬creeps → Recorded .drift x t.irons[ch]) ∧
      (creeps → ¬lost → Recorded .drift x t.irons[ch] ∧ t.irons[ch].sawCreep = true) ∧
      (creeps → lost → t.irons[ch].fault = some (x.fault.getD .drift) ∧ t.irons[ch].further = true) ∧
      (wrong → ¬lost → Recorded .direction x t.irons[ch]) ∧
      (x.motion = .raising → wrong ∨ lost →
        t.irons[ch].motion = .stopped ∧ t.irons[ch].stop = none ∧ t.irons[ch].restTravel = 0)

/-- R44, R47, R50, R51: the index and the limits load the position after a drift check; limit OUT ends a raise
at OUT whatever it finds; limit IN in OUT or STOPPED is an uncommanded fall. -/
def Obligations.PositionReloaded : Prop :=
  ∀ (ch : Fin 3) (s : State) (x : Iron) (cfg : IronSettings),
    s.powered = true → cfg = s.settings.irons[ch] → cfg.present = true → x = s.irons[ch] →
    (∃ t, exec (.indexEvent ch) s = .next t ∧ ChangesOnly [.irons, .holds, .stations] s t ∧
      OnlyAt ch s.irons t.irons ∧ t.irons[ch].position = cfg.indexPos ∧ t.irons[ch].referenced = true ∧
      (¬DriftsFrom cfg.indexPos cfg.driftTol x →
        t.irons[ch] = { x with position := cfg.indexPos, referenced := true } ∧
          ChangesOnly [.irons, .stations] s t) ∧
      (DriftsFrom cfg.indexPos cfg.driftTol x → Recorded .drift x t.irons[ch] ∧
        (x.motion = .raising → t.irons[ch].motion = .stopped ∧ t.irons[ch].stop = none) ∧
        (x.motion ≠ .raising → t.irons[ch].motion = x.motion))) ∧
    (∃ t, exec (.limitOutEvent ch) s = .next t ∧ ChangesOnly [.irons, .holds, .stations] s t ∧
      OnlyAt ch s.irons t.irons ∧ t.irons[ch].position = cfg.travel ∧ t.irons[ch].referenced = true ∧
      (x.motion = .raising → t.irons[ch].motion = .atOut ∧ t.irons[ch].restTravel = 0 ∧
        t.holdOutput ch = true ∧ t.raiseOutput ch = false) ∧
      (x.motion ≠ .raising → t.irons[ch].motion = x.motion) ∧
      (DriftsFrom cfg.travel cfg.driftTol x → Recorded .drift x t.irons[ch]) ∧
      (¬DriftsFrom cfg.travel cfg.driftTol x →
        t.irons[ch].fault = x.fault ∧ t.irons[ch].further = x.further)) ∧
    (x.motion ≠ .descending →
      ∃ t, exec (.limitInEvent ch) s = .next t ∧ ChangesOnly [.irons, .holds, .stations] s t ∧
        OnlyAt ch s.irons t.irons ∧ t.irons[ch].position = 0 ∧ t.irons[ch].referenced = true ∧
        t.irons[ch].result = x.result ∧ t.irons[ch].td = x.td ∧ t.irons[ch].tf = x.tf ∧
        (x.motion = .atOut ∨ x.motion = .stopped → t.irons[ch].motion = .atIn ∧ Recorded .drift x t.irons[ch] ∧
          t.irons[ch].stop = none ∧ t.holdOutput ch = false) ∧
        (x.motion = .atIn ∨ x.motion = .raising →
          (¬DriftsFrom 0 cfg.driftTol x → t.irons[ch] = { x with position := 0, referenced := true }) ∧
          (DriftsFrom 0 cfg.driftTol x → Recorded .drift x t.irons[ch] ∧
            t.irons[ch].motion = if x.motion = .raising then .stopped else .atIn)))

/-- R58, R59, R60, R19: limit IN ends a descent: IN, Td and Tf, the judgement in the order of R59, PROOF_PASS
in the circumstances of a proof drop, and what the performance unit makes of it. -/
def Obligations.LimitInEndsDescent : Prop :=
  ∀ (ch : Fin 3) (s : State) (x : Iron) (cfg : IronSettings) (drift early : Bool) (first : Option IronFault)
    (tf : Nat) (proving : Bool),
    s.powered = true → cfg = s.settings.irons[ch] → cfg.present = true → x = s.irons[ch] →
    x.motion = .descending → (drift = true ↔ DriftsFrom 0 cfg.driftTol x) →
    (drift = true → first = some (x.firstFault.getD .drift)) → (drift = false → first = x.firstFault) →
    (∀ c, x.crossing = some c → tf = x.descentTimer - c) → (x.crossing = none → tf = 0) →
    (early = true ↔ x.kind = some .full ∧ (x.descentTimer < cfg.descentMin ∨ tf < cfg.finalMin)) →
    proving = (s.phase ch == .prepare ||
      ((s.phase ch == .halted || s.phase ch == .beginners) && unproved s.perfs[ch].ironProved)) →
    ∃ t, exec (.limitInEvent ch) s = .next t ∧
      ChangesOnly [.irons, .holds, .perfs, .retained, .stations] s t ∧ OnlyAt ch s.irons t.irons ∧
      OnlyAt ch s.perfs t.perfs ∧ t.irons[ch].motion = .atIn ∧ t.irons[ch].position = 0 ∧
      t.irons[ch].referenced = true ∧ t.irons[ch].sub = none ∧ t.irons[ch].td = x.descentTimer ∧
      t.irons[ch].tf = tf ∧ t.irons[ch].kind = x.kind ∧ t.irons[ch].reason = x.reason ∧
      t.holdOutput ch = false ∧ t.raiseOutput ch = false ∧ t.checkOutput ch = false ∧
      (x.kind ≠ some .full → t.irons[ch].result = some .partialEnd ∧ t.perfs = s.perfs) ∧
      (early = true → t.irons[ch].result = some .tooFast) ∧
      (x.kind = some .full → early = false →
        (first = some .stall → t.irons[ch].result = some .stall) ∧
        (first = some .overspeed → t.irons[ch].result = some .overspeed) ∧
        (first = some .tooSlow → t.irons[ch].result = some .tooSlow) ∧
        (first = some .drift → t.irons[ch].result = some .drift) ∧
        (first = none → t.irons[ch].result = some (if proving then .proofPass else .pass))) ∧
      (drift = false → early = false → t.irons[ch].fault = x.fault ∧ t.irons[ch].further = x.further) ∧
      (drift = true → early = false → Recorded .drift x t.irons[ch]) ∧
      (early = true → drift = false → Recorded .checkFailure x t.irons[ch]) ∧
      (early = true → drift = true → t.irons[ch].fault = some (x.fault.getD .drift) ∧ t.irons[ch].further = true) ∧
      (x.kind = some .full → proving = true →
        t.perfs[ch] =
          { s.perfs[ch] with ironProved := if first = none ∧ early = false then .proved else .failed }) ∧
      (proving = false → t.perfs = s.perfs)

/-- R53..R57, R62: a sample notes the movement and, in a descent, advances its timers, finds the crossing and makes
the three checks. STALL and TOO_SLOW name the sample at which theirs finds its fault (log entry 7); the order
OVERSPEED, STALL, TOO_SLOW within one sample is log entry 19; the clock, at the last sample plus 100 ms or
later, is log entry 2; and a position that came back to its value marks nothing by log entry 35. R62: a descent
begun at a cold start finds its crossing at its first sample, whatever has referenced the channel before it. -/
def Obligations.SampleSupervisesDescent : Prop :=
  (∀ (ch : Fin 3) (s : State), s.settings.irons[ch].present = false →
    exec (.descentSample ch) s = .next s) ∧
  ∀ (ch : Fin 3) (s : State) (x : Iron) (cfg : IronSettings) (n still : Nat),
    s.powered = true → cfg = s.settings.irons[ch] → cfg.present = true → x = s.irons[ch] →
    n = min 65535 (x.descentTimer + 1) → still = (if x.sampleMove = 0 then x.still + 1 else 0) →
    ∃ t, exec (.descentSample ch) s = .next t ∧ ChangesOnly [.clock, .irons, .holds, .stations] s t ∧
      OnlyAt ch s.irons t.irons ∧ t.now = max s.now (x.sampleAt + 100) ∧ t.irons[ch].sampleAt = t.now ∧
      t.irons[ch].sampleMove = 0 ∧ t.irons[ch].samplePos = x.position ∧
      t.irons[ch].position = x.position ∧ t.irons[ch].motion = x.motion ∧
      (x.motion ≠ .descending →
        t.irons[ch] = { x with sampleMove := 0, samplePos := x.position, sampleAt := t.now } ∧
          (x.samplePos = x.position → ChangesOnly [.clock, .irons] s t)) ∧
      (x.motion = .descending →
        t.irons[ch].descentTimer = n ∧ t.irons[ch].still = still ∧
        (x.sub = some .free ∧ (x.position ≤ cfg.slowdown ∨
            ((x.referenced = false ∨ x.reason = some .restart) ∧ n ≤ 1)) →
          t.irons[ch].sub = some .checked ∧ t.irons[ch].finalTimer = some 0 ∧
            t.irons[ch].crossing = some n ∧ t.checkOutput ch = true ∧
            t.irons[ch].sawOverspeed = x.sawOverspeed) ∧
        (¬(x.sub = some .free ∧ (x.position ≤ cfg.slowdown ∨
            ((x.referenced = false ∨ x.reason = some .restart) ∧ n ≤ 1))) →
          t.irons[ch].sub = x.sub ∧ t.irons[ch].crossing = x.crossing ∧
            t.irons[ch].finalTimer = x.finalTimer.map (fun f => min 65535 (f + 1)) ∧
            (t.irons[ch].sawOverspeed = true ↔
              x.sawOverspeed = true ∨ (x.sub = some .checked ∧ cfg.vFinalMax < x.sampleMove))) ∧
        (x.sub = some .free → x.referenced = true → x.reason ≠ some .restart → cfg.slowdown < x.position → n = 1 →
          t.irons[ch].sub = some .free ∧ t.irons[ch].finalTimer = x.finalTimer.map (fun f => min 65535 (f + 1)) ∧
            t.checkOutput ch = false) ∧
        (t.irons[ch].sawStall = true ↔ x.sawStall = true ∨ cfg.stallTime ≤ still) ∧
        (t.irons[ch].sawTooSlow = true ↔
          x.sawTooSlow = true ∨ (x.kind = some .full ∧ cfg.descentMax ≤ n)) ∧
        (∀ found : List IronFault,
          found =
            (if t.irons[ch].sawOverspeed = true ∧ x.sawOverspeed = false then [.overspeed] else []) ++
              (if t.irons[ch].sawStall = true ∧ x.sawStall = false then [.stall] else []) ++
              (if t.irons[ch].sawTooSlow = true ∧ x.sawTooSlow = false then [.tooSlow] else []) →
          t.irons[ch].fault = (x.fault.toList ++ found).head? ∧
            t.irons[ch].firstFault = (x.firstFault.toList ++ found).head? ∧
            t.irons[ch].further = (x.further || decide (found ≠ [] ∧ 2 ≤ (x.fault.toList ++ found).length))) ∧
        (x.sawStall = false → cfg.stallTime ≤ still → exec (.stall ch) s = .next t) ∧
        (x.sawTooSlow = false → x.kind = some .full → cfg.descentMax ≤ n → exec (.tooSlow ch) s = .next t))
/-! ## Detection zones and incidents -/

/-- R64, R68, R70..R72, R74, R75: what a change of band does to the confirmation, the noise counter, the loop
timer and the condition of a present zone; an absent zone and a band that is no change take no event. -/
def Obligations.BandEventFollowed : Prop :=
  ∀ (z : Fin 24) (b : Band) (s : State) (x : Zone) (cfg : ZoneSettings),
    s.powered = true → cfg = s.settings.zones[z] → x = s.zones[z] →
    (cfg.present = false ∨ x.band = b →
      ∃ t, exec (.bandEvent z b) s = .next t ∧ ChangesOnly [.lines] s t ∧ t.lines.bands[z] = b) ∧
    (cfg.present = true → x.band ≠ b →
      ∃ t, exec (.bandEvent z b) s = .next t ∧ ChangesOnly [.lines, .zones, .holds, .stations] s t ∧
        OnlyAt z s.zones t.zones ∧ t.lines.bands[z] = b ∧ t.zones[z].band = b ∧
        t.zones[z].isolated = x.isolated ∧ t.zones[z].loopFault = x.loopFault ∧
        t.zones[z].incident = x.incident ∧
        (x.detection = .normal → b = .active → x.isolated = false →
          t.zones[z].detection = .pending ∧ t.zones[z].confirmAt = some (s.now + cfg.confirmTime * 100)) ∧
        (x.detection = .normal → b ≠ .active ∨ x.isolated = true →
          t.zones[z].detection = .normal ∧ t.zones[z].confirmAt = x.confirmAt) ∧
        (x.detection = .pending → b ≠ .active →
          t.zones[z].detection = .normal ∧ t.zones[z].confirmAt = none ∧
            t.zones[z].noise = min 32 (x.noise + 1) ∧
            t.zones[z].quietAt = if x.noise + 1 < 32 then some (s.now + 600000) else none) ∧
        (x.detection = .alarm →
          t.zones[z].detection = if b = .active ∨ cfg.type = .callpoint then .alarm else .normal) ∧
        (x.detection ≠ .pending ∨ b = .active →
          t.zones[z].noise = x.noise ∧ t.zones[z].quietAt = x.quietAt) ∧
        t.zones[z].loopAt =
          (if x.loopFault = true then (if b = .normal then some (s.now + 5000) else none)
           else if b = .openLoop ∨ b = .short then
             (if x.band = .openLoop ∨ x.band = .short then x.loopAt else some (s.now + 5000))
           else none) ∧
        t.zones[z].condition = t.zones[z].derived)

/-- R69, R81, R85, R86, R98: a confirmation raises an incident at its starting stage in the lowest free slot and
escalates the STAFF incidents it shares an auditorium with, or reactivates the DETECTOR's open one, or hands
nothing over. Only a full incident list, which IncidentsStayLawful rules out, stops it (log entry 15). That the
clock stands at the deadline or later, and the times counted from it, are log entry 3 (DESIGN CHOICE); that the
expiry of a timer that does not run changes nothing is log entry 4 (DEDUCED). -/
def Obligations.ConfirmRaisesIncident : Prop :=
  (∀ (z : Fin 24) (s : State) (x : Zone) (cfg : ZoneSettings) (d : Nat) (i : Fin 25),
    s.powered = true → cfg = s.settings.zones[z] → x = s.zones[z] → x.detection = .pending →
    x.confirmAt = some d → x.incident = none → IncidentsLawful s → s.incident? i = none →
    (∀ j : Fin 25, j < i → s.incident? j ≠ none) →
    ∀ shared : List (Fin 25),
      shared = s.incidentList.filter (fun j => (s.incident? j).any
        (fun v => v.stage == .staff && meets v.auds cfg.auds)) →
    ∃ t y, exec (.confirmTimerExpiry z) s = .next t ∧
      ChangesOnly ([.clock, .zones] ++ incidentParts) s t ∧ t.now = max s.now d ∧
      t.zones[z] = { x with detection := .alarm, confirmAt := none, incident := some i } ∧
      OnlyAt z s.zones t.zones ∧ t.incidentList = s.incidentList ++ [i] ∧
      t.incidents[i] =
        ⟨if s.incidents[i].issue < 255 then s.incidents[i].issue + 1 else 1, some y⟩ ∧
      y.source = .zone z ∧ y.auds = cfg.auds ∧ y.ackBy = none ∧ y.silenced = false ∧ y.reactivations = 0 ∧
      y.raisedAt = t.now ∧
      y.cause =
        (if cfg.directGeneral = true then some .direct
         else if ∀ a : Fin 3, has cfg.auds a = true → (s.phase a).occupied = false then some .unoccupied
         else if ∃ j ∈ s.openIncidents, meets j.auds cfg.auds = true then some .secondZone
         else none) ∧
      y.stage = (if y.cause = none then .staff else .general) ∧
      y.timerAt = (if y.cause = none then some (t.now + s.settings.part.ackTime * 100) else none) ∧
      (∀ (j : Fin 25) (v : Incident), s.incident? j = some v →
        t.incidents[j] = ⟨s.incidents[j].issue,
          some (if v.stage = .staff ∧ meets v.auds cfg.auds = true then
            { v with stage := .general, cause := some .secondZone, timerAt := none } else v)⟩) ∧
      DemandsDerived t ∧ Announced (i :: shared) s t) ∧
  (∀ (z : Fin 24) (s : State) (x : Zone) (d : Nat) (i : Fin 25) (v : Incident),
    s.powered = true → x = s.zones[z] → x.detection = .pending → x.confirmAt = some d →
    x.incident = some i → s.incident? i = some v →
    (s.settings.zones[z].type = .detector →
      ∃ t, exec (.confirmTimerExpiry z) s = .next t ∧
        ChangesOnly [.clock, .zones, .incidents, .circuits, .stations] s t ∧ t.now = max s.now d ∧
        t.zones[z] = { x with detection := .alarm, confirmAt := none } ∧ OnlyAt z s.zones t.zones ∧
        t.incidents[i] =
          ⟨s.incidents[i].issue,
            some { v with reactivations := min 255 (v.reactivations + 1), silenced := false }⟩ ∧
        OnlyAt i s.incidents t.incidents ∧ t.incidentList = s.incidentList ∧ DemandsDerived t) ∧
    (s.settings.zones[z].type ≠ .detector →
      ∃ t, exec (.confirmTimerExpiry z) s = .next t ∧ ChangesOnly [.clock, .zones, .stations] s t ∧
        t.now = max s.now d ∧ t.zones[z] = { x with detection := .alarm, confirmAt := none } ∧
        OnlyAt z s.zones t.zones)) ∧
  (∀ (z : Fin 24) (s : State), s.zones[z].detection ≠ .pending ∨ s.zones[z].confirmAt = none →
    exec (.confirmTimerExpiry z) s = .next s) ∧
  (∀ (z : Fin 24) (s : State), s.powered = true → s.zones[z].detection = .pending →
    s.zones[z].confirmAt ≠ none → s.zones[z].incident = none → (∀ i : Fin 25, s.incident? i ≠ none) →
    exec (.confirmTimerExpiry z) s = .fault .incidentListFull)

/-- R72, R74, R75: the quiet timer lowers the noise counter and runs again above 0; the loop timer turns the
loop fault; the condition is derived again. That the clock stands at the deadline or later and the next deadline
counts from it is log entry 3 (DESIGN CHOICE), and that a timer that does not run changes nothing is log entry 4
(DEDUCED). -/
def Obligations.ZoneTimersRun : Prop :=
  ∀ (z : Fin 24) (s : State) (x : Zone), s.powered = true → x = s.zones[z] →
    (∀ d, x.quietAt = some d →
      ∃ t, exec (.quietTimerExpiry z) s = .next t ∧ ChangesOnly [.clock, .zones, .holds, .stations] s t ∧
        OnlyAt z s.zones t.zones ∧ t.now = max s.now d ∧
        t.zones[z] =
          { x with
            noise := x.noise - 1
            quietAt := if x.noise ≤ 1 then none else some (t.now + 600000)
            condition := t.zones[z].derived }) ∧
    (∀ d, x.loopAt = some d →
      ∃ t, exec (.loopTimerExpiry z) s = .next t ∧ ChangesOnly [.clock, .zones, .holds, .stations] s t ∧
        OnlyAt z s.zones t.zones ∧ t.now = max s.now d ∧
        t.zones[z] =
          { x with loopFault := !x.loopFault, loopAt := none, condition := t.zones[z].derived }) ∧
    (x.quietAt = none → exec (.quietTimerExpiry z) s = .next s) ∧
    (x.loopAt = none → exec (.loopTimerExpiry z) s = .next s)

/-- R73, R76, R77: the actions of FIRE and ENGINEER on a present zone: isolation, which a zone in ALARM
refuses, its end, which confirms an ACTIVE band afresh, and the reset of the noise counter. R66, R77, R194: every
request with an action, alone, beside the other action or beside settings: its checks in order, and what it leaves,
reset noise before isolation and the condition derived from the result. That the settings come first, so that a
confirmation has the new confirm time, and that a change of present overrides the actions, is log entry 26
(DEDUCED). -/
def Obligations.ZoneActionsApplied : Prop :=
  (∀ (q : AmendReq) (z : Fin 24) (st : Fin 8) (s u : State) (x : Zone),
    HeardAlone s q st (z.1 + 1) 0 → u = s.frameGood → x = s.zones[z] → s.role st ≠ .none → s.role st ≠ .view →
    ∀ act, act = Instr.isolate q ∨ act = .restoreZone q ∨ act = .resetNoise q →
    (s.settings.zones[z].present = false →
      ∃ t, exec act s = .next t ∧ ChangesOnly [.link] u t ∧
        Replies t s.settings.part.address q.station .badField none .zone (z.1 + 1) 0 (u.zoneFields z)) ∧
    (s.settings.zones[z].present = true → s.role st ≠ .fire → s.role st ≠ .engineer →
      ∃ t, exec act s = .next t ∧ ChangesOnly [.link] u t ∧
        Replies t s.settings.part.address q.station .notPermitted none .zone (z.1 + 1) 0 (u.zoneFields z)) ∧
    (s.settings.zones[z].present = true → s.role st = .fire ∨ s.role st = .engineer →
      (act = .isolate q → x.detection = .alarm →
        ∃ t, exec act s = .next t ∧ ChangesOnly [.link] u t ∧
          Replies t s.settings.part.address q.station .refused (some .zoneInAlarm) .zone (z.1 + 1) 0
            (u.zoneFields z)) ∧
      (act = .isolate q → x.detection ≠ .alarm →
        ∃ t, exec act s = .next t ∧ ChangesOnly [.link, .zones, .holds, .stations] u t ∧
          OnlyAt z u.zones t.zones ∧
          t.zones[z] =
            (if x.isolated = true then { x with condition := x.derived }
             else { x with isolated := true, detection := .normal, confirmAt := none, condition := .isolated }) ∧
          Replies t s.settings.part.address q.station .done none .zone (z.1 + 1) 0 (t.zoneFields z)) ∧
      (act = .restoreZone q →
        ∃ t, exec act s = .next t ∧ ChangesOnly [.link, .zones, .holds, .stations] u t ∧
          OnlyAt z u.zones t.zones ∧ t.zones[z].isolated = false ∧
          t.zones[z].condition = t.zones[z].derived ∧ t.zones[z].noise = x.noise ∧
          t.zones[z].loopFault = x.loopFault ∧ t.zones[z].incident = x.incident ∧
          (x.isolated = true → x.band = .active → x.detection = .normal →
            t.zones[z].detection = .pending ∧
              t.zones[z].confirmAt = some (s.now + s.settings.zones[z].confirmTime * 100)) ∧
          (x.isolated = false ∨ x.band ≠ .active ∨ x.detection ≠ .normal →
            t.zones[z].detection = x.detection ∧ t.zones[z].confirmAt = x.confirmAt) ∧
          Replies t s.settings.part.address q.station .done none .zone (z.1 + 1) 0 (t.zoneFields z)) ∧
      (act = .resetNoise q →
        ∃ t, exec act s = .next t ∧ ChangesOnly [.link, .zones, .holds, .stations] u t ∧
          OnlyAt z u.zones t.zones ∧
          t.zones[z] = { x with noise := 0, quietAt := none, condition := t.zones[z].derived } ∧
          Replies t s.settings.part.address q.station .done none .zone (z.1 + 1) 0 (t.zoneFields z)))) ∧
  (∀ (act : Instr) (r : Req) (z : Fin 24) (st : Fin 8) (s u : State) (settles : Bool) (asked new : Settings),
    requestOf act = some (.amend, .zone, r) → Heard s r st → r.index.toNat = z.1 + 1 → r.issue = 0 →
    u = s.frameGood → s.role st ≠ .none → s.role st ≠ .view → (r.fields.map (·.id)).Nodup →
    (∀ f ∈ r.fields, formOf .zone r.index r.fields f = none) → (∃ f ∈ r.fields, f.id = 36 ∨ f.id = 128) →
    (settles = true ↔ ∃ f ∈ r.fields, f.id.toNat ≤ 8) → asked = s.settings.asked .zone r.index r.fields →
    new = (if settles then asked.ranged .zone r.index else s.settings) →
    (∀ status why,
      (if s.settings.zones[z].present = false then some (Status.badField, none)
       else if s.role st ≠ .fire ∧ s.role st ≠ .engineer then some (.notPermitted, none)
       else if settles = true ∧ s.lockedOut st ≠ none then s.lockedOut st
       else if askedFor r.fields 36 = some 1 ∧ s.zones[z].detection = .alarm then
        some (.refused, some .zoneInAlarm)
       else s.settingsClash .zone r.index r.fields) = some (status, why) →
      ∃ t, exec act s = .next t ∧ ChangesOnly [.link] u t ∧
        Replies t s.settings.part.address r.station status why .zone (z.1 + 1) 0 (u.reads .zone r.index)) ∧
    (s.settings.zones[z].present = true → s.role st = .fire ∨ s.role st = .engineer →
      (settles = true → s.lockedOut st = none) → s.settingsClash .zone r.index r.fields = none →
      (askedFor r.fields 36 = some 1 → s.zones[z].detection ≠ .alarm) →
      ∀ x : Zone, x = (if ∃ f ∈ r.fields, f.id = 128 then { s.zones[z] with noise := 0, quietAt := none }
        else s.zones[z]) →
      ∀ y : Zone, y = (if askedFor r.fields 36 = none ∨ askedFor r.fields 36 = some x.isolated.toNat then x
           else if askedFor r.fields 36 = some 1 then
            { x with isolated := true, detection := .normal, confirmAt := none }
           else if x.band = .active ∧ x.detection = .normal then
            { x with
              isolated := false, detection := .pending
              confirmAt := some (s.now + new.zones[z].confirmTime * 100) }
           else { x with isolated := false }) →
      ∀ w : Zone, w = (if new.zones[z].present = false then Zone.cleared else { y with condition := y.derived }) →
      ∃ t, exec act s = .next t ∧ t.zones[z] = w ∧ OnlyAt z u.zones t.zones ∧ SettingsWritten new u t ∧
        (settles = false → ChangesOnly [.link, .zones, .holds, .stations] u t) ∧
        (new.zones[z].alarms = s.settings.zones[z].alarms → new.zones[z].callZones = s.settings.zones[z].callZones →
          ChangesOnly [.link, .settings, .store, .zones, .holds, .stations] u t) ∧
        (new.zones[z].alarms ≠ s.settings.zones[z].alarms → SoundersDerived t) ∧
        (new.zones[z].callZones ≠ s.settings.zones[z].callZones → SilencesDerived t) ∧
        Replies t s.settings.part.address r.station (if asked = new then .done else .adjusted) none .zone (z.1 + 1) 0
          (t.reads .zone r.index)))

/-- R81, R87, R88: FIRE and FOH raise the station incident at GENERAL in the lowest free slot, or widen and
unsilence the open one; it is announced where it is raised or its set has grown. -/
def Obligations.StationIncidentRaised : Prop :=
  ∀ (r : Req) (st : Fin 8) (s u : State),
    Heard s r st → r.index = 0 → r.issue = 0 → u = s.frameGood → s.role st ≠ .none → s.role st ≠ .view →
    ((∀ set : AudSet, set ≠ 0 → r.fields ≠ [⟨33, set.setWidth 16⟩]) →
      ∃ t, exec (.raiseIncident r) s = .next t ∧ ChangesOnly [.link] u t ∧
        Replies t s.settings.part.address r.station .badField none .incident 0 0 []) ∧
    (∀ set : AudSet, set ≠ 0 → r.fields = [⟨33, set.setWidth 16⟩] →
      (s.role st ≠ .fire → s.role st ≠ .foh →
        ∃ t, exec (.raiseIncident r) s = .next t ∧ ChangesOnly [.link] u t ∧
          Replies t s.settings.part.address r.station .notPermitted none .incident 0 0 []) ∧
      (s.role st = .fire ∨ s.role st = .foh → IncidentsLawful s →
        (∀ i : Fin 25, (∀ j : Fin 25, (s.incident? j).any Incident.ofStation = false) →
          s.incident? i = none → (∀ j : Fin 25, j < i → s.incident? j ≠ none) →
          ∃ t y, exec (.raiseIncident r) s = .next t ∧ ChangesOnly (.link :: incidentParts) u t ∧
            y = { source := .station st, auds := set, stage := .general, cause := some .station, ackBy := none,
                  silenced := false, reactivations := 0, raisedAt := s.now, timerAt := none } ∧
            t.incidents[i] =
              ⟨if s.incidents[i].issue < 255 then s.incidents[i].issue + 1 else 1, some y⟩ ∧
            OnlyAt i s.incidents t.incidents ∧ t.incidentList = s.incidentList ++ [i] ∧
            DemandsDerived t ∧ Announced [i] u t ∧
            Replies t s.settings.part.address r.station .done none .incident (i.1 + 1) t.incidents[i].issue
              (t.incidentFields y)) ∧
        (∀ (i : Fin 25) (x y : Incident), s.incident? i = some x → x.ofStation = true →
          y = { x with auds := x.auds ||| set, silenced := false } →
          ∃ t, exec (.raiseIncident r) s = .next t ∧ ChangesOnly (.link :: incidentParts) u t ∧
            t.incidents[i] = ⟨s.incidents[i].issue, some y⟩ ∧ OnlyAt i s.incidents t.incidents ∧
            t.incidentList = s.incidentList ∧ DemandsDerived t ∧
            (y.auds ≠ x.auds → Announced [i] u t) ∧
            (y.auds = x.auds → ChangesOnly [.link, .incidents, .circuits, .stations] u t) ∧
            Replies t s.settings.part.address r.station .adjusted none .incident (i.1 + 1)
              s.incidents[i].issue (t.incidentFields y))))

/-- R89..R93: the acknowledgement, the stage amendment and the two timers of an incident; each escalation is
made once, keeps who acknowledged it, stops its timer and is announced. R81, R99, R201: an AMEND that names no open
incident by its issue is NO_RECORD; the first field at fault gives the reply, a second action among them; and one
without a field is DONE. That the clock stands at a timer's deadline or later is log entry 3 (DESIGN CHOICE); that
the expiry of a timer that does not run changes nothing is log entry 4, and that the field checks are one stage,
taken in the order of the request, is log entry 32 (both DEDUCED). That a set field which NOT_AMENDABLE names keeps
the request's value whole is log entry 43 (DESIGN CHOICE). -/
def Obligations.IncidentStagesMove : Prop :=
  (∀ (q : AmendReq) (i : Fin 25) (st : Fin 8) (s u : State) (x : Incident) (issue : Nat) (mine : Bool),
    HeardAlone s q st (i.1 + 1) issue → u = s.frameGood → s.incidents[i] = ⟨issue, some x⟩ →
    issue ≠ 0 → s.role st ≠ .none → s.role st ≠ .view →
    (mine = true ↔ s.role st = .foh ∨ s.role st = .fire ∨
      ∃ a : Fin 3, has x.auds a = true ∧ s.isStageOf st a = true) →
    (mine = false → ∀ act v, act = Instr.acknowledge q ∨ (act = .amendIncidentStage q v ∧ v.toNat ≤ 1) →
      ∃ t, exec act s = .next t ∧ ChangesOnly [.link] u t ∧
        Replies t s.settings.part.address q.station .notPermitted none .incident (i.1 + 1) issue
          (u.incidentFields x)) ∧
    (mine = true →
      (x.stage = .general → ∀ act, act = Instr.acknowledge q ∨ act = .amendIncidentStage q 0 →
        ∃ t, exec act s = .next t ∧ ChangesOnly [.link] u t ∧
          Replies t s.settings.part.address q.station .refused (some .wrongStage) .incident (i.1 + 1) issue
            (u.incidentFields x)) ∧
      (∀ act,
        (act = Instr.acknowledge q ∧ x.stage = .staff ∧ x.ackBy ≠ none) ∨
          (act = .amendIncidentStage q 0 ∧ x.stage = .staff) ∨
          (act = .amendIncidentStage q 1 ∧ x.stage = .general) →
        ∃ t, exec act s = .next t ∧ ChangesOnly [.link] u t ∧
          Replies t s.settings.part.address q.station .done none .incident (i.1 + 1) issue
            (u.incidentFields x)) ∧
      (x.stage = .staff → x.ackBy = none →
        ∃ t y, exec (.acknowledge q) s = .next t ∧ ChangesOnly [.link, .incidents, .circuits, .stations] u t ∧
          y = { x with ackBy := some st, timerAt := some (s.now + s.settings.part.investTime * 100) } ∧
          t.incidents[i] = ⟨issue, some y⟩ ∧ OnlyAt i s.incidents t.incidents ∧
          t.incidentList = s.incidentList ∧ (DemandsDerived u → DemandsDerived t) ∧
          Replies t s.settings.part.address q.station .done none .incident (i.1 + 1) issue
            (t.incidentFields y)) ∧
      (x.stage = .staff →
        ∃ t y, exec (.amendIncidentStage q 1) s = .next t ∧ ChangesOnly (.link :: incidentParts) u t ∧
          y = { x with stage := .general, cause := some .manual, timerAt := none } ∧
          t.incidents[i] = ⟨issue, some y⟩ ∧ OnlyAt i s.incidents t.incidents ∧
          t.incidentList = s.incidentList ∧ DemandsDerived t ∧ Announced [i] u t ∧
          Replies t s.settings.part.address q.station .done none .incident (i.1 + 1) issue
            (t.incidentFields y))) ∧
    (∀ v : Word, 1 < v.toNat →
      ∃ t, exec (.amendIncidentStage q v) s = .next t ∧ ChangesOnly [.link] u t ∧
        Replies t s.settings.part.address q.station .badField none .incident (i.1 + 1) issue
          (u.incidentFields x))) ∧
  (∀ (i : Fin 25) (s : State) (x : Incident) (d : Nat),
    s.powered = true → s.incident? i = some x → x.stage = .staff → x.timerAt = some d →
    ∃ t, exec (if x.ackBy = none then .acknowledgeTimerExpiry i else .investigationTimerExpiry i) s = .next t ∧
      ChangesOnly (.clock :: incidentParts) s t ∧ t.now = max s.now d ∧
      t.incidents[i] =
        ⟨s.incidents[i].issue,
          some { x with
            stage := .general, timerAt := none
            cause := some (if x.ackBy = none then .ackTimeout else .investigationTimeout) }⟩ ∧
      OnlyAt i s.incidents t.incidents ∧ t.incidentList = s.incidentList ∧ DemandsDerived t ∧
      Announced [i] s t) ∧
  (∀ (i : Fin 25) (s : State) (x : Incident), s.incident? i = some x →
    (x.stage = .general ∨ x.ackBy ≠ none → exec (.acknowledgeTimerExpiry i) s = .next s) ∧
    (x.stage = .general ∨ x.ackBy = none → exec (.investigationTimerExpiry i) s = .next s)) ∧
  (∀ (act : Instr) (r : Req) (i : Fin 25) (st : Fin 8) (s u : State),
    requestOf act = some (.amend, .incident, r) → Heard s r st → r.index.toNat = i.1 + 1 → u = s.frameGood →
    s.role st ≠ .none → s.role st ≠ .view → (r.fields.map (·.id)).Nodup →
    (s.incident? i = none ∨ r.issue = 0 ∨ s.incidents[i].issue ≠ r.issue.toNat →
      ∃ t, exec act s = .next t ∧ ChangesOnly [.link] u t ∧
        Replies t s.settings.part.address r.station .noRecord none .incident (i.1 + 1) r.issue.toNat []) ∧
    (∀ x, s.incident? i = some x → r.issue ≠ 0 → s.incidents[i].issue = r.issue.toNat →
      (∀ f, r.fields.find? (fun f => formOf .incident r.index r.fields f != none) = some f →
        ∀ w, formOf .incident r.index r.fields f = some w →
        ∃ t, exec act s = .next t ∧ ChangesOnly [.link] u t ∧
          RepliesFlaw t s.settings.part.address r.station w f .incident (i.1 + 1) r.issue.toNat
            (u.reads .incident r.index)) ∧
      (r.fields = [] →
        ∃ t, exec act s = .next t ∧ ChangesOnly [.link] u t ∧
          Replies t s.settings.part.address r.station .done none .incident (i.1 + 1) r.issue.toNat
            (u.reads .incident r.index))))

/-- R81, R97, R100, R101, R78: silencing withholds the sounders and nothing else; a retirement passes its four
checks, NO_RECORD first, empties the slot, and undoes no halt, release or abandonment: performances and curtains
stay, and a call that neither sounds nor waits in a queue stays as it was, its abandoned deliveries with it. -/
def Obligations.IncidentSilencedAndRetired : Prop :=
  (∀ (q : AmendReq) (i : Fin 25) (st : Fin 8) (s u : State) (x : Incident) (issue : Nat),
    HeardAlone s q st (i.1 + 1) issue → u = s.frameGood → s.incidents[i] = ⟨issue, some x⟩ →
    issue ≠ 0 → s.role st ≠ .none → s.role st ≠ .view →
    (s.role st ≠ .fire → s.role st ≠ .foh →
      ∃ t, exec (.silence q) s = .next t ∧ ChangesOnly [.link] u t ∧
        Replies t s.settings.part.address q.station .notPermitted none .incident (i.1 + 1) issue
          (u.incidentFields x)) ∧
    (s.role st = .fire ∨ s.role st = .foh →
      (x.stage = .staff →
        ∃ t, exec (.silence q) s = .next t ∧ ChangesOnly [.link] u t ∧
          Replies t s.settings.part.address q.station .refused (some .wrongStage) .incident (i.1 + 1) issue
            (u.incidentFields x)) ∧
      (x.stage = .general →
        ∃ t, exec (.silence q) s = .next t ∧
          ChangesOnly [.link, .incidents, .circuits, .stations] u t ∧
          t.incidents[i] = ⟨issue, some { x with silenced := true }⟩ ∧ OnlyAt i s.incidents t.incidents ∧
          t.incidentList = s.incidentList ∧ (DemandsDerived u → DemandsDerived t) ∧
          (x.silenced = true → ChangesOnly [.link] u t) ∧
          t.circuits[brigadeRelay].demand = s.circuits[brigadeRelay].demand ∧
          Replies t s.settings.part.address q.station .done none .incident (i.1 + 1) issue
            (t.incidentFields { x with silenced := true })))) ∧
  (∀ (r : Req) (i : Fin 25) (st : Fin 8) (s u : State) (x : Incident) (signals : Bool),
    Heard s r st → r.index.toNat = i.1 + 1 → r.fields = [] → u = s.frameGood →
    s.incidents[i] = ⟨r.issue.toNat, some x⟩ → r.issue ≠ 0 → s.role st ≠ .none → s.role st ≠ .view →
    (signals = true ↔ ∃ z : Fin 24, x.source = .zone z ∧ (s.zones[z].band = .active ∨
      (s.settings.zones[z].type = .callpoint ∧ s.zones[z].band ≠ .normal))) →
    (∀ status why,
      (if s.role st ≠ .fire ∧ (x.stage = .general ∨ s.role st ≠ .foh) then some (Status.notPermitted, none)
       else if x.stage = .general ∧ x.silenced = false then some (.refused, some Reason.notSilenced)
       else if signals = true then some (.refused, some .inputActive)
       else none) = some (status, why) →
      ∃ t, exec (.retireIncident r) s = .next t ∧ ChangesOnly [.link] u t ∧
        Replies t s.settings.part.address r.station status why .incident (i.1 + 1) r.issue.toNat []) ∧
    (s.role st = .fire ∨ (x.stage = .staff ∧ s.role st = .foh) → x.stage = .staff ∨ x.silenced = true →
      signals = false →
      ∃ t, exec (.retireIncident r) s = .next t ∧
        ChangesOnly ([.link, .holds, .incidents, .zones] ++ lightParts) u t ∧
        t.incidents[i] = ⟨r.issue.toNat, none⟩ ∧ OnlyAt i s.incidents t.incidents ∧
        t.incidentList = s.incidentList.erase i ∧
        (∀ z, x.source = .zone z → OnlyAt z s.zones t.zones ∧
          t.zones[z] =
            { s.zones[z] with
              incident := none
              detection :=
                if s.settings.zones[z].type = .callpoint ∧ s.zones[z].detection = .alarm then .normal
                else s.zones[z].detection }) ∧
        (x.ofStation = true → t.zones = s.zones) ∧
        (∀ c : Fin 32, (∀ z : Fin 8, s.czones[z].sounding ≠ some c ∧ c ∉ s.czones[z].queue) →
          t.calls[c] = s.calls[c]) ∧
        DemandsDerived t ∧ LightsDerived t ∧ SilencesDerived t ∧ FireHoldsDerived t ∧
        Replies t s.settings.part.address r.station .done none .incident (i.1 + 1) r.issue.toNat [])) ∧
  (∀ (r : Req) (i : Fin 25) (st : Fin 8) (s u : State),
    Heard s r st → r.index.toNat = i.1 + 1 → r.fields = [] → u = s.frameGood → s.role st ≠ .none →
    s.role st ≠ .view → s.incident? i = none ∨ r.issue = 0 ∨ s.incidents[i].issue ≠ r.issue.toNat →
    ∃ t, exec (.retireIncident r) s = .next t ∧ ChangesOnly [.link] u t ∧
      Replies t s.settings.part.address r.station .noRecord none .incident (i.1 + 1) r.issue.toNat [])
/-! ## House lights -/

/-- R107, R108, R109: a target amendment: its checks in order, its clamps, and the fade it starts from the
group's level over 5 steps a tenth, with or without a fade time. A fade time without a target is BAD_FIELD, with
the record; a target beside settings is NOT_PERMITTED for every station. -/
def Obligations.TargetFadeStarted : Prop :=
  (∀ (q : AmendReq) (v : Word) (asked : Nat) (g : Fin 12) (st : Fin 8) (s u : State) (cfg : GroupSettings)
    (x : LightGroup) (t0 t1 d : Nat),
    Heard s (q.withField 33 v) st → q.index.toNat = g.1 + 1 → q.issue = 0 → u = s.frameGood →
    cfg = s.settings.groups[g] → x = s.groups[g] → s.role st ≠ .none → s.role st ≠ .view →
    (q.before ++ q.after = [] ∧ asked = 0) ∨ (∃ w : Word, q.before ++ q.after = [⟨128, w⟩] ∧ asked = w.toNat) →
    t0 = min 1000 v.toNat →
    t1 = (if cfg.kind ≠ .foyer ∧ (s.phase cfg.aud).occupied = true ∧ s.phase cfg.aud ≠ .running then
        max t0 s.settings.perfs[cfg.aud].occupiedMin else t0) →
    d = min 6000 asked →
    (∀ status why,
      (if cfg.present = false then some (Status.badField, none)
       else if s.role st ≠ .foh ∧ (cfg.kind = .foyer ∨ s.isStageOf st cfg.aud = false) then
        some (.notPermitted, none)
       else if x.causes ≠ 0 then some (.refused, some Reason.forced)
       else none) = some (status, why) →
      ∃ t, exec (.amendTarget q v) s = .next t ∧ ChangesOnly [.link] u t ∧
        Replies t s.settings.part.address q.station status why .group (g.1 + 1) 0 (u.groupFields g)) ∧
    (cfg.present = true → s.role st = .foh ∨ (cfg.kind ≠ .foyer ∧ s.isStageOf st cfg.aud = true) →
      x.causes = 0 →
      ∃ t, exec (.amendTarget q v) s = .next t ∧ ChangesOnly [.link, .groups, .stations] u t ∧
        OnlyAt g u.groups t.groups ∧ t.groups[g].target = t1 ∧ t.groups[g].start = x.level ∧
        t.groups[g].steps = 5 * d ∧ t.groups[g].step = 0 ∧ t.groups[g].fading = (d != 0) ∧
        t.groups[g].level = (if d = 0 then t1 else x.level) ∧ t.groups[g].causes = 0 ∧
        t.groups[g].driven = t.drivenOf g t.groups[g] ∧
        t.groups[g].drive = driveOf cfg.law t.groups[g].driven ∧
        Replies t s.settings.part.address q.station
          (if t1 = v.toNat ∧ d = asked then .done else .adjusted) none .group (g.1 + 1) 0 (t.groupFields g))) ∧
  (∀ (r : Req) (w : Word) (limitIn : Bool) (g : Fin 12) (st : Fin 8) (s u : State),
    Heard s r st → r.index.toNat = g.1 + 1 → r.issue = 0 → r.fields = [⟨128, w⟩] → u = s.frameGood →
    s.role st ≠ .none → s.role st ≠ .view →
    ∃ t, exec (.settingsAmendment .group r limitIn) s = .next t ∧ ChangesOnly [.link] u t ∧
      Replies t s.settings.part.address r.station .badField none .group (g.1 + 1) 0 (u.groupFields g)) ∧
  (∀ (q : AmendReq) (v : Word) (g : Fin 12) (st : Fin 8) (s u : State) (r : Req),
    r = q.withField 33 v → Heard s r st → q.index.toNat = g.1 + 1 → q.issue = 0 → u = s.frameGood →
    s.role st ≠ .none → s.role st ≠ .view → (r.fields.map (·.id)).Nodup →
    (∀ f ∈ r.fields, formOf .group r.index r.fields f = none) → (∃ f ∈ r.fields, f.id.toNat ≤ 10) →
    ∃ t, exec (.amendTarget q v) s = .next t ∧ ChangesOnly [.link] u t ∧
      Replies t s.settings.part.address q.station
        (if s.settings.groups[g].present = false then .badField else .notPermitted) none .group (g.1 + 1) 0
        (u.reads .group r.index))

/-- R110, R113, R114, R124: one step of the grid: every running fade advances by the formula and ends at its
target, every call zone's dip is judged, and every present group's output is computed. FADE_COMPLETE names the
step at which a group's fade ends (log entry 7). The clock of the grid, at the last step plus 20 ms or later, is
log entry 2 (DESIGN CHOICE). -/
def Obligations.FadeStepAdvances : Prop :=
  (∀ s : State, s.powered = true →
    ∃ t, exec .fadeStep s = .next t ∧ ChangesOnly [.clock, .grid, .flickers, .groups, .stations] s t ∧
      t.now = max s.now (s.fadeAt + 20) ∧ t.fadeAt = t.now ∧
      (∀ z : Fin 8, t.flickers[z].code = s.flickers[z].code ∧ t.flickers[z].start = s.flickers[z].start ∧
        (s.flickers[z].code = 7 → t.flickers[z].dip = true) ∧
        (∀ q limit, (s.flickers[z].code, q, limit) ∈
            [(1, 1, 500), (2, 2, 1000), (3, 4, 2000), (4, 8, 2000), (5, 12, 2000), (6, 16, 2000)] →
          (t.flickers[z].dip = true ↔ (t.now - s.flickers[z].start) * q % 4000 < limit))) ∧
      ∀ g : Fin 12,
        (s.settings.groups[g].present = false → t.groups[g] = s.groups[g]) ∧
        (s.settings.groups[g].present = true →
          t.groups[g].target = s.groups[g].target ∧ t.groups[g].start = s.groups[g].start ∧
          t.groups[g].steps = s.groups[g].steps ∧ t.groups[g].causes = s.groups[g].causes ∧
          t.groups[g].driven = t.drivenOf g t.groups[g] ∧
          t.groups[g].drive = driveOf s.settings.groups[g].law t.groups[g].driven ∧
          (s.groups[g].fading = false →
            t.groups[g].level = s.groups[g].level ∧ t.groups[g].step = s.groups[g].step ∧
              t.groups[g].fading = false) ∧
          (s.groups[g].fading = true →
            t.groups[g].step = s.groups[g].step + 1 ∧
            (t.groups[g].fading = true ↔ s.groups[g].step + 1 < s.groups[g].steps) ∧
            ((t.groups[g].level : Int) =
                max 0 (s.groups[g].start + Int.tdiv (((s.groups[g].target : Int) - s.groups[g].start) *
                  (s.groups[g].step + 1)) s.groups[g].steps)) ∧
            (s.groups[g].step + 1 = s.groups[g].steps → t.groups[g].level = s.groups[g].target)))) ∧
  (∀ (g : Fin 12) (s : State), s.powered = true → s.settings.groups[g].present = true →
    s.groups[g].fading = true → s.groups[g].step + 1 = s.groups[g].steps →
    ∃ t, exec (.fadeComplete g) s = .next t ∧ exec .fadeStep s = .next t ∧ t.groups[g].fading = false ∧
      t.groups[g].level = s.groups[g].target) ∧
  (∀ (g : Fin 12) (s : State),
    s.settings.groups[g].present = false ∨ s.groups[g].fading = false ∨
      s.groups[g].step + 1 < s.groups[g].steps → exec (.fadeComplete g) s = .next s) ∧
  (∀ start target n k : Nat, 0 < n → k ≤ n →
    min start target ≤ fadeLevel start target n k ∧ fadeLevel start target n k ≤ max start target)

/-! ## Calls -/

/-- R133..R137, R140..R142: a RAISE of a CALL: its checks in order, the call it makes, the slot it takes, and
what becomes of each delivery: it joins its zone's queue in its place; in a free zone the arbiter then looks,
over the deliveries that are due before and behind it; in a busy or suppressed one it waits. What the arbiter finds
is said of a call list that names no slot twice; R132, R133, R137: that list, with the filled slots, a delivery a
zone and the queues, stays lawful through every command, from reset on. That a set field which BAD_FIELD names keeps
the request's value whole is log entry 43 (DESIGN CHOICE). -/
def Obligations.CallRaisedAndQueued : Prop :=
  (∀ (r : Req) (st : Fin 8) (s u : State),
    Heard s r st → r.index = 0 → r.issue = 0 → u = s.frameGood → s.role st ≠ .none → s.role st ≠ .view →
    (r.fields.map (·.id)).Nodup →
    (∀ f, r.fields.find? (fun f => !s.callFieldOk r.fields f) = some f →
      ∃ t, exec (.raiseCall r) s = .next t ∧ ChangesOnly [.link] u t ∧
        Replies t s.settings.part.address r.station .badField none .call 0 0 [f]) ∧
    ((∀ f ∈ r.fields, s.callFieldOk r.fields f = true) → callWhole r.fields = false →
      ∃ t, exec (.raiseCall r) s = .next t ∧ ChangesOnly [.link] u t ∧
        Replies t s.settings.part.address r.station .badField none .call 0 0 []) ∧
    ((∀ f ∈ r.fields, s.callFieldOk r.fields f = true) → callWhole r.fields = true →
      ∀ (strokes bursts interval zones : Nat) (x : Call) (late barred : Bool),
      strokes = (askedFor r.fields 36).getD 3 → bursts = (askedFor r.fields 37).getD 1 →
      interval = (askedFor r.fields 38).getD 600 → askedFor r.fields 40 = some zones →
      x = { origin := st, aud := (askedFor r.fields 33).bind (entryNo 3),
            purpose := if askedFor r.fields 34 = some 0 then .audience else .staff,
            priority := (askedFor r.fields 35).getD 1, strokes := max 1 (min 8 strokes),
            bursts := max 1 (min 16 bursts), interval := max 50 (min 6000 interval),
            flicker := (askedFor r.fields 39).getD 0, finished := false, outcome := none,
            deliveries := ((List.finRange 8).filter fun z => zones.testBit z.1).map fun z =>
              { zone := z, state := .waiting, notBefore := s.now, lastStart := none,
                burstsLeft := max 1 (min 16 bursts), degraded := false, resumes := false } } →
      (late = true ↔ x.purpose = .audience ∧ ∃ a, x.aud = some a ∧ s.phase a ≠ .houseOpen ∧
        s.phase a ≠ .beginners ∧ s.phase a ≠ .interval) →
      (barred = true ↔ ∃ z : Fin 8, zones.testBit z.1 = true ∧ s.czones[z].barred = true) →
      (∀ status why,
        (if s.role st ≠ .foh ∧ ¬(x.purpose = .audience ∧ ∃ a, x.aud = some a ∧ s.isStageOf st a = true) then
          some (Status.notPermitted, none)
         else if late = true then some (.refused, some Reason.wrongPhase)
         else if barred = true then some (.refused, some .alarmActive)
         else if ∀ c : Fin 32, s.call? c ≠ none ∧ ∀ y ∈ s.call? c, y.finished = false then some (.full, none)
         else none) = some (status, why) →
        ∃ t, exec (.raiseCall r) s = .next t ∧ ChangesOnly [.link] u t ∧
          Replies t s.settings.part.address r.station status why .call 0 0 []) ∧
      (s.role st = .foh ∨ (x.purpose = .audience ∧ ∃ a, x.aud = some a ∧ s.isStageOf st a = true) →
        late = false → barred = false →
        ∀ c : Fin 32,
        (s.call? c = none ∧ ∀ j : Fin 32, j < c → s.call? j ≠ none) ∨
          ((∀ j : Fin 32, s.call? j ≠ none) ∧
            s.callList.find? (fun j => (s.call? j).any (·.finished)) = some c) →
        ∃ t y, exec (.raiseCall r) s = .next t ∧ ChangesOnly ([.link, .holds] ++ burstParts) u t ∧
          t.call? c = some y ∧ t.callList.getLast? = some c ∧
          t.calls[c].issue = (if s.calls[c].issue < 255 then s.calls[c].issue + 1 else 1) ∧
          y.origin = x.origin ∧ y.aud = x.aud ∧ y.purpose = x.purpose ∧ y.priority = x.priority ∧
          y.strokes = x.strokes ∧ y.bursts = x.bursts ∧ y.interval = x.interval ∧ y.flicker = x.flicker ∧
          y.deliveries.map (·.zone) = x.deliveries.map (·.zone) ∧
          (∀ z : Fin 8, zones.testBit z.1 = false → t.czones[z] = s.czones[z]) ∧
          (s.callList.Nodup → ∀ z : Fin 8, zones.testBit z.1 = true → s.czones[z].sounding = none →
            ∀ v : State, v = { u with
              calls := put u.calls c ⟨0, some x⟩, callList := u.callList.erase c ++ [c] } →
            ∀ w : State, w = { v with czones := put u.czones z { u.czones[z] with
              queue := v.queuePlace z c (u.czones[z].queue.erase c) } } →
            ArbiterLooks z w t ∧
              (t.czones[z].sounding ≠ none → t.czones[z].sounding ≠ some c →
                (y.delivery? z).map (·.state) = some .waiting)) ∧
          (∀ z : Fin 8, zones.testBit z.1 = true → c ∉ s.czones[z].queue →
            s.czones[z].sounding ≠ none ∨ s.czones[z].suppressed = true →
              t.czones[z].sounding = s.czones[z].sounding ∧ c ∈ t.czones[z].queue ∧
                t.czones[z].queue.erase c = s.czones[z].queue ∧
                (y.delivery? z).map (·.state) = some .waiting ∧
                ∀ b ∈ t.czones[z].queue.takeWhile (fun b => b != c), t.ahead z c b = false) ∧
          Replies t s.settings.part.address r.station
            (if x.strokes = strokes ∧ x.bursts = bursts ∧ x.interval = interval then .done else .adjusted)
            none .call (c.1 + 1) t.calls[c].issue (t.callFields y)))) ∧
  CallsLawful State.reset ∧
  (∀ s t : State, CallsLawful s → step s = .next t → CallsLawful t)

/-- R133, R138, R139, R201: a call is amended and retired by its origin or FOH, and one not named by its issue is
NO_RECORD. The amendment writes its priority and burst interval and moves its WAITING deliveries' places in the
queues and not-before times, in zones that sound, that are free and that are suppressed; it marks CALL where it
changes a field, and with no field it changes nothing. The retirement empties its slot, its deliveries leave their
queues, its bursts stop uncounted, and the arbiters of the zones left free look. That the first failing field
decides over both of R138's sentences, a field of another kind and a priority beyond 3, is log entry 32; where the
arbiter looks at an amendment is log entry 39; and strokes sounded keeps its count in a freed zone by log entry 14
(all DEDUCED). That a set field which NOT_AMENDABLE names keeps the request's value whole is log entry 43 (DESIGN
CHOICE). -/
def Obligations.CallAmendedAndRetired : Prop :=
  (∀ (r : Req) (c : Fin 32) (st : Fin 8) (s u : State) (x : Call),
    Heard s r st → r.index.toNat = c.1 + 1 → s.calls[c] = ⟨r.issue.toNat, some x⟩ → r.issue ≠ 0 →
    u = s.frameGood → s.role st ≠ .none → s.role st ≠ .view → (r.fields.map (·.id)).Nodup →
    (∀ f, r.fields.find? (fun f => formOf .call r.index r.fields f != none) = some f →
      ∃ t, exec (.amendCall r) s = .next t ∧ ChangesOnly [.link] u t ∧
        Replies t s.settings.part.address r.station
          (if f.id = 35 then .badField else .refused) (if f.id = 35 then none else some .notAmendable) .call
          (c.1 + 1) r.issue.toNat (if f.id = 35 then [] else [f])) ∧
    ((∀ f ∈ r.fields, formOf .call r.index r.fields f = none) → s.role st ≠ .foh → x.origin ≠ st →
      ∃ t, exec (.amendCall r) s = .next t ∧ ChangesOnly [.link] u t ∧
        Replies t s.settings.part.address r.station .notPermitted none .call (c.1 + 1) r.issue.toNat []) ∧
    ((∀ f ∈ r.fields, formOf .call r.index r.fields f = none) → s.role st = .foh ∨ x.origin = st →
      ∃ t y, exec (.amendCall r) s = .next t ∧ ChangesOnly ([.link, .holds] ++ burstParts) u t ∧
        t.calls[c] = ⟨r.issue.toNat, some y⟩ ∧ t.callList = s.callList ∧
        y.priority = (askedFor r.fields 35).getD x.priority ∧
        y.interval = ((askedFor r.fields 38).map fun v => max 50 (min 6000 v)).getD x.interval ∧
        y.origin = x.origin ∧ y.aud = x.aud ∧ y.purpose = x.purpose ∧ y.strokes = x.strokes ∧
        y.bursts = x.bursts ∧ y.flicker = x.flicker ∧
        (∀ z d, x.delivery? z = some d → d.state = .waiting → s.czones[z].sounding ≠ none →
          (y.delivery? z) = some { d with
            notBefore := match d.lastStart, askedFor r.fields 38 with
              | some b, some v => b + max 50 (min 6000 v) * 100
              | _, _ => d.notBefore } ∧
          ((x.deliveries.map (·.zone)).Nodup → t.czones[z].sounding = s.czones[z].sounding ∧
            t.czones[z].queue =
              if carries r.fields 35 = true then t.queuePlace z c (s.czones[z].queue.erase c)
              else s.czones[z].queue)) ∧
        ((x.deliveries.map (·.zone)).Nodup → ∀ z d, x.delivery? z = some d →
          (d.state ≠ .waiting → y.delivery? z = some d) ∧
          (d.state = .waiting → s.czones[z].sounding = none →
            ∀ e : Delivery, e = { d with
              notBefore := match d.lastStart, askedFor r.fields 38 with
                | some b, some v => b + max 50 (min 6000 v) * 100
                | _, _ => d.notBefore } →
            ∀ x' : Call, x' = { x with
              priority := y.priority, interval := y.interval
              deliveries := x.deliveries.map fun d => if d.zone = z then e else d } →
            ∀ v : State, v = { u with calls := put u.calls c ⟨r.issue.toNat, some x'⟩ } →
            ∀ w : State, w = { v with czones := put u.czones z { u.czones[z] with
              queue :=
                if carries r.fields 35 = true then v.queuePlace z c (u.czones[z].queue.erase c)
                else u.czones[z].queue } } →
            (w.czones[z].queue ≠ s.czones[z].queue ∨
                (carries r.fields 38 = true ∧ d.lastStart ≠ none ∧ e.notBefore ≤ s.now) →
              ArbiterLooks z w t) ∧
            (¬(w.czones[z].queue ≠ s.czones[z].queue ∨
                (carries r.fields 38 = true ∧ d.lastStart ≠ none ∧ e.notBefore ≤ s.now)) →
              t.czones[z] = w.czones[z]) ∧
            (t.czones[z].sounding ≠ some c → c ∈ t.czones[z].queue → y.delivery? z = some e))) ∧
        (∀ z : Fin 8, (∀ d, x.delivery? z = some d → d.state ≠ .waiting) →
          (x.deliveries.map (·.zone)).Nodup → t.czones[z] = s.czones[z]) ∧
        (y ≠ x → Marked .call t) ∧ (y = x → t.czones = s.czones → ChangesOnly [.link] u t) ∧
        (r.fields = [] → ChangesOnly [.link] u t) ∧
        (x.deliveries.any (·.state == .waiting) = false →
          ChangesOnly [.link, .calls, .stations] u t ∧ y.deliveries = x.deliveries) ∧
        Replies t s.settings.part.address r.station
          (if ∀ v, askedFor r.fields 38 = some v → 50 ≤ v ∧ v ≤ 6000 then .done else .adjusted) none .call
          (c.1 + 1) r.issue.toNat (t.callFields y))) ∧
  (∀ (r : Req) (c : Fin 32) (st : Fin 8) (s u : State) (x : Call),
    Heard s r st → r.index.toNat = c.1 + 1 → s.calls[c] = ⟨r.issue.toNat, some x⟩ → r.issue ≠ 0 →
    r.fields = [] → u = s.frameGood → s.role st ≠ .none → s.role st ≠ .view →
    (s.role st ≠ .foh → x.origin ≠ st →
      ∃ t, exec (.retireCall r) s = .next t ∧ ChangesOnly [.link] u t ∧
        Replies t s.settings.part.address r.station .notPermitted none .call (c.1 + 1) r.issue.toNat []) ∧
    (s.role st = .foh ∨ x.origin = st →
      ∃ t, exec (.retireCall r) s = .next t ∧ ChangesOnly ([.link, .holds] ++ burstParts) u t ∧
        t.calls[c] = ⟨r.issue.toNat, none⟩ ∧ t.callList = s.callList.erase c ∧
        (∀ z : Fin 8, (∃ d ∈ x.deliveries, d.zone = z ∧ d.unended = true) →
          t.czones[z].sounding ≠ some c) ∧
        ((x.deliveries.map (·.zone)).Nodup → ∀ z : Fin 8,
          ((∀ d, x.delivery? z = some d → d.unended = false) → t.czones[z] = s.czones[z]) ∧
          (∀ d, x.delivery? z = some d → d.unended = true → s.czones[z].sounding ≠ some c →
            t.czones[z] = { s.czones[z] with queue := s.czones[z].queue.erase c }) ∧
          (∀ d, x.delivery? z = some d → d.unended = true → s.czones[z].sounding = some c →
            (t.czones[z].sounding = none →
              t.circuits[chimeOf z].demand = false ∧ t.czones[z] = s.czones[z].freed t.czones[z].queue) ∧
            ∀ w : State, w = { u with
              calls := put u.calls c ⟨r.issue.toNat, none⟩
              czones := put u.czones z (u.czones[z].freed u.czones[z].queue) } →
            ArbiterLooks z w t)) ∧
        Marked .call t ∧
        Replies t s.settings.part.address r.station .done none .call (c.1 + 1) r.issue.toNat [])) ∧
  (∀ (r : Req) (c : Fin 32) (st : Fin 8) (s u : State),
    Heard s r st → r.index.toNat = c.1 + 1 → u = s.frameGood → s.role st ≠ .none → s.role st ≠ .view →
    (r.fields.map (·.id)).Nodup → s.call? c = none ∨ r.issue = 0 ∨ s.calls[c].issue ≠ r.issue.toNat →
    (∃ t, exec (.amendCall r) s = .next t ∧ ChangesOnly [.link] u t ∧
      Replies t s.settings.part.address r.station .noRecord none .call (c.1 + 1) r.issue.toNat []) ∧
    (r.fields = [] →
      ∃ t, exec (.retireCall r) s = .next t ∧ ChangesOnly [.link] u t ∧
        Replies t s.settings.part.address r.station .noRecord none .call (c.1 + 1) r.issue.toNat []))

/-- R140..R145, R147..R149: what runs and ends a burst: the not-before time at which the arbiter of a free zone
looks, its strokes, the end that counts it and has the arbiter look again, and the loss of light, the
suppression and the bar that cut it, with the end of a suppression and of a bar. That the clock stands at a
deadline or later is log entry 3 (DESIGN CHOICE); that the expiry of a timer that does not run, and the gap
after the last stroke, change nothing is log entry 4 (DEDUCED). Strokes sounded keeps its count in a freed zone
by log entry 14, and resumes and bursts left theirs by log entries 37 and 38. -/
def Obligations.BurstTimersRun : Prop :=
  (∀ (z : Fin 8) (c : Fin 32) (s : State) (d : Delivery), s.powered = true → s.delivery? c z = some d →
    d.state = .waiting →
    ∃ t, exec (.notBeforeDue c z) s = .next t ∧ ChangesOnly (.clock :: burstParts) s t ∧
      t.now = max s.now d.notBefore ∧ OnlyAt z s.czones t.czones ∧
      (∀ w : State, w = { s with now := t.now } →
        (s.czones[z].sounding = none → ArbiterLooks z w t) ∧
        (s.czones[z].sounding ≠ none ∨ s.settings.czones[z].present = false ∨ s.czones[z].suppressed = true ∨
            s.czones[z].barred = true ∨ s.czones[z].queue.find? (w.isDue z) = none →
          ChangesOnly [.clock] s t)) ∧
      (s.czones[z].sounding = none → ∀ b, t.czones[z].sounding = some b → OnlyAt b s.calls t.calls)) ∧
  (∀ (z : Fin 8) (c : Fin 32) (s : State), (∀ d, s.delivery? c z = some d → d.state ≠ .waiting) →
    exec (.notBeforeDue c z) s = .next s) ∧
  (∀ (z : Fin 8) (s : State) (d : Nat), s.powered = true → s.czones[z].strokeEnd = some d →
    ∃ t, exec (.strokeOnElapsed z) s = .next t ∧ ChangesOnly [.clock, .czones, .circuits, .stations] s t ∧
      t.now = max s.now d ∧
      t.czones[z] = { s.czones[z] with strokeEnd := none, gapEnd := some (t.now + s.czones[z].strokeGap) } ∧
      t.circuits[chimeOf z].demand = false ∧ OnlyAt z s.czones t.czones ∧
      OnlyAt (chimeOf z) s.circuits t.circuits) ∧
  (∀ (z : Fin 8) (s : State) (d : Nat), s.powered = true → s.czones[z].gapEnd = some d →
    (s.czones[z].strokesSounded < s.czones[z].strokes →
      ∃ t, exec (.strokeGapElapsed z) s = .next t ∧ ChangesOnly [.clock, .czones, .circuits, .stations] s t ∧
        t.now = max s.now d ∧
        t.czones[z] =
          { s.czones[z] with
            strokesSounded := s.czones[z].strokesSounded + 1
            strokeEnd := some (t.now + s.czones[z].strokeOn), gapEnd := none } ∧
        t.circuits[chimeOf z].demand = true ∧ OnlyAt z s.czones t.czones ∧
        OnlyAt (chimeOf z) s.circuits t.circuits) ∧
    (s.czones[z].strokes ≤ s.czones[z].strokesSounded → exec (.strokeGapElapsed z) s = .next s)) ∧
  (∀ (z : Fin 8) (s : State) (b : Nat), s.powered = true → s.czones[z].burstEnd = some b →
    ∃ t, exec (.burstEnd z) s = .next t ∧ ChangesOnly (.clock :: burstParts) s t ∧ t.now = max s.now b ∧
      BurstCounted z (s.czones[z].mode == some .flicker) s t) ∧
  (∀ (z : Fin 8) (s : State),
    (s.czones[z].strokeEnd = none → exec (.strokeOnElapsed z) s = .next s) ∧
    (s.czones[z].gapEnd = none → exec (.strokeGapElapsed z) s = .next s) ∧
    (s.czones[z].burstEnd = none → exec (.burstEnd z) s = .next s)) ∧
  (∀ (z : Fin 8) (s t : State), s.lit[z] = true → s.litNow z = false →
    (∀ y : Fin 8, y ≠ z → s.lit[y] = s.litNow y) → t = s.announceLit →
    t.lit[z] = false ∧ OnlyAt z s.lit t.lit ∧ ChangesOnly lightParts s t ∧
      (s.czones[z].mode = some .chimeFlicker →
        t.czones[z] = { s.czones[z] with mode := some .chime, flickerCode := 0 } ∧ t.flickers[z].code = 0 ∧
          OnlyAt z s.czones t.czones ∧ t.calls = s.calls ∧ t.circuits = s.circuits) ∧
      (s.czones[z].mode = some .flicker → BurstCounted z true s t) ∧
      (s.czones[z].mode = some .chime ∨ s.czones[z].mode = none → ChangesOnly [.lit] s t)) ∧
  (∀ (z : Fin 8) (s t : State) (present barred suppressed : Bool), t = s.deriveSilence z →
    present = s.settings.czones[z].present → barred = s.barredNow z → suppressed = s.suppressedNow z →
    ChangesOnly burstParts s t ∧ OnlyAt z s.czones t.czones ∧
      (present = true → t.czones[z].barred = barred ∧ t.czones[z].suppressed = suppressed) ∧
      (present = false ∨ (s.czones[z].barred = barred ∧ s.czones[z].suppressed = suppressed) → t = s) ∧
      (present = true → s.czones[z].barred = barred → s.czones[z].suppressed = false → suppressed = true →
        ∀ c, s.czones[z].sounding = some c → ∀ d, s.delivery? c z = some d →
          ∀ v, v = s.withDelivery c z { d with state := .waiting, resumes := true } →
          BurstStopped z (fun d => { d with state := .waiting, resumes := true })
            (v.queuePlace z c (s.czones[z].queue.erase c)) s t ∧
          ((∀ b ∈ s.czones[z].queue, ∀ f, s.delivery? b z = some f → f.resumes = false) →
            ∀ b ∈ t.czones[z].queue.takeWhile (fun b => b != c), b ≠ c → ∀ x, s.call? c = some x →
              ∀ y, s.call? b = some y → x.priority < y.priority)) ∧
      (present = true → s.czones[z].barred = false → barred = true →
        t.czones[z].sounding = none ∧ t.czones[z].queue = [] ∧
        BurstStopped z (fun d => { d with state := .abandoned, resumes := false }) [] s t ∧
        ∀ c : Fin 32, s.czones[z].sounding = some c ∨ c ∈ s.czones[z].queue → ∀ x, s.call? c = some x →
          t.delivery? c z = (x.delivery? z).map (fun d => { d with state := .abandoned, resumes := false }) ∧
          (x.deliveries.all (fun f => f.zone == z || !f.unended) = true →
            ∃ y, t.call? c = some y ∧ y.finished = true)) ∧
      (present = true → s.czones[z].barred = barred → s.czones[z].suppressed = false → suppressed = true →
        s.czones[z].sounding = none →
        t.czones[z] = { s.czones[z] with suppressed := true } ∧ ChangesOnly [.czones, .stations] s t) ∧
      (present = true → (s.czones[z].barred = true ∧ barred = false) ∨
          (s.czones[z].barred = barred ∧ s.czones[z].suppressed = true ∧ suppressed = false) →
        s.czones[z].sounding = none →
        ∀ w : State, w = { s with
          czones := put s.czones z { s.czones[z] with barred := barred, suppressed := suppressed } } →
        ArbiterLooks z w t))

/-! ## Circuits and supply -/

/-- R157, R158, R160, R161: the pattern, the open-load test and the retry, clean and off timers of a circuit;
for a chime circuit whose test finds no load the demand may also fall, as R144 says. That the clock stands at a
deadline or later, and that the next test and the next parts count from it, is log entry 3 (DESIGN CHOICE); that
a timer that does not run changes nothing is log entry 4 (DEDUCED). -/
def Obligations.CircuitTimersRun : Prop :=
  ∀ (c : Fin 16) (s : State) (x : Circuit), s.powered = true → x = s.circuits[c] →
    (∀ d onMs offMs, x.partEnd = some d → x.drive = true →
      (x.pattern = .fast ∧ onMs = 250 ∧ offMs = 250) ∨ (x.pattern = .slow ∧ onMs = 500 ∧ offMs = 3500) →
      ∃ t, exec (.patternPartEnd c) s = .next t ∧ ChangesOnly [.clock, .circuits] s t ∧
        t.now = max s.now d ∧ OnlyAt c s.circuits t.circuits ∧
        t.circuits[c] =
          { x with
            switchedOn := !x.switchedOn
            partEnd := some (t.now + if x.switchedOn = true then offMs else onMs) }) ∧
    (x.partEnd = none ∨ x.drive = false → exec (.patternPartEnd c) s = .next s) ∧
    (∀ seen : Bool,
      ∃ t, exec (.testTimerExpiry c seen) s = .next t ∧
        ChangesOnly ([.clock, .holds] ++ burstParts) s t ∧ t.now = max s.now x.testAt ∧
        t.circuits[c].testAt = t.now + 10000 ∧ t.circuits[c].overloads = x.overloads ∧
        t.circuits[c].condition =
          (if x.drive = false ∧ (x.condition = .sound ∨ x.condition = .openLoad) then
            (if seen then .sound else .openLoad) else x.condition) ∧
        (isChime c = false → OnlyAt c s.circuits t.circuits ∧
          t.circuits[c] =
            { x with condition := t.circuits[c].condition, testAt := t.circuits[c].testAt } ∧
          ChangesOnly [.clock, .circuits, .holds, .stations] s t)) ∧
    (∀ d, x.retryAt = some d → x.lawful →
      ∃ t, exec (.retryTimerExpiry c) s = .next t ∧ ChangesOnly [.clock, .circuits, .holds, .stations] s t ∧
        t.now = max s.now d ∧ OnlyAt c s.circuits t.circuits ∧
        t.circuits[c] =
          (if x.demand = true then
            { x with
              retryAt := none, drive := true, switchedOn := true
              cleanAt := some (t.now + 10000), partEnd := x.pattern.onPart.map (t.now + ·) }
          else { x with retryAt := none })) ∧
    (∀ d, (x.cleanAt = some d →
      ∃ t, exec (.cleanTimerExpiry c) s = .next t ∧ ChangesOnly [.clock, .circuits, .holds, .stations] s t ∧
        t.now = max s.now d ∧ OnlyAt c s.circuits t.circuits ∧
        t.circuits[c] =
          { x with condition := .sound, overloads := 0, retryAt := none, cleanAt := none, offAt := none }) ∧
      (x.offAt = some d →
      ∃ t, exec (.offTimerExpiry c) s = .next t ∧ ChangesOnly [.clock, .circuits, .holds, .stations] s t ∧
        t.now = max s.now d ∧ OnlyAt c s.circuits t.circuits ∧
        t.circuits[c] =
          { x with condition := .sound, overloads := 0, retryAt := none, cleanAt := none, offAt := none })) ∧
    (x.retryAt = none → exec (.retryTimerExpiry c) s = .next s) ∧
    (x.cleanAt = none → exec (.cleanTimerExpiry c) s = .next s) ∧
    (x.offAt = none → exec (.offTimerExpiry c) s = .next s)

/-- R144, R155, R159, R162, R163: an overload event trips a driven circuit whose output is on, for good at the
fourth trip or with retry off; a chime lost in a burst leaves it to flicker or, in a zone that is not lit, ends
it counted; a station's reset makes the circuit SOUND and drives it from its demand; and a reset beside settings
is an ENGINEER's, with the locks open, and is applied whole. -/
def Obligations.OverloadTripsAndReset : Prop :=
  (∀ (c : Fin 16) (s : State) (x : Circuit), s.powered = true → x = s.circuits[c] →
    (x.drive = false ∨ x.switchedOn = false → exec (.overloadEvent c) s = .next s) ∧
    (x.drive = true → x.switchedOn = true → ∀ final : Bool,
      (final = true ↔ 4 ≤ x.overloads + 1 ∨ s.settings.circuits[c].retry = false) →
      ∃ t, exec (.overloadEvent c) s = .next t ∧ ChangesOnly (.holds :: burstParts) s t ∧
        t.circuits[c].condition = (if final then .failed else .overload) ∧
        t.circuits[c].overloads = x.overloads + 1 ∧ t.circuits[c].drive = false ∧
        t.circuits[c].switchedOn = false ∧ t.circuits[c].cleanAt = none ∧
        t.circuits[c].retryAt = (if final then none else some (s.now + 5000)) ∧
        (isChime c = false → OnlyAt c s.circuits t.circuits ∧ t.circuits[c].demand = x.demand ∧
          ChangesOnly [.circuits, .holds, .stations] s t) ∧
        (∀ z : Fin 8, c = chimeOf z → x.condition = .sound → s.czones[z].mode = some .chimeFlicker →
          t.czones[z] = { s.czones[z] with mode := some .flicker, strokeEnd := none, gapEnd := none } ∧
            t.circuits[c].demand = false) ∧
        (∀ z : Fin 8, c = chimeOf z → x.condition = .sound → s.czones[z].mode = some .chime →
          s.litNow z = true →
          t.czones[z].mode = some .flicker ∧ t.czones[z].sounding = s.czones[z].sounding ∧
            t.czones[z].burstEnd = s.czones[z].burstEnd ∧ t.circuits[c].demand = false ∧
            t.flickers[z].start = s.now ∧ t.flickers[z].code = t.czones[z].flickerCode ∧
            ∀ k y, s.czones[z].sounding = some k → s.call? k = some y →
              t.czones[z].flickerCode = if y.flicker = 0 then 3 else y.flicker) ∧
        (∀ z : Fin 8, c = chimeOf z → x.condition = .sound → s.czones[z].mode = some .chime →
          s.litNow z = false → BurstCounted z true { s with circuits := t.circuits } t))) ∧
  (∀ (q : AmendReq) (c : Fin 16) (st : Fin 8) (s u : State) (x : Circuit),
    HeardAlone s q st (c.1 + 1) 0 → u = s.frameGood → x = s.circuits[c] → s.role st ≠ .none →
    s.role st ≠ .view →
    (s.role st ≠ .fire → s.role st ≠ .engineer →
      ∃ t, exec (.resetCircuit q) s = .next t ∧ ChangesOnly [.link] u t ∧
        Replies t s.settings.part.address q.station .notPermitted none .circuit (c.1 + 1) 0
          (u.circuitFields c)) ∧
    (s.role st = .fire ∨ s.role st = .engineer →
      (x.condition = .sound ∨ x.condition = .openLoad →
        ∃ t, exec (.resetCircuit q) s = .next t ∧ ChangesOnly [.link] u t ∧
          Replies t s.settings.part.address q.station .done none .circuit (c.1 + 1) 0 (u.circuitFields c)) ∧
      (x.condition = .overload ∨ x.condition = .failed →
        ∃ t, exec (.resetCircuit q) s = .next t ∧ ChangesOnly [.link, .circuits, .holds, .stations] u t ∧
          OnlyAt c u.circuits t.circuits ∧ t.circuits[c].condition = .sound ∧
          t.circuits[c].overloads = 0 ∧ t.circuits[c].retryAt = none ∧ t.circuits[c].cleanAt = none ∧
          t.circuits[c].offAt = none ∧ t.circuits[c].demand = x.demand ∧
          t.circuits[c].drive = x.demand ∧
          (x.drive = false → t.circuits[c].switchedOn = (x.demand || x.switchedOn)) ∧
          Replies t s.settings.part.address q.station .done none .circuit (c.1 + 1) 0 (t.circuitFields c)))) ∧
  (∀ (q : AmendReq) (r : Req) (c : Fin 16) (st : Fin 8) (s u : State),
    r = q.withField 128 1 → Heard s r st → r.index.toNat = c.1 + 1 → r.issue = 0 → u = s.frameGood →
    s.role st ≠ .none → s.role st ≠ .view → (r.fields.map (·.id)).Nodup → q.before ++ q.after ≠ [] →
    (∀ f ∈ q.before ++ q.after, f.id.toNat ≤ 2 ∧ formOf .circuit r.index r.fields f = none) →
    (∀ status why, s.lockedOut st = some (status, why) →
      ∃ t, exec (.resetCircuit q) s = .next t ∧ ChangesOnly [.link] u t ∧
        Replies t s.settings.part.address r.station status why .circuit (c.1 + 1) 0 (u.reads .circuit r.index)) ∧
    (s.lockedOut st = none →
      ∃ t, exec (.resetCircuit q) s = .next t ∧
        ChangesOnly [.link, .settings, .store, .circuits, .stations] u t ∧
        SettingsWritten (s.settings.asked .circuit r.index r.fields) u t ∧ OnlyAt c u.circuits t.circuits ∧
        (s.circuits[c].condition = .sound ∨ s.circuits[c].condition = .openLoad →
          t.circuits[c] = s.circuits[c]) ∧
        (s.circuits[c].condition = .overload ∨ s.circuits[c].condition = .failed →
          t.circuits[c].condition = .sound ∧ t.circuits[c].overloads = 0 ∧ t.circuits[c].retryAt = none ∧
            t.circuits[c].cleanAt = none ∧ t.circuits[c].offAt = none ∧
            t.circuits[c].demand = s.circuits[c].demand ∧ t.circuits[c].drive = s.circuits[c].demand) ∧
        Replies t s.settings.part.address r.station .done none .circuit (c.1 + 1) 0 (t.reads .circuit r.index)))

/-- R48, R168..R172, R170: the lines and timers of the supply monitor: mains by its three states, each change of
it announced to the lights, the curtains and the holds; the safety supply and the cell by their judged lines.
That the clock stands at a timer's deadline or later is log entry 3 (DESIGN CHOICE); that a line event to the
level the line has, and a timer that does not run, change nothing is log entry 4 (DEDUCED). -/
def Obligations.SupplyFollowsLines : Prop :=
  (∀ (s : State) (present : Bool), s.powered = true → s.lines.mainsPresent ≠ present →
    ∃ t, exec (.mainsSenseChange present) s = .next t ∧
      ChangesOnly ([.lines, .supply, .irons, .holds] ++ lightParts) s t ∧
      t.lines = { s.lines with mainsPresent := present } ∧
      t.supply =
        { s.supply with
          mains :=
            if s.supply.mains = .lost ∧ present = true then .settling
            else if s.supply.mains = .settling ∧ present = false then .lost
            else s.supply.mains
          lossAt :=
            if s.supply.mains = .present then (if present then none else some (s.now + 500))
            else s.supply.lossAt
          settlingAt :=
            if s.supply.mains = .lost ∧ present = true then some (s.now + 10000)
            else if s.supply.mains = .settling ∧ present = false then none
            else s.supply.settlingAt } ∧
      (t.supply.mains ≠ s.supply.mains → LightsDerived t) ∧
      (t.supply.mains = s.supply.mains → ChangesOnly [.lines, .supply] s t) ∧
      ∀ ch : Fin 3, t.irons[ch] =
        if s.irons[ch].motion = .raising ∧ s.supply.mains = .settling ∧ present = false then
          { s.irons[ch] with motion := .stopped, stop := some .supply, restTravel := 0, sawCreep := false }
        else s.irons[ch]) ∧
  (∀ (s : State) (d : Nat), s.powered = true →
    (s.supply.lossAt = some d →
      ∃ t, exec .lossTimerExpiry s = .next t ∧
        ChangesOnly ([.clock, .supply, .irons, .holds] ++ lightParts) s t ∧ t.now = max s.now d ∧
        t.supply = { s.supply with mains := .lost, lossAt := none } ∧ LightsDerived t ∧
        ∀ ch : Fin 3, t.irons[ch] =
          if s.irons[ch].motion = .raising then
            { s.irons[ch] with motion := .stopped, stop := some .supply, restTravel := 0, sawCreep := false }
          else s.irons[ch]) ∧
    (s.supply.settlingAt = some d →
      ∃ t, exec .settlingTimerExpiry s = .next t ∧
        ChangesOnly ([.clock, .supply, .holds] ++ lightParts) s t ∧ t.now = max s.now d ∧
        t.supply = { s.supply with mains := .present, settlingAt := none } ∧ LightsDerived t) ∧
    (s.supply.safetyAt = some d →
      ∃ t, exec .safetySupplyTimerExpiry s = .next t ∧ ChangesOnly [.clock, .supply, .holds, .stations] s t ∧
        t.now = max s.now d ∧
        t.supply = { s.supply with safetyLow := !s.supply.safetyLow, safetyAt := none }) ∧
    (s.supply.cellAt = some d →
      ∃ t, exec .cellTimerExpiry s = .next t ∧ ChangesOnly [.clock, .supply, .retained, .stations] s t ∧
        t.now = max s.now d ∧
        t.supply =
          { s.supply with
            cellLow := !s.supply.cellLow, cellAt := none, retainedValid := s.supply.cellLow } ∧
        (s.supply.cellLow = false → t.retained = s.retained) ∧
        (s.supply.cellLow = true → t.retained.checkGood = true ∧ ∀ a : Fin 3,
          t.retained.entries[a] = ⟨s.phase a, s.perfs[a].act, s.perfs[a].ironProved⟩))) ∧
  (∀ (s : State) (on : Bool), s.powered = true →
    (s.lines.supplyLow ≠ on →
      ∃ t, exec (.supplyLowLineChange on) s = .next t ∧ ChangesOnly [.lines, .supply] s t ∧
        t.lines = { s.lines with supplyLow := on } ∧
        t.supply =
          { s.supply with
            safetyAt :=
              if on = s.supply.safetyLow then none else some (s.now + if on then 1000 else 5000) }) ∧
    (s.lines.cellGood ≠ on →
      ∃ t, exec (.cellSenseChange on) s = .next t ∧ ChangesOnly [.lines, .supply] s t ∧
        t.lines = { s.lines with cellGood := on } ∧
        t.supply =
          { s.supply with
            cellAt :=
              if on = !s.supply.cellLow then none else some (s.now + if on then 5000 else 1000) })) ∧
  (∀ s : State,
    (∀ b, s.lines.mainsPresent = b → exec (.mainsSenseChange b) s = .next s) ∧
    (∀ b, s.lines.supplyLow = b → exec (.supplyLowLineChange b) s = .next s) ∧
    (∀ b, s.lines.cellGood = b → exec (.cellSenseChange b) s = .next s) ∧
    (s.supply.lossAt = none → exec .lossTimerExpiry s = .next s) ∧
    (s.supply.settlingAt = none → exec .settlingTimerExpiry s = .next s) ∧
    (s.supply.safetyAt = none → exec .safetySupplyTimerExpiry s = .next s) ∧
    (s.supply.cellAt = none → exec .cellTimerExpiry s = .next s))

/-- R29, R62, R79, R102, R126, R153, R165, R174, R175, R191, R199: a start from the reset pin leaves what power
being applied leaves but for the restart cause; and what a start leaves of every block, from the image, the
retained copy and the plant. That the clock is then 0, and the times counted from it, is log entry 2 (DESIGN
CHOICE); that COLD_START of a powered part is a start like any other is log entry 24, and that a station of role
NONE has no flags is log entry 40 (both DEDUCED). -/
def Obligations.ColdStartRestores : Prop :=
  (∀ (p : Plant) (s : State), s.powered = true →
    ∃ t, exec (.coldStart p) s = .next t ∧
      exec (.resetPin p) s = .next { t with supply := { t.supply with
        restartCause := if t.supply.restartCause = .cellLost then .cellLost else .resetPin } }) ∧
  (∀ (p : Plant) (s : State) (cfg : Settings) (valid fromPin : Bool),
    cfg = (if s.imageGood then s.image else Settings.defaults) →
    valid = (p.cellGood && p.copyIntact && s.retained.checkGood) → (fromPin = true → s.powered = true) →
    ∃ t, exec (if fromPin then .resetPin p else .coldStart p) s = .next t ∧ ChangesOnly startParts s t ∧
      t.powered = true ∧ t.now = 0 ∧ t.settings = cfg ∧
      t.store = ⟨if s.imageGood then .loaded else .defaults, !s.imageGood, false⟩ ∧
      t.supply =
        { mains := if p.mainsPresent then .settling else .lost, safetyLow := p.supplyLow,
          cellLow := !p.cellGood, retainedValid := p.cellGood,
          restartCause := if valid then (if fromPin then .resetPin else .coldStart) else .cellLost,
          lossAt := none, settlingAt := if p.mainsPresent then some 10000 else none, safetyAt := none,
          cellAt := none } ∧
      (∀ a : Fin 3,
        t.perfs[a].openedBy = none ∧
        (s.imageGood = false ∨ cfg.perfs[a].present = false →
          t.phase a = .dark ∧ t.perfs[a].interrupted = false) ∧
        (s.imageGood = false → t.perfs[a].act = 0) ∧
        (s.imageGood = true → cfg.perfs[a].present = true → valid = true →
          t.perfs[a].act = s.retained.entries[a].act ∧
          (s.retained.entries[a].phase = .dark ∨ s.retained.entries[a].phase = .prepare →
            t.phase a = s.retained.entries[a].phase ∧ t.perfs[a].interrupted = false) ∧
          (s.retained.entries[a].phase ≠ .dark → s.retained.entries[a].phase ≠ .prepare →
            t.perfs[a].interrupted = true ∧
            t.phase a =
              if s.retained.entries[a].phase = .closing ∧
                (cfg.irons[a].present = false ∨ t.perfs[a].ironProved = .proved) then .closing
              else .halted)) ∧
        (s.imageGood = true → cfg.perfs[a].present = true → valid = false →
          t.phase a = .halted ∧ t.perfs[a].act = 0 ∧ t.perfs[a].interrupted = true) ∧
        (t.perfs[a].ironProved =
          if cfg.irons[a].present = false then .notRequired
          else if s.imageGood = true ∧ valid = true ∧ s.retained.entries[a].ironProved ≠ .notRequired then
            s.retained.entries[a].ironProved
          else .notYet) ∧
        t.retained.entries[a] = ⟨t.phase a, t.perfs[a].act, t.perfs[a].ironProved⟩ ∧
        (∀ k : Fin 8, (t.hold? a k).isSome = true → 4 ≤ k.1 ∧ t.holds[a][k].issue = 1) ∧
        (t.phase a ≠ .dark → t.hold? a (holdSlot .supply) = some ⟨none, .supply, .mains⟩)) ∧
      (∀ ch : Fin 3, cfg.irons[ch].present = true →
        t.irons[ch].motion = (if p.limitIn.getLsbD ch.1 then .atIn else .descending) ∧
        t.irons[ch].referenced = p.limitIn.getLsbD ch.1 ∧
        t.irons[ch].position = (if p.limitIn.getLsbD ch.1 then 0 else cfg.irons[ch].travel) ∧
        t.irons[ch].pressed = p.pressed.getLsbD ch.1 ∧ t.irons[ch].fault = none ∧
        t.irons[ch].kind = (if p.limitIn.getLsbD ch.1 then none else some .part) ∧
        t.irons[ch].reason = (if p.limitIn.getLsbD ch.1 then none else some .restart) ∧
        t.irons[ch].sub = (if p.limitIn.getLsbD ch.1 then none else some .free) ∧
        t.irons[ch].demandOut = false ∧ t.irons[ch].stop = none ∧ t.irons[ch].firstFault = none ∧
        t.irons[ch].further = false ∧ t.irons[ch].result = none ∧ t.irons[ch].td = 0 ∧ t.irons[ch].tf = 0 ∧
        t.irons[ch].descentTimer = 0) ∧
      (∀ z : Fin 24, cfg.zones[z].present = true →
        t.zones[z].band = p.bands[z] ∧ t.zones[z].condition = .sound ∧ t.zones[z].isolated = false ∧
        t.zones[z].detection = (if p.bands[z] = .active then .pending else .normal)) ∧
      t.incidentList = [] ∧ t.callList = [] ∧ (∀ i : Fin 25, t.incidents[i] = ⟨0, none⟩) ∧
      (∀ c : Fin 32, t.calls[c] = ⟨0, none⟩) ∧ (∀ z : Fin 8, t.czones[z] = CallZone.idle) ∧
      (∀ g : Fin 12, t.groups[g].level = 0 ∧ t.groups[g].target = 0 ∧ t.groups[g].fading = false) ∧
      (∀ c : Fin 16, t.circuits[c].demand = false ∧ t.circuits[c].drive = false ∧
        t.circuits[c].testAt = 10000 ∧
        t.circuits[c].condition = if p.loads.getLsbD c.1 then .sound else .openLoad) ∧
      t.link = ⟨0, false, none⟩ ∧
      (∀ i : Fin 8, t.stations[i].armed = 0 ∧
        t.stations[i].flags = if cfg.stations[i].role = .none then 0 else cfg.stations[i].mask) ∧
      HoldsLawful t ∧ LightsDerived t ∧ OutputsDerived t ∧ RaisesAreSafe t ∧ IncidentsLawful t)

/-! ## Settings and the lock -/

/-- R185, R193, R194, R197, R201: an AMEND of any fixed record: the first field whose form is at fault gives the
reply, and a request without a field is DONE with the record; and a request that carries settings alone, of every
kind: ENGINEER, then STORING, then the locks, then what the record's own state and the cross-field checks have
against it (R33, R34, R66, R186); or else the settings it asks for, in the ranges of R3, R33, R65, R84, R104, R128
and R179, ADJUSTED where a value was brought into range, settings changed, and what that does at once to the records
of the kind (R34, R66, R105, R129, R163, R186). R185, R196: settings and the lock in one request, and the lock
alone, set in any phase and never cleared by a station. Log entries (all DEDUCED): which replies carry the record
is 10, that the field checks are one stage is 32, that a change of role decides over a change of mask in the same
request is 41, and that a lock value other than set or clear is BAD_FIELD before the role is looked at is 42. That a set field which
NOT_AMENDABLE names keeps the request's value whole is log entry 43 (DESIGN CHOICE). -/
def Obligations.SettingsAmendedAndLocked : Prop :=
  (∀ (act : Instr) (k : Kind) (r : Req) (st : Fin 8) (s u : State),
    requestOf act = some (.amend, k, r) → k ≠ .hold → k ≠ .incident → k ≠ .call → Heard s r st →
    u = s.frameGood → s.role st ≠ .none → s.role st ≠ .view → (r.fields.map (·.id)).Nodup → r.issue = 0 →
    1 ≤ r.index.toNat → r.index.toNat ≤ kindSize k →
    (∀ f, r.fields.find? (fun f => formOf k r.index r.fields f != none) = some f →
      ∀ w, formOf k r.index r.fields f = some w →
      ∃ t, exec act s = .next t ∧ ChangesOnly [.link] u t ∧
        RepliesFlaw t s.settings.part.address r.station w f k r.index.toNat 0
          (if refusalShows k r.fields then u.reads k r.index else [])) ∧
    (r.fields = [] →
      ∃ t, exec act s = .next t ∧ ChangesOnly [.link] u t ∧
        Replies t s.settings.part.address r.station .done none k r.index.toNat 0 (u.reads k r.index))) ∧
  (∀ (k : Kind) (r : Req) (limitIn : Bool) (st : Fin 8) (s u : State) (asked new : Settings),
    Heard s r st → u = s.frameGood → s.role st ≠ .none → s.role st ≠ .view →
    (r.fields.map (·.id)).Nodup → r.issue = 0 → 1 ≤ r.index.toNat → r.index.toNat ≤ kindSize k →
    r.fields ≠ [] →
    (∀ f ∈ r.fields, 1 ≤ f.id.toNat ∧ f.id.toNat ≤ topSetting k ∧ formOf k r.index r.fields f = none) →
    asked = s.settings.asked k r.index r.fields → new = asked.ranged k r.index →
    (∀ status why,
      (match s.lockedOut st with
       | some w => some w
       | none => s.settingsClash k r.index r.fields) = some (status, why) →
      ∃ t, exec (.settingsAmendment k r limitIn) s = .next t ∧ ChangesOnly [.link] u t ∧
        Replies t s.settings.part.address r.station status why k r.index.toNat 0
          (if refusalShows k r.fields then u.reads k r.index
           else if k = .station ∧ status = .badField then r.fields.filter (fun f => f.id == 1) else [])) ∧
    (s.lockedOut st = none → s.settingsClash k r.index r.fields = none →
      ∃ t, exec (.settingsAmendment k r limitIn) s = .next t ∧ SettingsWritten new u t ∧
        t.image = s.image ∧ t.perfs = s.perfs ∧ t.incidents = s.incidents ∧
        SettingsTakeEffect k r.index limitIn u t ∧
        Replies t s.settings.part.address r.station (if asked = new then .done else .adjusted) none k r.index.toNat 0
          (if asked = new ∧ k ≠ .zone ∧ k ≠ .circuit then [] else t.reads k r.index))) ∧
  (∀ (q : AmendReq) (r : Req) (v : Word) (st : Fin 8) (s u : State) (asked new : Settings),
    r = q.withField 42 v → Heard s r st → r.index = 1 → r.issue = 0 → u = s.frameGood → s.role st ≠ .none →
    s.role st ≠ .view → (r.fields.map (·.id)).Nodup → q.before ++ q.after ≠ [] →
    (∀ f ∈ r.fields, (f.id = 42 ∨ (1 ≤ f.id.toNat ∧ f.id.toNat ≤ 4)) ∧ formOf .status 1 r.fields f = none) →
    asked = s.settings.asked .status 1 r.fields → new = asked.ranged .status 1 →
    (∀ status why, s.lockedOut st = some (status, why) →
      ∃ t, exec (.commissioningLock q v) s = .next t ∧ ChangesOnly [.link] u t ∧
        Replies t s.settings.part.address r.station status why .status 1 0 []) ∧
    (s.lockedOut st = none →
      ∃ t, exec (.commissioningLock q v) s = .next t ∧ t.settings = new ∧
        t.store =
          { s.store with changed := s.store.changed || decide (new ≠ s.settings), locked := decide (v = 1) } ∧
        SettingsTakeEffect .status 1 false u t ∧
        Replies t s.settings.part.address r.station (if asked = new then .done else .adjusted) none .status 1 0
          (if asked = new then [] else t.reads .status 1))) ∧
  (∀ (q : AmendReq) (v : Word) (st : Fin 8) (s u : State), HeardAlone s q st 1 0 → u = s.frameGood →
    s.role st ≠ .none → s.role st ≠ .view →
    (1 < v.toNat →
      ∃ t, exec (.commissioningLock q v) s = .next t ∧ ChangesOnly [.link] u t ∧
        Replies t s.settings.part.address q.station .badField none .status 1 0 []) ∧
    (v.toNat ≤ 1 → s.role st ≠ .engineer →
      ∃ t, exec (.commissioningLock q v) s = .next t ∧ ChangesOnly [.link] u t ∧
        Replies t s.settings.part.address q.station .notPermitted none .status 1 0 []) ∧
    (s.role st = .engineer →
      (v = 1 →
        ∃ t, exec (.commissioningLock q v) s = .next t ∧ ChangesOnly [.link, .store, .stations] u t ∧
          t.store = { s.store with locked := true } ∧
          Replies t s.settings.part.address q.station .done none .status 1 0 []) ∧
      (v = 0 → s.store.locked = false →
        ∃ t, exec (.commissioningLock q v) s = .next t ∧ ChangesOnly [.link] u t ∧
          Replies t s.settings.part.address q.station .done none .status 1 0 []) ∧
      (v = 0 → s.store.locked = true →
        ∃ t, exec (.commissioningLock q v) s = .next t ∧ ChangesOnly [.link] u t ∧
          Replies t s.settings.part.address q.station .locked none .status 1 0 [])))

end
end

