-- ==== Sys2Proof/Laws/State.lean ====
section
/-!
SUPPORT. One lemma for each field of the state and each primitive update: the field is as it was, or
holds what the update writes. Later proofs rewrite with these and unfold no update.
-/

namespace Sys2Proof.Machine

@[simp] theorem State.mark_powered (s : State) (k : Kind) : (s.mark k).powered = s.powered := rfl
@[simp] theorem State.mark_now (s : State) (k : Kind) : (s.mark k).now = s.now := rfl
@[simp] theorem State.mark_draws (s : State) (k : Kind) : (s.mark k).draws = s.draws := rfl
@[simp] theorem State.mark_settings (s : State) (k : Kind) : (s.mark k).settings = s.settings := rfl
@[simp] theorem State.mark_image (s : State) (k : Kind) : (s.mark k).image = s.image := rfl
@[simp] theorem State.mark_imageGood (s : State) (k : Kind) : (s.mark k).imageGood = s.imageGood := rfl
@[simp] theorem State.mark_store (s : State) (k : Kind) : (s.mark k).store = s.store := rfl
@[simp] theorem State.mark_perfs (s : State) (k : Kind) : (s.mark k).perfs = s.perfs := rfl
@[simp] theorem State.mark_holds (s : State) (k : Kind) : (s.mark k).holds = s.holds := rfl
@[simp] theorem State.mark_holdLists (s : State) (k : Kind) : (s.mark k).holdLists = s.holdLists := rfl
@[simp] theorem State.mark_irons (s : State) (k : Kind) : (s.mark k).irons = s.irons := rfl
@[simp] theorem State.mark_zones (s : State) (k : Kind) : (s.mark k).zones = s.zones := rfl
@[simp] theorem State.mark_incidents (s : State) (k : Kind) : (s.mark k).incidents = s.incidents := rfl
@[simp] theorem State.mark_incidentList (s : State) (k : Kind) :
    (s.mark k).incidentList = s.incidentList := rfl
@[simp] theorem State.mark_groups (s : State) (k : Kind) : (s.mark k).groups = s.groups := rfl
@[simp] theorem State.mark_flickers (s : State) (k : Kind) : (s.mark k).flickers = s.flickers := rfl
@[simp] theorem State.mark_fadeAt (s : State) (k : Kind) : (s.mark k).fadeAt = s.fadeAt := rfl
@[simp] theorem State.mark_lit (s : State) (k : Kind) : (s.mark k).lit = s.lit := rfl
@[simp] theorem State.mark_calls (s : State) (k : Kind) : (s.mark k).calls = s.calls := rfl
@[simp] theorem State.mark_callList (s : State) (k : Kind) : (s.mark k).callList = s.callList := rfl
@[simp] theorem State.mark_czones (s : State) (k : Kind) : (s.mark k).czones = s.czones := rfl
@[simp] theorem State.mark_circuits (s : State) (k : Kind) : (s.mark k).circuits = s.circuits := rfl
@[simp] theorem State.mark_supply (s : State) (k : Kind) : (s.mark k).supply = s.supply := rfl
@[simp] theorem State.mark_retained (s : State) (k : Kind) : (s.mark k).retained = s.retained := rfl
@[simp] theorem State.mark_lines (s : State) (k : Kind) : (s.mark k).lines = s.lines := rfl
@[simp] theorem State.mark_link (s : State) (k : Kind) : (s.mark k).link = s.link := rfl
@[simp] theorem State.mark_pending (s : State) (k : Kind) : (s.mark k).pending = s.pending := rfl

@[simp] theorem State.markIf_powered (s : State) (b : Bool) (k : Kind) :
    (s.markIf b k).powered = s.powered := by cases b <;> rfl
@[simp] theorem State.markIf_now (s : State) (b : Bool) (k : Kind) :
    (s.markIf b k).now = s.now := by cases b <;> rfl
@[simp] theorem State.markIf_draws (s : State) (b : Bool) (k : Kind) :
    (s.markIf b k).draws = s.draws := by cases b <;> rfl
@[simp] theorem State.markIf_settings (s : State) (b : Bool) (k : Kind) :
    (s.markIf b k).settings = s.settings := by cases b <;> rfl
@[simp] theorem State.markIf_image (s : State) (b : Bool) (k : Kind) :
    (s.markIf b k).image = s.image := by cases b <;> rfl
@[simp] theorem State.markIf_imageGood (s : State) (b : Bool) (k : Kind) :
    (s.markIf b k).imageGood = s.imageGood := by cases b <;> rfl
@[simp] theorem State.markIf_store (s : State) (b : Bool) (k : Kind) :
    (s.markIf b k).store = s.store := by cases b <;> rfl
@[simp] theorem State.markIf_perfs (s : State) (b : Bool) (k : Kind) :
    (s.markIf b k).perfs = s.perfs := by cases b <;> rfl
@[simp] theorem State.markIf_holds (s : State) (b : Bool) (k : Kind) :
    (s.markIf b k).holds = s.holds := by cases b <;> rfl
@[simp] theorem State.markIf_holdLists (s : State) (b : Bool) (k : Kind) :
    (s.markIf b k).holdLists = s.holdLists := by cases b <;> rfl
@[simp] theorem State.markIf_irons (s : State) (b : Bool) (k : Kind) :
    (s.markIf b k).irons = s.irons := by cases b <;> rfl
@[simp] theorem State.markIf_zones (s : State) (b : Bool) (k : Kind) :
    (s.markIf b k).zones = s.zones := by cases b <;> rfl
@[simp] theorem State.markIf_incidents (s : State) (b : Bool) (k : Kind) :
    (s.markIf b k).incidents = s.incidents := by cases b <;> rfl
@[simp] theorem State.markIf_incidentList (s : State) (b : Bool) (k : Kind) :
    (s.markIf b k).incidentList = s.incidentList := by cases b <;> rfl
@[simp] theorem State.markIf_groups (s : State) (b : Bool) (k : Kind) :
    (s.markIf b k).groups = s.groups := by cases b <;> rfl
@[simp] theorem State.markIf_flickers (s : State) (b : Bool) (k : Kind) :
    (s.markIf b k).flickers = s.flickers := by cases b <;> rfl
@[simp] theorem State.markIf_fadeAt (s : State) (b : Bool) (k : Kind) :
    (s.markIf b k).fadeAt = s.fadeAt := by cases b <;> rfl
@[simp] theorem State.markIf_lit (s : State) (b : Bool) (k : Kind) :
    (s.markIf b k).lit = s.lit := by cases b <;> rfl
@[simp] theorem State.markIf_calls (s : State) (b : Bool) (k : Kind) :
    (s.markIf b k).calls = s.calls := by cases b <;> rfl
@[simp] theorem State.markIf_callList (s : State) (b : Bool) (k : Kind) :
    (s.markIf b k).callList = s.callList := by cases b <;> rfl
@[simp] theorem State.markIf_czones (s : State) (b : Bool) (k : Kind) :
    (s.markIf b k).czones = s.czones := by cases b <;> rfl
@[simp] theorem State.markIf_circuits (s : State) (b : Bool) (k : Kind) :
    (s.markIf b k).circuits = s.circuits := by cases b <;> rfl
@[simp] theorem State.markIf_supply (s : State) (b : Bool) (k : Kind) :
    (s.markIf b k).supply = s.supply := by cases b <;> rfl
@[simp] theorem State.markIf_retained (s : State) (b : Bool) (k : Kind) :
    (s.markIf b k).retained = s.retained := by cases b <;> rfl
@[simp] theorem State.markIf_lines (s : State) (b : Bool) (k : Kind) :
    (s.markIf b k).lines = s.lines := by cases b <;> rfl
@[simp] theorem State.markIf_link (s : State) (b : Bool) (k : Kind) :
    (s.markIf b k).link = s.link := by cases b <;> rfl
@[simp] theorem State.markIf_pending (s : State) (b : Bool) (k : Kind) :
    (s.markIf b k).pending = s.pending := by cases b <;> rfl

@[simp] theorem State.reach_powered (s : State) (t : Nat) : (s.reach t).powered = s.powered := rfl
@[simp] theorem State.reach_now (s : State) (t : Nat) : (s.reach t).now = max s.now t := rfl
@[simp] theorem State.reach_draws (s : State) (t : Nat) : (s.reach t).draws = s.draws := rfl
@[simp] theorem State.reach_settings (s : State) (t : Nat) : (s.reach t).settings = s.settings := rfl
@[simp] theorem State.reach_image (s : State) (t : Nat) : (s.reach t).image = s.image := rfl
@[simp] theorem State.reach_imageGood (s : State) (t : Nat) : (s.reach t).imageGood = s.imageGood := rfl
@[simp] theorem State.reach_store (s : State) (t : Nat) : (s.reach t).store = s.store := rfl
@[simp] theorem State.reach_perfs (s : State) (t : Nat) : (s.reach t).perfs = s.perfs := rfl
@[simp] theorem State.reach_holds (s : State) (t : Nat) : (s.reach t).holds = s.holds := rfl
@[simp] theorem State.reach_holdLists (s : State) (t : Nat) : (s.reach t).holdLists = s.holdLists := rfl
@[simp] theorem State.reach_irons (s : State) (t : Nat) : (s.reach t).irons = s.irons := rfl
@[simp] theorem State.reach_zones (s : State) (t : Nat) : (s.reach t).zones = s.zones := rfl
@[simp] theorem State.reach_incidents (s : State) (t : Nat) : (s.reach t).incidents = s.incidents := rfl
@[simp] theorem State.reach_incidentList (s : State) (t : Nat) :
    (s.reach t).incidentList = s.incidentList := rfl
@[simp] theorem State.reach_groups (s : State) (t : Nat) : (s.reach t).groups = s.groups := rfl
@[simp] theorem State.reach_flickers (s : State) (t : Nat) : (s.reach t).flickers = s.flickers := rfl
@[simp] theorem State.reach_fadeAt (s : State) (t : Nat) : (s.reach t).fadeAt = s.fadeAt := rfl
@[simp] theorem State.reach_lit (s : State) (t : Nat) : (s.reach t).lit = s.lit := rfl
@[simp] theorem State.reach_calls (s : State) (t : Nat) : (s.reach t).calls = s.calls := rfl
@[simp] theorem State.reach_callList (s : State) (t : Nat) : (s.reach t).callList = s.callList := rfl
@[simp] theorem State.reach_czones (s : State) (t : Nat) : (s.reach t).czones = s.czones := rfl
@[simp] theorem State.reach_circuits (s : State) (t : Nat) : (s.reach t).circuits = s.circuits := rfl
@[simp] theorem State.reach_supply (s : State) (t : Nat) : (s.reach t).supply = s.supply := rfl
@[simp] theorem State.reach_retained (s : State) (t : Nat) : (s.reach t).retained = s.retained := rfl
@[simp] theorem State.reach_lines (s : State) (t : Nat) : (s.reach t).lines = s.lines := rfl
@[simp] theorem State.reach_link (s : State) (t : Nat) : (s.reach t).link = s.link := rfl
@[simp] theorem State.reach_stations (s : State) (t : Nat) : (s.reach t).stations = s.stations := rfl
@[simp] theorem State.reach_pending (s : State) (t : Nat) : (s.reach t).pending = s.pending := rfl

@[simp] theorem State.drawn_powered (s : State) : (s.drawn).powered = s.powered := rfl
@[simp] theorem State.drawn_now (s : State) : (s.drawn).now = s.now := rfl
@[simp] theorem State.drawn_draws (s : State) : (s.drawn).draws = s.draws + 1 := rfl
@[simp] theorem State.drawn_settings (s : State) : (s.drawn).settings = s.settings := rfl
@[simp] theorem State.drawn_image (s : State) : (s.drawn).image = s.image := rfl
@[simp] theorem State.drawn_imageGood (s : State) : (s.drawn).imageGood = s.imageGood := rfl
@[simp] theorem State.drawn_store (s : State) : (s.drawn).store = s.store := rfl
@[simp] theorem State.drawn_perfs (s : State) : (s.drawn).perfs = s.perfs := rfl
@[simp] theorem State.drawn_holds (s : State) : (s.drawn).holds = s.holds := rfl
@[simp] theorem State.drawn_holdLists (s : State) : (s.drawn).holdLists = s.holdLists := rfl
@[simp] theorem State.drawn_irons (s : State) : (s.drawn).irons = s.irons := rfl
@[simp] theorem State.drawn_zones (s : State) : (s.drawn).zones = s.zones := rfl
@[simp] theorem State.drawn_incidents (s : State) : (s.drawn).incidents = s.incidents := rfl
@[simp] theorem State.drawn_incidentList (s : State) : (s.drawn).incidentList = s.incidentList := rfl
@[simp] theorem State.drawn_groups (s : State) : (s.drawn).groups = s.groups := rfl
@[simp] theorem State.drawn_flickers (s : State) : (s.drawn).flickers = s.flickers := rfl
@[simp] theorem State.drawn_fadeAt (s : State) : (s.drawn).fadeAt = s.fadeAt := rfl
@[simp] theorem State.drawn_lit (s : State) : (s.drawn).lit = s.lit := rfl
@[simp] theorem State.drawn_calls (s : State) : (s.drawn).calls = s.calls := rfl
@[simp] theorem State.drawn_callList (s : State) : (s.drawn).callList = s.callList := rfl
@[simp] theorem State.drawn_czones (s : State) : (s.drawn).czones = s.czones := rfl
@[simp] theorem State.drawn_circuits (s : State) : (s.drawn).circuits = s.circuits := rfl
@[simp] theorem State.drawn_supply (s : State) : (s.drawn).supply = s.supply := rfl
@[simp] theorem State.drawn_retained (s : State) : (s.drawn).retained = s.retained := rfl
@[simp] theorem State.drawn_lines (s : State) : (s.drawn).lines = s.lines := rfl
@[simp] theorem State.drawn_link (s : State) : (s.drawn).link = s.link := rfl
@[simp] theorem State.drawn_stations (s : State) : (s.drawn).stations = s.stations := rfl
@[simp] theorem State.drawn_pending (s : State) : (s.drawn).pending = s.pending := rfl

@[simp] theorem State.arm_powered (s : State) (i : Fin 8) : (s.arm i).powered = s.powered := rfl
@[simp] theorem State.arm_now (s : State) (i : Fin 8) : (s.arm i).now = s.now := rfl
@[simp] theorem State.arm_draws (s : State) (i : Fin 8) : (s.arm i).draws = s.draws := rfl
@[simp] theorem State.arm_settings (s : State) (i : Fin 8) : (s.arm i).settings = s.settings := rfl
@[simp] theorem State.arm_image (s : State) (i : Fin 8) : (s.arm i).image = s.image := rfl
@[simp] theorem State.arm_imageGood (s : State) (i : Fin 8) : (s.arm i).imageGood = s.imageGood := rfl
@[simp] theorem State.arm_store (s : State) (i : Fin 8) : (s.arm i).store = s.store := rfl
@[simp] theorem State.arm_perfs (s : State) (i : Fin 8) : (s.arm i).perfs = s.perfs := rfl
@[simp] theorem State.arm_holds (s : State) (i : Fin 8) : (s.arm i).holds = s.holds := rfl
@[simp] theorem State.arm_holdLists (s : State) (i : Fin 8) : (s.arm i).holdLists = s.holdLists := rfl
@[simp] theorem State.arm_irons (s : State) (i : Fin 8) : (s.arm i).irons = s.irons := rfl
@[simp] theorem State.arm_zones (s : State) (i : Fin 8) : (s.arm i).zones = s.zones := rfl
@[simp] theorem State.arm_incidents (s : State) (i : Fin 8) : (s.arm i).incidents = s.incidents := rfl
@[simp] theorem State.arm_incidentList (s : State) (i : Fin 8) :
    (s.arm i).incidentList = s.incidentList := rfl
@[simp] theorem State.arm_groups (s : State) (i : Fin 8) : (s.arm i).groups = s.groups := rfl
@[simp] theorem State.arm_flickers (s : State) (i : Fin 8) : (s.arm i).flickers = s.flickers := rfl
@[simp] theorem State.arm_fadeAt (s : State) (i : Fin 8) : (s.arm i).fadeAt = s.fadeAt := rfl
@[simp] theorem State.arm_lit (s : State) (i : Fin 8) : (s.arm i).lit = s.lit := rfl
@[simp] theorem State.arm_calls (s : State) (i : Fin 8) : (s.arm i).calls = s.calls := rfl
@[simp] theorem State.arm_callList (s : State) (i : Fin 8) : (s.arm i).callList = s.callList := rfl
@[simp] theorem State.arm_czones (s : State) (i : Fin 8) : (s.arm i).czones = s.czones := rfl
@[simp] theorem State.arm_circuits (s : State) (i : Fin 8) : (s.arm i).circuits = s.circuits := rfl
@[simp] theorem State.arm_supply (s : State) (i : Fin 8) : (s.arm i).supply = s.supply := rfl
@[simp] theorem State.arm_retained (s : State) (i : Fin 8) : (s.arm i).retained = s.retained := rfl
@[simp] theorem State.arm_lines (s : State) (i : Fin 8) : (s.arm i).lines = s.lines := rfl
@[simp] theorem State.arm_link (s : State) (i : Fin 8) : (s.arm i).link = s.link := rfl
@[simp] theorem State.arm_pending (s : State) (i : Fin 8) : (s.arm i).pending = s.pending := rfl

@[simp] theorem State.lookClears_powered (s : State) (i : Fin 8) (k : Kind) :
    (s.lookClears i k).powered = s.powered := by unfold State.lookClears; dsimp only; split <;> rfl
@[simp] theorem State.lookClears_now (s : State) (i : Fin 8) (k : Kind) :
    (s.lookClears i k).now = s.now := by unfold State.lookClears; dsimp only; split <;> rfl
@[simp] theorem State.lookClears_draws (s : State) (i : Fin 8) (k : Kind) :
    (s.lookClears i k).draws = s.draws := by unfold State.lookClears; dsimp only; split <;> rfl
@[simp] theorem State.lookClears_settings (s : State) (i : Fin 8) (k : Kind) :
    (s.lookClears i k).settings = s.settings := by unfold State.lookClears; dsimp only; split <;> rfl
@[simp] theorem State.lookClears_image (s : State) (i : Fin 8) (k : Kind) :
    (s.lookClears i k).image = s.image := by unfold State.lookClears; dsimp only; split <;> rfl
@[simp] theorem State.lookClears_imageGood (s : State) (i : Fin 8) (k : Kind) :
    (s.lookClears i k).imageGood = s.imageGood := by unfold State.lookClears; dsimp only; split <;> rfl
@[simp] theorem State.lookClears_store (s : State) (i : Fin 8) (k : Kind) :
    (s.lookClears i k).store = s.store := by unfold State.lookClears; dsimp only; split <;> rfl
@[simp] theorem State.lookClears_perfs (s : State) (i : Fin 8) (k : Kind) :
    (s.lookClears i k).perfs = s.perfs := by unfold State.lookClears; dsimp only; split <;> rfl
@[simp] theorem State.lookClears_holds (s : State) (i : Fin 8) (k : Kind) :
    (s.lookClears i k).holds = s.holds := by unfold State.lookClears; dsimp only; split <;> rfl
@[simp] theorem State.lookClears_holdLists (s : State) (i : Fin 8) (k : Kind) :
    (s.lookClears i k).holdLists = s.holdLists := by unfold State.lookClears; dsimp only; split <;> rfl
@[simp] theorem State.lookClears_irons (s : State) (i : Fin 8) (k : Kind) :
    (s.lookClears i k).irons = s.irons := by unfold State.lookClears; dsimp only; split <;> rfl
@[simp] theorem State.lookClears_zones (s : State) (i : Fin 8) (k : Kind) :
    (s.lookClears i k).zones = s.zones := by unfold State.lookClears; dsimp only; split <;> rfl
@[simp] theorem State.lookClears_incidents (s : State) (i : Fin 8) (k : Kind) :
    (s.lookClears i k).incidents = s.incidents := by unfold State.lookClears; dsimp only; split <;> rfl
@[simp] theorem State.lookClears_incidentList (s : State) (i : Fin 8) (k : Kind) :
    (s.lookClears i k).incidentList = s.incidentList := by unfold State.lookClears; dsimp only; split <;> rfl
@[simp] theorem State.lookClears_groups (s : State) (i : Fin 8) (k : Kind) :
    (s.lookClears i k).groups = s.groups := by unfold State.lookClears; dsimp only; split <;> rfl
@[simp] theorem State.lookClears_flickers (s : State) (i : Fin 8) (k : Kind) :
    (s.lookClears i k).flickers = s.flickers := by unfold State.lookClears; dsimp only; split <;> rfl
@[simp] theorem State.lookClears_fadeAt (s : State) (i : Fin 8) (k : Kind) :
    (s.lookClears i k).fadeAt = s.fadeAt := by unfold State.lookClears; dsimp only; split <;> rfl
@[simp] theorem State.lookClears_lit (s : State) (i : Fin 8) (k : Kind) :
    (s.lookClears i k).lit = s.lit := by unfold State.lookClears; dsimp only; split <;> rfl
@[simp] theorem State.lookClears_calls (s : State) (i : Fin 8) (k : Kind) :
    (s.lookClears i k).calls = s.calls := by unfold State.lookClears; dsimp only; split <;> rfl
@[simp] theorem State.lookClears_callList (s : State) (i : Fin 8) (k : Kind) :
    (s.lookClears i k).callList = s.callList := by unfold State.lookClears; dsimp only; split <;> rfl
@[simp] theorem State.lookClears_czones (s : State) (i : Fin 8) (k : Kind) :
    (s.lookClears i k).czones = s.czones := by unfold State.lookClears; dsimp only; split <;> rfl
@[simp] theorem State.lookClears_circuits (s : State) (i : Fin 8) (k : Kind) :
    (s.lookClears i k).circuits = s.circuits := by unfold State.lookClears; dsimp only; split <;> rfl
@[simp] theorem State.lookClears_supply (s : State) (i : Fin 8) (k : Kind) :
    (s.lookClears i k).supply = s.supply := by unfold State.lookClears; dsimp only; split <;> rfl
@[simp] theorem State.lookClears_retained (s : State) (i : Fin 8) (k : Kind) :
    (s.lookClears i k).retained = s.retained := by unfold State.lookClears; dsimp only; split <;> rfl
@[simp] theorem State.lookClears_lines (s : State) (i : Fin 8) (k : Kind) :
    (s.lookClears i k).lines = s.lines := by unfold State.lookClears; dsimp only; split <;> rfl
@[simp] theorem State.lookClears_link (s : State) (i : Fin 8) (k : Kind) :
    (s.lookClears i k).link = s.link := by unfold State.lookClears; dsimp only; split <;> rfl
@[simp] theorem State.lookClears_pending (s : State) (i : Fin 8) (k : Kind) :
    (s.lookClears i k).pending = s.pending := by unfold State.lookClears; dsimp only; split <;> rfl

@[simp] theorem State.flagAll_powered (s : State) : (s.flagAll).powered = s.powered := rfl
@[simp] theorem State.flagAll_now (s : State) : (s.flagAll).now = s.now := rfl
@[simp] theorem State.flagAll_draws (s : State) : (s.flagAll).draws = s.draws := rfl
@[simp] theorem State.flagAll_settings (s : State) : (s.flagAll).settings = s.settings := rfl
@[simp] theorem State.flagAll_image (s : State) : (s.flagAll).image = s.image := rfl
@[simp] theorem State.flagAll_imageGood (s : State) : (s.flagAll).imageGood = s.imageGood := rfl
@[simp] theorem State.flagAll_store (s : State) : (s.flagAll).store = s.store := rfl
@[simp] theorem State.flagAll_perfs (s : State) : (s.flagAll).perfs = s.perfs := rfl
@[simp] theorem State.flagAll_holds (s : State) : (s.flagAll).holds = s.holds := rfl
@[simp] theorem State.flagAll_holdLists (s : State) : (s.flagAll).holdLists = s.holdLists := rfl
@[simp] theorem State.flagAll_irons (s : State) : (s.flagAll).irons = s.irons := rfl
@[simp] theorem State.flagAll_zones (s : State) : (s.flagAll).zones = s.zones := rfl
@[simp] theorem State.flagAll_incidents (s : State) : (s.flagAll).incidents = s.incidents := rfl
@[simp] theorem State.flagAll_incidentList (s : State) : (s.flagAll).incidentList = s.incidentList := rfl
@[simp] theorem State.flagAll_groups (s : State) : (s.flagAll).groups = s.groups := rfl
@[simp] theorem State.flagAll_flickers (s : State) : (s.flagAll).flickers = s.flickers := rfl
@[simp] theorem State.flagAll_fadeAt (s : State) : (s.flagAll).fadeAt = s.fadeAt := rfl
@[simp] theorem State.flagAll_lit (s : State) : (s.flagAll).lit = s.lit := rfl
@[simp] theorem State.flagAll_calls (s : State) : (s.flagAll).calls = s.calls := rfl
@[simp] theorem State.flagAll_callList (s : State) : (s.flagAll).callList = s.callList := rfl
@[simp] theorem State.flagAll_czones (s : State) : (s.flagAll).czones = s.czones := rfl
@[simp] theorem State.flagAll_circuits (s : State) : (s.flagAll).circuits = s.circuits := rfl
@[simp] theorem State.flagAll_supply (s : State) : (s.flagAll).supply = s.supply := rfl
@[simp] theorem State.flagAll_retained (s : State) : (s.flagAll).retained = s.retained := rfl
@[simp] theorem State.flagAll_lines (s : State) : (s.flagAll).lines = s.lines := rfl
@[simp] theorem State.flagAll_link (s : State) : (s.flagAll).link = s.link := rfl
@[simp] theorem State.flagAll_pending (s : State) : (s.flagAll).pending = s.pending := rfl

@[simp] theorem State.writePerf_powered (s : State) (a : Fin 3) (p : Perf) :
    (s.writePerf a p).powered = s.powered := by unfold State.writePerf; dsimp only; split <;> simp
@[simp] theorem State.writePerf_now (s : State) (a : Fin 3) (p : Perf) :
    (s.writePerf a p).now = s.now := by unfold State.writePerf; dsimp only; split <;> simp
@[simp] theorem State.writePerf_draws (s : State) (a : Fin 3) (p : Perf) :
    (s.writePerf a p).draws = s.draws := by unfold State.writePerf; dsimp only; split <;> simp
@[simp] theorem State.writePerf_settings (s : State) (a : Fin 3) (p : Perf) :
    (s.writePerf a p).settings = s.settings := by unfold State.writePerf; dsimp only; split <;> simp
@[simp] theorem State.writePerf_image (s : State) (a : Fin 3) (p : Perf) :
    (s.writePerf a p).image = s.image := by unfold State.writePerf; dsimp only; split <;> simp
@[simp] theorem State.writePerf_imageGood (s : State) (a : Fin 3) (p : Perf) :
    (s.writePerf a p).imageGood = s.imageGood := by unfold State.writePerf; dsimp only; split <;> simp
@[simp] theorem State.writePerf_store (s : State) (a : Fin 3) (p : Perf) :
    (s.writePerf a p).store = s.store := by unfold State.writePerf; dsimp only; split <;> simp
@[simp] theorem State.writePerf_perfs (s : State) (a : Fin 3) (p : Perf) :
    (s.writePerf a p).perfs = put s.perfs a p := by unfold State.writePerf; dsimp only; split <;> simp
@[simp] theorem State.writePerf_holds (s : State) (a : Fin 3) (p : Perf) :
    (s.writePerf a p).holds = s.holds := by unfold State.writePerf; dsimp only; split <;> simp
@[simp] theorem State.writePerf_holdLists (s : State) (a : Fin 3) (p : Perf) :
    (s.writePerf a p).holdLists = s.holdLists := by unfold State.writePerf; dsimp only; split <;> simp
@[simp] theorem State.writePerf_irons (s : State) (a : Fin 3) (p : Perf) :
    (s.writePerf a p).irons = s.irons := by unfold State.writePerf; dsimp only; split <;> simp
@[simp] theorem State.writePerf_zones (s : State) (a : Fin 3) (p : Perf) :
    (s.writePerf a p).zones = s.zones := by unfold State.writePerf; dsimp only; split <;> simp
@[simp] theorem State.writePerf_incidents (s : State) (a : Fin 3) (p : Perf) :
    (s.writePerf a p).incidents = s.incidents := by unfold State.writePerf; dsimp only; split <;> simp
@[simp] theorem State.writePerf_incidentList (s : State) (a : Fin 3) (p : Perf) :
    (s.writePerf a p).incidentList = s.incidentList := by unfold State.writePerf; dsimp only; split <;> simp
@[simp] theorem State.writePerf_groups (s : State) (a : Fin 3) (p : Perf) :
    (s.writePerf a p).groups = s.groups := by unfold State.writePerf; dsimp only; split <;> simp
@[simp] theorem State.writePerf_flickers (s : State) (a : Fin 3) (p : Perf) :
    (s.writePerf a p).flickers = s.flickers := by unfold State.writePerf; dsimp only; split <;> simp
@[simp] theorem State.writePerf_fadeAt (s : State) (a : Fin 3) (p : Perf) :
    (s.writePerf a p).fadeAt = s.fadeAt := by unfold State.writePerf; dsimp only; split <;> simp
@[simp] theorem State.writePerf_lit (s : State) (a : Fin 3) (p : Perf) :
    (s.writePerf a p).lit = s.lit := by unfold State.writePerf; dsimp only; split <;> simp
@[simp] theorem State.writePerf_calls (s : State) (a : Fin 3) (p : Perf) :
    (s.writePerf a p).calls = s.calls := by unfold State.writePerf; dsimp only; split <;> simp
@[simp] theorem State.writePerf_callList (s : State) (a : Fin 3) (p : Perf) :
    (s.writePerf a p).callList = s.callList := by unfold State.writePerf; dsimp only; split <;> simp
@[simp] theorem State.writePerf_czones (s : State) (a : Fin 3) (p : Perf) :
    (s.writePerf a p).czones = s.czones := by unfold State.writePerf; dsimp only; split <;> simp
@[simp] theorem State.writePerf_circuits (s : State) (a : Fin 3) (p : Perf) :
    (s.writePerf a p).circuits = s.circuits := by unfold State.writePerf; dsimp only; split <;> simp
@[simp] theorem State.writePerf_supply (s : State) (a : Fin 3) (p : Perf) :
    (s.writePerf a p).supply = s.supply := by unfold State.writePerf; dsimp only; split <;> simp
@[simp] theorem State.writePerf_lines (s : State) (a : Fin 3) (p : Perf) :
    (s.writePerf a p).lines = s.lines := by unfold State.writePerf; dsimp only; split <;> simp
@[simp] theorem State.writePerf_link (s : State) (a : Fin 3) (p : Perf) :
    (s.writePerf a p).link = s.link := by unfold State.writePerf; dsimp only; split <;> simp
@[simp] theorem State.writePerf_pending (s : State) (a : Fin 3) (p : Perf) :
    (s.writePerf a p).pending = s.pending := by unfold State.writePerf; dsimp only; split <;> simp

@[simp] theorem State.writeIron_powered (s : State) (ch : Fin 3) (x : Iron) :
    (s.writeIron ch x).powered = s.powered := by simp [State.writeIron]
@[simp] theorem State.writeIron_now (s : State) (ch : Fin 3) (x : Iron) :
    (s.writeIron ch x).now = s.now := by simp [State.writeIron]
@[simp] theorem State.writeIron_draws (s : State) (ch : Fin 3) (x : Iron) :
    (s.writeIron ch x).draws = s.draws := by simp [State.writeIron]
@[simp] theorem State.writeIron_settings (s : State) (ch : Fin 3) (x : Iron) :
    (s.writeIron ch x).settings = s.settings := by simp [State.writeIron]
@[simp] theorem State.writeIron_image (s : State) (ch : Fin 3) (x : Iron) :
    (s.writeIron ch x).image = s.image := by simp [State.writeIron]
@[simp] theorem State.writeIron_imageGood (s : State) (ch : Fin 3) (x : Iron) :
    (s.writeIron ch x).imageGood = s.imageGood := by simp [State.writeIron]
@[simp] theorem State.writeIron_store (s : State) (ch : Fin 3) (x : Iron) :
    (s.writeIron ch x).store = s.store := by simp [State.writeIron]
@[simp] theorem State.writeIron_perfs (s : State) (ch : Fin 3) (x : Iron) :
    (s.writeIron ch x).perfs = s.perfs := by simp [State.writeIron]
@[simp] theorem State.writeIron_holds (s : State) (ch : Fin 3) (x : Iron) :
    (s.writeIron ch x).holds = s.holds := by simp [State.writeIron]
@[simp] theorem State.writeIron_holdLists (s : State) (ch : Fin 3) (x : Iron) :
    (s.writeIron ch x).holdLists = s.holdLists := by simp [State.writeIron]
@[simp] theorem State.writeIron_irons (s : State) (ch : Fin 3) (x : Iron) :
    (s.writeIron ch x).irons = put s.irons ch x := by simp [State.writeIron]
@[simp] theorem State.writeIron_zones (s : State) (ch : Fin 3) (x : Iron) :
    (s.writeIron ch x).zones = s.zones := by simp [State.writeIron]
@[simp] theorem State.writeIron_incidents (s : State) (ch : Fin 3) (x : Iron) :
    (s.writeIron ch x).incidents = s.incidents := by simp [State.writeIron]
@[simp] theorem State.writeIron_incidentList (s : State) (ch : Fin 3) (x : Iron) :
    (s.writeIron ch x).incidentList = s.incidentList := by simp [State.writeIron]
@[simp] theorem State.writeIron_groups (s : State) (ch : Fin 3) (x : Iron) :
    (s.writeIron ch x).groups = s.groups := by simp [State.writeIron]
@[simp] theorem State.writeIron_flickers (s : State) (ch : Fin 3) (x : Iron) :
    (s.writeIron ch x).flickers = s.flickers := by simp [State.writeIron]
@[simp] theorem State.writeIron_fadeAt (s : State) (ch : Fin 3) (x : Iron) :
    (s.writeIron ch x).fadeAt = s.fadeAt := by simp [State.writeIron]
@[simp] theorem State.writeIron_lit (s : State) (ch : Fin 3) (x : Iron) :
    (s.writeIron ch x).lit = s.lit := by simp [State.writeIron]
@[simp] theorem State.writeIron_calls (s : State) (ch : Fin 3) (x : Iron) :
    (s.writeIron ch x).calls = s.calls := by simp [State.writeIron]
@[simp] theorem State.writeIron_callList (s : State) (ch : Fin 3) (x : Iron) :
    (s.writeIron ch x).callList = s.callList := by simp [State.writeIron]
@[simp] theorem State.writeIron_czones (s : State) (ch : Fin 3) (x : Iron) :
    (s.writeIron ch x).czones = s.czones := by simp [State.writeIron]
@[simp] theorem State.writeIron_circuits (s : State) (ch : Fin 3) (x : Iron) :
    (s.writeIron ch x).circuits = s.circuits := by simp [State.writeIron]
@[simp] theorem State.writeIron_supply (s : State) (ch : Fin 3) (x : Iron) :
    (s.writeIron ch x).supply = s.supply := by simp [State.writeIron]
@[simp] theorem State.writeIron_retained (s : State) (ch : Fin 3) (x : Iron) :
    (s.writeIron ch x).retained = s.retained := by simp [State.writeIron]
@[simp] theorem State.writeIron_lines (s : State) (ch : Fin 3) (x : Iron) :
    (s.writeIron ch x).lines = s.lines := by simp [State.writeIron]
@[simp] theorem State.writeIron_link (s : State) (ch : Fin 3) (x : Iron) :
    (s.writeIron ch x).link = s.link := by simp [State.writeIron]
@[simp] theorem State.writeIron_pending (s : State) (ch : Fin 3) (x : Iron) :
    (s.writeIron ch x).pending = s.pending := by simp [State.writeIron]

@[simp] theorem State.writeZone_powered (s : State) (z : Fin 24) (x : Zone) :
    (s.writeZone z x).powered = s.powered := by simp [State.writeZone]
@[simp] theorem State.writeZone_now (s : State) (z : Fin 24) (x : Zone) :
    (s.writeZone z x).now = s.now := by simp [State.writeZone]
@[simp] theorem State.writeZone_draws (s : State) (z : Fin 24) (x : Zone) :
    (s.writeZone z x).draws = s.draws := by simp [State.writeZone]
@[simp] theorem State.writeZone_settings (s : State) (z : Fin 24) (x : Zone) :
    (s.writeZone z x).settings = s.settings := by simp [State.writeZone]
@[simp] theorem State.writeZone_image (s : State) (z : Fin 24) (x : Zone) :
    (s.writeZone z x).image = s.image := by simp [State.writeZone]
@[simp] theorem State.writeZone_imageGood (s : State) (z : Fin 24) (x : Zone) :
    (s.writeZone z x).imageGood = s.imageGood := by simp [State.writeZone]
@[simp] theorem State.writeZone_store (s : State) (z : Fin 24) (x : Zone) :
    (s.writeZone z x).store = s.store := by simp [State.writeZone]
@[simp] theorem State.writeZone_perfs (s : State) (z : Fin 24) (x : Zone) :
    (s.writeZone z x).perfs = s.perfs := by simp [State.writeZone]
@[simp] theorem State.writeZone_holds (s : State) (z : Fin 24) (x : Zone) :
    (s.writeZone z x).holds = s.holds := by simp [State.writeZone]
@[simp] theorem State.writeZone_holdLists (s : State) (z : Fin 24) (x : Zone) :
    (s.writeZone z x).holdLists = s.holdLists := by simp [State.writeZone]
@[simp] theorem State.writeZone_irons (s : State) (z : Fin 24) (x : Zone) :
    (s.writeZone z x).irons = s.irons := by simp [State.writeZone]
@[simp] theorem State.writeZone_zones (s : State) (z : Fin 24) (x : Zone) :
    (s.writeZone z x).zones = put s.zones z x := by simp [State.writeZone]
@[simp] theorem State.writeZone_incidents (s : State) (z : Fin 24) (x : Zone) :
    (s.writeZone z x).incidents = s.incidents := by simp [State.writeZone]
@[simp] theorem State.writeZone_incidentList (s : State) (z : Fin 24) (x : Zone) :
    (s.writeZone z x).incidentList = s.incidentList := by simp [State.writeZone]
@[simp] theorem State.writeZone_groups (s : State) (z : Fin 24) (x : Zone) :
    (s.writeZone z x).groups = s.groups := by simp [State.writeZone]
@[simp] theorem State.writeZone_flickers (s : State) (z : Fin 24) (x : Zone) :
    (s.writeZone z x).flickers = s.flickers := by simp [State.writeZone]
@[simp] theorem State.writeZone_fadeAt (s : State) (z : Fin 24) (x : Zone) :
    (s.writeZone z x).fadeAt = s.fadeAt := by simp [State.writeZone]
@[simp] theorem State.writeZone_lit (s : State) (z : Fin 24) (x : Zone) :
    (s.writeZone z x).lit = s.lit := by simp [State.writeZone]
@[simp] theorem State.writeZone_calls (s : State) (z : Fin 24) (x : Zone) :
    (s.writeZone z x).calls = s.calls := by simp [State.writeZone]
@[simp] theorem State.writeZone_callList (s : State) (z : Fin 24) (x : Zone) :
    (s.writeZone z x).callList = s.callList := by simp [State.writeZone]
@[simp] theorem State.writeZone_czones (s : State) (z : Fin 24) (x : Zone) :
    (s.writeZone z x).czones = s.czones := by simp [State.writeZone]
@[simp] theorem State.writeZone_circuits (s : State) (z : Fin 24) (x : Zone) :
    (s.writeZone z x).circuits = s.circuits := by simp [State.writeZone]
@[simp] theorem State.writeZone_supply (s : State) (z : Fin 24) (x : Zone) :
    (s.writeZone z x).supply = s.supply := by simp [State.writeZone]
@[simp] theorem State.writeZone_retained (s : State) (z : Fin 24) (x : Zone) :
    (s.writeZone z x).retained = s.retained := by simp [State.writeZone]
@[simp] theorem State.writeZone_lines (s : State) (z : Fin 24) (x : Zone) :
    (s.writeZone z x).lines = s.lines := by simp [State.writeZone]
@[simp] theorem State.writeZone_link (s : State) (z : Fin 24) (x : Zone) :
    (s.writeZone z x).link = s.link := by simp [State.writeZone]
@[simp] theorem State.writeZone_pending (s : State) (z : Fin 24) (x : Zone) :
    (s.writeZone z x).pending = s.pending := by simp [State.writeZone]

@[simp] theorem State.writeIncident_powered (s : State) (i : Fin 25) (x : Incident) :
    (s.writeIncident i x).powered = s.powered := by simp [State.writeIncident]
@[simp] theorem State.writeIncident_now (s : State) (i : Fin 25) (x : Incident) :
    (s.writeIncident i x).now = s.now := by simp [State.writeIncident]
@[simp] theorem State.writeIncident_draws (s : State) (i : Fin 25) (x : Incident) :
    (s.writeIncident i x).draws = s.draws := by simp [State.writeIncident]
@[simp] theorem State.writeIncident_settings (s : State) (i : Fin 25) (x : Incident) :
    (s.writeIncident i x).settings = s.settings := by simp [State.writeIncident]
@[simp] theorem State.writeIncident_image (s : State) (i : Fin 25) (x : Incident) :
    (s.writeIncident i x).image = s.image := by simp [State.writeIncident]
@[simp] theorem State.writeIncident_imageGood (s : State) (i : Fin 25) (x : Incident) :
    (s.writeIncident i x).imageGood = s.imageGood := by simp [State.writeIncident]
@[simp] theorem State.writeIncident_store (s : State) (i : Fin 25) (x : Incident) :
    (s.writeIncident i x).store = s.store := by simp [State.writeIncident]
@[simp] theorem State.writeIncident_perfs (s : State) (i : Fin 25) (x : Incident) :
    (s.writeIncident i x).perfs = s.perfs := by simp [State.writeIncident]
@[simp] theorem State.writeIncident_holds (s : State) (i : Fin 25) (x : Incident) :
    (s.writeIncident i x).holds = s.holds := by simp [State.writeIncident]
@[simp] theorem State.writeIncident_holdLists (s : State) (i : Fin 25) (x : Incident) :
    (s.writeIncident i x).holdLists = s.holdLists := by simp [State.writeIncident]
@[simp] theorem State.writeIncident_irons (s : State) (i : Fin 25) (x : Incident) :
    (s.writeIncident i x).irons = s.irons := by simp [State.writeIncident]
@[simp] theorem State.writeIncident_zones (s : State) (i : Fin 25) (x : Incident) :
    (s.writeIncident i x).zones = s.zones := by simp [State.writeIncident]
@[simp] theorem State.writeIncident_incidents (s : State) (i : Fin 25) (x : Incident) :
    (s.writeIncident i x).incidents = put s.incidents i { s.incidents[i] with incident := some x } := by simp [State.writeIncident]
@[simp] theorem State.writeIncident_incidentList (s : State) (i : Fin 25) (x : Incident) :
    (s.writeIncident i x).incidentList = s.incidentList := by simp [State.writeIncident]
@[simp] theorem State.writeIncident_groups (s : State) (i : Fin 25) (x : Incident) :
    (s.writeIncident i x).groups = s.groups := by simp [State.writeIncident]
@[simp] theorem State.writeIncident_flickers (s : State) (i : Fin 25) (x : Incident) :
    (s.writeIncident i x).flickers = s.flickers := by simp [State.writeIncident]
@[simp] theorem State.writeIncident_fadeAt (s : State) (i : Fin 25) (x : Incident) :
    (s.writeIncident i x).fadeAt = s.fadeAt := by simp [State.writeIncident]
@[simp] theorem State.writeIncident_lit (s : State) (i : Fin 25) (x : Incident) :
    (s.writeIncident i x).lit = s.lit := by simp [State.writeIncident]
@[simp] theorem State.writeIncident_calls (s : State) (i : Fin 25) (x : Incident) :
    (s.writeIncident i x).calls = s.calls := by simp [State.writeIncident]
@[simp] theorem State.writeIncident_callList (s : State) (i : Fin 25) (x : Incident) :
    (s.writeIncident i x).callList = s.callList := by simp [State.writeIncident]
@[simp] theorem State.writeIncident_czones (s : State) (i : Fin 25) (x : Incident) :
    (s.writeIncident i x).czones = s.czones := by simp [State.writeIncident]
@[simp] theorem State.writeIncident_circuits (s : State) (i : Fin 25) (x : Incident) :
    (s.writeIncident i x).circuits = s.circuits := by simp [State.writeIncident]
@[simp] theorem State.writeIncident_supply (s : State) (i : Fin 25) (x : Incident) :
    (s.writeIncident i x).supply = s.supply := by simp [State.writeIncident]
@[simp] theorem State.writeIncident_retained (s : State) (i : Fin 25) (x : Incident) :
    (s.writeIncident i x).retained = s.retained := by simp [State.writeIncident]
@[simp] theorem State.writeIncident_lines (s : State) (i : Fin 25) (x : Incident) :
    (s.writeIncident i x).lines = s.lines := by simp [State.writeIncident]
@[simp] theorem State.writeIncident_link (s : State) (i : Fin 25) (x : Incident) :
    (s.writeIncident i x).link = s.link := by simp [State.writeIncident]
@[simp] theorem State.writeIncident_pending (s : State) (i : Fin 25) (x : Incident) :
    (s.writeIncident i x).pending = s.pending := by simp [State.writeIncident]

@[simp] theorem State.writeGroup_powered (s : State) (g : Fin 12) (x : LightGroup) :
    (s.writeGroup g x).powered = s.powered := by simp [State.writeGroup]
@[simp] theorem State.writeGroup_now (s : State) (g : Fin 12) (x : LightGroup) :
    (s.writeGroup g x).now = s.now := by simp [State.writeGroup]
@[simp] theorem State.writeGroup_draws (s : State) (g : Fin 12) (x : LightGroup) :
    (s.writeGroup g x).draws = s.draws := by simp [State.writeGroup]
@[simp] theorem State.writeGroup_settings (s : State) (g : Fin 12) (x : LightGroup) :
    (s.writeGroup g x).settings = s.settings := by simp [State.writeGroup]
@[simp] theorem State.writeGroup_image (s : State) (g : Fin 12) (x : LightGroup) :
    (s.writeGroup g x).image = s.image := by simp [State.writeGroup]
@[simp] theorem State.writeGroup_imageGood (s : State) (g : Fin 12) (x : LightGroup) :
    (s.writeGroup g x).imageGood = s.imageGood := by simp [State.writeGroup]
@[simp] theorem State.writeGroup_store (s : State) (g : Fin 12) (x : LightGroup) :
    (s.writeGroup g x).store = s.store := by simp [State.writeGroup]
@[simp] theorem State.writeGroup_perfs (s : State) (g : Fin 12) (x : LightGroup) :
    (s.writeGroup g x).perfs = s.perfs := by simp [State.writeGroup]
@[simp] theorem State.writeGroup_holds (s : State) (g : Fin 12) (x : LightGroup) :
    (s.writeGroup g x).holds = s.holds := by simp [State.writeGroup]
@[simp] theorem State.writeGroup_holdLists (s : State) (g : Fin 12) (x : LightGroup) :
    (s.writeGroup g x).holdLists = s.holdLists := by simp [State.writeGroup]
@[simp] theorem State.writeGroup_irons (s : State) (g : Fin 12) (x : LightGroup) :
    (s.writeGroup g x).irons = s.irons := by simp [State.writeGroup]
@[simp] theorem State.writeGroup_zones (s : State) (g : Fin 12) (x : LightGroup) :
    (s.writeGroup g x).zones = s.zones := by simp [State.writeGroup]
@[simp] theorem State.writeGroup_incidents (s : State) (g : Fin 12) (x : LightGroup) :
    (s.writeGroup g x).incidents = s.incidents := by simp [State.writeGroup]
@[simp] theorem State.writeGroup_incidentList (s : State) (g : Fin 12) (x : LightGroup) :
    (s.writeGroup g x).incidentList = s.incidentList := by simp [State.writeGroup]
@[simp] theorem State.writeGroup_groups (s : State) (g : Fin 12) (x : LightGroup) :
    (s.writeGroup g x).groups = put s.groups g x := by simp [State.writeGroup]
@[simp] theorem State.writeGroup_flickers (s : State) (g : Fin 12) (x : LightGroup) :
    (s.writeGroup g x).flickers = s.flickers := by simp [State.writeGroup]
@[simp] theorem State.writeGroup_fadeAt (s : State) (g : Fin 12) (x : LightGroup) :
    (s.writeGroup g x).fadeAt = s.fadeAt := by simp [State.writeGroup]
@[simp] theorem State.writeGroup_lit (s : State) (g : Fin 12) (x : LightGroup) :
    (s.writeGroup g x).lit = s.lit := by simp [State.writeGroup]
@[simp] theorem State.writeGroup_calls (s : State) (g : Fin 12) (x : LightGroup) :
    (s.writeGroup g x).calls = s.calls := by simp [State.writeGroup]
@[simp] theorem State.writeGroup_callList (s : State) (g : Fin 12) (x : LightGroup) :
    (s.writeGroup g x).callList = s.callList := by simp [State.writeGroup]
@[simp] theorem State.writeGroup_czones (s : State) (g : Fin 12) (x : LightGroup) :
    (s.writeGroup g x).czones = s.czones := by simp [State.writeGroup]
@[simp] theorem State.writeGroup_circuits (s : State) (g : Fin 12) (x : LightGroup) :
    (s.writeGroup g x).circuits = s.circuits := by simp [State.writeGroup]
@[simp] theorem State.writeGroup_supply (s : State) (g : Fin 12) (x : LightGroup) :
    (s.writeGroup g x).supply = s.supply := by simp [State.writeGroup]
@[simp] theorem State.writeGroup_retained (s : State) (g : Fin 12) (x : LightGroup) :
    (s.writeGroup g x).retained = s.retained := by simp [State.writeGroup]
@[simp] theorem State.writeGroup_lines (s : State) (g : Fin 12) (x : LightGroup) :
    (s.writeGroup g x).lines = s.lines := by simp [State.writeGroup]
@[simp] theorem State.writeGroup_link (s : State) (g : Fin 12) (x : LightGroup) :
    (s.writeGroup g x).link = s.link := by simp [State.writeGroup]
@[simp] theorem State.writeGroup_pending (s : State) (g : Fin 12) (x : LightGroup) :
    (s.writeGroup g x).pending = s.pending := by simp [State.writeGroup]

@[simp] theorem State.writeCZone_powered (s : State) (z : Fin 8) (x : CallZone) :
    (s.writeCZone z x).powered = s.powered := by simp [State.writeCZone]
@[simp] theorem State.writeCZone_now (s : State) (z : Fin 8) (x : CallZone) :
    (s.writeCZone z x).now = s.now := by simp [State.writeCZone]
@[simp] theorem State.writeCZone_draws (s : State) (z : Fin 8) (x : CallZone) :
    (s.writeCZone z x).draws = s.draws := by simp [State.writeCZone]
@[simp] theorem State.writeCZone_settings (s : State) (z : Fin 8) (x : CallZone) :
    (s.writeCZone z x).settings = s.settings := by simp [State.writeCZone]
@[simp] theorem State.writeCZone_image (s : State) (z : Fin 8) (x : CallZone) :
    (s.writeCZone z x).image = s.image := by simp [State.writeCZone]
@[simp] theorem State.writeCZone_imageGood (s : State) (z : Fin 8) (x : CallZone) :
    (s.writeCZone z x).imageGood = s.imageGood := by simp [State.writeCZone]
@[simp] theorem State.writeCZone_store (s : State) (z : Fin 8) (x : CallZone) :
    (s.writeCZone z x).store = s.store := by simp [State.writeCZone]
@[simp] theorem State.writeCZone_perfs (s : State) (z : Fin 8) (x : CallZone) :
    (s.writeCZone z x).perfs = s.perfs := by simp [State.writeCZone]
@[simp] theorem State.writeCZone_holds (s : State) (z : Fin 8) (x : CallZone) :
    (s.writeCZone z x).holds = s.holds := by simp [State.writeCZone]
@[simp] theorem State.writeCZone_holdLists (s : State) (z : Fin 8) (x : CallZone) :
    (s.writeCZone z x).holdLists = s.holdLists := by simp [State.writeCZone]
@[simp] theorem State.writeCZone_irons (s : State) (z : Fin 8) (x : CallZone) :
    (s.writeCZone z x).irons = s.irons := by simp [State.writeCZone]
@[simp] theorem State.writeCZone_zones (s : State) (z : Fin 8) (x : CallZone) :
    (s.writeCZone z x).zones = s.zones := by simp [State.writeCZone]
@[simp] theorem State.writeCZone_incidents (s : State) (z : Fin 8) (x : CallZone) :
    (s.writeCZone z x).incidents = s.incidents := by simp [State.writeCZone]
@[simp] theorem State.writeCZone_incidentList (s : State) (z : Fin 8) (x : CallZone) :
    (s.writeCZone z x).incidentList = s.incidentList := by simp [State.writeCZone]
@[simp] theorem State.writeCZone_groups (s : State) (z : Fin 8) (x : CallZone) :
    (s.writeCZone z x).groups = s.groups := by simp [State.writeCZone]
@[simp] theorem State.writeCZone_flickers (s : State) (z : Fin 8) (x : CallZone) :
    (s.writeCZone z x).flickers = s.flickers := by simp [State.writeCZone]
@[simp] theorem State.writeCZone_fadeAt (s : State) (z : Fin 8) (x : CallZone) :
    (s.writeCZone z x).fadeAt = s.fadeAt := by simp [State.writeCZone]
@[simp] theorem State.writeCZone_lit (s : State) (z : Fin 8) (x : CallZone) :
    (s.writeCZone z x).lit = s.lit := by simp [State.writeCZone]
@[simp] theorem State.writeCZone_calls (s : State) (z : Fin 8) (x : CallZone) :
    (s.writeCZone z x).calls = s.calls := by simp [State.writeCZone]
@[simp] theorem State.writeCZone_callList (s : State) (z : Fin 8) (x : CallZone) :
    (s.writeCZone z x).callList = s.callList := by simp [State.writeCZone]
@[simp] theorem State.writeCZone_czones (s : State) (z : Fin 8) (x : CallZone) :
    (s.writeCZone z x).czones = put s.czones z x := by simp [State.writeCZone]
@[simp] theorem State.writeCZone_circuits (s : State) (z : Fin 8) (x : CallZone) :
    (s.writeCZone z x).circuits = s.circuits := by simp [State.writeCZone]
@[simp] theorem State.writeCZone_supply (s : State) (z : Fin 8) (x : CallZone) :
    (s.writeCZone z x).supply = s.supply := by simp [State.writeCZone]
@[simp] theorem State.writeCZone_retained (s : State) (z : Fin 8) (x : CallZone) :
    (s.writeCZone z x).retained = s.retained := by simp [State.writeCZone]
@[simp] theorem State.writeCZone_lines (s : State) (z : Fin 8) (x : CallZone) :
    (s.writeCZone z x).lines = s.lines := by simp [State.writeCZone]
@[simp] theorem State.writeCZone_link (s : State) (z : Fin 8) (x : CallZone) :
    (s.writeCZone z x).link = s.link := by simp [State.writeCZone]
@[simp] theorem State.writeCZone_pending (s : State) (z : Fin 8) (x : CallZone) :
    (s.writeCZone z x).pending = s.pending := by simp [State.writeCZone]

@[simp] theorem State.writeCall_powered (s : State) (c : Fin 32) (x : Call) :
    (s.writeCall c x).powered = s.powered := by simp [State.writeCall]
@[simp] theorem State.writeCall_now (s : State) (c : Fin 32) (x : Call) :
    (s.writeCall c x).now = s.now := by simp [State.writeCall]
@[simp] theorem State.writeCall_draws (s : State) (c : Fin 32) (x : Call) :
    (s.writeCall c x).draws = s.draws := by simp [State.writeCall]
@[simp] theorem State.writeCall_settings (s : State) (c : Fin 32) (x : Call) :
    (s.writeCall c x).settings = s.settings := by simp [State.writeCall]
@[simp] theorem State.writeCall_image (s : State) (c : Fin 32) (x : Call) :
    (s.writeCall c x).image = s.image := by simp [State.writeCall]
@[simp] theorem State.writeCall_imageGood (s : State) (c : Fin 32) (x : Call) :
    (s.writeCall c x).imageGood = s.imageGood := by simp [State.writeCall]
@[simp] theorem State.writeCall_store (s : State) (c : Fin 32) (x : Call) :
    (s.writeCall c x).store = s.store := by simp [State.writeCall]
@[simp] theorem State.writeCall_perfs (s : State) (c : Fin 32) (x : Call) :
    (s.writeCall c x).perfs = s.perfs := by simp [State.writeCall]
@[simp] theorem State.writeCall_holds (s : State) (c : Fin 32) (x : Call) :
    (s.writeCall c x).holds = s.holds := by simp [State.writeCall]
@[simp] theorem State.writeCall_holdLists (s : State) (c : Fin 32) (x : Call) :
    (s.writeCall c x).holdLists = s.holdLists := by simp [State.writeCall]
@[simp] theorem State.writeCall_irons (s : State) (c : Fin 32) (x : Call) :
    (s.writeCall c x).irons = s.irons := by simp [State.writeCall]
@[simp] theorem State.writeCall_zones (s : State) (c : Fin 32) (x : Call) :
    (s.writeCall c x).zones = s.zones := by simp [State.writeCall]
@[simp] theorem State.writeCall_incidents (s : State) (c : Fin 32) (x : Call) :
    (s.writeCall c x).incidents = s.incidents := by simp [State.writeCall]
@[simp] theorem State.writeCall_incidentList (s : State) (c : Fin 32) (x : Call) :
    (s.writeCall c x).incidentList = s.incidentList := by simp [State.writeCall]
@[simp] theorem State.writeCall_groups (s : State) (c : Fin 32) (x : Call) :
    (s.writeCall c x).groups = s.groups := by simp [State.writeCall]
@[simp] theorem State.writeCall_flickers (s : State) (c : Fin 32) (x : Call) :
    (s.writeCall c x).flickers = s.flickers := by simp [State.writeCall]
@[simp] theorem State.writeCall_fadeAt (s : State) (c : Fin 32) (x : Call) :
    (s.writeCall c x).fadeAt = s.fadeAt := by simp [State.writeCall]
@[simp] theorem State.writeCall_lit (s : State) (c : Fin 32) (x : Call) :
    (s.writeCall c x).lit = s.lit := by simp [State.writeCall]
@[simp] theorem State.writeCall_calls (s : State) (c : Fin 32) (x : Call) :
    (s.writeCall c x).calls = put s.calls c { s.calls[c] with call := some x } := by simp [State.writeCall]
@[simp] theorem State.writeCall_callList (s : State) (c : Fin 32) (x : Call) :
    (s.writeCall c x).callList = s.callList := by simp [State.writeCall]
@[simp] theorem State.writeCall_czones (s : State) (c : Fin 32) (x : Call) :
    (s.writeCall c x).czones = s.czones := by simp [State.writeCall]
@[simp] theorem State.writeCall_circuits (s : State) (c : Fin 32) (x : Call) :
    (s.writeCall c x).circuits = s.circuits := by simp [State.writeCall]
@[simp] theorem State.writeCall_supply (s : State) (c : Fin 32) (x : Call) :
    (s.writeCall c x).supply = s.supply := by simp [State.writeCall]
@[simp] theorem State.writeCall_retained (s : State) (c : Fin 32) (x : Call) :
    (s.writeCall c x).retained = s.retained := by simp [State.writeCall]
@[simp] theorem State.writeCall_lines (s : State) (c : Fin 32) (x : Call) :
    (s.writeCall c x).lines = s.lines := by simp [State.writeCall]
@[simp] theorem State.writeCall_link (s : State) (c : Fin 32) (x : Call) :
    (s.writeCall c x).link = s.link := by simp [State.writeCall]
@[simp] theorem State.writeCall_pending (s : State) (c : Fin 32) (x : Call) :
    (s.writeCall c x).pending = s.pending := by simp [State.writeCall]

@[simp] theorem State.writeCircuit_powered (s : State) (c : Fin 16) (x : Circuit) :
    (s.writeCircuit c x).powered = s.powered := by simp [State.writeCircuit]
@[simp] theorem State.writeCircuit_now (s : State) (c : Fin 16) (x : Circuit) :
    (s.writeCircuit c x).now = s.now := by simp [State.writeCircuit]
@[simp] theorem State.writeCircuit_draws (s : State) (c : Fin 16) (x : Circuit) :
    (s.writeCircuit c x).draws = s.draws := by simp [State.writeCircuit]
@[simp] theorem State.writeCircuit_settings (s : State) (c : Fin 16) (x : Circuit) :
    (s.writeCircuit c x).settings = s.settings := by simp [State.writeCircuit]
@[simp] theorem State.writeCircuit_image (s : State) (c : Fin 16) (x : Circuit) :
    (s.writeCircuit c x).image = s.image := by simp [State.writeCircuit]
@[simp] theorem State.writeCircuit_imageGood (s : State) (c : Fin 16) (x : Circuit) :
    (s.writeCircuit c x).imageGood = s.imageGood := by simp [State.writeCircuit]
@[simp] theorem State.writeCircuit_store (s : State) (c : Fin 16) (x : Circuit) :
    (s.writeCircuit c x).store = s.store := by simp [State.writeCircuit]
@[simp] theorem State.writeCircuit_perfs (s : State) (c : Fin 16) (x : Circuit) :
    (s.writeCircuit c x).perfs = s.perfs := by simp [State.writeCircuit]
@[simp] theorem State.writeCircuit_holds (s : State) (c : Fin 16) (x : Circuit) :
    (s.writeCircuit c x).holds = s.holds := by simp [State.writeCircuit]
@[simp] theorem State.writeCircuit_holdLists (s : State) (c : Fin 16) (x : Circuit) :
    (s.writeCircuit c x).holdLists = s.holdLists := by simp [State.writeCircuit]
@[simp] theorem State.writeCircuit_irons (s : State) (c : Fin 16) (x : Circuit) :
    (s.writeCircuit c x).irons = s.irons := by simp [State.writeCircuit]
@[simp] theorem State.writeCircuit_zones (s : State) (c : Fin 16) (x : Circuit) :
    (s.writeCircuit c x).zones = s.zones := by simp [State.writeCircuit]
@[simp] theorem State.writeCircuit_incidents (s : State) (c : Fin 16) (x : Circuit) :
    (s.writeCircuit c x).incidents = s.incidents := by simp [State.writeCircuit]
@[simp] theorem State.writeCircuit_incidentList (s : State) (c : Fin 16) (x : Circuit) :
    (s.writeCircuit c x).incidentList = s.incidentList := by simp [State.writeCircuit]
@[simp] theorem State.writeCircuit_groups (s : State) (c : Fin 16) (x : Circuit) :
    (s.writeCircuit c x).groups = s.groups := by simp [State.writeCircuit]
@[simp] theorem State.writeCircuit_flickers (s : State) (c : Fin 16) (x : Circuit) :
    (s.writeCircuit c x).flickers = s.flickers := by simp [State.writeCircuit]
@[simp] theorem State.writeCircuit_fadeAt (s : State) (c : Fin 16) (x : Circuit) :
    (s.writeCircuit c x).fadeAt = s.fadeAt := by simp [State.writeCircuit]
@[simp] theorem State.writeCircuit_lit (s : State) (c : Fin 16) (x : Circuit) :
    (s.writeCircuit c x).lit = s.lit := by simp [State.writeCircuit]
@[simp] theorem State.writeCircuit_calls (s : State) (c : Fin 16) (x : Circuit) :
    (s.writeCircuit c x).calls = s.calls := by simp [State.writeCircuit]
@[simp] theorem State.writeCircuit_callList (s : State) (c : Fin 16) (x : Circuit) :
    (s.writeCircuit c x).callList = s.callList := by simp [State.writeCircuit]
@[simp] theorem State.writeCircuit_czones (s : State) (c : Fin 16) (x : Circuit) :
    (s.writeCircuit c x).czones = s.czones := by simp [State.writeCircuit]
@[simp] theorem State.writeCircuit_circuits (s : State) (c : Fin 16) (x : Circuit) :
    (s.writeCircuit c x).circuits = put s.circuits c x := by simp [State.writeCircuit]
@[simp] theorem State.writeCircuit_supply (s : State) (c : Fin 16) (x : Circuit) :
    (s.writeCircuit c x).supply = s.supply := by simp [State.writeCircuit]
@[simp] theorem State.writeCircuit_retained (s : State) (c : Fin 16) (x : Circuit) :
    (s.writeCircuit c x).retained = s.retained := by simp [State.writeCircuit]
@[simp] theorem State.writeCircuit_lines (s : State) (c : Fin 16) (x : Circuit) :
    (s.writeCircuit c x).lines = s.lines := by simp [State.writeCircuit]
@[simp] theorem State.writeCircuit_link (s : State) (c : Fin 16) (x : Circuit) :
    (s.writeCircuit c x).link = s.link := by simp [State.writeCircuit]
@[simp] theorem State.writeCircuit_pending (s : State) (c : Fin 16) (x : Circuit) :
    (s.writeCircuit c x).pending = s.pending := by simp [State.writeCircuit]

@[simp] theorem State.writeSupply_powered (s : State) (x : Supply) :
    (s.writeSupply x).powered = s.powered := by simp [State.writeSupply]
@[simp] theorem State.writeSupply_now (s : State) (x : Supply) :
    (s.writeSupply x).now = s.now := by simp [State.writeSupply]
@[simp] theorem State.writeSupply_draws (s : State) (x : Supply) :
    (s.writeSupply x).draws = s.draws := by simp [State.writeSupply]
@[simp] theorem State.writeSupply_settings (s : State) (x : Supply) :
    (s.writeSupply x).settings = s.settings := by simp [State.writeSupply]
@[simp] theorem State.writeSupply_image (s : State) (x : Supply) :
    (s.writeSupply x).image = s.image := by simp [State.writeSupply]
@[simp] theorem State.writeSupply_imageGood (s : State) (x : Supply) :
    (s.writeSupply x).imageGood = s.imageGood := by simp [State.writeSupply]
@[simp] theorem State.writeSupply_store (s : State) (x : Supply) :
    (s.writeSupply x).store = s.store := by simp [State.writeSupply]
@[simp] theorem State.writeSupply_perfs (s : State) (x : Supply) :
    (s.writeSupply x).perfs = s.perfs := by simp [State.writeSupply]
@[simp] theorem State.writeSupply_holds (s : State) (x : Supply) :
    (s.writeSupply x).holds = s.holds := by simp [State.writeSupply]
@[simp] theorem State.writeSupply_holdLists (s : State) (x : Supply) :
    (s.writeSupply x).holdLists = s.holdLists := by simp [State.writeSupply]
@[simp] theorem State.writeSupply_irons (s : State) (x : Supply) :
    (s.writeSupply x).irons = s.irons := by simp [State.writeSupply]
@[simp] theorem State.writeSupply_zones (s : State) (x : Supply) :
    (s.writeSupply x).zones = s.zones := by simp [State.writeSupply]
@[simp] theorem State.writeSupply_incidents (s : State) (x : Supply) :
    (s.writeSupply x).incidents = s.incidents := by simp [State.writeSupply]
@[simp] theorem State.writeSupply_incidentList (s : State) (x : Supply) :
    (s.writeSupply x).incidentList = s.incidentList := by simp [State.writeSupply]
@[simp] theorem State.writeSupply_groups (s : State) (x : Supply) :
    (s.writeSupply x).groups = s.groups := by simp [State.writeSupply]
@[simp] theorem State.writeSupply_flickers (s : State) (x : Supply) :
    (s.writeSupply x).flickers = s.flickers := by simp [State.writeSupply]
@[simp] theorem State.writeSupply_fadeAt (s : State) (x : Supply) :
    (s.writeSupply x).fadeAt = s.fadeAt := by simp [State.writeSupply]
@[simp] theorem State.writeSupply_lit (s : State) (x : Supply) :
    (s.writeSupply x).lit = s.lit := by simp [State.writeSupply]
@[simp] theorem State.writeSupply_calls (s : State) (x : Supply) :
    (s.writeSupply x).calls = s.calls := by simp [State.writeSupply]
@[simp] theorem State.writeSupply_callList (s : State) (x : Supply) :
    (s.writeSupply x).callList = s.callList := by simp [State.writeSupply]
@[simp] theorem State.writeSupply_czones (s : State) (x : Supply) :
    (s.writeSupply x).czones = s.czones := by simp [State.writeSupply]
@[simp] theorem State.writeSupply_circuits (s : State) (x : Supply) :
    (s.writeSupply x).circuits = s.circuits := by simp [State.writeSupply]
@[simp] theorem State.writeSupply_supply (s : State) (x : Supply) :
    (s.writeSupply x).supply = x := by simp [State.writeSupply]
@[simp] theorem State.writeSupply_retained (s : State) (x : Supply) :
    (s.writeSupply x).retained = s.retained := by simp [State.writeSupply]
@[simp] theorem State.writeSupply_lines (s : State) (x : Supply) :
    (s.writeSupply x).lines = s.lines := by simp [State.writeSupply]
@[simp] theorem State.writeSupply_link (s : State) (x : Supply) :
    (s.writeSupply x).link = s.link := by simp [State.writeSupply]
@[simp] theorem State.writeSupply_pending (s : State) (x : Supply) :
    (s.writeSupply x).pending = s.pending := by simp [State.writeSupply]

@[simp] theorem State.writeStore_powered (s : State) (x : Store) :
    (s.writeStore x).powered = s.powered := by simp [State.writeStore]
@[simp] theorem State.writeStore_now (s : State) (x : Store) :
    (s.writeStore x).now = s.now := by simp [State.writeStore]
@[simp] theorem State.writeStore_draws (s : State) (x : Store) :
    (s.writeStore x).draws = s.draws := by simp [State.writeStore]
@[simp] theorem State.writeStore_settings (s : State) (x : Store) :
    (s.writeStore x).settings = s.settings := by simp [State.writeStore]
@[simp] theorem State.writeStore_image (s : State) (x : Store) :
    (s.writeStore x).image = s.image := by simp [State.writeStore]
@[simp] theorem State.writeStore_imageGood (s : State) (x : Store) :
    (s.writeStore x).imageGood = s.imageGood := by simp [State.writeStore]
@[simp] theorem State.writeStore_store (s : State) (x : Store) :
    (s.writeStore x).store = x := by simp [State.writeStore]
@[simp] theorem State.writeStore_perfs (s : State) (x : Store) :
    (s.writeStore x).perfs = s.perfs := by simp [State.writeStore]
@[simp] theorem State.writeStore_holds (s : State) (x : Store) :
    (s.writeStore x).holds = s.holds := by simp [State.writeStore]
@[simp] theorem State.writeStore_holdLists (s : State) (x : Store) :
    (s.writeStore x).holdLists = s.holdLists := by simp [State.writeStore]
@[simp] theorem State.writeStore_irons (s : State) (x : Store) :
    (s.writeStore x).irons = s.irons := by simp [State.writeStore]
@[simp] theorem State.writeStore_zones (s : State) (x : Store) :
    (s.writeStore x).zones = s.zones := by simp [State.writeStore]
@[simp] theorem State.writeStore_incidents (s : State) (x : Store) :
    (s.writeStore x).incidents = s.incidents := by simp [State.writeStore]
@[simp] theorem State.writeStore_incidentList (s : State) (x : Store) :
    (s.writeStore x).incidentList = s.incidentList := by simp [State.writeStore]
@[simp] theorem State.writeStore_groups (s : State) (x : Store) :
    (s.writeStore x).groups = s.groups := by simp [State.writeStore]
@[simp] theorem State.writeStore_flickers (s : State) (x : Store) :
    (s.writeStore x).flickers = s.flickers := by simp [State.writeStore]
@[simp] theorem State.writeStore_fadeAt (s : State) (x : Store) :
    (s.writeStore x).fadeAt = s.fadeAt := by simp [State.writeStore]
@[simp] theorem State.writeStore_lit (s : State) (x : Store) :
    (s.writeStore x).lit = s.lit := by simp [State.writeStore]
@[simp] theorem State.writeStore_calls (s : State) (x : Store) :
    (s.writeStore x).calls = s.calls := by simp [State.writeStore]
@[simp] theorem State.writeStore_callList (s : State) (x : Store) :
    (s.writeStore x).callList = s.callList := by simp [State.writeStore]
@[simp] theorem State.writeStore_czones (s : State) (x : Store) :
    (s.writeStore x).czones = s.czones := by simp [State.writeStore]
@[simp] theorem State.writeStore_circuits (s : State) (x : Store) :
    (s.writeStore x).circuits = s.circuits := by simp [State.writeStore]
@[simp] theorem State.writeStore_supply (s : State) (x : Store) :
    (s.writeStore x).supply = s.supply := by simp [State.writeStore]
@[simp] theorem State.writeStore_retained (s : State) (x : Store) :
    (s.writeStore x).retained = s.retained := by simp [State.writeStore]
@[simp] theorem State.writeStore_lines (s : State) (x : Store) :
    (s.writeStore x).lines = s.lines := by simp [State.writeStore]
@[simp] theorem State.writeStore_link (s : State) (x : Store) :
    (s.writeStore x).link = s.link := by simp [State.writeStore]
@[simp] theorem State.writeStore_pending (s : State) (x : Store) :
    (s.writeStore x).pending = s.pending := by simp [State.writeStore]

@[simp] theorem State.fillHold_powered (s : State) (a : Fin 3) (k : Fin 8) (h : Hold) :
    (s.fillHold a k h).powered = s.powered := rfl
@[simp] theorem State.fillHold_now (s : State) (a : Fin 3) (k : Fin 8) (h : Hold) :
    (s.fillHold a k h).now = s.now := rfl
@[simp] theorem State.fillHold_draws (s : State) (a : Fin 3) (k : Fin 8) (h : Hold) :
    (s.fillHold a k h).draws = s.draws := rfl
@[simp] theorem State.fillHold_settings (s : State) (a : Fin 3) (k : Fin 8) (h : Hold) :
    (s.fillHold a k h).settings = s.settings := rfl
@[simp] theorem State.fillHold_image (s : State) (a : Fin 3) (k : Fin 8) (h : Hold) :
    (s.fillHold a k h).image = s.image := rfl
@[simp] theorem State.fillHold_imageGood (s : State) (a : Fin 3) (k : Fin 8) (h : Hold) :
    (s.fillHold a k h).imageGood = s.imageGood := rfl
@[simp] theorem State.fillHold_store (s : State) (a : Fin 3) (k : Fin 8) (h : Hold) :
    (s.fillHold a k h).store = s.store := rfl
@[simp] theorem State.fillHold_perfs (s : State) (a : Fin 3) (k : Fin 8) (h : Hold) :
    (s.fillHold a k h).perfs = s.perfs := rfl
@[simp] theorem State.fillHold_irons (s : State) (a : Fin 3) (k : Fin 8) (h : Hold) :
    (s.fillHold a k h).irons = s.irons := rfl
@[simp] theorem State.fillHold_zones (s : State) (a : Fin 3) (k : Fin 8) (h : Hold) :
    (s.fillHold a k h).zones = s.zones := rfl
@[simp] theorem State.fillHold_incidents (s : State) (a : Fin 3) (k : Fin 8) (h : Hold) :
    (s.fillHold a k h).incidents = s.incidents := rfl
@[simp] theorem State.fillHold_incidentList (s : State) (a : Fin 3) (k : Fin 8) (h : Hold) :
    (s.fillHold a k h).incidentList = s.incidentList := rfl
@[simp] theorem State.fillHold_groups (s : State) (a : Fin 3) (k : Fin 8) (h : Hold) :
    (s.fillHold a k h).groups = s.groups := rfl
@[simp] theorem State.fillHold_flickers (s : State) (a : Fin 3) (k : Fin 8) (h : Hold) :
    (s.fillHold a k h).flickers = s.flickers := rfl
@[simp] theorem State.fillHold_fadeAt (s : State) (a : Fin 3) (k : Fin 8) (h : Hold) :
    (s.fillHold a k h).fadeAt = s.fadeAt := rfl
@[simp] theorem State.fillHold_lit (s : State) (a : Fin 3) (k : Fin 8) (h : Hold) :
    (s.fillHold a k h).lit = s.lit := rfl
@[simp] theorem State.fillHold_calls (s : State) (a : Fin 3) (k : Fin 8) (h : Hold) :
    (s.fillHold a k h).calls = s.calls := rfl
@[simp] theorem State.fillHold_callList (s : State) (a : Fin 3) (k : Fin 8) (h : Hold) :
    (s.fillHold a k h).callList = s.callList := rfl
@[simp] theorem State.fillHold_czones (s : State) (a : Fin 3) (k : Fin 8) (h : Hold) :
    (s.fillHold a k h).czones = s.czones := rfl
@[simp] theorem State.fillHold_circuits (s : State) (a : Fin 3) (k : Fin 8) (h : Hold) :
    (s.fillHold a k h).circuits = s.circuits := rfl
@[simp] theorem State.fillHold_supply (s : State) (a : Fin 3) (k : Fin 8) (h : Hold) :
    (s.fillHold a k h).supply = s.supply := rfl
@[simp] theorem State.fillHold_retained (s : State) (a : Fin 3) (k : Fin 8) (h : Hold) :
    (s.fillHold a k h).retained = s.retained := rfl
@[simp] theorem State.fillHold_lines (s : State) (a : Fin 3) (k : Fin 8) (h : Hold) :
    (s.fillHold a k h).lines = s.lines := rfl
@[simp] theorem State.fillHold_link (s : State) (a : Fin 3) (k : Fin 8) (h : Hold) :
    (s.fillHold a k h).link = s.link := rfl
@[simp] theorem State.fillHold_pending (s : State) (a : Fin 3) (k : Fin 8) (h : Hold) :
    (s.fillHold a k h).pending = s.pending := rfl

@[simp] theorem State.emptyHold_powered (s : State) (a : Fin 3) (k : Fin 8) :
    (s.emptyHold a k).powered = s.powered := rfl
@[simp] theorem State.emptyHold_now (s : State) (a : Fin 3) (k : Fin 8) :
    (s.emptyHold a k).now = s.now := rfl
@[simp] theorem State.emptyHold_draws (s : State) (a : Fin 3) (k : Fin 8) :
    (s.emptyHold a k).draws = s.draws := rfl
@[simp] theorem State.emptyHold_settings (s : State) (a : Fin 3) (k : Fin 8) :
    (s.emptyHold a k).settings = s.settings := rfl
@[simp] theorem State.emptyHold_image (s : State) (a : Fin 3) (k : Fin 8) :
    (s.emptyHold a k).image = s.image := rfl
@[simp] theorem State.emptyHold_imageGood (s : State) (a : Fin 3) (k : Fin 8) :
    (s.emptyHold a k).imageGood = s.imageGood := rfl
@[simp] theorem State.emptyHold_store (s : State) (a : Fin 3) (k : Fin 8) :
    (s.emptyHold a k).store = s.store := rfl
@[simp] theorem State.emptyHold_perfs (s : State) (a : Fin 3) (k : Fin 8) :
    (s.emptyHold a k).perfs = s.perfs := rfl
@[simp] theorem State.emptyHold_irons (s : State) (a : Fin 3) (k : Fin 8) :
    (s.emptyHold a k).irons = s.irons := rfl
@[simp] theorem State.emptyHold_zones (s : State) (a : Fin 3) (k : Fin 8) :
    (s.emptyHold a k).zones = s.zones := rfl
@[simp] theorem State.emptyHold_incidents (s : State) (a : Fin 3) (k : Fin 8) :
    (s.emptyHold a k).incidents = s.incidents := rfl
@[simp] theorem State.emptyHold_incidentList (s : State) (a : Fin 3) (k : Fin 8) :
    (s.emptyHold a k).incidentList = s.incidentList := rfl
@[simp] theorem State.emptyHold_groups (s : State) (a : Fin 3) (k : Fin 8) :
    (s.emptyHold a k).groups = s.groups := rfl
@[simp] theorem State.emptyHold_flickers (s : State) (a : Fin 3) (k : Fin 8) :
    (s.emptyHold a k).flickers = s.flickers := rfl
@[simp] theorem State.emptyHold_fadeAt (s : State) (a : Fin 3) (k : Fin 8) :
    (s.emptyHold a k).fadeAt = s.fadeAt := rfl
@[simp] theorem State.emptyHold_lit (s : State) (a : Fin 3) (k : Fin 8) :
    (s.emptyHold a k).lit = s.lit := rfl
@[simp] theorem State.emptyHold_calls (s : State) (a : Fin 3) (k : Fin 8) :
    (s.emptyHold a k).calls = s.calls := rfl
@[simp] theorem State.emptyHold_callList (s : State) (a : Fin 3) (k : Fin 8) :
    (s.emptyHold a k).callList = s.callList := rfl
@[simp] theorem State.emptyHold_czones (s : State) (a : Fin 3) (k : Fin 8) :
    (s.emptyHold a k).czones = s.czones := rfl
@[simp] theorem State.emptyHold_circuits (s : State) (a : Fin 3) (k : Fin 8) :
    (s.emptyHold a k).circuits = s.circuits := rfl
@[simp] theorem State.emptyHold_supply (s : State) (a : Fin 3) (k : Fin 8) :
    (s.emptyHold a k).supply = s.supply := rfl
@[simp] theorem State.emptyHold_retained (s : State) (a : Fin 3) (k : Fin 8) :
    (s.emptyHold a k).retained = s.retained := rfl
@[simp] theorem State.emptyHold_lines (s : State) (a : Fin 3) (k : Fin 8) :
    (s.emptyHold a k).lines = s.lines := rfl
@[simp] theorem State.emptyHold_link (s : State) (a : Fin 3) (k : Fin 8) :
    (s.emptyHold a k).link = s.link := rfl
@[simp] theorem State.emptyHold_pending (s : State) (a : Fin 3) (k : Fin 8) :
    (s.emptyHold a k).pending = s.pending := rfl

@[simp] theorem State.beginFade_powered (s : State) (g : Fin 12) (t d : Nat) :
    (s.beginFade g t d).powered = s.powered := rfl
@[simp] theorem State.beginFade_now (s : State) (g : Fin 12) (t d : Nat) :
    (s.beginFade g t d).now = s.now := rfl
@[simp] theorem State.beginFade_draws (s : State) (g : Fin 12) (t d : Nat) :
    (s.beginFade g t d).draws = s.draws := rfl
@[simp] theorem State.beginFade_settings (s : State) (g : Fin 12) (t d : Nat) :
    (s.beginFade g t d).settings = s.settings := rfl
@[simp] theorem State.beginFade_image (s : State) (g : Fin 12) (t d : Nat) :
    (s.beginFade g t d).image = s.image := rfl
@[simp] theorem State.beginFade_imageGood (s : State) (g : Fin 12) (t d : Nat) :
    (s.beginFade g t d).imageGood = s.imageGood := rfl
@[simp] theorem State.beginFade_store (s : State) (g : Fin 12) (t d : Nat) :
    (s.beginFade g t d).store = s.store := rfl
@[simp] theorem State.beginFade_perfs (s : State) (g : Fin 12) (t d : Nat) :
    (s.beginFade g t d).perfs = s.perfs := rfl
@[simp] theorem State.beginFade_holds (s : State) (g : Fin 12) (t d : Nat) :
    (s.beginFade g t d).holds = s.holds := rfl
@[simp] theorem State.beginFade_holdLists (s : State) (g : Fin 12) (t d : Nat) :
    (s.beginFade g t d).holdLists = s.holdLists := rfl
@[simp] theorem State.beginFade_irons (s : State) (g : Fin 12) (t d : Nat) :
    (s.beginFade g t d).irons = s.irons := rfl
@[simp] theorem State.beginFade_zones (s : State) (g : Fin 12) (t d : Nat) :
    (s.beginFade g t d).zones = s.zones := rfl
@[simp] theorem State.beginFade_incidents (s : State) (g : Fin 12) (t d : Nat) :
    (s.beginFade g t d).incidents = s.incidents := rfl
@[simp] theorem State.beginFade_incidentList (s : State) (g : Fin 12) (t d : Nat) :
    (s.beginFade g t d).incidentList = s.incidentList := rfl
@[simp] theorem State.beginFade_flickers (s : State) (g : Fin 12) (t d : Nat) :
    (s.beginFade g t d).flickers = s.flickers := rfl
@[simp] theorem State.beginFade_fadeAt (s : State) (g : Fin 12) (t d : Nat) :
    (s.beginFade g t d).fadeAt = s.fadeAt := rfl
@[simp] theorem State.beginFade_lit (s : State) (g : Fin 12) (t d : Nat) :
    (s.beginFade g t d).lit = s.lit := rfl
@[simp] theorem State.beginFade_calls (s : State) (g : Fin 12) (t d : Nat) :
    (s.beginFade g t d).calls = s.calls := rfl
@[simp] theorem State.beginFade_callList (s : State) (g : Fin 12) (t d : Nat) :
    (s.beginFade g t d).callList = s.callList := rfl
@[simp] theorem State.beginFade_czones (s : State) (g : Fin 12) (t d : Nat) :
    (s.beginFade g t d).czones = s.czones := rfl
@[simp] theorem State.beginFade_circuits (s : State) (g : Fin 12) (t d : Nat) :
    (s.beginFade g t d).circuits = s.circuits := rfl
@[simp] theorem State.beginFade_supply (s : State) (g : Fin 12) (t d : Nat) :
    (s.beginFade g t d).supply = s.supply := rfl
@[simp] theorem State.beginFade_retained (s : State) (g : Fin 12) (t d : Nat) :
    (s.beginFade g t d).retained = s.retained := rfl
@[simp] theorem State.beginFade_lines (s : State) (g : Fin 12) (t d : Nat) :
    (s.beginFade g t d).lines = s.lines := rfl
@[simp] theorem State.beginFade_link (s : State) (g : Fin 12) (t d : Nat) :
    (s.beginFade g t d).link = s.link := rfl
@[simp] theorem State.beginFade_pending (s : State) (g : Fin 12) (t d : Nat) :
    (s.beginFade g t d).pending = s.pending := rfl

@[simp] theorem State.fillIncident_powered (s : State) (i : Fin 25) (x : Incident) :
    (s.fillIncident i x).powered = s.powered := rfl
@[simp] theorem State.fillIncident_now (s : State) (i : Fin 25) (x : Incident) :
    (s.fillIncident i x).now = s.now := rfl
@[simp] theorem State.fillIncident_draws (s : State) (i : Fin 25) (x : Incident) :
    (s.fillIncident i x).draws = s.draws := rfl
@[simp] theorem State.fillIncident_settings (s : State) (i : Fin 25) (x : Incident) :
    (s.fillIncident i x).settings = s.settings := rfl
@[simp] theorem State.fillIncident_image (s : State) (i : Fin 25) (x : Incident) :
    (s.fillIncident i x).image = s.image := rfl
@[simp] theorem State.fillIncident_imageGood (s : State) (i : Fin 25) (x : Incident) :
    (s.fillIncident i x).imageGood = s.imageGood := rfl
@[simp] theorem State.fillIncident_store (s : State) (i : Fin 25) (x : Incident) :
    (s.fillIncident i x).store = s.store := rfl
@[simp] theorem State.fillIncident_perfs (s : State) (i : Fin 25) (x : Incident) :
    (s.fillIncident i x).perfs = s.perfs := rfl
@[simp] theorem State.fillIncident_holds (s : State) (i : Fin 25) (x : Incident) :
    (s.fillIncident i x).holds = s.holds := rfl
@[simp] theorem State.fillIncident_holdLists (s : State) (i : Fin 25) (x : Incident) :
    (s.fillIncident i x).holdLists = s.holdLists := rfl
@[simp] theorem State.fillIncident_irons (s : State) (i : Fin 25) (x : Incident) :
    (s.fillIncident i x).irons = s.irons := rfl
@[simp] theorem State.fillIncident_zones (s : State) (i : Fin 25) (x : Incident) :
    (s.fillIncident i x).zones = s.zones := rfl
@[simp] theorem State.fillIncident_groups (s : State) (i : Fin 25) (x : Incident) :
    (s.fillIncident i x).groups = s.groups := rfl
@[simp] theorem State.fillIncident_flickers (s : State) (i : Fin 25) (x : Incident) :
    (s.fillIncident i x).flickers = s.flickers := rfl
@[simp] theorem State.fillIncident_fadeAt (s : State) (i : Fin 25) (x : Incident) :
    (s.fillIncident i x).fadeAt = s.fadeAt := rfl
@[simp] theorem State.fillIncident_lit (s : State) (i : Fin 25) (x : Incident) :
    (s.fillIncident i x).lit = s.lit := rfl
@[simp] theorem State.fillIncident_calls (s : State) (i : Fin 25) (x : Incident) :
    (s.fillIncident i x).calls = s.calls := rfl
@[simp] theorem State.fillIncident_callList (s : State) (i : Fin 25) (x : Incident) :
    (s.fillIncident i x).callList = s.callList := rfl
@[simp] theorem State.fillIncident_czones (s : State) (i : Fin 25) (x : Incident) :
    (s.fillIncident i x).czones = s.czones := rfl
@[simp] theorem State.fillIncident_circuits (s : State) (i : Fin 25) (x : Incident) :
    (s.fillIncident i x).circuits = s.circuits := rfl
@[simp] theorem State.fillIncident_supply (s : State) (i : Fin 25) (x : Incident) :
    (s.fillIncident i x).supply = s.supply := rfl
@[simp] theorem State.fillIncident_retained (s : State) (i : Fin 25) (x : Incident) :
    (s.fillIncident i x).retained = s.retained := rfl
@[simp] theorem State.fillIncident_lines (s : State) (i : Fin 25) (x : Incident) :
    (s.fillIncident i x).lines = s.lines := rfl
@[simp] theorem State.fillIncident_link (s : State) (i : Fin 25) (x : Incident) :
    (s.fillIncident i x).link = s.link := rfl
@[simp] theorem State.fillIncident_pending (s : State) (i : Fin 25) (x : Incident) :
    (s.fillIncident i x).pending = s.pending := rfl

@[simp] theorem State.emptyIncident_powered (s : State) (i : Fin 25) :
    (s.emptyIncident i).powered = s.powered := rfl
@[simp] theorem State.emptyIncident_now (s : State) (i : Fin 25) : (s.emptyIncident i).now = s.now := rfl
@[simp] theorem State.emptyIncident_draws (s : State) (i : Fin 25) :
    (s.emptyIncident i).draws = s.draws := rfl
@[simp] theorem State.emptyIncident_settings (s : State) (i : Fin 25) :
    (s.emptyIncident i).settings = s.settings := rfl
@[simp] theorem State.emptyIncident_image (s : State) (i : Fin 25) :
    (s.emptyIncident i).image = s.image := rfl
@[simp] theorem State.emptyIncident_imageGood (s : State) (i : Fin 25) :
    (s.emptyIncident i).imageGood = s.imageGood := rfl
@[simp] theorem State.emptyIncident_store (s : State) (i : Fin 25) :
    (s.emptyIncident i).store = s.store := rfl
@[simp] theorem State.emptyIncident_perfs (s : State) (i : Fin 25) :
    (s.emptyIncident i).perfs = s.perfs := rfl
@[simp] theorem State.emptyIncident_holds (s : State) (i : Fin 25) :
    (s.emptyIncident i).holds = s.holds := rfl
@[simp] theorem State.emptyIncident_holdLists (s : State) (i : Fin 25) :
    (s.emptyIncident i).holdLists = s.holdLists := rfl
@[simp] theorem State.emptyIncident_irons (s : State) (i : Fin 25) :
    (s.emptyIncident i).irons = s.irons := rfl
@[simp] theorem State.emptyIncident_zones (s : State) (i : Fin 25) :
    (s.emptyIncident i).zones = s.zones := rfl
@[simp] theorem State.emptyIncident_groups (s : State) (i : Fin 25) :
    (s.emptyIncident i).groups = s.groups := rfl
@[simp] theorem State.emptyIncident_flickers (s : State) (i : Fin 25) :
    (s.emptyIncident i).flickers = s.flickers := rfl
@[simp] theorem State.emptyIncident_fadeAt (s : State) (i : Fin 25) :
    (s.emptyIncident i).fadeAt = s.fadeAt := rfl
@[simp] theorem State.emptyIncident_lit (s : State) (i : Fin 25) : (s.emptyIncident i).lit = s.lit := rfl
@[simp] theorem State.emptyIncident_calls (s : State) (i : Fin 25) :
    (s.emptyIncident i).calls = s.calls := rfl
@[simp] theorem State.emptyIncident_callList (s : State) (i : Fin 25) :
    (s.emptyIncident i).callList = s.callList := rfl
@[simp] theorem State.emptyIncident_czones (s : State) (i : Fin 25) :
    (s.emptyIncident i).czones = s.czones := rfl
@[simp] theorem State.emptyIncident_circuits (s : State) (i : Fin 25) :
    (s.emptyIncident i).circuits = s.circuits := rfl
@[simp] theorem State.emptyIncident_supply (s : State) (i : Fin 25) :
    (s.emptyIncident i).supply = s.supply := rfl
@[simp] theorem State.emptyIncident_retained (s : State) (i : Fin 25) :
    (s.emptyIncident i).retained = s.retained := rfl
@[simp] theorem State.emptyIncident_lines (s : State) (i : Fin 25) :
    (s.emptyIncident i).lines = s.lines := rfl
@[simp] theorem State.emptyIncident_link (s : State) (i : Fin 25) :
    (s.emptyIncident i).link = s.link := rfl
@[simp] theorem State.emptyIncident_pending (s : State) (i : Fin 25) :
    (s.emptyIncident i).pending = s.pending := rfl

@[simp] theorem State.emptyCall_powered (s : State) (c : Fin 32) :
    (s.emptyCall c).powered = s.powered := rfl
@[simp] theorem State.emptyCall_now (s : State) (c : Fin 32) : (s.emptyCall c).now = s.now := rfl
@[simp] theorem State.emptyCall_draws (s : State) (c : Fin 32) : (s.emptyCall c).draws = s.draws := rfl
@[simp] theorem State.emptyCall_settings (s : State) (c : Fin 32) :
    (s.emptyCall c).settings = s.settings := rfl
@[simp] theorem State.emptyCall_image (s : State) (c : Fin 32) : (s.emptyCall c).image = s.image := rfl
@[simp] theorem State.emptyCall_imageGood (s : State) (c : Fin 32) :
    (s.emptyCall c).imageGood = s.imageGood := rfl
@[simp] theorem State.emptyCall_store (s : State) (c : Fin 32) : (s.emptyCall c).store = s.store := rfl
@[simp] theorem State.emptyCall_perfs (s : State) (c : Fin 32) : (s.emptyCall c).perfs = s.perfs := rfl
@[simp] theorem State.emptyCall_holds (s : State) (c : Fin 32) : (s.emptyCall c).holds = s.holds := rfl
@[simp] theorem State.emptyCall_holdLists (s : State) (c : Fin 32) :
    (s.emptyCall c).holdLists = s.holdLists := rfl
@[simp] theorem State.emptyCall_irons (s : State) (c : Fin 32) : (s.emptyCall c).irons = s.irons := rfl
@[simp] theorem State.emptyCall_zones (s : State) (c : Fin 32) : (s.emptyCall c).zones = s.zones := rfl
@[simp] theorem State.emptyCall_incidents (s : State) (c : Fin 32) :
    (s.emptyCall c).incidents = s.incidents := rfl
@[simp] theorem State.emptyCall_incidentList (s : State) (c : Fin 32) :
    (s.emptyCall c).incidentList = s.incidentList := rfl
@[simp] theorem State.emptyCall_groups (s : State) (c : Fin 32) :
    (s.emptyCall c).groups = s.groups := rfl
@[simp] theorem State.emptyCall_flickers (s : State) (c : Fin 32) :
    (s.emptyCall c).flickers = s.flickers := rfl
@[simp] theorem State.emptyCall_fadeAt (s : State) (c : Fin 32) :
    (s.emptyCall c).fadeAt = s.fadeAt := rfl
@[simp] theorem State.emptyCall_lit (s : State) (c : Fin 32) : (s.emptyCall c).lit = s.lit := rfl
@[simp] theorem State.emptyCall_czones (s : State) (c : Fin 32) :
    (s.emptyCall c).czones = s.czones := rfl
@[simp] theorem State.emptyCall_circuits (s : State) (c : Fin 32) :
    (s.emptyCall c).circuits = s.circuits := rfl
@[simp] theorem State.emptyCall_supply (s : State) (c : Fin 32) :
    (s.emptyCall c).supply = s.supply := rfl
@[simp] theorem State.emptyCall_retained (s : State) (c : Fin 32) :
    (s.emptyCall c).retained = s.retained := rfl
@[simp] theorem State.emptyCall_lines (s : State) (c : Fin 32) : (s.emptyCall c).lines = s.lines := rfl
@[simp] theorem State.emptyCall_link (s : State) (c : Fin 32) : (s.emptyCall c).link = s.link := rfl
@[simp] theorem State.emptyCall_pending (s : State) (c : Fin 32) :
    (s.emptyCall c).pending = s.pending := rfl

@[simp] theorem State.reply_powered (s : State) (n : Nat) (b : Byte) (a : Answer) :
    (s.reply n b a).powered = s.powered := rfl
@[simp] theorem State.reply_now (s : State) (n : Nat) (b : Byte) (a : Answer) :
    (s.reply n b a).now = s.now := rfl
@[simp] theorem State.reply_draws (s : State) (n : Nat) (b : Byte) (a : Answer) :
    (s.reply n b a).draws = s.draws := rfl
@[simp] theorem State.reply_settings (s : State) (n : Nat) (b : Byte) (a : Answer) :
    (s.reply n b a).settings = s.settings := rfl
@[simp] theorem State.reply_image (s : State) (n : Nat) (b : Byte) (a : Answer) :
    (s.reply n b a).image = s.image := rfl
@[simp] theorem State.reply_imageGood (s : State) (n : Nat) (b : Byte) (a : Answer) :
    (s.reply n b a).imageGood = s.imageGood := rfl
@[simp] theorem State.reply_store (s : State) (n : Nat) (b : Byte) (a : Answer) :
    (s.reply n b a).store = s.store := rfl
@[simp] theorem State.reply_perfs (s : State) (n : Nat) (b : Byte) (a : Answer) :
    (s.reply n b a).perfs = s.perfs := rfl
@[simp] theorem State.reply_holds (s : State) (n : Nat) (b : Byte) (a : Answer) :
    (s.reply n b a).holds = s.holds := rfl
@[simp] theorem State.reply_holdLists (s : State) (n : Nat) (b : Byte) (a : Answer) :
    (s.reply n b a).holdLists = s.holdLists := rfl
@[simp] theorem State.reply_irons (s : State) (n : Nat) (b : Byte) (a : Answer) :
    (s.reply n b a).irons = s.irons := rfl
@[simp] theorem State.reply_zones (s : State) (n : Nat) (b : Byte) (a : Answer) :
    (s.reply n b a).zones = s.zones := rfl
@[simp] theorem State.reply_incidents (s : State) (n : Nat) (b : Byte) (a : Answer) :
    (s.reply n b a).incidents = s.incidents := rfl
@[simp] theorem State.reply_incidentList (s : State) (n : Nat) (b : Byte) (a : Answer) :
    (s.reply n b a).incidentList = s.incidentList := rfl
@[simp] theorem State.reply_groups (s : State) (n : Nat) (b : Byte) (a : Answer) :
    (s.reply n b a).groups = s.groups := rfl
@[simp] theorem State.reply_flickers (s : State) (n : Nat) (b : Byte) (a : Answer) :
    (s.reply n b a).flickers = s.flickers := rfl
@[simp] theorem State.reply_fadeAt (s : State) (n : Nat) (b : Byte) (a : Answer) :
    (s.reply n b a).fadeAt = s.fadeAt := rfl
@[simp] theorem State.reply_lit (s : State) (n : Nat) (b : Byte) (a : Answer) :
    (s.reply n b a).lit = s.lit := rfl
@[simp] theorem State.reply_calls (s : State) (n : Nat) (b : Byte) (a : Answer) :
    (s.reply n b a).calls = s.calls := rfl
@[simp] theorem State.reply_callList (s : State) (n : Nat) (b : Byte) (a : Answer) :
    (s.reply n b a).callList = s.callList := rfl
@[simp] theorem State.reply_czones (s : State) (n : Nat) (b : Byte) (a : Answer) :
    (s.reply n b a).czones = s.czones := rfl
@[simp] theorem State.reply_circuits (s : State) (n : Nat) (b : Byte) (a : Answer) :
    (s.reply n b a).circuits = s.circuits := rfl
@[simp] theorem State.reply_supply (s : State) (n : Nat) (b : Byte) (a : Answer) :
    (s.reply n b a).supply = s.supply := rfl
@[simp] theorem State.reply_retained (s : State) (n : Nat) (b : Byte) (a : Answer) :
    (s.reply n b a).retained = s.retained := rfl
@[simp] theorem State.reply_lines (s : State) (n : Nat) (b : Byte) (a : Answer) :
    (s.reply n b a).lines = s.lines := rfl
@[simp] theorem State.reply_stations (s : State) (n : Nat) (b : Byte) (a : Answer) :
    (s.reply n b a).stations = s.stations := rfl
@[simp] theorem State.reply_pending (s : State) (n : Nat) (b : Byte) (a : Answer) :
    (s.reply n b a).pending = s.pending := rfl

end Sys2Proof.Machine
end

