-- ==== Sys2Proof/Laws/Tables.lean ====
section
/-!
SUPPORT. The laws of the tables: an entry put and read back, an entry of a table made from a function,
and a relation kept by doing something for every entry.
-/

namespace Sys2Proof

theorem put_same {α : Type} {n : Nat} (v : Vector α n) (i : Fin n) (x : α) : (put v i x)[i] = x := by
  simp [put]

theorem put_other {α : Type} {n : Nat} (v : Vector α n) (i j : Fin n) (x : α) (h : j ≠ i) :
    (put v i x)[j] = v[j] := by
  have : i.1 ≠ j.1 := fun e => h (Fin.ext e.symm)
  simp [put, this]

theorem put_get {α : Type} {n : Nat} (v : Vector α n) (i j : Fin n) (x : α) :
    (put v i x)[j] = if j = i then x else v[j] := by
  by_cases h : j = i
  · subst h; rw [if_pos rfl]; exact put_same v j x
  · rw [if_neg h]; exact put_other v i j x h

@[simp] theorem tab_getElem {α : Type} {n : Nat} (f : Fin n → α) (i : Nat) (h : i < n) :
    (tab f)[i] = f ⟨i, h⟩ := by simp [tab]

theorem tab_get {α : Type} {n : Nat} (f : Fin n → α) (i : Fin n) : (tab f)[i] = f i := by
  simp

/-- What every entry's turn keeps, doing something for every entry keeps. -/
theorem forAll_keeps {σ : Type} {n : Nat} (P : σ → Prop) (f : Fin n → σ → σ)
    (h : ∀ i s, P s → P (f i s)) (s : σ) (hs : P s) : P (forAll n f s) := by
  unfold forAll
  generalize List.finRange n = l
  induction l generalizing s with
  | nil => exact hs
  | cons i l ih => exact ih (f i s) (h i s hs)

/-- As `forAll_keeps`, for the members of a list. -/
theorem foldl_keeps {σ α : Type} (P : σ → Prop) (f : σ → α → σ) (h : ∀ s a, P s → P (f s a)) (l : List α)
    (s : σ) (hs : P s) : P (l.foldl f s) := by
  induction l generalizing s with
  | nil => exact hs
  | cons a l ih => exact ih (f s a) (h s a hs)

theorem someIx_iff {n : Nat} (p : Fin n → Bool) : someIx n p = true ↔ ∃ i, p i = true := by
  simp [someIx, List.any_eq_true]

theorem firstIx_some {n : Nat} (p : Fin n → Bool) (i : Fin n) (h : firstIx n p = some i) : p i = true := by
  simpa using List.find?_some h

end Sys2Proof
end

