-- ==== Sys2Proof/Laws/Frames.lean ====
section
/-!
SUPPORT. Frames: for each shared operation one lemma that names every part of the state it can change.
-/

namespace Sys2Proof.Machine

section

set_option Elab.async false

/-! ## How frames compose -/

theorem ChangesOnly.refl (ps : List Part) (s : State) : ChangesOnly ps s s := by
  constructor; intro p _; cases p <;> simp [Part.same]

theorem Part.same_trans {p : Part} {s t u : State} (h : p.same s t) (k : p.same t u) : p.same s u := by
  cases p <;> simp_all [Part.same]

/-- Every part of the first list is in the second. -/
def within (ps qs : List Part) : Bool := ps.all fun p => qs.contains p

theorem within_refl (ps : List Part) : within ps ps = true := by simp [within]

theorem ChangesOnly.mono {ps qs : List Part} {s t : State} (h : ChangesOnly ps s t)
    (sub : within ps qs = true := by rfl) : ChangesOnly qs s t :=
  ⟨fun p hp => h.same p fun hq => hp (by simpa using List.all_eq_true.1 sub p hq)⟩

/-- Two steps after one another change what either may. -/
theorem ChangesOnly.andThen {ps qs rs : List Part} {s t u : State} (h : ChangesOnly ps s t)
    (k : ChangesOnly qs t u) (hp : within ps rs = true := by rfl) (hq : within qs rs = true := by rfl) :
    ChangesOnly rs s u :=
  ⟨fun p hr => Part.same_trans ((h.mono hp).same p hr) ((k.mono hq).same p hr)⟩

theorem ChangesOnly.forAll {ps : List Part} {n : Nat} {f : Fin n → State → State}
    (h : ∀ i s, ChangesOnly ps s (f i s)) (s : State) : ChangesOnly ps s (forAll n f s) :=
  forAll_keeps (fun t => ChangesOnly ps s t) f
    (fun i t ht => ht.andThen (h i t) (within_refl ps) (within_refl ps)) s (.refl ps s)

theorem ChangesOnly.foldl {ps : List Part} {α : Type} {f : State → α → State}
    (h : ∀ s a, ChangesOnly ps s (f s a)) (l : List α) (s : State) : ChangesOnly ps s (l.foldl f s) :=
  foldl_keeps (fun t => ChangesOnly ps s t) f
    (fun t a ht => ht.andThen (h t a) (within_refl ps) (within_refl ps)) l s (.refl ps s)

/-! ## The primitive updates -/

theorem State.mark_changes (s : State) (k : Kind) : ChangesOnly [.stations] s (s.mark k) := by
  constructor; intro p hp; cases p <;> simp_all [Part.same]

theorem State.markIf_changes (s : State) (b : Bool) (k : Kind) :
    ChangesOnly [.stations] s (s.markIf b k) := by
  constructor; intro p hp; cases p <;> simp_all [Part.same]

theorem State.reach_changes (s : State) (t : Nat) : ChangesOnly [.clock] s (s.reach t) := by
  constructor; intro p hp; cases p <;> simp_all [Part.same]

theorem State.drawn_changes (s : State) : ChangesOnly [.choices] s s.drawn := by
  constructor; intro p hp; cases p <;> simp_all [Part.same]

theorem State.arm_changes (s : State) (i : Fin 8) : ChangesOnly [.stations] s (s.arm i) := by
  constructor; intro p hp; cases p <;> simp_all [Part.same]

theorem State.lookClears_changes (s : State) (i : Fin 8) (k : Kind) :
    ChangesOnly [.stations] s (s.lookClears i k) := by
  constructor; intro p hp; cases p <;> simp_all [Part.same]

theorem State.flagAll_changes (s : State) : ChangesOnly [.stations] s s.flagAll := by
  constructor; intro p hp; cases p <;> simp_all [Part.same]

theorem State.writePerf_changes (s : State) (a : Fin 3) (x : Perf) :
    ChangesOnly [.perfs, .retained, .stations] s (s.writePerf a x) := by
  constructor; intro p hp; cases p <;> simp_all [Part.same]

theorem State.writeIron_changes (s : State) (ch : Fin 3) (x : Iron) :
    ChangesOnly [.irons, .stations] s (s.writeIron ch x) := by
  constructor; intro p hp; cases p <;> simp_all [Part.same]

theorem State.writeZone_changes (s : State) (z : Fin 24) (x : Zone) :
    ChangesOnly [.zones, .stations] s (s.writeZone z x) := by
  constructor; intro p hp; cases p <;> simp_all [Part.same]

theorem State.writeIncident_changes (s : State) (i : Fin 25) (x : Incident) :
    ChangesOnly [.incidents, .stations] s (s.writeIncident i x) := by
  constructor; intro p hp; cases p <;> simp_all [Part.same]

theorem State.writeGroup_changes (s : State) (g : Fin 12) (x : LightGroup) :
    ChangesOnly [.groups, .stations] s (s.writeGroup g x) := by
  constructor; intro p hp; cases p <;> simp_all [Part.same]

theorem State.writeCZone_changes (s : State) (z : Fin 8) (x : CallZone) :
    ChangesOnly [.czones, .stations] s (s.writeCZone z x) := by
  constructor; intro p hp; cases p <;> simp_all [Part.same]

theorem State.writeCall_changes (s : State) (c : Fin 32) (x : Call) :
    ChangesOnly [.calls, .stations] s (s.writeCall c x) := by
  constructor; intro p hp; cases p <;> simp_all [Part.same]

theorem State.writeCircuit_changes (s : State) (c : Fin 16) (x : Circuit) :
    ChangesOnly [.circuits, .stations] s (s.writeCircuit c x) := by
  constructor; intro p hp; cases p <;> simp_all [Part.same]

theorem State.writeSupply_changes (s : State) (x : Supply) :
    ChangesOnly [.supply, .stations] s (s.writeSupply x) := by
  constructor; intro p hp; cases p <;> simp_all [Part.same]

theorem State.writeStore_changes (s : State) (x : Store) :
    ChangesOnly [.store, .stations] s (s.writeStore x) := by
  constructor; intro p hp; cases p <;> simp_all [Part.same]

/-! ## Lights -/

theorem State.beginFade_changes (s : State) (g : Fin 12) (t d : Nat) :
    ChangesOnly [.groups, .stations] s (s.beginFade g t d) := by
  constructor; intro p hp; cases p <;> simp_all [Part.same]

theorem State.refreshGroup_changes (g : Fin 12) (s : State) :
    ChangesOnly [.groups, .stations] s (s.refreshGroup g) := by
  unfold State.refreshGroup; dsimp only; split
  · exact State.writeGroup_changes ..
  · exact .refl _ _

theorem State.refreshGroups_changes (s : State) : ChangesOnly [.groups, .stations] s s.refreshGroups :=
  .forAll State.refreshGroup_changes s

theorem State.respond_changes (s : State) (a : Fin 3) (t d : Nat) :
    ChangesOnly [.groups, .stations] s (s.respond a t d) := by
  refine .forAll (fun g s => ?_) s
  dsimp only; split
  · split
    · exact State.beginFade_changes ..
    · exact State.writeGroup_changes ..
  · exact .refl _ _

theorem State.flickerRequest_changes (s : State) (z : Fin 8) (code : Nat) :
    ChangesOnly [.groups, .flickers, .stations] s (s.flickerRequest z code) := by
  unfold State.flickerRequest
  refine ChangesOnly.andThen (ps := [.flickers]) (qs := [.groups, .stations]) ?_ (.forAll (fun g s => ?_) _)
  · constructor; intro p hp; cases p <;> simp_all [Part.same]
  · dsimp only; split
    · exact State.writeGroup_changes ..
    · exact .refl _ _

theorem State.stepGroup_changes (g : Fin 12) (s : State) :
    ChangesOnly [.groups, .stations] s (s.stepGroup g) := by
  unfold State.stepGroup; dsimp only; split
  · constructor; intro p hp; cases p <;> simp_all [Part.same]
  · exact .refl _ _

theorem State.fadeEngineStep_changes (s : State) :
    ChangesOnly [.clock, .grid, .flickers, .groups, .stations] s s.fadeEngineStep := by
  unfold State.fadeEngineStep
  refine ChangesOnly.andThen (ps := [.clock, .grid, .flickers]) ?_ (.forAll State.stepGroup_changes _)
  constructor; intro p hp; cases p <;> simp_all [Part.same, State.judgeDips]

/-! ## Holds -/

theorem State.fillHold_changes (s : State) (a : Fin 3) (k : Fin 8) (h : Hold) :
    ChangesOnly [.holds, .stations] s (s.fillHold a k h) := by
  constructor; intro p hp; cases p <;> simp_all [Part.same]

theorem State.emptyHold_changes (s : State) (a : Fin 3) (k : Fin 8) :
    ChangesOnly [.holds, .stations] s (s.emptyHold a k) := by
  constructor; intro p hp; cases p <;> simp_all [Part.same]

theorem State.evalHold_changes (c : HoldCause) (a : Fin 3) (s : State) :
    ChangesOnly [.holds, .stations] s (s.evalHold c a) := by
  unfold State.evalHold; split
  · exact .refl _ _
  · split
    · exact State.fillHold_changes ..
    · exact State.emptyHold_changes ..
    · exact .refl _ _
    · exact .refl _ _

theorem State.evalHolds_changes (c : HoldCause) (s : State) :
    ChangesOnly [.holds, .stations] s (s.evalHolds c) := .forAll (State.evalHold_changes c) s

theorem State.evalAllHolds_changes (a : Fin 3) (s : State) :
    ChangesOnly [.holds, .stations] s (s.evalAllHolds a) :=
  (((State.evalHold_changes ..).andThen (rs := [.holds, .stations]) (State.evalHold_changes ..)).andThen
    (rs := [.holds, .stations]) (State.evalHold_changes ..)).andThen (State.evalHold_changes ..)

theorem State.clearHolds_changes (a : Fin 3) (s : State) :
    ChangesOnly [.holds, .stations] s (s.clearHolds a) := by
  refine .forAll (fun k s => ?_) s
  split
  · exact State.emptyHold_changes ..
  · exact .refl _ _

theorem State.setProved_changes (a : Fin 3) (x : IronProved) (s : State) :
    ChangesOnly [.perfs, .retained, .holds, .stations] s (s.setProved a x) := by
  unfold State.setProved; dsimp only; split
  · exact .refl _ _
  · exact (State.writePerf_changes ..).andThen (State.evalHold_changes ..)

/-! ## Calls and bursts -/

theorem State.demand_changes (s : State) (c : Fin 16) (on : Bool) (pat : Pattern) :
    ChangesOnly [.circuits, .stations] s (s.demand c on pat) := State.writeCircuit_changes ..

theorem State.editDelivery_changes (s : State) (c : Fin 32) (z : Fin 8) (f : Delivery → Delivery) :
    ChangesOnly [.calls, .stations] s (s.editDelivery c z f) := by
  unfold State.editDelivery; split
  · exact .refl _ _
  · exact State.writeCall_changes ..

theorem State.finishCall_changes (s : State) (c : Fin 32) :
    ChangesOnly [.calls, .stations] s (s.finishCall c) := by
  unfold State.finishCall; split
  · exact .refl _ _
  · split
    · exact .refl _ _
    · exact State.writeCall_changes ..

theorem State.endDelivery_changes (s : State) (c : Fin 32) (z : Fin 8) (st : DeliveryState) :
    ChangesOnly [.calls, .stations] s (s.endDelivery c z st) :=
  (State.editDelivery_changes ..).andThen (State.finishCall_changes ..)

theorem State.joinQueue_changes (s : State) (z : Fin 8) (c : Fin 32) :
    ChangesOnly [.czones, .stations] s (s.joinQueue z c) := State.writeCZone_changes ..

theorem State.leaveQueue_changes (s : State) (z : Fin 8) (c : Fin 32) :
    ChangesOnly [.czones, .stations] s (s.leaveQueue z c) := State.writeCZone_changes ..

theorem State.beginStroke_changes (s : State) (z : Fin 8) :
    ChangesOnly [.czones, .circuits, .stations] s (s.beginStroke z) :=
  (State.writeCZone_changes ..).andThen (State.demand_changes ..)

theorem State.handFlicker_changes (s : State) (z : Fin 8) (code : Nat) :
    ChangesOnly [.czones, .groups, .flickers, .stations] s (s.handFlicker z code) :=
  (State.writeCZone_changes ..).andThen (State.flickerRequest_changes ..)

theorem State.startBurst_changes (s : State) (z : Fin 8) (c : Fin 32) (m : BurstMode) (code : Nat) :
    ChangesOnly burstParts s (s.startBurst z c m code) := by
  unfold State.startBurst; dsimp only
  have h (x : CallZone) := (State.editDelivery_changes s c z fun d =>
    { d with state := .sounding, resumes := false }).andThen (rs := burstParts)
    (State.writeCZone_changes _ z x)
  cases m
  · exact ((h _).andThen (rs := burstParts) (State.handFlicker_changes ..)).andThen
      (State.beginStroke_changes ..)
  · exact (h _).andThen (State.beginStroke_changes ..)
  · exact (h _).andThen (State.handFlicker_changes ..)

theorem State.lookFor_changes (z : Fin 8) (fuel : Nat) (s : State) :
    ChangesOnly burstParts s (s.lookFor z fuel) := by
  induction fuel generalizing s with
  | zero => exact .refl _ _
  | succ n ih =>
    unfold State.lookFor; dsimp only; split
    · exact .refl _ _
    · split
      · exact .refl _ _
      · split
        · exact State.startBurst_changes ..
        · exact ((State.leaveQueue_changes ..).andThen (rs := burstParts) (State.endDelivery_changes ..)).andThen
            (ih _)

theorem State.arbitrate_changes (s : State) (z : Fin 8) : ChangesOnly burstParts s (s.arbitrate z) :=
  State.lookFor_changes ..

theorem State.endSignals_changes (s : State) (z : Fin 8) : ChangesOnly burstParts s (s.endSignals z) := by
  unfold State.endSignals; dsimp only; split
  · exact (State.demand_changes ..).mono
  · exact (State.demand_changes ..).andThen (State.handFlicker_changes ..)

theorem State.stopBurst_changes (s : State) (z : Fin 8) : ChangesOnly burstParts s (s.stopBurst z) :=
  (State.endSignals_changes ..).andThen (State.writeCZone_changes ..)

theorem State.countBurst_changes (s : State) (z : Fin 8) : ChangesOnly burstParts s (s.countBurst z) := by
  unfold State.countBurst; dsimp only; split
  · exact .refl _ _
  · refine ChangesOnly.andThen (ps := burstParts) (qs := burstParts) ?_ (State.arbitrate_changes ..)
    split
    · exact ((State.stopBurst_changes ..).andThen (rs := burstParts) (State.editDelivery_changes ..)).andThen
        (State.joinQueue_changes ..)
    · exact ((State.stopBurst_changes ..).andThen (rs := burstParts) (State.editDelivery_changes ..)).andThen
        (State.finishCall_changes ..)

theorem State.chimeLost_changes (s : State) (z : Fin 8) : ChangesOnly burstParts s (s.chimeLost z) := by
  unfold State.chimeLost; dsimp only; split
  · exact (State.writeCZone_changes ..).andThen (State.demand_changes ..)
  · split
    · exact ((State.writeCZone_changes ..).andThen (rs := burstParts) (State.demand_changes ..)).andThen
        (State.handFlicker_changes ..)
    · exact ((State.writeCZone_changes ..).andThen (rs := burstParts) (State.demand_changes ..)).andThen
        (State.countBurst_changes ..)
  · exact .refl _ _
  · exact .refl _ _

theorem State.litLost_changes (s : State) (z : Fin 8) : ChangesOnly burstParts s (s.litLost z) := by
  unfold State.litLost; dsimp only; split
  · exact (State.writeCZone_changes ..).andThen (State.handFlicker_changes ..)
  · exact State.countBurst_changes ..
  · exact .refl _ _
  · exact .refl _ _

theorem State.announceLit_changes (s : State) : ChangesOnly lightParts s s.announceLit := by
  refine .forAll (fun z s => ?_) s
  dsimp only; split
  · refine ChangesOnly.andThen (ps := [.lit]) ?_ (State.litLost_changes ..)
    constructor; intro p hp; cases p <;> simp_all [Part.same]
  · constructor; intro p hp; cases p <;> simp_all [Part.same, lightParts]

theorem State.refreshLights_changes (s : State) : ChangesOnly lightParts s s.refreshLights :=
  (State.refreshGroups_changes s).andThen (State.announceLit_changes _)

theorem State.dropZone_changes (s : State) (z : Fin 8) (st : DeliveryState) :
    ChangesOnly burstParts s (s.dropZone z st) := by
  unfold State.dropZone; dsimp only
  refine ChangesOnly.andThen (ps := burstParts) (qs := burstParts) ?_ (.foldl (fun s c => ?_) _ _)
  · split
    · exact (State.stopBurst_changes ..).andThen (State.endDelivery_changes ..)
    · exact .refl _ _
  · exact (State.leaveQueue_changes ..).andThen (State.endDelivery_changes ..)

theorem State.withdraw_changes (s : State) (c : Fin 32) (z : Fin 8) :
    ChangesOnly burstParts s (s.withdraw c z) := by
  unfold State.withdraw; split
  · exact State.stopBurst_changes ..
  · exact (State.leaveQueue_changes ..).mono

theorem State.callNotice_changes (s : State) (a : Fin 3) (st : DeliveryState) :
    ChangesOnly burstParts s (s.callNotice a st) := by
  unfold State.callNotice; dsimp only
  refine ChangesOnly.andThen (ps := burstParts) (qs := burstParts) (.foldl (fun s c => ?_) _ _)
    (.foldl (fun s z => State.arbitrate_changes s z) _ _)
  refine .foldl (fun s d => ?_) _ _
  split
  · exact (State.withdraw_changes ..).andThen (State.endDelivery_changes ..)
  · exact .refl _ _

theorem State.emptyCall_changes (s : State) (c : Fin 32) :
    ChangesOnly [.calls, .stations] s (s.emptyCall c) := by
  constructor; intro p hp; cases p <;> simp_all [Part.same]

theorem State.retireCallAt_changes (s : State) (c : Fin 32) :
    ChangesOnly burstParts s (s.retireCallAt c) := by
  unfold State.retireCallAt; dsimp only
  refine ChangesOnly.andThen (ps := burstParts) (qs := burstParts) ?_
    (.foldl (fun s z => State.arbitrate_changes s z) _ _)
  refine ChangesOnly.andThen (ps := burstParts) (.foldl (fun s d => ?_) _ _) (State.emptyCall_changes ..)
  split
  · exact State.withdraw_changes ..
  · exact .refl _ _

theorem State.suppress_changes (s : State) (z : Fin 8) : ChangesOnly burstParts s (s.suppress z) := by
  unfold State.suppress; dsimp only; split
  · exact (State.writeCZone_changes ..).mono
  · exact (((State.writeCZone_changes ..).andThen (rs := burstParts) (State.stopBurst_changes ..)).andThen
      (rs := burstParts) (State.editDelivery_changes ..)).andThen (State.joinQueue_changes ..)

theorem State.bar_changes (s : State) (z : Fin 8) : ChangesOnly burstParts s (s.bar z) :=
  (State.writeCZone_changes ..).andThen (State.dropZone_changes ..)

theorem State.deriveSilence_changes (z : Fin 8) (s : State) :
    ChangesOnly burstParts s (s.deriveSilence z) := by
  unfold State.deriveSilence; split
  · exact .refl _ _
  · dsimp only
    generalize hs1 : (if (s.barredNow z && !s.czones[z].barred) = true then s.bar z
      else if (!s.barredNow z && s.czones[z].barred) = true then
        s.writeCZone z { s.czones[z] with barred := false } else s) = s1
    have h1 : ChangesOnly burstParts s s1 := by
      subst hs1; split
      · exact State.bar_changes ..
      · split
        · exact (State.writeCZone_changes ..).mono
        · exact .refl _ _
    generalize hs2 : (if (s.suppressedNow z && !s.czones[z].suppressed) = true then s1.suppress z
      else if (!s.suppressedNow z && s.czones[z].suppressed) = true then
        s1.writeCZone z { s1.czones[z] with suppressed := false } else s1) = s2
    have h2 : ChangesOnly burstParts s s2 := by
      subst hs2; split
      · exact h1.andThen (State.suppress_changes ..)
      · split
        · exact h1.andThen (State.writeCZone_changes ..)
        · exact h1
    split
    · exact h2.andThen (State.arbitrate_changes ..)
    · exact h2

theorem State.deriveSilences_changes (s : State) : ChangesOnly burstParts s s.deriveSilences :=
  .forAll State.deriveSilence_changes s

theorem State.fillCall_changes (s : State) (c : Fin 32) (x : Call) :
    ChangesOnly burstParts s (s.fillCall c x) := by
  unfold State.fillCall; dsimp only
  refine ChangesOnly.andThen (ps := burstParts) (qs := burstParts) ?_
    (.foldl (fun s z => State.arbitrate_changes s z) _ _)
  refine ChangesOnly.andThen (ps := [.calls, .stations]) (qs := [.czones, .stations]) ?_
    (.foldl (fun s z => State.joinQueue_changes s z c) _ _)
  constructor; intro p hp; cases p <;> simp_all [Part.same]

theorem State.amendCallAt_changes (s : State) (c : Fin 32) (pr iv : Option Nat) :
    ChangesOnly burstParts s (s.amendCallAt c pr iv) := by
  unfold State.amendCallAt; split
  · exact .refl _ _
  · dsimp only
    refine ChangesOnly.andThen (ps := burstParts) (qs := burstParts) ?_
      (.foldl (fun s (d : Delivery) => State.arbitrate_changes s d.zone) _ _)
    have written : ∀ (y : Call) (b : Bool), ChangesOnly [.calls, .stations] s ((s.writeCall c y).markIf b .call) :=
      fun y b => (State.writeCall_changes ..).andThen (State.markIf_changes ..)
    split
    · exact (written _ _).andThen (.foldl (fun s (d : Delivery) => State.joinQueue_changes s d.zone c) _ _)
    · exact (written _ _).mono

/-! ## Circuits -/

theorem State.announceCondition_changes (s : State) (c : Fin 16) (old : CircuitCondition) :
    ChangesOnly (.holds :: burstParts) s (s.announceCondition c old) := by
  unfold State.announceCondition; dsimp only; split
  · exact .refl _ _
  · split
    · exact (State.evalHolds_changes ..).mono
    · split
      · split
        · exact (State.chimeLost_changes ..).mono
        · exact .refl _ _
      · exact .refl _ _

theorem State.changeCircuit_changes (s : State) (c : Fin 16) (x : Circuit) :
    ChangesOnly (.holds :: burstParts) s (s.changeCircuit c x) :=
  (State.writeCircuit_changes ..).andThen (State.announceCondition_changes ..)

/-! ## Performances -/

theorem State.enterPhase_changes (s : State) (a : Fin 3) (x : Perf) (r : Option Response)
    (n : Option DeliveryState) :
    ChangesOnly (.perfs :: .retained :: lightParts) s (s.enterPhase a x r n) := by
  unfold State.enterPhase; dsimp only
  have h : ChangesOnly (.perfs :: .retained :: lightParts) s
      (((s.writePerf a x).respondWith a r).refreshLights) := by
    refine ChangesOnly.andThen (ps := [.perfs, .retained, .groups, .stations]) ?_
      (State.refreshLights_changes _)
    unfold State.respondWith; split
    · exact (State.writePerf_changes ..).mono
    · exact (State.writePerf_changes ..).andThen (State.respond_changes ..)
  split
  · exact h
  · exact h.andThen (State.callNotice_changes ..)

theorem State.halt_changes (s : State) (a : Fin 3) :
    ChangesOnly (.perfs :: .retained :: burstParts) s (s.halt a) :=
  ((State.writePerf_changes ..).andThen (rs := .perfs :: .retained :: burstParts)
    (State.respond_changes ..)).andThen (State.callNotice_changes ..)

theorem State.haltSet_changes (s : State) (set : AudSet) :
    ChangesOnly (.perfs :: .retained :: burstParts) s (s.haltSet set) := by
  refine .forAll (fun a s => ?_) s
  split
  · exact State.halt_changes ..
  · exact .refl _ _

theorem State.enter_changes (s : State) (a : Fin 3) (st : Fin 8) (x : Phase) :
    ChangesOnly (.perfs :: .retained :: .holds :: lightParts) s (s.enter a st x) := by
  cases x <;> unfold State.enter <;> dsimp only
  · unfold State.enterDark
    exact (State.clearHolds_changes ..).andThen (State.enterPhase_changes ..)
  · unfold State.enterPrepare
    exact (State.enterPhase_changes ..).andThen (State.evalAllHolds_changes ..)
  · unfold State.enterHouseOpen
    exact (State.enterPhase_changes ..).mono
  · unfold State.enterBeginners
    exact (State.enterPhase_changes ..).mono
  · unfold State.enterRunning
    exact (State.enterPhase_changes ..).mono
  · unfold State.enterInterval
    exact (State.enterPhase_changes ..).mono
  · unfold State.enterClosing
    exact (State.enterPhase_changes ..).mono
  · exact (State.halt_changes ..).mono

theorem State.takeJudgement_changes (s : State) (a : Fin 3) (k : DescentKind) (ok : Bool) :
    ChangesOnly [.perfs, .retained, .holds, .stations] s (s.takeJudgement a k ok) := by
  unfold State.takeJudgement; split
  · exact .refl _ _
  · split
    · exact State.setProved_changes ..
    · exact .refl _ _

/-! ## Irons -/

theorem State.recordFault_changes (s : State) (ch : Fin 3) (f : IronFault) :
    ChangesOnly [.irons, .holds, .stations] s (s.recordFault ch f) := by
  unfold State.recordFault; dsimp only; split
  · exact (State.writeIron_changes ..).mono
  · exact (State.writeIron_changes ..).andThen (State.evalHolds_changes ..)

theorem State.faultInMotion_changes (s : State) (ch : Fin 3) (f : IronFault) :
    ChangesOnly [.irons, .holds, .stations] s (s.faultInMotion ch f) := by
  unfold State.faultInMotion; dsimp only; split
  · exact (State.recordFault_changes ..).andThen (State.writeIron_changes ..)
  · exact State.recordFault_changes ..

theorem State.release_changes (s : State) (ch : Fin 3) (why : ReleaseReason) :
    ChangesOnly [.irons, .stations] s (s.release ch why) := State.writeIron_changes ..

theorem State.fireRelease_changes (s : State) (x : Incident) :
    ChangesOnly [.irons, .stations] s (s.fireRelease x) := by
  refine .forAll (fun ch s => ?_) s
  split
  · split
    · exact State.release_changes ..
    · split
      · exact State.release_changes ..
      · exact .refl _ _
    · split
      · exact State.release_changes ..
      · exact .refl _ _
    · exact .refl _ _
    · exact .refl _ _
  · exact .refl _ _

theorem State.stopRaises_changes (s : State) : ChangesOnly [.irons, .stations] s s.stopRaises := by
  refine .forAll (fun ch s => ?_) s
  split
  · exact State.writeIron_changes ..
  · exact .refl _ _

theorem State.reload_changes (s : State) (ch : Fin 3) (n : Nat) (stops : Bool) :
    ChangesOnly [.irons, .holds, .stations] s (s.reload ch n stops) := by
  unfold State.reload; dsimp only
  refine ChangesOnly.andThen (ps := [.irons, .holds, .stations]) ?_ (State.writeIron_changes ..)
  split
  · split
    · exact State.faultInMotion_changes ..
    · exact State.recordFault_changes ..
  · exact .refl _ _

theorem State.clearIronFault_changes (s : State) (ch : Fin 3) :
    ChangesOnly [.irons, .holds, .stations] s (s.clearIronFault ch) := by
  unfold State.clearIronFault; dsimp only; split
  · exact (State.writeIron_changes ..).andThen (State.evalHolds_changes ..)
  · exact .refl _ _

theorem State.arrive_changes (s : State) (ch : Fin 3) :
    ChangesOnly [.irons, .perfs, .retained, .holds, .stations] s (s.arrive ch) := by
  unfold State.arrive; dsimp only
  refine ChangesOnly.andThen (ps := [.irons, .holds, .stations]) ?_ (State.takeJudgement_changes ..)
  refine ChangesOnly.andThen (ps := [.irons, .holds, .stations]) ?_ (State.writeIron_changes ..)
  split
  · exact (State.writeIron_changes ..).andThen (State.recordFault_changes ..)
  · exact (State.writeIron_changes ..).mono

theorem State.superviseDescent_changes (s : State) (ch : Fin 3) :
    ChangesOnly [.irons, .holds, .stations] s (s.superviseDescent ch) := by
  unfold State.superviseDescent; dsimp only
  have step (t : State) (b : Bool) (x : Iron) (f : IronFault) :
      ChangesOnly [.irons, .holds, .stations] t
        (if b then (t.writeIron ch x).recordFault ch f else t) := by
    split
    · exact (State.writeIron_changes ..).andThen (State.recordFault_changes ..)
    · exact .refl _ _
  exact ((State.writeIron_changes ..).andThen (rs := [.irons, .holds, .stations]) (step ..)).andThen
    (rs := [.irons, .holds, .stations]) (step ..) |>.andThen (step ..)

/-! ## Alarms and zones -/

theorem State.demandSounders_changes (s : State) :
    ChangesOnly [.circuits, .stations] s s.demandSounders :=
  .forAll (fun _ s => State.demand_changes s _ _ _) s

theorem State.demandAlert_changes (s : State) : ChangesOnly [.circuits, .stations] s s.demandAlert := by
  unfold State.demandAlert; split <;> exact State.demand_changes ..

theorem State.demandBrigade_changes (s : State) :
    ChangesOnly [.circuits, .stations] s s.demandBrigade := State.demand_changes ..

theorem State.demandAll_changes (s : State) : ChangesOnly [.circuits, .stations] s s.demandAll :=
  ((State.demandAlert_changes ..).andThen (rs := [.circuits, .stations])
    (State.demandSounders_changes ..)).andThen (State.demandBrigade_changes ..)

theorem State.lightsAndCalls_changes (s : State) :
    ChangesOnly (.choices :: lightParts) s s.lightsAndCalls := by
  unfold State.lightsAndCalls; split
  · exact ((State.drawn_changes ..).andThen (rs := .choices :: lightParts)
      (State.deriveSilences_changes ..)).andThen (State.announceLit_changes ..)
  · exact ((State.drawn_changes ..).andThen (rs := .choices :: lightParts)
      (State.announceLit_changes ..)).andThen (State.deriveSilences_changes ..)

theorem State.maybe_changes {ps qs : List Part} {f : State → State} (s : State)
    (h : ∀ t, ChangesOnly ps t (f t)) (hq : within ps qs = true := by rfl)
    (hc : within [.choices] qs = true := by rfl) : ChangesOnly qs s (s.maybe f) := by
  unfold State.maybe; split
  · exact (State.drawn_changes s).andThen (h _) hc hq
  · exact (State.drawn_changes s).mono hc

theorem State.maybeLightsAndCalls_changes (s : State) :
    ChangesOnly (.choices :: lightParts) s s.maybeLightsAndCalls :=
  ((State.maybe_changes (qs := .choices :: lightParts) s State.announceLit_changes).andThen
    (rs := .choices :: lightParts) (State.maybe_changes (qs := .choices :: lightParts) _
      State.deriveSilences_changes)).andThen
    (State.maybe_changes (qs := .choices :: lightParts) _ State.announceLit_changes)

/-- What an announcement of the alarm unit can change. -/
def alarmParts : List Part := .choices :: .holds :: .perfs :: .retained :: .irons :: lightParts

theorem State.announceIncidents_changes (s : State) (ids : List (Fin 25)) :
    ChangesOnly alarmParts s (s.announceIncidents ids) := by
  unfold State.announceIncidents; dsimp only
  refine ChangesOnly.andThen (ps := alarmParts) ?_ (State.lightsAndCalls_changes _)
  refine ChangesOnly.andThen (ps := alarmParts) (qs := [.irons, .stations]) ?_ (.foldl (fun s i => ?_) _ _)
  · have h : ChangesOnly alarmParts s ((s.evalHolds .fire).maybe State.deriveSilences) :=
      (State.evalHolds_changes ..).andThen
        (State.maybe_changes (qs := .choices :: lightParts) _ State.deriveSilences_changes)
    split
    · exact (((h.andThen (rs := alarmParts) (State.drawn_changes ..)).andThen (rs := alarmParts)
        (State.refreshGroups_changes ..)).andThen (rs := alarmParts)
        (State.maybeLightsAndCalls_changes ..)).andThen (State.haltSet_changes ..)
    · exact (((h.andThen (rs := alarmParts) (State.drawn_changes ..)).andThen (rs := alarmParts)
        (State.haltSet_changes ..)).andThen (rs := alarmParts)
        (State.maybe_changes (qs := .choices :: lightParts) _
          State.deriveSilences_changes)).andThen (State.refreshGroups_changes ..)
  · split
    · exact State.fireRelease_changes ..
    · exact .refl _ _

theorem State.zoneRetired_changes (s : State) (z : Fin 24) :
    ChangesOnly [.zones, .stations] s (s.zoneRetired z) :=
  (State.writeZone_changes ..).andThen (State.mark_changes ..)

theorem State.fillIncident_changes (s : State) (i : Fin 25) (x : Incident) :
    ChangesOnly [.incidents, .stations] s (s.fillIncident i x) := by
  constructor; intro p hp; cases p <;> simp_all [Part.same]

theorem State.emptyIncident_changes (s : State) (i : Fin 25) :
    ChangesOnly [.incidents, .stations] s (s.emptyIncident i) := by
  constructor; intro p hp; cases p <;> simp_all [Part.same]

theorem State.editIncident_changes (s : State) (i : Fin 25) (f : Incident → Incident) :
    ChangesOnly [.incidents, .stations] s (s.editIncident i f) := by
  unfold State.editIncident; split
  · exact .refl _ _
  · exact State.writeIncident_changes ..

theorem State.escalateIncident_changes (s : State) (i : Fin 25) (why : EscalationCause) :
    ChangesOnly (.incidents :: alarmParts) s (s.escalateIncident i why) :=
  ((State.editIncident_changes ..).andThen (rs := .incidents :: alarmParts)
    (State.demandAll_changes ..)).andThen (State.announceIncidents_changes ..)

theorem State.raiseZoneIncident_changes (s : State) (z : Fin 24) (i : Fin 25) :
    ChangesOnly (.zones :: .incidents :: alarmParts) s (s.raiseZoneIncident z i) := by
  unfold State.raiseZoneIncident; dsimp only
  refine ChangesOnly.andThen (ps := .zones :: .incidents :: alarmParts) ?_ (State.announceIncidents_changes ..)
  refine ChangesOnly.andThen (ps := [.zones, .incidents, .stations]) ?_ (State.demandAll_changes ..)
  refine ChangesOnly.andThen (ps := [.zones, .incidents, .stations]) ?_
    (.foldl (fun s j => State.editIncident_changes s j _) _ _)
  exact (State.fillIncident_changes ..).andThen (State.writeZone_changes ..)

theorem State.reactivate_changes (s : State) (i : Fin 25) :
    ChangesOnly [.incidents, .circuits, .stations] s (s.reactivate i) :=
  ((State.editIncident_changes ..).andThen (rs := [.incidents, .circuits, .stations])
    (State.demandAll_changes ..)).andThen (State.mark_changes ..)

theorem State.raiseStationIncident_changes (s : State) (st : Fin 8) (set : AudSet) (i : Fin 25) :
    ChangesOnly (.incidents :: alarmParts) s (s.raiseStationIncident st set i) :=
  ((State.fillIncident_changes ..).andThen (rs := .incidents :: alarmParts)
    (State.demandAll_changes ..)).andThen (State.announceIncidents_changes ..)

theorem State.widenIncident_changes (s : State) (i : Fin 25) (set : AudSet) :
    ChangesOnly (.incidents :: alarmParts) s (s.widenIncident i set) := by
  unfold State.widenIncident; split
  · exact .refl _ _
  · dsimp only; split
    · exact (State.writeIncident_changes ..).andThen (State.demandAll_changes ..)
    · exact ((State.writeIncident_changes ..).andThen (rs := .incidents :: alarmParts)
        (State.demandAll_changes ..)).andThen (State.announceIncidents_changes ..)

theorem State.retireIncidentAt_changes (s : State) (i : Fin 25) :
    ChangesOnly (.zones :: .incidents :: .holds :: lightParts) s (s.retireIncidentAt i) := by
  unfold State.retireIncidentAt; split
  · exact .refl _ _
  · dsimp only
    have h := (State.emptyIncident_changes s i).andThen (rs := [.zones, .incidents, .circuits, .stations])
      (State.demandAll_changes _)
    have tail {t : State} (k : ChangesOnly [.zones, .incidents, .circuits, .stations] s t) :
        ChangesOnly (.zones :: .incidents :: .holds :: lightParts) s
          (((t.evalHolds .fire).refreshLights).deriveSilences) :=
      ((k.andThen (rs := .zones :: .incidents :: .holds :: lightParts) (State.evalHolds_changes ..)).andThen
        (rs := .zones :: .incidents :: .holds :: lightParts) (State.refreshLights_changes ..)).andThen
        (State.deriveSilences_changes ..)
    split
    · exact tail (h.andThen (State.zoneRetired_changes ..))
    · exact tail h

theorem State.acknowledgeIncident_changes (s : State) (i : Fin 25) (st : Fin 8) :
    ChangesOnly [.incidents, .circuits, .stations] s (s.acknowledgeIncident i st) :=
  (State.editIncident_changes ..).andThen (State.demandAlert_changes ..)

theorem State.silenceIncident_changes (s : State) (i : Fin 25) :
    ChangesOnly [.incidents, .circuits, .stations] s (s.silenceIncident i) :=
  (State.editIncident_changes ..).andThen (State.demandSounders_changes ..)

theorem State.deriveCondition_changes (s : State) (z : Fin 24) :
    ChangesOnly [.zones, .holds, .stations] s (s.deriveCondition z) := by
  unfold State.deriveCondition; dsimp only; split
  · exact .refl _ _
  · exact (State.writeZone_changes ..).andThen (State.evalHolds_changes ..)

theorem State.bandChanges_changes (s : State) (z : Fin 24) (b : Band) :
    ChangesOnly [.lines, .zones, .holds, .stations] s (s.bandChanges z b) := by
  unfold State.bandChanges; dsimp only
  have h : ChangesOnly [.lines] s { s with lines := { s.lines with bands := put s.lines.bands z b } } := by
    constructor; intro p hp; cases p <;> simp_all [Part.same]
  split
  · exact h.mono
  · exact (h.andThen (rs := [.lines, .zones, .holds, .stations]) (State.writeZone_changes ..)).andThen
      (State.deriveCondition_changes ..)

/-! ## Supply and link -/

/-- What an announcement of mains can change. -/
def mainsParts : List Part := .irons :: .holds :: lightParts

theorem State.announceMains_changes (s : State) : ChangesOnly mainsParts s s.announceMains := by
  unfold State.announceMains; dsimp only
  refine ChangesOnly.andThen (ps := mainsParts) ?_ (State.evalHolds_changes ..)
  split
  · exact (State.refreshLights_changes ..).andThen (State.stopRaises_changes ..)
  · exact (State.refreshLights_changes ..).mono

theorem State.setMains_changes (s : State) (x : Supply) :
    ChangesOnly (.supply :: mainsParts) s (s.setMains x) :=
  (State.writeSupply_changes ..).andThen (State.announceMains_changes ..)

theorem State.setDegraded_changes (s : State) (on : Bool) :
    ChangesOnly [.link, .holds, .stations] s (s.setDegraded on) := by
  unfold State.setDegraded; split
  · exact .refl _ _
  · refine ChangesOnly.andThen (ps := [.link, .stations]) ?_ (State.evalHolds_changes ..)
    constructor; intro p hp; cases p <;> simp_all [Part.same]

theorem State.frameGood_changes (s : State) : ChangesOnly [.link, .holds, .stations] s s.frameGood := by
  have h (n : Nat) : ChangesOnly [.link] s { s with link := { s.link with errors := n } } := by
    constructor; intro p hp; cases p <;> simp_all [Part.same]
  unfold State.frameGood; dsimp only; split
  · exact (h _).andThen (State.setDegraded_changes ..)
  · exact (h _).mono

theorem State.frameFails_changes (s : State) : ChangesOnly [.link, .holds, .stations] s s.frameFails := by
  have h (n : Nat) : ChangesOnly [.link] s { s with link := { s.link with errors := n } } := by
    constructor; intro p hp; cases p <;> simp_all [Part.same]
  unfold State.frameFails; dsimp only; split
  · exact (h _).andThen (State.setDegraded_changes ..)
  · exact (h _).mono

theorem State.reply_changes (s : State) (n : Nat) (b : Byte) (a : Answer) :
    ChangesOnly [.link] s (s.reply n b a) := by
  constructor; intro p hp; cases p <;> simp_all [Part.same]

end

end Sys2Proof.Machine
end

