-- ==== Sys2Proof/Laws/Calls.lean ====
section
/-!
SUPPORT. The call table: what every operation of the call unit keeps of its order, of the zones a call is for and
of its queues, and so of CallsLawful.
-/

namespace Sys2Proof.Machine

section

set_option Elab.async false

/-- The zones of a call's deliveries, in their order. -/
def Call.targets (x : Call) : List (Fin 8) := x.deliveries.map (·.zone)

/-- Between `s` and `t` the call list stays, the same slots are filled with calls for the same zones, and a queue
that names no call twice still names none twice. -/
structure CallTableKept (s t : State) : Prop where
  list : t.callList = s.callList
  targets : ∀ c : Fin 32, (t.call? c).map Call.targets = (s.call? c).map Call.targets
  queues : ∀ z : Fin 8, s.czones[z].queue.Nodup → t.czones[z].queue.Nodup

theorem CallTableKept.refl (s : State) : CallTableKept s s := ⟨rfl, fun _ => rfl, fun _ h => h⟩

theorem CallTableKept.trans {s t u : State} (h : CallTableKept s t) (k : CallTableKept t u) : CallTableKept s u :=
  ⟨k.list.trans h.list, fun c => (k.targets c).trans (h.targets c), fun z hz => k.queues z (h.queues z hz)⟩

theorem CallTableKept.forAll {n : Nat} {f : Fin n → State → State} (h : ∀ i s, CallTableKept s (f i s))
    (s : State) : CallTableKept s (forAll n f s) :=
  forAll_keeps (CallTableKept s) f (fun i t ht => ht.trans (h i t)) s (.refl s)

theorem CallTableKept.foldl {α : Type} {f : State → α → State} (h : ∀ s a, CallTableKept s (f s a))
    (l : List α) (s : State) : CallTableKept s (l.foldl f s) :=
  foldl_keeps (CallTableKept s) f (fun t a ht => ht.trans (h t a)) l s (.refl s)

/-- What changes neither calls nor call zones keeps the call table. -/
theorem ChangesOnly.callTable {ps : List Part} {s t : State} (h : ChangesOnly ps s t)
    (hc : ps.contains .calls = false := by rfl) (hz : ps.contains .czones = false := by rfl) : CallTableKept s t := by
  have c := h.same .calls (by simpa using hc)
  have z : t.czones = s.czones := h.same .czones (by simpa using hz)
  exact ⟨c.2, fun i => by simp [State.call?, c.1], fun i hi => by rw [z]; exact hi⟩

/-- A lawful call table that is kept is lawful. -/
theorem CallTableKept.lawful {s t : State} (h : CallTableKept s t) (hs : CallsLawful s) : CallsLawful t := by
  obtain ⟨list, filled, once, queues⟩ := hs
  refine ⟨h.list ▸ list, fun c => ?_, fun c x hx => ?_, fun z => h.queues z (queues z)⟩
  · rw [h.list, ← filled c]
    simpa using congrArg Option.isSome (h.targets c)
  · have k := h.targets c
    rw [show t.call? c = some x from hx] at k
    cases hy : s.call? c with
    | none => simp [hy] at k
    | some y =>
      have e : x.targets = y.targets := by simpa [hy] using k
      exact (show x.targets.Nodup from e ▸ once c y hy)

/-! ## Calls and deliveries -/

theorem State.writeCall_call? (s : State) (c i : Fin 32) (x : Call) :
    (s.writeCall c x).call? i = if i = c then some x else s.call? i := by
  simp only [State.call?, State.writeCall_calls, put_get]; split
  · rfl
  · rfl

theorem State.writeCZone_czone (s : State) (z i : Fin 8) (x : CallZone) :
    (s.writeCZone z x).czones[i] = if i = z then x else s.czones[i] := by
  simp only [State.writeCZone_czones, put_get]

/-- A call is written over one for the same zones. -/
theorem State.writeCall_callTable {s : State} {c : Fin 32} {x y : Call} (h : s.call? c = some x)
    (e : y.targets = x.targets) : CallTableKept s (s.writeCall c y) := by
  refine ⟨by simp, fun i => ?_, fun z hz => by simpa using hz⟩
  rw [State.writeCall_call?]; split
  · subst i; rw [h]; simp [e]
  · rfl

/-- A call zone is written with a queue that names no call twice where the old one did not. -/
theorem State.writeCZone_callTable {s : State} {z : Fin 8} {x : CallZone}
    (h : s.czones[z].queue.Nodup → x.queue.Nodup) : CallTableKept s (s.writeCZone z x) := by
  refine ⟨by simp, fun c => by simp [State.call?], fun i hi => ?_⟩
  rw [State.writeCZone_czone]; split
  · subst i; exact h hi
  · exact hi

/-- As `writeCZone_callTable`, for the fields beside the queue. -/
theorem State.writeCZone_callTable_same {s : State} {z : Fin 8} {x : CallZone} (h : x.queue = s.czones[z].queue) :
    CallTableKept s (s.writeCZone z x) := State.writeCZone_callTable fun k => h ▸ k

theorem Call.editDelivery_targets (x : Call) (z : Fin 8) (f : Delivery → Delivery)
    (h : ∀ d, (f d).zone = d.zone) : (x.editDelivery z f).targets = x.targets := by
  simp only [Call.targets, Call.editDelivery, List.map_map]
  refine List.map_congr_left fun d _ => ?_
  simp only [Function.comp]; split
  · exact h d
  · rfl

theorem State.editDelivery_callTable (s : State) (c : Fin 32) (z : Fin 8) (f : Delivery → Delivery)
    (h : ∀ d, (f d).zone = d.zone) : CallTableKept s (s.editDelivery c z f) := by
  unfold State.editDelivery; split
  · exact .refl s
  · exact State.writeCall_callTable ‹_› (Call.editDelivery_targets _ z f h)

theorem State.finishCall_callTable (s : State) (c : Fin 32) : CallTableKept s (s.finishCall c) := by
  unfold State.finishCall; split
  · exact .refl s
  · split
    · exact .refl s
    · exact State.writeCall_callTable ‹s.call? c = some _› (by rfl)

theorem State.endDelivery_callTable (s : State) (c : Fin 32) (z : Fin 8) (st : DeliveryState) :
    CallTableKept s (s.endDelivery c z st) :=
  (State.editDelivery_callTable s c z _ (by intro; rfl)).trans (State.finishCall_callTable ..)

/-! ## Queues and bursts -/

theorem State.queuePlace_nodup (s : State) (z : Fin 8) (c : Fin 32) (q : List (Fin 32)) (h : q.Nodup) (hc : c ∉ q) :
    (s.queuePlace z c q).Nodup := by
  have split := List.takeWhile_append_dropWhile (p := fun b => !s.ahead z c b) (l := q)
  have perm : (s.queuePlace z c q).Perm (c :: q) := by
    unfold State.queuePlace
    exact List.perm_middle.trans (by rw [split])
  exact perm.nodup_iff.2 (List.nodup_cons.2 ⟨hc, h⟩)

theorem State.joinQueue_callTable (s : State) (z : Fin 8) (c : Fin 32) : CallTableKept s (s.joinQueue z c) :=
  State.writeCZone_callTable fun h =>
    s.queuePlace_nodup z c _ (h.erase c) fun hc => (h.mem_erase_iff.1 hc).1 rfl

theorem State.leaveQueue_callTable (s : State) (z : Fin 8) (c : Fin 32) : CallTableKept s (s.leaveQueue z c) :=
  State.writeCZone_callTable fun h => h.erase c

theorem State.demand_callTable (s : State) (c : Fin 16) (on : Bool) (p : Pattern) :
    CallTableKept s (s.demand c on p) := (State.demand_changes ..).callTable

theorem State.beginStroke_callTable (s : State) (z : Fin 8) : CallTableKept s (s.beginStroke z) :=
  (State.writeCZone_callTable_same (by rfl)).trans (State.demand_callTable ..)

theorem State.handFlicker_callTable (s : State) (z : Fin 8) (code : Nat) :
    CallTableKept s (s.handFlicker z code) :=
  (State.writeCZone_callTable_same (by rfl)).trans (State.flickerRequest_changes ..).callTable

theorem State.startBurst_callTable (s : State) (z : Fin 8) (c : Fin 32) (m : BurstMode) (code : Nat) :
    CallTableKept s (s.startBurst z c m code) := by
  unfold State.startBurst; dsimp only
  have edited := State.editDelivery_callTable s c z (fun d => { d with state := .sounding, resumes := false })
    (by intro; rfl)
  generalize s.editDelivery c z _ = t at edited ⊢
  refine edited.trans ?_
  have h (x : CallZone) (e : x.queue = t.czones[z].queue.erase c) : CallTableKept t (t.writeCZone z x) :=
    State.writeCZone_callTable fun k => e ▸ k.erase c
  cases m
  · exact ((h _ (by rfl)).trans (State.handFlicker_callTable ..)).trans (State.beginStroke_callTable ..)
  · exact (h _ (by rfl)).trans (State.beginStroke_callTable ..)
  · exact (h _ (by rfl)).trans (State.handFlicker_callTable ..)

theorem State.lookFor_callTable (z : Fin 8) (fuel : Nat) (s : State) : CallTableKept s (s.lookFor z fuel) := by
  induction fuel generalizing s with
  | zero => exact .refl s
  | succ n ih =>
    unfold State.lookFor; dsimp only; split
    · exact .refl s
    · split
      · exact .refl s
      · split
        · exact State.startBurst_callTable ..
        · exact ((State.leaveQueue_callTable ..).trans (State.endDelivery_callTable ..)).trans (ih _)

theorem State.arbitrate_callTable (s : State) (z : Fin 8) : CallTableKept s (s.arbitrate z) :=
  State.lookFor_callTable ..

theorem State.stopBurst_callTable (s : State) (z : Fin 8) : CallTableKept s (s.stopBurst z) := by
  refine CallTableKept.trans (t := s.endSignals z) ?_ (State.writeCZone_callTable_same (by rfl))
  unfold State.endSignals; dsimp only; split
  · exact State.demand_callTable ..
  · exact (State.demand_callTable ..).trans (State.handFlicker_callTable ..)

theorem Delivery.counted_zone (start iv : Nat) (b : Bool) (d : Delivery) : (d.counted start iv b).zone = d.zone := rfl

theorem State.countBurst_callTable (s : State) (z : Fin 8) : CallTableKept s (s.countBurst z) := by
  unfold State.countBurst; dsimp only; split
  · exact .refl s
  · refine CallTableKept.trans ?_ (State.arbitrate_callTable _ z)
    have counted (c : Fin 32) (start iv : Nat) (b : Bool) :=
      (State.stopBurst_callTable s z).trans (State.editDelivery_callTable _ c z _ (Delivery.counted_zone start iv b))
    split
    · exact (counted ..).trans (State.joinQueue_callTable ..)
    · exact (counted ..).trans (State.finishCall_callTable ..)

theorem State.chimeLost_callTable (s : State) (z : Fin 8) : CallTableKept s (s.chimeLost z) := by
  unfold State.chimeLost; dsimp only; split
  · exact (State.writeCZone_callTable_same (by rfl)).trans (State.demand_callTable ..)
  · split
    · exact ((State.writeCZone_callTable_same (by rfl)).trans (State.demand_callTable ..)).trans
        (State.handFlicker_callTable ..)
    · exact ((State.writeCZone_callTable_same (by rfl)).trans (State.demand_callTable ..)).trans
        (State.countBurst_callTable ..)
  · exact .refl s
  · exact .refl s

theorem State.litLost_callTable (s : State) (z : Fin 8) : CallTableKept s (s.litLost z) := by
  unfold State.litLost; dsimp only; split
  · exact (State.writeCZone_callTable_same (by rfl)).trans (State.handFlicker_callTable ..)
  · exact State.countBurst_callTable ..
  · exact .refl s
  · exact .refl s

theorem State.announceLit_callTable (s : State) : CallTableKept s s.announceLit := by
  refine .forAll (fun z s => ?_) s
  have lit (v : Vector Bool 8) : CallTableKept s { s with lit := v } := ⟨rfl, fun _ => rfl, fun _ h => h⟩
  dsimp only; split
  · exact (lit _).trans (State.litLost_callTable ..)
  · exact lit _

theorem State.refreshLights_callTable (s : State) : CallTableKept s s.refreshLights :=
  (State.refreshGroups_changes s).callTable.trans (State.announceLit_callTable _)

/-! ## Losing deliveries, silences and amendments -/

theorem State.dropZone_callTable (s : State) (z : Fin 8) (st : DeliveryState) :
    CallTableKept s (s.dropZone z st) := by
  unfold State.dropZone; dsimp only
  refine CallTableKept.trans ?_ (.foldl (fun s c => ?_) _ _)
  · split
    · exact (State.stopBurst_callTable ..).trans (State.endDelivery_callTable ..)
    · exact .refl s
  · exact (State.leaveQueue_callTable ..).trans (State.endDelivery_callTable ..)

theorem State.withdraw_callTable (s : State) (c : Fin 32) (z : Fin 8) : CallTableKept s (s.withdraw c z) := by
  unfold State.withdraw; split
  · exact State.stopBurst_callTable ..
  · exact State.leaveQueue_callTable ..

theorem State.callNotice_callTable (s : State) (a : Fin 3) (st : DeliveryState) :
    CallTableKept s (s.callNotice a st) := by
  unfold State.callNotice; dsimp only
  refine CallTableKept.trans (.foldl (fun s c => ?_) _ _) (.foldl (fun s z => s.arbitrate_callTable z) _ _)
  refine .foldl (fun s d => ?_) _ _
  split
  · exact (State.withdraw_callTable ..).trans (State.endDelivery_callTable ..)
  · exact .refl s

theorem State.suppress_callTable (s : State) (z : Fin 8) : CallTableKept s (s.suppress z) := by
  unfold State.suppress; dsimp only; split
  · exact State.writeCZone_callTable_same (by rfl)
  · exact (((State.writeCZone_callTable_same (by rfl)).trans (State.stopBurst_callTable ..)).trans
      (State.editDelivery_callTable _ _ z _ (by intro; rfl))).trans (State.joinQueue_callTable ..)

theorem State.bar_callTable (s : State) (z : Fin 8) : CallTableKept s (s.bar z) :=
  (State.writeCZone_callTable_same (by rfl)).trans (State.dropZone_callTable ..)

theorem CallTableKept.either {p : Prop} [Decidable p] {s t u : State} (h : CallTableKept s t)
    (k : CallTableKept s u) : CallTableKept s (if p then t else u) := by split <;> assumption

theorem State.deriveSilence_callTable (z : Fin 8) (s : State) : CallTableKept s (s.deriveSilence z) := by
  unfold State.deriveSilence; split
  · exact .refl s
  · dsimp only
    refine CallTableKept.either (.trans ?_ (State.arbitrate_callTable ..)) ?_ <;>
      refine CallTableKept.trans (CallTableKept.either (State.bar_callTable ..)
        (.either (State.writeCZone_callTable_same (by rfl)) (.refl s)))
        (.either (State.suppress_callTable ..) (.either (State.writeCZone_callTable_same (by rfl)) (.refl _)))

theorem State.deriveSilences_callTable (s : State) : CallTableKept s s.deriveSilences :=
  .forAll State.deriveSilence_callTable s

theorem Delivery.retimed_zone (iv : Option Nat) (d : Delivery) : (d.retimed iv).zone = d.zone := by
  unfold Delivery.retimed; split <;> rfl

theorem State.amendCallAt_callTable (s : State) (c : Fin 32) (pr iv : Option Nat) :
    CallTableKept s (s.amendCallAt c pr iv) := by
  unfold State.amendCallAt; split
  · exact .refl s
  · rename_i x hx
    dsimp only
    refine CallTableKept.trans ?_ (.foldl (fun s (d : Delivery) => s.arbitrate_callTable d.zone) _ _)
    have written := fun b => (State.writeCall_callTable (y := { x with
        priority := pr.getD x.priority, interval := iv.getD x.interval
        deliveries := x.deliveries.map (Delivery.retimed iv) }) hx (by
          simp [Call.targets, Function.comp_def, Delivery.retimed_zone])).trans
      (State.markIf_changes _ b .call).callTable
    split
    · exact (written _).trans (.foldl (fun s (d : Delivery) => s.joinQueue_callTable d.zone c) _ _)
    · exact written _

/-! ## Calls that come and go -/

theorem State.emptyCall_call? (s : State) (c i : Fin 32) :
    (s.emptyCall c).call? i = if i = c then none else s.call? i := by
  simp only [State.call?, State.emptyCall, State.mark_calls, put_get]; split <;> rfl

/-- A slot emptied leaves a lawful call table (R133). -/
theorem State.emptyCall_lawful {s : State} (c : Fin 32) (h : CallsLawful s) : CallsLawful (s.emptyCall c) := by
  obtain ⟨list, filled, once, queues⟩ := h
  have erased : (s.emptyCall c).callList = s.callList.erase c := by simp [State.emptyCall]
  refine ⟨erased ▸ list.erase c, fun i => ?_, fun i x hx => ?_, queues⟩
  · rw [erased, State.emptyCall_call?]; split
    · simp [*, list.mem_erase_iff]
    · rw [filled i]; simp [*, list.mem_erase_iff]
  · rw [State.emptyCall_call?] at hx; split at hx
    · cases hx
    · exact once i x hx

/-- A retired call leaves a lawful call table (R139). -/
theorem State.retireCallAt_lawful {s : State} (c : Fin 32) (h : CallsLawful s) : CallsLawful (s.retireCallAt c) := by
  unfold State.retireCallAt; dsimp only
  refine (CallTableKept.foldl (fun s z => s.arbitrate_callTable z) _ _).lawful (State.emptyCall_lawful c ?_)
  refine (CallTableKept.foldl (fun s d => ?_) _ _).lawful h
  split
  · exact State.withdraw_callTable ..
  · exact .refl s

/-- A call for zones named once each, put in a slot, leaves a lawful call table (R133, R136). -/
theorem State.fillCall_lawful {s : State} (c : Fin 32) (x : Call) (hx : x.targets.Nodup) (h : CallsLawful s) :
    CallsLawful (s.fillCall c x) := by
  unfold State.fillCall; dsimp only
  refine (CallTableKept.foldl (fun s z => s.arbitrate_callTable z) _ _).lawful
    ((CallTableKept.foldl (fun s z => s.joinQueue_callTable z c) _ _).lawful ?_)
  obtain ⟨list, filled, once, queues⟩ := h
  refine ⟨?_, fun i => ?_, fun i y hy => ?_, queues⟩
  · simpa [List.nodup_append] using ⟨list.erase c, fun a ha e => (list.mem_erase_iff.1 (e ▸ ha)).1 rfl⟩
  · simp only [State.call?, State.mark_calls, State.mark_callList, put_get]; split
    · simp [*]
    · rw [show s.calls[i].call.isSome = _ from filled i]; simp [*, list.mem_erase_iff]
  · simp only [State.call?, State.mark_calls, put_get] at hy; split at hy
    · exact (Option.some.inj hy) ▸ hx
    · exact once i y hy

end

end Sys2Proof.Machine
end

