-- ==== Sys2Proof/Laws/Orders.lean ====
section
/-!
SUPPORT. An announcement of incidents is taken in one of the orders that its free choices leave (log entries
5, 6 and 33).
-/

namespace Sys2Proof.Machine

/-- What holds both where `f` is left for later and where it is done holds of the free choice. -/
theorem State.maybe_cases {P : State → Prop} {f : State → State} {s : State} (h : P s.drawn)
    (hf : P (f s.drawn)) : P (s.maybe f) := by
  unfold State.maybe; split <;> assumption

/-- `maybe` as `b` decides. -/
def State.doneIf (b : Bool) (f : State → State) (s : State) : State := if b then f s.drawn else s.drawn

/-- `lightsAndCalls` in the order that `c` says. -/
def State.lightsAndCallsIn (c : Bool) (s : State) : State :=
  if c then s.drawn.deriveSilences.announceLit else s.drawn.announceLit.deriveSilences

/-- `announceIncidents` in the order that six answers say. -/
def State.announcedIn (a b c d e f : Bool) (ids : List (Fin 25)) (s : State) : State :=
  let set := (s.evalHolds .fire).haltsOf ids
  let s1 := (s.evalHolds .fire).doneIf a State.deriveSilences
  let s2 :=
    if b then
      ((((s1.drawn.refreshGroups).doneIf c State.announceLit).doneIf d State.deriveSilences).doneIf e
        State.announceLit).haltSet set
    else ((s1.drawn.haltSet set).doneIf c State.deriveSilences).refreshGroups
  (ids.foldl (fun s i =>
    match s.incident? i with
    | some x => s.fireRelease x
    | none => s) s2).lightsAndCallsIn f

/-- What holds of an announcement in every order holds of it. -/
theorem State.announceIncidents_orders (P : State → Prop) (ids : List (Fin 25)) (s : State)
    (h : ∀ a b c d e f : Bool, P (s.announcedIn a b c d e f ids)) : P (s.announceIncidents ids) := by
  unfold State.announceIncidents; dsimp only; split
  · exact h (s.evalHolds .fire).choice true _ _ _ _
  · exact h (s.evalHolds .fire).choice false _ false false _

end Sys2Proof.Machine
end

