-- ==== Sys2Proof/Tests/Slice0.lean ====
section
/-!
SUPPORT. Tests of the model on small states, with results from the manual's worked examples, and for every
statement with hypotheses a state and operands that meet them.
-/

section
set_option Elab.async false

namespace Sys2Proof.Tests
open Sys2Proof.Machine

/-! ## The playhouse of chapter 12 -/

/-- The settings of "The evening" (12), with a VIEW station at 6. -/
def playhouse : Settings :=
  let d := Settings.defaults
  { d with
    perfs := tab fun a => { d.perfs[a] with present := a.1 < 2 }
    irons := tab fun a => { d.irons[a] with present := a.1 < 2 }
    stations := tab fun i =>
      match i.1 with
      | 1 => ⟨.foh, 0, BitVec.allOnes 11⟩
      | 2 => ⟨.stage, 1, BitVec.allOnes 11⟩
      | 3 => ⟨.stage, 0, BitVec.allOnes 11⟩
      | 4 => ⟨.fire, 0, BitVec.allOnes 11⟩
      | 5 => ⟨.view, 0, 1⟩
      | _ => d.stations[i]
    groups := tab fun g =>
      match g.1 with
      | 0 => { d.groups[g] with present := true, law := .square }
      | 1 => { d.groups[g] with present := true, kind := .aisle, feed := .standby, law := .square }
      | 8 => { d.groups[g] with present := true, kind := .foyer, callZone := 1 }
      | _ => d.groups[g]
    czones := put d.czones 1 { present := true, serves := 3, strokeOn := 400, strokeGap := 800 }
    zones := put d.zones 10 { d.zones[10] with present := true, auds := 3, alarms := 16, callZones := 2 } }

/-- The playhouse at 20 s after its cold start: every performance DARK, mains PRESENT, nothing open. -/
def house : State :=
  { State.reset with
    now := 20000, settings := playhouse, image := playhouse, imageGood := true
    store := ⟨.loaded, false, false⟩
    perfs := tab fun a => ⟨.dark, 0, if a.1 < 2 then .notYet else .notRequired, false, none⟩
    irons := tab fun a => if a.1 < 2 then { Iron.absent with referenced := true } else Iron.absent
    lit := tab fun z => z == 1
    supply := { State.reset.supply with mains := .present, settlingAt := none, restartCause := .coldStart } }

/-- A request with one field of its own, from station `st + 1`. -/
def ask (st : Fin 8) (index : Nat) (issue : Nat := 0) : AmendReq where
  station := BitVec.ofNat 8 (st.1 + 1)
  index := BitVec.ofNat 8 index
  issue := BitVec.ofNat 8 issue
  before := []
  after := []

/-- A field. -/
def fld (id value : Nat) : FieldVal := ⟨BitVec.ofNat 8 id, BitVec.ofNat 16 value⟩

/-- A whole request from station `st + 1`. -/
def req (st : Fin 8) (index issue : Nat) (fields : List FieldVal) : Req where
  station := BitVec.ofNat 8 (st.1 + 1)
  index := BitVec.ofNat 8 index
  issue := BitVec.ofNat 8 issue
  fields := fields

/-- As `ask`, with one more field before the row's own. -/
def askWith (f : FieldVal) (st : Fin 8) (index : Nat) : AmendReq := { ask st index with before := [f] }

/-- The state a command leaves. -/
def after (i : Instr) (s : State) : State :=
  match exec i s with
  | .next t => t
  | _ => s

/-- The state after each of the commands, each reply over before the next. -/
def evening (is : List Instr) (s : State) : State :=
  is.foldl (fun s i => let t := after i s; { t with link := { t.link with reply := none } }) s

/-- What the reply to a command says. -/
def answer (i : Instr) (s : State) : Option (Status × Option Reason) :=
  (after i s).link.reply.map fun r => (r.status, r.reason)

/-- A request that station `st + 1` may send and whose fields all have good form. -/
def lawful (k : Kind) (s : State) (r : Req) (st : Fin 8) : Bool :=
  s.powered && s.link.reply == none && decide (r.fields.length ≤ 24 ∧ r.station.toNat = st.1 + 1 ∧ r.issue = 0) &&
    s.role st != .none && s.role st != .view && decide ((r.fields.map (·.id)).Nodup) &&
    r.fields.all fun f => formOf k r.index r.fields f == none

/-! ## States near the playhouse's -/

def inPhase (a : Fin 3) (p : Phase) (s : State) : State :=
  { s with perfs := put s.perfs a { s.perfs[a] with phase := p } }

def ironIs (ch : Fin 3) (f : Iron → Iron) (s : State) : State := { s with irons := put s.irons ch (f s.irons[ch]) }

def zoneIs (z : Fin 24) (f : Zone → Zone) (s : State) : State := { s with zones := put s.zones z (f s.zones[z]) }

def groupIs (g : Fin 12) (f : LightGroup → LightGroup) (s : State) : State :=
  { s with groups := put s.groups g (f s.groups[g]) }

def circuitIs (c : Fin 16) (f : Circuit → Circuit) (s : State) : State :=
  { s with circuits := put s.circuits c (f s.circuits[c]) }

def czoneIs (z : Fin 8) (f : CallZone → CallZone) (s : State) : State :=
  { s with czones := put s.czones z (f s.czones[z]) }

/-- The playhouse with an incident open in slot 1, issue 1. -/
def withIncident (x : Incident) (s : State) : State :=
  { s with
    incidents := put s.incidents 0 ⟨1, some x⟩, incidentList := [0]
    zones := match x.source with
      | .zone z => put s.zones z { s.zones[z] with incident := some 0 }
      | .station _ => s.zones }

/-- The playhouse with a call in slot 1, issue 1. -/
def withCall (x : Call) (s : State) : State :=
  { s with calls := put s.calls 0 ⟨1, some x⟩, callList := [0] }

/-- A hold in slot `k` of `a`, issue 1, alone in its list. -/
def withHold (a : Fin 3) (k : Fin 8) (h : Hold) (s : State) : State :=
  { s with holds := put s.holds a (put s.holds[a] k ⟨1, some h⟩), holdLists := put s.holdLists a [k] }

/-- The incident Z11 raises at STAFF (12). -/
def staffFire : Incident where
  source := .zone 10
  auds := 3
  stage := .staff
  cause := none
  ackBy := none
  silenced := false
  reactivations := 0
  raisedAt := 20000
  timerAt := some 50000

/-- The same at GENERAL, not acknowledged in time. -/
def generalFire : Incident := { staffFire with stage := .general, cause := some .ackTimeout, timerAt := none }

/-- An AUDIENCE call of A in F2 (12). -/
def callOfA : Call where
  origin := 3
  aud := some 0
  purpose := .audience
  priority := 1
  strokes := 3
  bursts := 2
  interval := 300
  flicker := 3
  finished := false
  outcome := none
  deliveries := [⟨1, .waiting, 20000, none, 2, false, false⟩]

/-- F2 sounds the first burst of the call in slot 1. -/
def sounding (s : State) : State :=
  czoneIs 1
    (fun x => { x with
      sounding := some 0, mode := some .chimeFlicker, burstStart := some 20000, strokesSounded := 1,
      flickerCode := 3, burstEnd := some 23600, strokeOn := 400, strokeGap := 800, strokes := 3,
      strokeEnd := some 20400 })
    (withCall { callOfA with deliveries := [⟨1, .sounding, 20000, none, 2, false, false⟩] } s)

/-- Z11 is about to confirm with both auditoria occupied (04). -/
def confirming : State :=
  zoneIs 10 (fun x => { x with band := .active, detection := .pending, confirmAt := some 20000 })
    (inPhase 0 .running (inPhase 1 .interval house))

/-- A in phase `p`, everything else as in the playhouse. -/
def at_ (p : Phase) : State := inPhase 0 p house

/-! ## WellFormed refuses -/

theorem test_wf_station_zero : WellFormed (.look .perf { req 0 1 0 [] with station := 0 }) = false := by decide

theorem test_wf_station_nine : WellFormed (.demandOut { ask 0 1 with station := 9 }) = false := by decide

theorem test_wf_fields_25 : WellFormed (.raiseCall (req 1 0 0 (List.replicate 25 (fld 1 1)))) = false := by decide

theorem test_wf_fields_24_beside : WellFormed (.isolate { ask 0 1 with before := List.replicate 24 (fld 1 1) }) = false := by
  decide

theorem test_wf_known_pair : WellFormed (.unknownRequest 7 11 (req 0 1 0 [])) = false := by decide

theorem test_wf_unknown_code : WellFormed (.unknownRequest 8 11 (req 0 1 0 [])) = true := by decide

theorem test_wf_unknown_kind : WellFormed (.unknownRequest 7 12 (req 0 1 0 [])) = true := by decide

theorem test_wf_raise_fixed :
    WellFormed (.unknownRequest 2 4 (req 0 0 0 [])) = true ∧ WellFormed (.unknownRequest 2 2 (req 0 0 0 [])) = false := by
  decide

theorem test_wf_frame_short : WellFormed (.frameError [1, 2, 1, 1, 1, 0, 1, 5, 5, 5, 5]) = false := by decide

theorem test_wf_frame_count_25 : WellFormed (.frameForOtherAddress [1, 2, 1, 1, 1, 0, 25]) = false := by decide

theorem test_wf_part_frame_whole : WellFormed (.frameGapTimeout [1, 2, 1, 1, 1, 0, 0, 5, 5]) = false := by decide

theorem test_wf_discarded_whole : WellFormed (.frameDiscarded [1, 2, 1, 1, 1, 0, 0, 5, 5]) = false := by decide

/-! ## Frames and starts -/

/-- CRC-16 with generator 0x1021 and start 0xFFFF of the characters 1..9 (R200): the check value known for it. -/
theorem test_crc_check_value : crc [0x31, 0x32, 0x33, 0x34, 0x35, 0x36, 0x37, 0x38, 0x39] = 0x29B1#16 := by
  decide +kernel

/-- A request of no fields is 9 bytes after its start byte, a reply 10 (11). -/
theorem test_frame_lengths :
    (requestBytes 1 .look .perf (req 0 1 0 [])).length = 9 ∧
      (Reply.bytes ⟨1, 1, .done, none, 1, 1, 0, []⟩).length = 11 := by
  decide +kernel

/-- The state after reset is what a cold start leaves of a blank board. -/
theorem test_coldStart_reset :
    after (.coldStart ⟨true, false, true, false, 1, 0, tab fun _ => .normal, BitVec.allOnes 16⟩) State.reset =
      State.reset := by
  decide +kernel

theorem test_resetPin_cause :
    (after (.resetPin ⟨true, false, true, true, 1, 0, tab fun _ => .normal, BitVec.allOnes 16⟩) house).supply.restartCause =
      .resetPin := by
  decide +kernel

theorem test_powerFail_outputs :
    let s := after .powerFail (ironIs 0 (fun x => { x with motion := .atOut }) house)
    s.holdOutput 0 = false ∧ s.attentionLine = false := by
  decide +kernel

theorem test_frameError_counts :
    (after (.frameError [1, 2, 1, 1, 1, 0, 0, 0, 0]) house).link.errors = 1 := by
  decide +kernel

/-- At the 32nd error the link degrades (R182). -/
theorem test_frameDiscarded_degrades :
    let s := after (.frameDiscarded [1, 2]) { house with link := ⟨31, false, none⟩ }
    s.link.errors = 32 ∧ s.link.degraded = true := by
  decide +kernel

theorem test_frameGapTimeout_other_address : (after (.frameGapTimeout [2, 2]) house).link.errors = 0 := by
  decide +kernel

theorem test_frameForOtherAddress_ignored :
    (after (.frameForOtherAddress [2, 2, 1, 1, 1, 0, 0, 0, 0]) house).link.errors = 0 := by
  decide +kernel

theorem test_replyEnd_reopens : (after .replyEnd (after (.look .status (req 5 1 0 [])) house)).link.reply = none := by
  decide +kernel

/-! ## The link's own requests -/

theorem test_look_product :
    ((after (.look .status (req 5 1 0 [])) house).link.reply.map fun r => r.fields.contains (fv 33 3240)) =
      some true := by
  decide +kernel

theorem test_look_beyond_kind : answer (.look .zone (req 5 25 0 [])) house = some (.noRecord, none) := by
  decide +kernel

theorem test_summary_arms :
    (after (.summary .station (req 0 1 0 [])) house).stations[0] = ⟨BitVec.allOnes 11, BitVec.allOnes 11⟩ := by
  decide +kernel

theorem test_store_storing : (after (.store .status (req 0 1 0 [])) house).store.state = .storing := by
  decide +kernel

theorem test_storeComplete_image :
    let s := after .storeComplete { house with store := ⟨.storing, true, false⟩, imageGood := false }
    s.imageGood = true ∧ s.store = ⟨.stored, false, false⟩ := by
  decide +kernel

theorem test_restart_refused_in_show :
    answer (.restart .status (req 0 1 0 []) 0) (inPhase 0 .prepare house) =
      some (.refused, some .performanceActive) := by
  decide +kernel

theorem test_restart_cause :
    (after (.restart .status (req 0 1 0 []) (BitVec.allOnes 16)) house).supply.restartCause = .softRestart := by
  decide +kernel

/-- An unknown code comes before the role, an unknown kind after it (R184). -/
theorem test_unknownRequest_order :
    answer (.unknownRequest 8 1 (req 7 1 0 [])) house = some (.badField, none) ∧
      answer (.unknownRequest 1 12 (req 7 1 0 [])) house = some (.notPermitted, none) := by
  decide +kernel

/-- RAISE of a ZONE, and RETIRE of a STATION by a VIEW station (R184). -/
theorem test_unknownRequest_raiseFixed :
    answer (.unknownRequest 2 4 (req 1 0 0 [])) house = some (.badField, none) ∧
      answer (.unknownRequest 4 11 (req 5 1 0 [])) house = some (.notPermitted, none) := by
  decide +kernel

theorem test_settingsAmendment_clamped :
    let s := after (.settingsAmendment .perf (req 0 1 0 [fld 2 2000]) false) house
    s.settings.perfs[0].occupiedMin = 1000 ∧ s.settings.perfs[0].presetLevel = 1000 := by
  decide +kernel

theorem test_settingsAmendment_locked :
    answer (.settingsAmendment .perf (req 0 1 0 [fld 2 100]) false) (inPhase 1 .prepare house) =
      some (.locked, none) := by
  decide +kernel

theorem test_commissioningLock_set : (after (.commissioningLock (ask 0 1) 1) house).store.locked = true := by
  decide +kernel

theorem test_commissioningLock_clear :
    answer (.commissioningLock (ask 0 1) 0) { house with store := ⟨.loaded, false, true⟩ } =
      some (.locked, none) := by
  decide +kernel

/-! ## Performances and holds (12, "Opening and holds") -/

/-- 18:30: holds 5/1 IRON PROOF and 8/1 SYSTEM circuit 5, in slot order; G2 shows its safety minimum. -/
theorem test_amendPhasePrepare_evening :
    let s := after (.amendPhasePrepare (ask 3 1)) (circuitIs 4 (fun x => { x with condition := .openLoad }) house)
    s.perfs[0] = ⟨.prepare, 0, .notYet, false, some 3⟩ ∧ s.holdLists[0] = [4, 7] ∧
      s.holds[0][(4 : Fin 8)] = ⟨1, some ⟨none, .iron, .proof⟩⟩ ∧
      s.holds[0][(7 : Fin 8)] = ⟨1, some ⟨none, .system, .circuit 4⟩⟩ ∧
      s.groups[1].driven = 150 ∧ s.groups[1].drive = 24 := by
  decide +kernel

/-- 18:41: HOUSE_OPEN is refused and names HOLD 5 issue 1. -/
theorem test_amendPhaseHouseOpen_held :
    ((after (.amendPhaseHouseOpen (ask 1 1))
        (withHold 0 4 ⟨none, .iron, .proof⟩ (inPhase 0 .prepare house))).link.reply.map fun r =>
      (r.status, r.reason, r.kind, r.index, r.issue)) = some (.refused, some .holdPresent, 2, 5, 1) := by
  decide +kernel

/-- 18:55: G1 goes to 800 over 30 tenths, N 150. -/
theorem test_amendPhaseHouseOpen_fade :
    let s := after (.amendPhaseHouseOpen (ask 1 1)) (inPhase 0 .prepare house)
    s.phase 0 = .houseOpen ∧ s.groups[0].target = 800 ∧ s.groups[0].steps = 150 ∧ s.groups[0].fading = true := by
  decide +kernel

theorem test_amendPhaseBeginners_foh :
    answer (.amendPhaseBeginners (ask 1 1)) (inPhase 0 .houseOpen house) = some (.notPermitted, none) := by
  decide +kernel

/-- 19:30: the iron is OUT and act becomes 1. -/
theorem test_amendPhaseRunning_act :
    let s := after (.amendPhaseRunning (ask 3 1))
      (ironIs 0 (fun x => { x with motion := .atOut }) (inPhase 0 .beginners house))
    s.phase 0 = .running ∧ s.perfs[0].act = 1 := by
  decide +kernel

theorem test_amendPhaseInterval_preset :
    (after (.amendPhaseInterval (ask 3 1)) (inPhase 0 .running house)).groups[0].target = 800 := by
  decide +kernel

/-- 22:05: G1 and G2 go to 1000 over 20 tenths, N 100. -/
theorem test_amendPhaseClosing_response :
    let s := after (.amendPhaseClosing (ask 3 1)) (inPhase 0 .running house)
    s.groups[0].target = 1000 ∧ s.groups[0].steps = 100 := by
  decide +kernel

theorem test_amendPhaseHalted_lights :
    let s := after (.amendPhaseHalted (ask 1 1)) (inPhase 0 .running house)
    s.phase 0 = .halted ∧ s.groups[0].level = 1000 := by
  decide +kernel

/-- 22:12:10: a falling iron refuses DARK. -/
theorem test_amendPhaseDark_falling :
    answer (.amendPhaseDark (ask 1 1)) (ironIs 0 (fun x => { x with motion := .descending }) (inPhase 0 .closing house)) =
      some (.refused, some .ironNotIn) := by
  decide +kernel

/-- 22:15: DARK with act kept and a fresh proof. -/
theorem test_amendPhaseDark_fresh :
    (after (.amendPhaseDark (ask 1 1))
      { inPhase 0 .closing house with perfs := put house.perfs 0 ⟨.closing, 2, .proved, false, some 3⟩ }).perfs[0] =
      ⟨.dark, 2, .notYet, false, none⟩ := by
  decide +kernel

theorem test_raiseHold_lowest :
    let s := after (.raiseHold (req 1 0 0 [fld 32 1, fld 35 7])) (inPhase 0 .prepare house)
    s.holds[0][(0 : Fin 8)] = ⟨1, some ⟨some 1, .station, .code 7⟩⟩ ∧ s.holdLists[0] = [0] := by
  decide +kernel

theorem test_raiseHold_dark :
    answer (.raiseHold (req 1 0 0 [fld 32 1, fld 35 7])) house = some (.refused, some .wrongPhase) := by
  decide +kernel

theorem test_retireHold_other_role :
    answer (.retireHold (req 1 1 1 [])) (withHold 0 0 ⟨some 3, .station, .code 7⟩ (inPhase 0 .prepare house)) =
      some (.notPermitted, none) := by
  decide +kernel

theorem test_amendHold_field :
    ((after (.amendHold (req 1 1 1 [fld 35 9])) (withHold 0 0 ⟨some 3, .station, .code 7⟩ house)).link.reply.map
      fun r => (r.reason, r.fields)) = some (some .notAmendable, [fld 35 9]) := by
  decide +kernel

/-! ## The curtain (02, "Worked descent"; 12, "Proof drops") -/

theorem test_demandOut_raises :
    let s := after (.demandOut (ask 3 1)) house
    s.irons[0].motion = .raising ∧ s.holdOutput 0 = true ∧ s.raiseOutput 0 = true ∧ s.checkOutput 0 = false := by
  decide +kernel

/-- 12, at 40.0 s: an open incident refuses a demand OUT with ALARM_ACTIVE. -/
theorem test_demandOut_alarm :
    answer (.demandOut (ask 3 1)) (withIncident staffFire house) = some (.refused, some .alarmActive) := by
  decide +kernel

/-- 0.0 s of the worked descent. -/
theorem test_demandIn_release :
    let x := (after (.demandIn (ask 3 1)) (ironIs 0 (fun x => { x with motion := .atOut, position := 24000 }) house)).irons[0]
    x.motion = .descending ∧ x.kind = some .full ∧ x.sub = some .free ∧ x.reason = some .demand ∧
      x.descentTimer = 0 := by
  decide +kernel

/-- 0.3 s: the counter stands at 23812, 12 from the index, so no fault. -/
theorem test_indexEvent_within :
    let x := (after (.indexEvent 0)
      (ironIs 0 (fun x => { x with motion := .descending, position := 23812 }) house)).irons[0]
    x.position = 23800 ∧ x.fault = none := by
  decide +kernel

/-- 18.6 s: position 2996, crossing time 186, and a movement of 113 is not judged. -/
theorem test_descentSample_crossing :
    let x := (after (.descentSample 0)
      (ironIs 0 (fun x => { x with
        motion := .descending, kind := some .full, sub := some .free, position := 2996, descentTimer := 185,
        sampleMove := 113 }) house)).irons[0]
    x.sub = some .checked ∧ x.crossing = some 186 ∧ x.fault = none := by
  decide +kernel

/-- 18.8 s of the sticking valve: 94 counts, more than 80, is OVERSPEED. -/
theorem test_descentSample_overspeed :
    let x := (after (.descentSample 0)
      (ironIs 0 (fun x => { x with
        motion := .descending, kind := some .full, sub := some .checked, position := 2800, descentTimer := 187,
        crossing := some 186, finalTimer := some 1, sampleMove := 94 }) house)).irons[0]
    x.fault = some .overspeed ∧ x.firstFault = some .overspeed := by
  decide +kernel

/-- 24.1 s: counter 4, Td 241, Tf 55, PROOF_PASS and iron_proved PROVED. -/
theorem test_limitInEvent_proofPass :
    let s := after (.limitInEvent 0)
      (ironIs 0 (fun x => { x with
        motion := .descending, kind := some .full, sub := some .checked, position := 4, descentTimer := 241,
        crossing := some 186 }) (inPhase 0 .prepare house))
    s.irons[0].td = 241 ∧ s.irons[0].tf = 55 ∧ s.irons[0].result = some .proofPass ∧ s.irons[0].fault = none ∧
      s.perfs[0].ironProved = .proved := by
  decide +kernel

/-- The sticking valve lands at 21.8 s: Td 218, Tf 32, TOO_FAST, further faults, FAILED. -/
theorem test_limitInEvent_tooFast :
    let s := after (.limitInEvent 0)
      (ironIs 0 (fun x => { x with
        motion := .descending, kind := some .full, sub := some .checked, position := 4, descentTimer := 218,
        crossing := some 186, fault := some .overspeed, firstFault := some .overspeed })
        (inPhase 0 .prepare house))
    s.irons[0].tf = 32 ∧ s.irons[0].result = some .tooFast ∧ s.irons[0].fault = some .overspeed ∧
      s.irons[0].further = true ∧ s.perfs[0].ironProved = .failed := by
  decide +kernel

/-- 12: the raise reaches limit OUT and the position is loaded to 24000. -/
theorem test_limitOutEvent_out :
    let x := (after (.limitOutEvent 0) (ironIs 0 (fun x => { x with motion := .raising, position := 23950 }) house)).irons[0]
    x.motion = .atOut ∧ x.position = 24000 ∧ x.fault = none := by
  decide +kernel

theorem test_encoderCount_floor :
    let x := (after (.encoderCount 0 false) house).irons[0]
    x.position = 0 ∧ x.fault = some .drift := by
  decide +kernel

theorem test_localReleasePress_falls :
    let x := (after (.localReleasePress 0) (ironIs 0 (fun x => { x with motion := .raising }) house)).irons[0]
    x.motion = .descending ∧ x.kind = some .part ∧ x.reason = some .localRelease ∧ x.pressed = true := by
  decide +kernel

theorem test_localReleaseLetGo_held :
    (after (.localReleaseLetGo 0) (ironIs 0 (fun x => { x with pressed := true }) house)).irons[0].pressed = false := by
  decide +kernel

/-- The stall time is 20: the twentieth still sample is STALL. -/
theorem test_stall_twentieth :
    let s := ironIs 0 (fun x => { x with motion := .descending, sub := some .free, position := 9000, still := 19 }) house
    (after (.stall 0) s).irons[0].fault = some .stall ∧
      (after (.stall 0) (ironIs 0 (fun x => { x with still := 18 }) s)).irons[0].fault = none := by
  decide +kernel

/-- t_descent_max is 300. -/
theorem test_tooSlow_full :
    let s := ironIs 0 (fun x => { x with
      motion := .descending, kind := some .full, sub := some .checked, descentTimer := 299, sampleMove := 1 }) house
    (after (.tooSlow 0) s).irons[0].fault = some .tooSlow := by
  decide +kernel

theorem test_raiseTimeout_stops :
    let s := after (.raiseTimeout 0) (ironIs 0 (fun x => { x with motion := .raising, raiseStart := 20000 }) house)
    s.irons[0].motion = .stopped ∧ s.irons[0].stop = some .timeout ∧ s.irons[0].fault = some .raiseTimeout ∧
      s.now = 110000 := by
  decide +kernel

theorem test_clearFault_in :
    (after (.clearFault (ask 3 1)) (ironIs 0 (fun x => { x with fault := some .drift, further := true }) house)).irons[0] =
      house.irons[0] := by
  decide +kernel

/-! ## Zones and incidents (03, "A foyer detector through an evening"; 04, "A staged alarm in the shared foyer") -/

theorem test_bandEvent_transient :
    let s := after (.bandEvent 10 .normal)
      (zoneIs 10 (fun x => { x with band := .active, detection := .pending, confirmAt := some 22000, noise := 1 }) house)
    s.zones[10].detection = .normal ∧ s.zones[10].noise = 2 ∧ s.zones[10].quietAt = some 620000 := by
  decide +kernel

theorem test_bandEvent_confirmation :
    (after (.bandEvent 10 .active) house).zones[10].confirmAt = some 22000 := by
  decide +kernel

/-- 20:41:10: both auditoria occupied, so the incident starts at STAFF, the staff alert goes to FAST, the FIRE
holds are raised, and F2 is suppressed. -/
theorem test_confirmTimerExpiry_staff :
    let s := after (.confirmTimerExpiry 10) confirming
    s.incident? 0 = some staffFire ∧ s.incidents[0].issue = 1 ∧ s.circuits[staffAlert].demand = true ∧
      s.circuits[staffAlert].pattern = .fast ∧ s.czones[1].suppressed = true ∧
      s.hold? 0 5 = some ⟨none, .fire, .zone 10⟩ :=
  State.announceIncidents_orders
    (fun s => s.incident? 0 = some staffFire ∧ s.incidents[0].issue = 1 ∧ s.circuits[staffAlert].demand = true ∧
      s.circuits[staffAlert].pattern = .fast ∧ s.czones[1].suppressed = true ∧
      s.hold? 0 5 = some ⟨none, .fire, .zone 10⟩) _ _
    (by decide +kernel)

/-- With no auditorium occupied it starts at GENERAL, UNOCCUPIED (R85). -/
theorem test_confirmTimerExpiry_unoccupied :
    (((after (.confirmTimerExpiry 10)
      (zoneIs 10 (fun x => { x with band := .active, detection := .pending, confirmAt := some 20000 }) house)).incident?
        0).map fun x => (x.stage, x.cause)) = some (.general, some .unoccupied) :=
  State.announceIncidents_orders
    (fun s => ((s.incident? 0).map fun x => (x.stage, x.cause)) = some (.general, some .unoccupied)) _ _
    (by decide +kernel)

/-- 19:06:00: the quiet timer takes the counter from 2 to 1 and runs again. -/
theorem test_quietTimerExpiry_again :
    let s := after (.quietTimerExpiry 10) (zoneIs 10 (fun x => { x with noise := 2, quietAt := some 380000 }) house)
    s.zones[10].noise = 1 ∧ s.zones[10].quietAt = some 980000 := by
  decide +kernel

theorem test_loopTimerExpiry_fault :
    let s := after (.loopTimerExpiry 10) (zoneIs 10 (fun x => { x with band := .short, loopAt := some 25000 })
      (inPhase 0 .prepare house))
    s.zones[10].condition = .fault ∧ s.hold? 0 7 = some ⟨none, .system, .zone 10⟩ := by
  decide +kernel

/-- 20:41:30: the panel acknowledges, the investigation timer starts, and the alert goes to SLOW. -/
theorem test_acknowledge_slow :
    let s := after (.acknowledge (ask 1 1 1)) (withIncident staffFire house)
    s.incident? 0 = some { staffFire with ackBy := some 1, timerAt := some 200000 } ∧
      s.circuits[staffAlert].pattern = .slow := by
  decide +kernel

theorem test_acknowledgeTimerExpiry_general :
    (after (.acknowledgeTimerExpiry 0) (withIncident staffFire house)).incident? 0 = some generalFire :=
  State.announceIncidents_orders (fun s => s.incident? 0 = some generalFire) _ _ (by decide +kernel)

/-- 20:44:30, had Z14 come later: INVESTIGATION_TIMEOUT. -/
theorem test_investigationTimerExpiry_cause :
    ((after (.investigationTimerExpiry 0) (withIncident { staffFire with ackBy := some 1 } house)).incident? 0).map
      (fun x => (x.stage, x.cause, x.ackBy)) = some (.general, some .investigationTimeout, some 1) :=
  State.announceIncidents_orders
    (fun s => (s.incident? 0).map (fun x => (x.stage, x.cause, x.ackBy)) =
      some (.general, some .investigationTimeout, some 1)) _ _ (by decide +kernel)

/-- An escalation halts a running performance it concerns and releases its iron as FULL with reason FIRE; Z11 and
the set {A, B} demand circuits 2, 3 and 5 (AUD_A, AUD_B, FOYERS), and the brigade relay goes on. -/
theorem test_escalation_announced :
    let s := after (.acknowledgeTimerExpiry 0)
      (ironIs 0 (fun x => { x with motion := .atOut, position := 24000 })
        (inPhase 0 .running (withIncident staffFire house)))
    s.phase 0 = .halted ∧ s.irons[0].motion = .descending ∧ s.irons[0].kind = some .full ∧
      s.irons[0].reason = some .fire ∧
      [s.circuits[0], s.circuits[1], s.circuits[2], s.circuits[3], s.circuits[4], s.circuits[5]].map (·.demand) =
        [false, true, true, false, true, false] ∧ s.circuits[brigadeRelay].demand = true :=
  State.announceIncidents_orders
    (fun s => s.phase 0 = .halted ∧ s.irons[0].motion = .descending ∧ s.irons[0].kind = some .full ∧
      s.irons[0].reason = some .fire ∧
      [s.circuits[0], s.circuits[1], s.circuits[2], s.circuits[3], s.circuits[4], s.circuits[5]].map (·.demand) =
        [false, true, true, false, true, false] ∧ s.circuits[brigadeRelay].demand = true) _ _
    (by decide +kernel)

theorem test_amendIncidentStage_back :
    answer (.amendIncidentStage (ask 4 1 1) 0) (withIncident generalFire house) =
      some (.refused, some .wrongStage) := by
  decide +kernel

/-- 20:46:20: silenced, the circuits go off and the brigade relay stays on. -/
theorem test_silence_sounders :
    let on (x : Circuit) : Circuit := { x with demand := true, drive := true, switchedOn := true }
    let s := after (.silence (ask 4 1 1))
      (circuitIs 4 on (circuitIs brigadeRelay on (withIncident generalFire house)))
    s.circuits[4].demand = false ∧ s.circuits[brigadeRelay].demand = true := by
  decide +kernel

/-- 20:49:00: refused with NOT_SILENCED. -/
theorem test_retireIncident_notSilenced :
    answer (.retireIncident (req 4 1 1 [])) (withIncident generalFire house) = some (.refused, some .notSilenced) := by
  decide +kernel

/-- 19:19:00: FOH cancels the STAFF incident; the zone's incident field is none. -/
theorem test_retireIncident_cancel :
    let s := after (.retireIncident (req 1 1 1 [])) (withIncident staffFire house)
    s.incidents[0] = ⟨1, none⟩ ∧ s.incidentList = [] ∧ s.zones[10].incident = none := by
  decide +kernel

theorem test_raiseIncident_station :
    let s := after (.raiseIncident (req 4 0 0 [fld 33 5])) house
    (s.incident? 0).map (fun x => (x.source, x.auds, x.stage, x.cause)) =
      some (.station 4, 5, .general, some .station) :=
  State.announceIncidents_orders
    (fun s => (s.incident? 0).map (fun x => (x.source, x.auds, x.stage, x.cause)) =
      some (.station 4, 5, .general, some .station)) _ _ (by decide +kernel)

theorem test_isolate_zoneInAlarm :
    answer (.isolate (ask 4 11)) (zoneIs 10 (fun x => { x with detection := .alarm }) house) =
      some (.refused, some .zoneInAlarm) := by
  decide +kernel

theorem test_restoreZone_confirms :
    let s := after (.restoreZone (ask 4 11))
      (zoneIs 10 (fun x => { x with band := .active, isolated := true, condition := .isolated }) house)
    s.zones[10].detection = .pending ∧ s.zones[10].condition = .sound := by
  decide +kernel

theorem test_resetNoise_sound :
    let s := after (.resetNoise (ask 4 11)) (zoneIs 10 (fun x => { x with noise := 32, condition := .unstable }) house)
    s.zones[10].noise = 0 ∧ s.zones[10].condition = .sound := by
  decide +kernel

/-! ## House lights (05, "Worked fades" and the table of drive values) -/

theorem test_drive_values :
    [0, 150, 300, 425, 800, 1000].map (driveOf .linear) = [0, 153, 307, 435, 818, 1023] ∧
      [0, 150, 300, 425, 800, 1000].map (driveOf .square) = [0, 24, 92, 185, 655, 1023] := by
  decide

theorem test_fade_levels :
    [1, 2, 100, 199, 200].map (fadeLevel 850 0 200) = [846, 842, 425, 5, 0] ∧
      [1, 50, 100].map (fadeLevel 425 600 100) = [426, 512, 600] := by
  decide +kernel

/-- 18:56: G9 to 500 with no fade time drives 512. -/
theorem test_amendTarget_atOnce :
    let s := after (.amendTarget (ask 1 9) 500) house
    s.groups[8].level = 500 ∧ s.groups[8].drive = 512 ∧
      (s.link.reply.map (·.status)) = some .done := by
  decide +kernel

theorem test_amendTarget_clamped :
    let s := after (.amendTarget (ask 1 1) 100) (inPhase 0 .houseOpen house)
    s.groups[0].target = 200 ∧ (s.link.reply.map (·.status)) = some .adjusted := by
  decide +kernel

/-- Step 163 of the house-out: level 148, G1 drives 23, and G2 stays at its safety minimum. -/
theorem test_fadeStep_houseOut :
    let f (x : LightGroup) : LightGroup :=
      { x with level := 152, target := 0, start := 800, steps := 200, step := 162, fading := true }
    let s := after .fadeStep (groupIs 0 f (groupIs 1 f (inPhase 0 .running house)))
    s.groups[0].level = 148 ∧ s.groups[0].drive = 23 ∧ s.groups[1].level = 148 ∧ s.groups[1].driven = 150 ∧
      s.groups[1].drive = 24 := by
  decide +kernel

theorem test_fadeComplete_steady :
    let f (x : LightGroup) : LightGroup :=
      { x with level := 4, target := 0, start := 800, steps := 200, step := 199, fading := true }
    let s := after (.fadeComplete 0) (groupIs 0 f (inPhase 0 .running house))
    s.groups[0].level = 0 ∧ s.groups[0].fading = false := by
  decide +kernel

/-! ## Calls (12, "Two calls and a foyer incident") -/

/-- 0.0 s: CALL 1/1 sounds in F2 by CHIME_FLICKER to 3.6 s. -/
theorem test_raiseCall_sounds :
    let s := after (.raiseCall (req 3 0 0 [fld 33 1, fld 34 0, fld 35 1, fld 36 3, fld 37 2, fld 38 300, fld 39 3, fld 40 2]))
      (inPhase 0 .beginners house)
    s.calls[0].issue = 1 ∧ s.czones[1].sounding = some 0 ∧ s.czones[1].mode = some .chimeFlicker ∧
      s.czones[1].burstEnd = some 23600 ∧ s.circuits[7].demand = true ∧ s.flickers[1].code = 3 := by
  decide +kernel

theorem test_raiseCall_tooLate :
    answer (.raiseCall (req 3 0 0 [fld 33 1, fld 34 0, fld 40 2])) (inPhase 0 .running house) =
      some (.refused, some .wrongPhase) := by
  decide +kernel

theorem test_amendCall_priority :
    ((after (.amendCall (req 3 1 1 [fld 35 3])) (sounding house)).call? 0).map (·.priority) = some 3 := by
  decide +kernel

/-- An AMEND without a field starts no burst, though a delivery is overdue (R201). -/
theorem test_amendCall_empty :
    ((after (.amendCall (req 3 1 1 [])) (czoneIs 1 (fun x => { x with queue := [0] }) (withCall callOfA house))).czones[1]).sounding =
      none := by
  decide +kernel

theorem test_retireCall_silent :
    let s := after (.retireCall (req 1 1 1 [])) (sounding house)
    s.calls[0] = ⟨1, none⟩ ∧ s.czones[1].sounding = none ∧ s.circuits[7].demand = false := by
  decide +kernel

/-- 3.6 s: the burst is counted and the call waits for 30.0 s, one burst left. -/
theorem test_burstEnd_counted :
    (after (.burstEnd 1) (sounding house)).delivery? 0 1 = some ⟨1, .waiting, 50000, some 20000, 1, false, false⟩ := by
  decide +kernel

theorem test_notBeforeDue_starts :
    let s := after (.notBeforeDue 0 1) (czoneIs 1 (fun x => { x with queue := [0] })
      (withCall { callOfA with deliveries := [⟨1, .waiting, 50000, some 20000, 1, false, false⟩] } house))
    s.now = 50000 ∧ s.czones[1].sounding = some 0 := by
  decide +kernel

theorem test_strokeOnElapsed_gap :
    let s := after (.strokeOnElapsed 1) (sounding house)
    s.circuits[7].demand = false ∧ s.czones[1].gapEnd = some 21200 := by
  decide +kernel

theorem test_strokeGapElapsed_second :
    let s := after (.strokeGapElapsed 1)
      (czoneIs 1 (fun x => { x with strokeEnd := none, gapEnd := some 21200 }) (sounding house))
    s.czones[1].strokesSounded = 2 ∧ s.circuits[7].demand = true ∧ s.czones[1].strokeEnd = some 21600 := by
  decide +kernel

/-! ## Circuits and supply -/

theorem test_patternPartEnd_slow :
    let s := after (.patternPartEnd 14)
      (circuitIs 14 (fun x => { x with
        demand := true, drive := true, pattern := .slow, switchedOn := true, partEnd := some 20500 }) house)
    s.circuits[14].switchedOn = false ∧ s.circuits[14].partEnd = some 24000 := by
  decide +kernel

/-- 12: at 18:44:10 the test of circuit 5 finds load, and the SYSTEM hold goes. -/
theorem test_testTimerExpiry_refitted :
    let s := after (.testTimerExpiry 4 true)
      (circuitIs 4 (fun x => { x with condition := .openLoad })
        (withHold 0 7 ⟨none, .system, .circuit 4⟩ (inPhase 0 .prepare house)))
    s.circuits[4].condition = .sound ∧ s.hold? 0 7 = none := by
  decide +kernel

theorem test_overloadEvent_fourth :
    let f (n : Nat) (x : Circuit) : Circuit := { x with demand := true, drive := true, switchedOn := true, overloads := n }
    (after (.overloadEvent 4) (circuitIs 4 (f 2) house)).circuits[4].condition = .overload ∧
      (after (.overloadEvent 4) (circuitIs 4 (f 3) house)).circuits[4].condition = .failed := by
  decide +kernel

theorem test_retryTimerExpiry_drives :
    let s := after (.retryTimerExpiry 4)
      (circuitIs 4 (fun x => { x with demand := true, condition := .overload, overloads := 1, retryAt := some 25000 }) house)
    s.circuits[4].drive = true ∧ s.circuits[4].cleanAt = some 35000 := by
  decide +kernel

theorem test_cleanTimerExpiry_sound :
    let s := after (.cleanTimerExpiry 4)
      (circuitIs 4 (fun x => { x with
        demand := true, drive := true, condition := .overload, overloads := 1, cleanAt := some 35000 }) house)
    s.circuits[4].condition = .sound ∧ s.circuits[4].overloads = 0 := by
  decide +kernel

theorem test_offTimerExpiry_sound :
    (after (.offTimerExpiry 4)
      (circuitIs 4 (fun x => { x with condition := .overload, overloads := 2, offAt := some 22000 }) house)).circuits[4].overloads =
      0 := by
  decide +kernel

theorem test_resetCircuit_failed :
    let s := after (.resetCircuit (ask 4 5)) (circuitIs 4 (fun x => { x with condition := .failed, overloads := 4 }) house)
    s.circuits[4].condition = .sound ∧ s.circuits[4].overloads = 0 := by
  decide +kernel

theorem test_mainsSenseChange_timer : (after (.mainsSenseChange false) house).supply.lossAt = some 20500 := by
  decide +kernel

/-- 20:10:00.5: mains LOST; G1 and G9 take MAINS and G2 SUPPLY, at 1000 and 1023; F2 is no longer lit. -/
theorem test_lossTimerExpiry_forces :
    let s := after .lossTimerExpiry
      { inPhase 0 .running house with supply := { house.supply with lossAt := some 20500 } }
    s.supply.mains = .lost ∧ s.groups[0].causes = 8 ∧ s.groups[1].causes = 2 ∧ s.groups[1].driven = 1000 ∧
      s.groups[1].drive = 1023 ∧ s.groups[8].causes = 8 ∧ s.litNow 1 = false ∧
      s.hold? 0 6 = some ⟨none, .supply, .mains⟩ := by
  decide +kernel

/-- 20:13:50: the forces go, and G2 fades from 1000 over 50 tenths, N 250. -/
theorem test_settlingTimerExpiry_release :
    let s := evening [.lossTimerExpiry, .mainsSenseChange true, .settlingTimerExpiry]
      { inPhase 0 .running house with
        supply := { house.supply with lossAt := some 20500 }, lines := { house.lines with mainsPresent := false } }
    s.supply.mains = .present ∧ s.groups[1].causes = 0 ∧ s.groups[1].start = 1000 ∧ s.groups[1].steps = 250 := by
  decide +kernel

theorem test_supplyLowLineChange_timer : (after (.supplyLowLineChange true) house).supply.safetyAt = some 21000 := by
  decide +kernel

theorem test_safetySupplyTimerExpiry_low :
    (after .safetySupplyTimerExpiry { house with supply := { house.supply with safetyAt := some 21000 } }).supply.safetyLow =
      true := by
  decide +kernel

theorem test_cellSenseChange_timer : (after (.cellSenseChange false) house).supply.cellAt = some 21000 := by
  decide +kernel

theorem test_cellTimerExpiry_invalid :
    let s := after .cellTimerExpiry { house with supply := { house.supply with cellAt := some 21000 } }
    s.supply.cellLow = true ∧ s.supply.retainedValid = false := by
  decide +kernel

/-! ## Witnesses: a state and operands that meet the hypotheses of each statement

Where a statement speaks of `u`, it is the state after the good frame, `s.frameGood`. -/

/-- The command goes through. -/
def goes (i : Instr) (s : State) : Bool :=
  match exec i s with
  | .next _ => true
  | _ => false

theorem exec_goes {i : Instr} {s : State} (h : goes i s = true) : exec i s = .next (after i s) := by
  unfold goes at h
  unfold after
  split at h <;> simp_all

/-- The state with one command in its queue. -/
def asked (i : Instr) (s : State) : State := { s with pending := [i] }

theorem step_asked {i : Instr} {s : State} (h : goes i { s with pending := [] } = true) :
    ∃ t, step (asked i s) = .next t := ⟨_, exec_goes h⟩

theorem witness_StepRunsFrontCommand_queue : (asked .fadeStep house).pending = .fadeStep :: [] := rfl

theorem witness_StepRunsFrontCommand_idle :
    house.pending = [] ∧ house.powered = true ∧ { house with powered := false }.pending = [] := by
  decide +kernel

theorem witness_AttentionStaysNested :
    AttentionNested { house with stations := put house.stations 1 ⟨5, 1⟩ } ∧
      ∃ t, step (asked (.summary .station (req 1 2 0 []))
        { house with stations := put house.stations 1 ⟨5, 1⟩ }) = .next t :=
  ⟨by unfold AttentionNested; decide +kernel, step_asked (by decide +kernel)⟩

/-- Channel 1 is RAISING. -/
def raised : State := ironIs 0 (fun x => { x with motion := .raising, demandOut := true }) house

theorem witness_RaisesStaySafe :
    RaisesAreSafe raised ∧ raised.irons[0].motion = .raising ∧
      ∃ t, step (asked (.localReleasePress 0) raised) = .next t :=
  ⟨by unfold RaisesAreSafe; decide +kernel, by decide +kernel, step_asked (by decide +kernel)⟩

/-- Circuit 5 has tripped three times and waits to be driven again. -/
def tripped : State :=
  circuitIs 4 (fun x => { x with demand := true, condition := .overload, overloads := 3, retryAt := some 25000 }) house

theorem witness_DrivesStayLawful :
    DrivesFollowDemands tripped ∧ ∃ t, step (asked (.retryTimerExpiry 4) tripped) = .next t :=
  ⟨by unfold DrivesFollowDemands Circuit.lawful; decide +kernel, step_asked (by decide +kernel)⟩

/-- The noise counter and the acts are at their ends. -/
def counted : State :=
  zoneIs 10 (fun x => { x with band := .active, detection := .pending, confirmAt := some 22000, noise := 31 })
    { house with
      perfs := tab fun a => { house.perfs[a] with act := 15 }
      link := { house.link with errors := 32, degraded := true } }

theorem witness_CountersStayBounded :
    CountersBounded counted ∧ ∃ t, step (asked (.bandEvent 10 .normal) counted) = .next t :=
  ⟨by unfold CountersBounded; decide +kernel, step_asked (by decide +kernel)⟩

/-- 20:10:00.5 of chapter 12: mains is LOST in the act. -/
def dark : State :=
  after .lossTimerExpiry
    { inPhase 0 .running house with
      supply := { house.supply with lossAt := some 20500 }, lines := { house.lines with mainsPresent := false } }

theorem witness_LightsStayDerived :
    LightsDerived dark ∧ OutputsDerived dark ∧ dark.groups[0].causes = 8 ∧
      ∃ t, step (asked (.mainsSenseChange true) dark) = .next t :=
  ⟨by unfold LightsDerived; decide +kernel, by unfold OutputsDerived; decide +kernel, by decide +kernel,
    step_asked (by decide +kernel)⟩

/-- A GENERAL incident of Z11 stands, silenced. -/
def hushed : State :=
  czoneIs 1 (fun x => { x with barred := true })
    (circuitIs brigadeRelay (fun x => { x with demand := true, drive := true, switchedOn := true })
      (withIncident { generalFire with silenced := true } house))

theorem witness_DemandsAndSilencesFollowIncidents :
    DemandsDerived hushed ∧ SilencesDerived hushed ∧
      ∃ t, step (asked (.silence (ask 4 1 1)) hushed) = .next t :=
  ⟨by unfold DemandsDerived SoundersDerived; decide +kernel, by unfold SilencesDerived; decide +kernel,
    step_asked (by decide +kernel)⟩

/-- F2 sounds the call, with its chime on and its groups dipping. -/
def chiming : State :=
  circuitIs 7 (fun x => { x with demand := true, drive := true, switchedOn := true })
    { sounding (inPhase 0 .beginners house) with flickers := put house.flickers 1 ⟨3, 20000, false⟩ }

theorem witness_BurstsStayLawful :
    BurstsLawful chiming ∧ chiming.czones[1].sounding = some 0 ∧
      ∃ t, step (asked (.strokeOnElapsed 1) chiming) = .next t :=
  ⟨by unfold BurstsLawful; decide +kernel, by decide +kernel, step_asked (by decide +kernel)⟩

/-- A is in PREPARE, with its IRON hold. -/
def preparing : State := evening [.amendPhasePrepare (ask 1 1)] house

theorem witness_HoldsStayLawful :
    HoldsLawful preparing ∧ preparing.holdLists[0] = [4] ∧
      ∃ t, step (asked (.amendPhaseDark (ask 1 1)) preparing) = .next t :=
  ⟨by unfold HoldsLawful; decide +kernel, by decide +kernel, step_asked (by decide +kernel)⟩

/-- A is in its first act, its iron proved and OUT. -/
def playing : State :=
  ironIs 0 (fun x => { x with motion := .atOut, position := 24000 })
    { house with
      perfs := put house.perfs 0 ⟨.running, 1, .proved, false, some 1⟩
      retained := { house.retained with entries := put house.retained.entries 0 ⟨.running, 1, .proved⟩ } }

theorem witness_PerformancesStayLawful :
    HoldsLawful playing ∧ PerformancesLawful playing ∧
      ∃ t, step (asked (.amendPhaseInterval (ask 3 1)) playing) = .next t :=
  ⟨by unfold HoldsLawful; decide +kernel, by unfold PerformancesLawful; decide +kernel,
    step_asked (by decide +kernel)⟩

theorem witness_IncidentsStayLawful :
    IncidentsLawful (withIncident staffFire house) ∧
      ∃ t, step (asked (.acknowledge (ask 1 1 1)) (withIncident staffFire house)) = .next t :=
  ⟨by unfold IncidentsLawful Incident.lawful; decide +kernel, step_asked (by decide +kernel)⟩

theorem witness_SettingsChangeOnlyUnlocked_changed :
    let i := Instr.settingsAmendment .perf (req 0 1 0 [fld 3 900]) false
    exec i house = .next (after i house) ∧ (after i house).settings ≠ house.settings :=
  ⟨exec_goes (by decide +kernel), by decide +kernel⟩

theorem witness_SettingsChangeOnlyUnlocked_unlocked :
    let s := { house with store := { house.store with locked := true } }
    let i := Instr.coldStart ⟨true, false, true, true, 1, 0, tab fun _ => .normal, BitVec.allOnes 16⟩
    exec i s = .next (after i s) ∧ s.store.locked = true ∧ (after i s).store.locked = false :=
  ⟨exec_goes (by decide +kernel), by decide +kernel⟩

theorem witness_CommandsTouchOnlyTheirParts :
    exec (.indexEvent 0) house = .next (after (.indexEvent 0) house) := exec_goes (by decide +kernel)

theorem witness_UnpoweredPartTakesNothing :
    house.powered = true ∧ { house with powered := false }.powered = false := by decide +kernel

theorem witness_UnpoweredPartTakesNothing_other (p : Plant) : Instr.fadeStep ≠ .coldStart p := by simp

theorem witness_MarkSetsFlags_listens :
    house.role 0 ≠ .none ∧ house.settings.stations[0].mask.getLsbD (kindCode .call - 1) = true := by decide +kernel

theorem witness_MarkSetsFlags_deaf :
    house.role 6 = .none ∧ house.role 5 = .view ∧
      house.settings.stations[5].mask.getLsbD (kindCode .hold - 1) = false := by decide +kernel

/-- The bound of 24 fields, and the ends of the station numbers. -/
theorem witness_Heard_ends :
    Heard house (req 0 1 0 ((List.range 24).map (fld · 0))) 0 ∧ Heard house (req 7 1 0 []) 7 := by
  unfold Heard; decide +kernel

theorem witness_LinkChecksDecide_role :
    requestOf (.demandIn (ask 5 1)) = some (.amend, .iron, req 5 1 0 [fld 37 0]) ∧
      Heard house (req 5 1 0 [fld 37 0]) 5 ∧ house.role 5 = .view := by
  unfold Heard; decide +kernel

theorem witness_LinkChecksDecide_raise :
    requestOf (.raiseHold (req 1 1 0 [])) = some (.raise, .hold, req 1 1 0 []) ∧
      Heard house (req 1 1 0 []) 1 ∧ house.role 1 = .foh ∧ (req 1 1 0 []).index ≠ 0 := by
  unfold Heard; decide +kernel

theorem witness_LinkChecksDecide_record :
    requestOf (.look .perf (req 5 4 0 [])) = some (.look, .perf, req 5 4 0 []) ∧
      Heard house (req 5 4 0 []) 5 ∧ house.role 5 ≠ .none ∧ kindSize .perf < (req 5 4 0 []).index.toNat ∧
      requestOf (.amendHold (req 1 0 0 [])) = some (.amend, .hold, req 1 0 0 []) ∧
      Heard house (req 1 0 0 []) 1 ∧ house.role 1 = .foh ∧ (req 1 0 0 []).index.toNat < 1 := by
  unfold Heard; decide +kernel

theorem witness_LinkChecksDecide_fields :
    requestOf (.retireHold (req 1 24 0 [fld 1 0])) = some (.retire, .hold, req 1 24 0 [fld 1 0]) ∧
      Heard house (req 1 24 0 [fld 1 0]) 1 ∧
      requestOf (.amendCall (req 1 32 1 [fld 35 0, fld 35 0])) =
        some (.amend, .call, req 1 32 1 [fld 35 0, fld 35 0]) ∧
      Heard house (req 1 32 1 [fld 35 0, fld 35 0]) 1 ∧ house.role 1 = .foh ∧
      ¬((req 1 32 1 [fld 35 0, fld 35 0]).fields.map (·.id)).Nodup := by
  unfold Heard; decide +kernel

theorem witness_LinkChecksDecide_unknown :
    knownCode 0 = false ∧ knownKind 12 = false ∧ Heard house (req 7 1 0 []) 7 ∧ house.role 7 = .none ∧
      Heard house (req 5 1 0 []) 5 ∧ house.role 5 = .view ∧ knownCode 1 = true := by
  unfold Heard; decide +kernel

theorem witness_LinkChecksDecide_raiseFixed :
    (4 : Byte) ≠ 2 ∧ (4 : Byte) ≠ 3 ∧ (4 : Byte) ≠ 7 ∧ Heard house (req 1 0 0 []) 1 ∧ house.role 1 = .foh ∧
      Heard house (req 5 0 0 []) 5 ∧ house.role 5 = .view ∧ knownCode 2 = true := by
  unfold Heard; decide +kernel

/-- A LOOK of PERF 1 of part 1 from station 1, with its own check word. -/
def lookFrame : List Byte := requestBytes 1 .look .perf (req 0 1 0 [])

theorem witness_FramesCounted_whole :
    house.powered = true ∧ house.link.reply = none ∧ wholeFrame lookFrame = true ∧
      addressed house.settings.part.address lookFrame = true ∧ crcAgrees lookFrame = true ∧
      stationAgrees lookFrame = true ∧ wholeFrame (lookFrame.dropLast ++ [0xFF]) = true ∧
      addressed house.settings.part.address (lookFrame.dropLast ++ [0xFF]) = true ∧
      crcAgrees (lookFrame.dropLast ++ [0xFF]) = false := by
  decide +kernel

theorem witness_FramesCounted_part :
    addressed house.settings.part.address (lookFrame.take 5) = true ∧
      addressed house.settings.part.address [2, 1] = false := by
  decide +kernel

theorem witness_FramesCounted_replying :
    (after (.look .perf (req 0 1 0 [])) house).link.reply ≠ none := by
  decide +kernel

theorem witness_LookAnswersAndClears_done :
    Heard house (req 1 1 0 []) 1 ∧ (req 1 1 0 []).fields = [] ∧ house.role 1 ≠ .none ∧
      (house.frameGood.table .perf (req 1 1 0 []).index).map (·.1) = some 0 ∧
      Heard house (req 5 1 1 []) 5 ∧ house.role 5 ≠ .none ∧
      ((withIncident staffFire house).frameGood.table .incident (req 5 1 1 []).index).map (·.1) = some 1 := by
  unfold Heard; decide +kernel

theorem witness_LookAnswersAndClears_noRecord :
    Heard house (req 1 25 0 []) 1 ∧ house.role 1 ≠ .none ∧
      house.frameGood.table .incident (req 1 25 0 []).index = none ∧
      Heard house (req 1 1 2 []) 1 ∧
      ((withIncident staffFire house).frameGood.table .incident (req 1 1 2 []).index).map (·.1) = some 1 := by
  unfold Heard; decide +kernel

theorem witness_LookAnswersAndClears_armed :
    let s := { house with stations := put house.stations 5 ⟨1, 1⟩ }
    Heard s (req 5 1 0 []) 5 ∧ s.role 5 ≠ .none ∧ s.frameGood.stations[5].armed.getLsbD (kindCode .perf - 1) = true := by
  unfold Heard; decide +kernel

/-- Every kind has a record in slot 1 of a playhouse with a hold, an incident and a call. -/
theorem witness_LookAnswersAndClears_kinds :
    let s := withHold 0 0 ⟨some 1, .station, .code 7⟩ (withCall callOfA (withIncident staffFire (at_ .prepare)))
    ∀ k ∈ [Kind.perf, .hold, .incident, .zone, .iron, .group, .call, .czone, .circuit, .status, .station],
      Heard s (req 5 1 0 []) 5 ∧ s.role 5 ≠ .none ∧ (s.frameGood.table k 1).isSome = true := by
  unfold Heard; decide +kernel

theorem witness_SummaryArmsFlags :
    Heard house (req 6 7 0 []) 6 ∧ house.role 6 = .none ∧ Heard house (req 0 2 0 []) 0 ∧ house.role 0 ≠ .none ∧
      (req 0 2 0 []).index.toNat ≠ 0 + 1 ∧ Heard house (req 5 6 0 []) 5 ∧ house.role 5 ≠ .none ∧
      (req 5 6 0 []).index.toNat = 5 + 1 ∧ (req 5 6 0 []).issue = 0 ∧ (req 5 6 0 []).fields = [] := by
  unfold Heard; decide +kernel

theorem witness_SummaryArmsFlags_marked :
    house.role 5 ≠ .none ∧ house.settings.stations[5].mask.getLsbD (kindCode .perf - 1) = true := by decide +kernel

/-- A STORE is in progress. -/
def storing : State := { house with store := ⟨.storing, false, false⟩, imageGood := false }

theorem witness_StoreWritesImage :
    Heard house (req 0 1 0 []) 0 ∧ (req 0 1 0 []).index = 1 ∧ (req 0 1 0 []).issue = 0 ∧
      (req 0 1 0 []).fields = [] ∧ house.role 0 = .engineer ∧ house.store.state ≠ .storing ∧
      Heard storing (req 0 1 0 []) 0 ∧ storing.role 0 = .engineer ∧ storing.store.state = .storing ∧
      storing.powered = true ∧ Heard house (req 1 1 0 []) 1 ∧ house.role 1 ≠ .engineer := by
  unfold Heard; decide +kernel

theorem witness_StoreWritesImage_form :
    Heard house (req 1 2 0 []) 1 ∧ house.role 1 ≠ .none ∧ house.role 1 ≠ .view ∧ (req 1 2 0 []).index ≠ 1 := by
  unfold Heard; decide +kernel

theorem witness_RestartClearsTheDay_refused :
    Heard house (req 1 1 0 []) 1 ∧ house.role 1 ≠ .engineer ∧ Heard storing (req 0 1 0 []) 0 ∧
      storing.role 0 = .engineer ∧ storing.store.state = .storing ∧ Heard playing (req 0 1 0 []) 0 ∧
      playing.role 0 = .engineer ∧ playing.store.state ≠ .storing ∧ playing.phase 0 ≠ .dark := by
  unfold Heard; decide +kernel

theorem witness_RestartClearsTheDay_alarm :
    let s := withIncident staffFire house
    Heard s (req 0 1 0 []) 0 ∧ s.role 0 = .engineer ∧ s.store.state ≠ .storing ∧ (∀ a, s.phase a = .dark) ∧
      s.incidentList ≠ [] := by
  unfold Heard; decide +kernel

theorem witness_RestartClearsTheDay_admitted :
    Heard house (req 0 1 0 []) 0 ∧ house.role 0 = .engineer ∧ house.store.state ≠ .storing ∧
      (∀ a, house.phase a = .dark) ∧ house.incidentList = [] ∧ LightsDerived house.frameGood ∧
      house.settings.zones[10].present = true ∧ house.settings.groups[8].present = true := by
  unfold Heard LightsDerived; decide +kernel

theorem witness_RefusedAmendLeavesState :
    let i := Instr.demandOut (ask 3 1)
    let s := withIncident staffFire house
    requestOf i = some (.amend, .iron, req 3 1 0 [fld 37 1]) ∧ Heard s (req 3 1 0 [fld 37 1]) 3 ∧
      exec i s = .next (after i s) ∧ (after i s).link.reply.map (·.status) = some .refused :=
  ⟨by decide +kernel, by unfold Heard; decide +kernel, exec_goes (by decide +kernel), by decide +kernel⟩

/-! ### Performances and holds -/

theorem witness_PrepareEntered :
    HeardAlone house (ask 3 1) 3 (0 + 1) 0 ∧ house.isStageOf 3 0 = true ∧ house.phase 0 = .dark ∧
      house.settings.perfs[0].present = true ∧ HoldsLawful house.frameGood ∧
      house.settings.irons[0].present = true ∧ (after (.amendPhasePrepare (ask 3 1)) house).holdReason 0 .iron ≠ none := by
  unfold HeardAlone HoldsLawful; decide +kernel

theorem witness_PrepareEntered_absent :
    HeardAlone house (ask 1 3) 1 (2 + 1) 0 ∧ house.role 1 = .foh ∧ house.phase 2 = .dark ∧
      house.settings.perfs[2].present = false := by
  unfold HeardAlone; decide +kernel

theorem witness_HouseOpenEntered :
    HeardAlone (at_ .prepare) (ask 1 1) 1 (0 + 1) 0 ∧ (at_ .prepare).role 1 = .foh ∧
      (at_ .prepare).phase 0 = .prepare ∧ (at_ .prepare).frameGood.holdLists[0] = [] ∧
      LightsDerived (at_ .prepare).frameGood ∧ (at_ .prepare).frameGood.follows 0 0 ∧
      ¬(at_ .prepare).frameGood.follows 8 0 := by
  unfold HeardAlone LightsDerived State.follows; decide +kernel

theorem witness_BeginnersEntered :
    HeardAlone (at_ .houseOpen) (ask 3 1) 3 (0 + 1) 0 ∧ (at_ .houseOpen).isStageOf 3 0 = true ∧
      (at_ .houseOpen).phase 0 = .houseOpen ∧ LightsDerived (at_ .houseOpen).frameGood ∧
      HeardAlone (at_ .interval) (ask 3 1) 3 (0 + 1) 0 ∧ (at_ .interval).isStageOf 3 0 = true ∧
      (at_ .interval).phase 0 = .interval ∧ LightsDerived (at_ .interval).frameGood ∧
      callOfA.purpose = .audience ∧ callOfA.aud = some 0 := by
  unfold HeardAlone LightsDerived; decide +kernel

theorem witness_BeginnersEntered_foh :
    HeardAlone (at_ .interval) (ask 1 1) 1 (0 + 1) 0 ∧ (at_ .interval).role 1 = .foh ∧
      (at_ .interval).phase 0 = .interval := by
  unfold HeardAlone; decide +kernel

/-- A is HALTED and interrupted, and its house is forced by RESTORE alone. -/
def interrupted : State :=
  let s := { at_ .halted with perfs := put house.perfs 0 ⟨.halted, 1, .notYet, true, none⟩ }
  groupIs 1 (fun x => { x with causes := 4, driven := 1000, drive := 1023 })
    (groupIs 0 (fun x => { x with causes := 4, driven := 1000, drive := 1023 }) s)

theorem witness_HaltedToBeginners :
    HeardAlone interrupted (ask 3 1) 3 (0 + 1) 0 ∧ interrupted.phase 0 = .halted ∧
      interrupted.isStageOf 3 0 = true ∧
      (∀ x ∈ interrupted.openIncidents, x.stage = .general → has x.auds 0 = false) ∧
      LightsDerived interrupted.frameGood ∧ interrupted.frameGood.follows 0 0 ∧
      interrupted.groups[0].causes = 4 ∧ ¬interrupted.frameGood.follows 8 0 := by
  unfold HeardAlone LightsDerived State.follows; decide +kernel

theorem witness_HaltedToBeginners_alarm :
    let s := withIncident generalFire (at_ .halted)
    HeardAlone s (ask 3 1) 3 (0 + 1) 0 ∧ s.phase 0 = .halted ∧ s.isStageOf 3 0 = true ∧
      (∃ x ∈ s.openIncidents, x.stage = .general ∧ has x.auds 0 = true) := by
  unfold HeardAlone; decide +kernel

/-- A call for A is ACTIVE, and A's curtain is OUT. -/
def calling (p : Phase) : State :=
  ironIs 0 (fun x => { x with motion := .atOut, position := 24000 })
    (circuitIs 7 (fun x => { x with demand := true, drive := true, switchedOn := true })
      { sounding (at_ p) with flickers := put house.flickers 1 ⟨3, 20000, false⟩ })

theorem witness_RunningEntered :
    HeardAlone (calling .beginners) (ask 3 1) 3 (0 + 1) 0 ∧ (calling .beginners).phase 0 = .beginners ∧
      (calling .beginners).isStageOf 3 0 = true ∧ (calling .beginners).frameGood.holdLists[0] = [] ∧
      (calling .beginners).irons[0].motion = .atOut ∧ LightsDerived (calling .beginners).frameGood ∧
      0 ∈ (calling .beginners).callList ∧
      ((calling .beginners).call? 0).map (fun x => (x.finished, x.purpose, x.aud)) =
        some (false, .audience, some 0) := by
  unfold HeardAlone LightsDerived; decide +kernel

theorem witness_RunningEntered_ironNotOut :
    HeardAlone (at_ .beginners) (ask 3 1) 3 (0 + 1) 0 ∧ (at_ .beginners).phase 0 = .beginners ∧
      (at_ .beginners).isStageOf 3 0 = true ∧ (at_ .beginners).frameGood.holdLists[0] = [] ∧
      (at_ .beginners).settings.irons[0].present = true ∧ (at_ .beginners).irons[0].motion ≠ .atOut := by
  unfold HeardAlone; decide +kernel

theorem witness_IntervalEntered :
    HeardAlone playing (ask 3 1) 3 (0 + 1) 0 ∧ playing.phase 0 = .running ∧ playing.isStageOf 3 0 = true ∧
      LightsDerived playing.frameGood ∧ playing.frameGood.follows 1 0 ∧ ¬playing.frameGood.follows 8 0 ∧
      HeardAlone playing (ask 1 1) 1 (0 + 1) 0 ∧ playing.role 1 = .foh := by
  unfold HeardAlone LightsDerived State.follows; decide +kernel

theorem witness_ClosingEntered :
    HeardAlone (calling .running) (ask 3 1) 3 (0 + 1) 0 ∧ (calling .running).phase 0 = .running ∧
      (calling .running).isStageOf 3 0 = true ∧ LightsDerived (calling .running).frameGood ∧
      (calling .running).frameGood.follows 0 0 ∧ (calling .running).perfs[0].interrupted = false ∧
      HeardAlone (at_ .interval) (ask 1 1) 1 (0 + 1) 0 ∧ (at_ .interval).phase 0 = .interval ∧
      (at_ .interval).role 1 = .foh ∧ LightsDerived (at_ .interval).frameGood := by
  unfold HeardAlone LightsDerived State.follows; decide +kernel

theorem witness_ClosingEntered_halted :
    let s := { interrupted with perfs := put interrupted.perfs 0 ⟨.halted, 1, .proved, true, none⟩ }
    HeardAlone s (ask 1 1) 1 (0 + 1) 0 ∧ s.phase 0 = .halted ∧ s.role 1 = .foh ∧
      unproved s.perfs[0].ironProved = false ∧ LightsDerived s.frameGood ∧ s.frameGood.follows 0 0 ∧
      s.frameGood.groups[0].causes = 4 := by
  unfold HeardAlone LightsDerived State.follows; decide +kernel

theorem witness_ClosingEntered_unproved :
    let s := withHold 0 4 ⟨none, .iron, .proof⟩ (at_ .halted)
    HeardAlone s (ask 1 1) 1 (0 + 1) 0 ∧ s.phase 0 = .halted ∧ s.role 1 = .foh ∧
      s.settings.irons[0].present = true ∧ unproved s.perfs[0].ironProved = true ∧
      s.frameGood.hold? 0 4 = some ⟨none, .iron, .proof⟩ := by
  unfold HeardAlone; decide +kernel

theorem witness_HaltEntered :
    HeardAlone (calling .houseOpen) (ask 1 1) 1 (0 + 1) 0 ∧ (calling .houseOpen).role 1 = .foh ∧
      (calling .houseOpen).phase 0 = .houseOpen ∧ HeardAlone (at_ .interval) (ask 3 1) 3 (0 + 1) 0 ∧
      (at_ .interval).isStageOf 3 0 = true ∧ (at_ .interval).phase 0 = .interval := by
  unfold HeardAlone; decide +kernel

theorem witness_DarkEntered :
    HeardAlone (at_ .closing) (ask 1 1) 1 (0 + 1) 0 ∧ (at_ .closing).phase 0 = .closing ∧
      (at_ .closing).role 1 = .foh ∧ (at_ .closing).irons[0].motion = .atIn ∧
      LightsDerived (at_ .closing).frameGood ∧ (at_ .closing).supply.mains = .present ∧
      (at_ .closing).perfs[0].interrupted = false ∧ (at_ .closing).frameGood.follows 0 0 ∧
      HeardAlone preparing (ask 3 1) 3 (0 + 1) 0 ∧ preparing.phase 0 = .prepare ∧
      preparing.isStageOf 3 0 = true ∧ HoldsLawful preparing.frameGood := by
  unfold HeardAlone LightsDerived State.follows HoldsLawful; decide +kernel

theorem witness_DarkEntered_ironNotIn :
    let s := ironIs 0 (fun x => { x with motion := .stopped }) (at_ .closing)
    HeardAlone s (ask 1 1) 1 (0 + 1) 0 ∧ s.phase 0 = .closing ∧ s.role 1 = .foh ∧
      s.settings.irons[0].present = true ∧ s.irons[0].motion ≠ .atIn := by
  unfold HeardAlone; decide +kernel

theorem witness_PhaseRequestChecked_form :
    let q := askWith (fld 1 2) 1 1
    let n := askWith (fld 33 0) 1 1
    let r := q.withField 32 (BitVec.ofNat 16 Phase.prepare.code)
    let m := n.withField 32 (BitVec.ofNat 16 Phase.prepare.code)
    Heard house r 1 ∧ house.role 1 = .foh ∧ (r.fields.map (·.id)).Nodup ∧ q.index.toNat = 0 + 1 ∧ q.issue = 0 ∧
      fld 1 2 ∈ r.fields ∧ r.fields.takeWhile (fun x => x != fld 1 2) = [] ∧ formOf .perf 1 r.fields (fld 1 2) = some .badField ∧
      Heard house m 1 ∧ (m.fields.map (·.id)).Nodup ∧ fld 33 0 ∈ m.fields ∧
      m.fields.takeWhile (fun x => x != fld 33 0) = [] ∧ formOf .perf 1 m.fields (fld 33 0) = some .notAmendable := by
  unfold Heard; decide +kernel

theorem witness_PhaseRequestChecked_role :
    let q := ask 2 1
    let r := q.withField 32 (BitVec.ofNat 16 Phase.prepare.code)
    let p := askWith (fld 2 100) 1 1
    let w := p.withField 32 (BitVec.ofNat 16 Phase.prepare.code)
    Heard house r 2 ∧ house.role 2 = .stage ∧ (r.fields.map (·.id)).Nodup ∧ q.index.toNat = 0 + 1 ∧ q.issue = 0 ∧
      (∀ f ∈ r.fields, formOf .perf 1 r.fields f = none) ∧ house.isStageOf 2 0 = false ∧
      Heard house w 1 ∧ (w.fields.map (·.id)).Nodup ∧ (∀ f ∈ w.fields, formOf .perf 1 w.fields f = none) ∧
      amendsSettings .perf w.fields = true := by
  unfold Heard; decide +kernel

theorem witness_PhaseRequestChecked_phase :
    let q := ask 1 1
    let r (p : Phase) := q.withField 32 (BitVec.ofNat 16 p.code)
    house.role 1 = .foh ∧ q.index.toNat = 0 + 1 ∧ q.issue = 0 ∧
      (∀ p ∈ [Phase.dark, .running, .prepare],
        Heard house (r p) 1 ∧ ((r p).fields.map (·.id)).Nodup ∧ (∀ f ∈ (r p).fields, formOf .perf 1 (r p).fields f = none) ∧
          amendsSettings .perf (r p).fields = false) ∧
      house.phase 0 = .dark ∧ house.phase 0 ≠ .running := by
  unfold Heard; decide +kernel

theorem witness_PhaseRequestChecked_transition :
    let r := (ask 1 1).withField 32 (BitVec.ofNat 16 Phase.beginners.code)
    let w := (ask 3 1).withField 32 (BitVec.ofNat 16 Phase.houseOpen.code)
    Heard (at_ .houseOpen) r 1 ∧ (at_ .houseOpen).role 1 = .foh ∧ (∀ f ∈ r.fields, formOf .perf 1 r.fields f = none) ∧
      amendsSettings .perf r.fields = false ∧ ((at_ .houseOpen).phase 0, Phase.beginners) = (.houseOpen, .beginners) ∧
      Heard (at_ .prepare) w 3 ∧ (at_ .prepare).isStageOf 3 0 = true ∧
      ((at_ .prepare).phase 0, Phase.houseOpen) = (.prepare, .houseOpen) := by
  unfold Heard; decide +kernel

theorem witness_PhaseRequestChecked_hold :
    let r := (ask 1 1).withField 32 (BitVec.ofNat 16 Phase.houseOpen.code)
    Heard preparing r 1 ∧ preparing.role 1 = .foh ∧ (∀ f ∈ r.fields, formOf .perf 1 r.fields f = none) ∧
      preparing.frameGood.holdLists[0][0]? = some 4 ∧
      preparing.frameGood.hold? 0 4 = some ⟨none, .iron, .proof⟩ ∧ preparing.phase 0 = .prepare := by
  unfold Heard; decide +kernel

theorem witness_StationHoldsRaisedAndRetired_raised :
    let r := req 1 0 0 [fld 32 1, fld 35 255]
    let w := req 3 0 0 [fld 35 1, fld 32 1]
    Heard preparing r 1 ∧ r.index = 0 ∧ r.issue = 0 ∧ r.fields = [⟨32, BitVec.ofNat 16 (0 + 1)⟩, ⟨35, BitVec.ofNat 16 255⟩] ∧
      preparing.role 1 = .foh ∧ preparing.phase 0 ≠ .dark ∧ preparing.frameGood.hold? 0 0 = none ∧
      0 ∉ preparing.frameGood.holdLists[0] ∧ Heard house w 3 ∧ house.isStageOf 3 0 = true ∧ house.phase 0 = .dark := by
  unfold Heard; decide +kernel

/-- The four station holds of A stand. -/
def held : State :=
  let h : HoldSlot := ⟨1, some ⟨some 1, .station, .code 7⟩⟩
  { at_ .prepare with
    holds := put house.holds 0 (put (put (put (put house.holds[0] 0 h) 1 h) 2 h) 3 h)
    holdLists := put house.holdLists 0 [0, 1, 2, 3] }

theorem witness_StationHoldsRaisedAndRetired_full :
    let r := req 1 0 0 [fld 32 1, fld 35 1]
    Heard held r 1 ∧ held.role 1 = .foh ∧ held.phase 0 ≠ .dark ∧
      (∀ j : Fin 8, j.1 < 4 → held.frameGood.hold? 0 j ≠ none) := by
  unfold Heard; decide +kernel

theorem witness_StationHoldsRaisedAndRetired_lastSlot :
    let s := { held with holds := put held.holds 0 (put held.holds[0] 3 ⟨255, none⟩), holdLists := put house.holdLists 0 [0, 1, 2] }
    Heard s (req 1 0 0 [fld 32 1, fld 35 1]) 1 ∧ s.role 1 = .foh ∧ s.phase 0 ≠ .dark ∧
      s.frameGood.hold? 0 3 = none ∧ (∀ j : Fin 8, j < 3 → s.frameGood.hold? 0 j ≠ none) ∧
      s.frameGood.holds[0][(3 : Fin 8)].issue = 255 := by
  unfold Heard; decide +kernel

theorem witness_StationHoldsRaisedAndRetired_form :
    Heard house (req 1 0 0 [fld 33 1]) 1 ∧ house.role 1 = .foh ∧ fld 33 1 ∈ (req 1 0 0 [fld 33 1]).fields ∧
      Heard house (req 4 0 0 [fld 32 1, fld 35 1]) 4 ∧ house.role 4 ≠ .foh ∧ house.isStageOf 4 0 = false ∧
      (req 4 0 0 [fld 32 1, fld 35 1]).fields = [⟨32, BitVec.ofNat 16 (0 + 1)⟩, ⟨35, 1⟩] := by
  unfold Heard; decide +kernel

theorem witness_StationHoldsRaisedAndRetired_retired :
    Heard held (req 1 4 1 []) 1 ∧ (req 1 4 1 []).index.toNat = holdIndex 0 3 ∧
      held.frameGood.holds[0][(3 : Fin 8)] = ⟨(req 1 4 1 []).issue.toNat, some ⟨some 1, .station, .code 7⟩⟩ ∧
      held.role 1 ≠ .stage ∧ held.role 1 ≠ .none ∧
      Heard held (req 3 4 1 []) 3 ∧ held.role 3 ≠ held.role 1 ∧
      Heard preparing (req 1 5 1 []) 1 ∧ (req 1 5 1 []).index.toNat = holdIndex 0 4 ∧
      preparing.frameGood.holds[0][(4 : Fin 8)] = ⟨(req 1 5 1 []).issue.toNat, some ⟨none, .iron, .proof⟩⟩ := by
  unfold Heard; decide +kernel

theorem witness_StationHoldsRaisedAndRetired_amended :
    Heard held (req 1 4 1 [fld 35 9]) 1 ∧ ((req 1 4 1 [fld 35 9]).fields.map (·.id)).Nodup := by
  unfold Heard; decide +kernel

/-- The hold's issue is 1 and its fifth slot is empty. -/
theorem witness_StationHoldsRaisedAndRetired_noRecord :
    Heard held (req 1 4 2 []) 1 ∧ (req 1 4 2 []).index.toNat = holdIndex 0 3 ∧ held.role 1 = .foh ∧
      held.frameGood.holds[0][(3 : Fin 8)].issue ≠ 2 ∧ Heard held (req 1 4 0 [fld 35 1]) 1 ∧
      (req 1 4 0 [fld 35 1]).issue = 0 ∧ Heard held (req 1 5 1 []) 1 ∧
      (req 1 5 1 []).index.toNat = holdIndex 0 4 ∧ held.frameGood.hold? 0 4 = none := by
  unfold Heard; decide +kernel

theorem witness_AutomaticHoldEvaluated :
    (at_ .prepare).phase 0 ≠ .dark ∧ (at_ .prepare).holdReason 0 .iron = some .proof ∧
      (at_ .prepare).hold? 0 (holdSlot .iron) = none ∧ holdSlot .iron ∉ (at_ .prepare).holdLists[0] ∧
      preparing.holdReason 0 .iron = some .proof ∧ (preparing.hold? 0 (holdSlot .iron)).isSome = true ∧
      (at_ .prepare).holdReason 0 .supply = none ∧ (at_ .prepare).hold? 0 (holdSlot .supply) = none ∧
      house.phase 0 = .dark := by
  decide +kernel

theorem witness_AutomaticHoldEvaluated_removed :
    let s := withHold 0 6 ⟨none, .supply, .mains⟩ (at_ .prepare)
    s.phase 0 ≠ .dark ∧ s.holdReason 0 .supply = none ∧ s.hold? 0 (holdSlot .supply) = some ⟨none, .supply, .mains⟩ := by
  decide +kernel

/-! ### The curtain -/

theorem witness_RaiseJudgedAndTimed_timeout :
    raised.powered = true ∧ raised.irons[0].motion = .raising ∧ house.irons[0].motion ≠ .raising := by
  decide +kernel

theorem witness_RaiseJudgedAndTimed_turnedAway :
    HeardAlone house (ask 4 3) 4 (2 + 1) 0 ∧ house.role 4 = .fire ∧ house.settings.irons[2].present = false ∧
      HeardAlone house (ask 1 1) 1 (0 + 1) 0 ∧ house.role 1 = .foh ∧ house.settings.irons[0].present = true ∧
      house.isStageOf 1 0 = false := by
  unfold HeardAlone; decide +kernel

theorem witness_RaiseJudgedAndTimed_judged :
    let d := ironIs 0 (fun x => { x with motion := .descending }) house
    HeardAlone raised (ask 4 1) 4 (0 + 1) 0 ∧ raised.role 4 = .fire ∧ raised.irons[0].motion = .raising ∧
      HeardAlone d (ask 3 1) 3 (0 + 1) 0 ∧ d.isStageOf 3 0 = true ∧ d.irons[0].motion = .descending ∧
      HeardAlone (withIncident staffFire house) (ask 3 1) 3 (0 + 1) 0 ∧
      (∃ i ∈ (withIncident staffFire house).openIncidents, has i.auds 0 = true) ∧
      (withIncident staffFire house).irons[0].motion = .atIn := by
  unfold HeardAlone; decide +kernel

theorem witness_RaiseJudgedAndTimed_begun :
    HeardAlone house (ask 3 1) 3 (0 + 1) 0 ∧ house.isStageOf 3 0 = true ∧ house.settings.irons[0].present = true ∧
      house.irons[0].motion = .atIn ∧ (∀ i ∈ house.openIncidents, has i.auds 0 = false) ∧
      house.irons[0].pressed = false ∧ house.irons[0].fault = none ∧ house.supply.mains = .present := by
  unfold HeardAlone; decide +kernel

theorem witness_DemandInReleases :
    (∀ m ∈ [Motion.atIn, .raising, .atOut, .stopped, .descending],
      let s := ironIs 0 (fun x => { x with motion := m }) house
      HeardAlone s (ask 1 1) 1 (0 + 1) 0 ∧ s.settings.irons[0].present = true ∧ s.role 1 = .foh ∧
        s.irons[0].motion = m) := by
  unfold HeardAlone; decide +kernel

theorem witness_ClearFaultEmptiesField :
    let f := ironIs 0 (fun x => { x with fault := some .drift }) preparing
    let g := { f with perfs := put f.perfs 0 { f.perfs[0] with ironProved := .proved } }
    HeardAlone f (ask 0 1) 0 (0 + 1) 0 ∧ f.role 0 = .engineer ∧ f.settings.irons[0].present = true ∧
      f.irons[0].motion = .atIn ∧ f.irons[0].fault ≠ none ∧ HoldsLawful f.frameGood ∧ f.phase 0 ≠ .dark ∧
      unproved f.perfs[0].ironProved = true ∧ HeardAlone g (ask 0 1) 0 (0 + 1) 0 ∧ HoldsLawful g.frameGood ∧
      unproved g.perfs[0].ironProved = false := by
  unfold HeardAlone HoldsLawful; decide +kernel

theorem witness_ClearFaultEmptiesField_other :
    HeardAlone house (ask 1 1) 1 (0 + 1) 0 ∧ house.role 1 = .foh ∧ house.isStageOf 1 0 = false ∧
      HeardAlone raised (ask 3 1) 3 (0 + 1) 0 ∧ raised.isStageOf 3 0 = true ∧ raised.irons[0].motion ≠ .atIn ∧
      HeardAlone house (ask 3 1) 3 (0 + 1) 0 ∧ house.irons[0].motion = .atIn ∧ house.irons[0].fault = none := by
  unfold HeardAlone; decide +kernel

/-- A clear fault beside a setting: admitted, from a station that is no ENGINEER, of a channel that is not IN, and
with a slowdown point above travel; a demand beside a setting; and either on an absent channel. -/
theorem witness_ClearFaultEmptiesField_settings :
    let f := ironIs 0 (fun x => { x with fault := some .drift }) house
    let r (st : Fin 8) (ch id v act : Nat) := (askWith (fld id v) st ch).withField (BitVec.ofNat 8 act) 1
    lawful .iron f (r 0 1 5 1 128) 0 = true ∧ f.lockedOut 0 = none ∧ f.irons[0].motion = .atIn ∧ f.irons[0].fault ≠ none ∧
      f.settingsClash .iron 1 (r 0 1 5 1 128).fields = none ∧
      lawful .iron f (r 3 1 5 1 128) 3 = true ∧ f.lockedOut 3 = some (.notPermitted, none) ∧
      lawful .iron raised (r 0 1 5 1 128) 0 = true ∧ raised.lockedOut 0 = none ∧ raised.irons[0].motion ≠ .atIn ∧
      lawful .iron f (r 0 1 3 60000 128) 0 = true ∧ f.settingsClash .iron 1 (r 0 1 3 60000 128).fields = some (.badField, none) ∧
      lawful .iron f (r 3 1 5 1 37) 3 = true ∧ f.settings.irons[0].present = true ∧ lawful .iron f (r 0 3 5 1 128) 0 = true ∧
      f.settings.irons[2].present = false := by
  decide +kernel

theorem witness_LocalReleasePressed :
    (∀ m ∈ [Motion.atIn, .raising, .atOut, .stopped, .descending],
      let s := ironIs 0 (fun x => { x with motion := m }) house
      s.powered = true ∧ s.settings.irons[0].present = true ∧ s.irons[0].pressed = false ∧ s.irons[0].motion = m) ∧
      (ironIs 0 (fun x => { x with pressed := true }) house).irons[0].pressed = true ∧
      house.settings.irons[2].present = false := by
  decide +kernel

theorem witness_LocalReleasePressed_raise :
    let s := ironIs 0 (fun x => { x with pressed := true, motion := .stopped }) house
    HeardAlone s (ask 4 1) 4 (0 + 1) 0 ∧ s.settings.irons[0].present = true ∧ s.role 4 = .fire ∧
      (∀ i ∈ s.openIncidents, has i.auds 0 = false) ∧ s.irons[0].motion = .stopped ∧ s.irons[0].pressed = true ∧
      HeardAlone house (ask 4 1) 4 (0 + 1) 0 ∧ house.irons[0].motion = .atIn ∧ house.irons[0].pressed = false ∧
      house.irons[0].fault = none ∧ house.supply.mains = .present := by
  unfold HeardAlone; decide +kernel

/-- The ends of the position: a count down at 0 and up at 65535, beside one that the position follows. -/
theorem witness_EncoderCountMoves_ends :
    let f := ironIs 0 (fun x => { x with position := 65535 }) house
    house.powered = true ∧ house.settings.irons[0].present = true ∧ house.irons[0].motion = .atIn ∧
      house.irons[0].position = 0 ∧ f.powered = true ∧ f.irons[0].position = 65535 ∧
      raised.irons[0].motion = .raising ∧ house.settings.irons[2].present = false := by
  decide +kernel

/-- The drift tolerance is 200: one count beyond it, under the motor and at rest. -/
theorem witness_EncoderCountMoves_faults :
    let w := ironIs 0 (fun x => { x with motion := .raising, position := 500, raiseTravel := 10, raiseTop := 210 }) house
    let c := ironIs 0 (fun x => { x with motion := .atOut, position := 500, restTravel := -200 }) house
    w.irons[0].raiseTravel + -1 + w.settings.irons[0].driftTol < max w.irons[0].raiseTop (w.irons[0].raiseTravel + -1) ∧
      w.irons[0].position ≠ 0 ∧ c.irons[0].restTravel + -1 + c.settings.irons[0].driftTol < 0 ∧
      c.irons[0].sawCreep = false ∧ c.irons[0].position ≠ 0 := by
  decide +kernel

theorem witness_EncoderCountMoves_creepLost :
    let c := ironIs 0 (fun x => { x with motion := .stopped, position := 0, restTravel := -200 }) house
    c.powered = true ∧ c.irons[0].motion = .stopped ∧ c.irons[0].position = 0 ∧ c.irons[0].sawCreep = false ∧
      c.irons[0].restTravel + -1 + c.settings.irons[0].driftTol < 0 := by
  decide +kernel

/-- The tolerance on each side of the index, 23800: 200 counts are not drift and 201 are. -/
theorem witness_PositionReloaded_index :
    let p (n : Nat) := ironIs 0 (fun x => { x with motion := .raising, position := n }) house
    (p 24000).powered = true ∧ (p 24000).settings.irons[0].present = true ∧
      ¬DriftsFrom (p 24000).settings.irons[0].indexPos (p 24000).settings.irons[0].driftTol (p 24000).irons[0] ∧
      DriftsFrom (p 24001).settings.irons[0].indexPos (p 24001).settings.irons[0].driftTol (p 24001).irons[0] ∧
      ¬DriftsFrom (p 23600).settings.irons[0].indexPos (p 23600).settings.irons[0].driftTol (p 23600).irons[0] ∧
      DriftsFrom (p 23599).settings.irons[0].indexPos (p 23599).settings.irons[0].driftTol (p 23599).irons[0] := by
  unfold DriftsFrom; decide +kernel

theorem witness_PositionReloaded_limits :
    let o := ironIs 0 (fun x => { x with motion := .raising, position := 24000 }) house
    let d := ironIs 0 (fun x => { x with motion := .atOut, position := 24000 }) house
    o.powered = true ∧ o.settings.irons[0].present = true ∧ o.irons[0].motion = .raising ∧
      ¬DriftsFrom o.settings.irons[0].travel o.settings.irons[0].driftTol o.irons[0] ∧
      DriftsFrom raised.settings.irons[0].travel raised.settings.irons[0].driftTol raised.irons[0] ∧
      d.irons[0].motion = .atOut ∧ d.irons[0].motion ≠ .descending ∧ house.irons[0].motion = .atIn ∧
      ¬DriftsFrom 0 house.settings.irons[0].driftTol house.irons[0] ∧
      DriftsFrom 0 o.settings.irons[0].driftTol o.irons[0] := by
  unfold DriftsFrom; decide +kernel

/-- A FULL descent of A that has crossed the slowdown. -/
def falling (f : Iron → Iron) : State :=
  ironIs 0 (fun x => f { x with
    motion := .descending, kind := some .full, reason := some .demand, sub := some .checked, position := 4,
    descentTimer := 241, crossing := some 186 }) (inPhase 0 .prepare house)

theorem witness_LimitInEndsDescent :
    let s := falling id
    s.powered = true ∧ s.settings.irons[0].present = true ∧ s.irons[0].motion = .descending ∧
      ¬DriftsFrom 0 s.settings.irons[0].driftTol s.irons[0] ∧ s.irons[0].firstFault = none ∧
      s.irons[0].crossing = some 186 ∧ s.irons[0].kind = some .full ∧
      ¬(s.irons[0].descentTimer < s.settings.irons[0].descentMin ∨ 241 - 186 < s.settings.irons[0].finalMin) ∧
      s.phase 0 = .prepare := by
  unfold DriftsFrom; decide +kernel

theorem witness_LimitInEndsDescent_early :
    let e := falling fun x => { x with descentTimer := 149, crossing := some 100 }
    let d := falling fun x => { x with position := 201, firstFault := some .stall }
    let p := falling fun x => { x with kind := some .part, crossing := none }
    e.irons[0].descentTimer < e.settings.irons[0].descentMin ∧ e.irons[0].kind = some .full ∧
      DriftsFrom 0 d.settings.irons[0].driftTol d.irons[0] ∧ d.irons[0].firstFault = some .stall ∧
      p.irons[0].kind ≠ some .full ∧ p.irons[0].crossing = none ∧ p.irons[0].motion = .descending := by
  unfold DriftsFrom; decide +kernel

theorem witness_SampleSupervisesDescent_crossing :
    let s := falling fun x => { x with sub := some .free, crossing := none, position := 3000 }
    let u := falling fun x => { x with sub := some .free, crossing := none, position := 24000, referenced := false, descentTimer := 0 }
    s.powered = true ∧ s.settings.irons[0].present = true ∧ s.irons[0].motion = .descending ∧
      s.irons[0].sub = some .free ∧ s.irons[0].position ≤ s.settings.irons[0].slowdown ∧
      u.irons[0].sub = some .free ∧ u.irons[0].referenced = false ∧ min 65535 (u.irons[0].descentTimer + 1) ≤ 1 ∧
      house.irons[0].motion ≠ .descending ∧ house.irons[0].samplePos = house.irons[0].position ∧
      house.settings.irons[2].present = false := by
  decide +kernel

/-- A cold-start descent that an index event has referenced before its first sample, above the slowdown point,
crosses at it (R62); a descent that the fire release began from there stays FREE. -/
theorem witness_SampleSupervisesDescent_referenced :
    let s := falling fun x => { x with
      kind := some .part, reason := some .restart, sub := some .free, crossing := none, position := 24000
      referenced := true, descentTimer := 0 }
    s.powered = true ∧ s.settings.irons[0].present = true ∧ s.irons[0].motion = .descending ∧
      s.irons[0].sub = some .free ∧ s.irons[0].referenced = true ∧ s.settings.irons[0].slowdown < s.irons[0].position ∧
      min 65535 (s.irons[0].descentTimer + 1) = 1 ∧ (after (.descentSample 0) s).irons[0].sub = some .checked ∧
      (after (.descentSample 0) s).checkOutput 0 = true ∧
      (ironIs 0 (fun x => { x with reason := some .fire }) s).irons[0].reason ≠ some .restart ∧
      (after (.descentSample 0) (ironIs 0 (fun x => { x with reason := some .fire }) s)).irons[0].sub = some .free := by
  decide +kernel

/-- The ends of the three checks: 80 counts a sample, a stall time of 20 and t_descent_max of 300. -/
theorem witness_SampleSupervisesDescent_checks :
    let o := falling fun x => { x with sampleMove := 81 }
    let t := falling fun x => { x with still := 19 }
    let l := falling fun x => { x with descentTimer := 299, sampleMove := 1 }
    o.irons[0].sub = some .checked ∧ o.settings.irons[0].vFinalMax < o.irons[0].sampleMove ∧
      t.irons[0].sawStall = false ∧ t.irons[0].sampleMove = 0 ∧
      t.settings.irons[0].stallTime ≤ t.irons[0].still + 1 ∧ l.irons[0].sawTooSlow = false ∧
      l.irons[0].kind = some .full ∧ l.settings.irons[0].descentMax ≤ min 65535 (l.irons[0].descentTimer + 1) := by
  decide +kernel

/-! ### Zones and incidents -/

theorem witness_BandEventFollowed_ignored :
    house.powered = true ∧ house.settings.zones[0].present = false ∧ house.zones[10].band = .normal := by
  decide +kernel

theorem witness_BandEventFollowed_active :
    house.powered = true ∧ house.settings.zones[10].present = true ∧ house.zones[10].band ≠ .active ∧
      house.zones[10].detection = .normal ∧ house.zones[10].isolated = false := by
  decide +kernel

/-- At the ends of the noise counter: 30 and 31 transients before this one. -/
theorem witness_BandEventFollowed_transient :
    let p (n : Nat) := zoneIs 10 (fun x => { x with band := .active, detection := .pending, confirmAt := some 22000, noise := n }) house
    (p 30).zones[10].detection = .pending ∧ (p 30).zones[10].band ≠ .normal ∧ (p 30).zones[10].noise + 1 < 32 ∧
      (p 31).zones[10].detection = .pending ∧ ¬(p 31).zones[10].noise + 1 < 32 := by
  decide +kernel

theorem witness_BandEventFollowed_loop :
    let a := zoneIs 10 (fun x => { x with band := .active, detection := .alarm }) house
    let f := zoneIs 10 (fun x => { x with band := .short, loopFault := true, condition := .fault }) house
    a.zones[10].detection = .alarm ∧ a.zones[10].band ≠ .short ∧ f.zones[10].loopFault = true ∧
      f.zones[10].band ≠ .normal ∧ f.zones[10].detection = .normal := by
  decide +kernel

theorem witness_ConfirmRaisesIncident_raised :
    confirming.powered = true ∧ confirming.zones[10].detection = .pending ∧
      confirming.zones[10].confirmAt = some 20000 ∧ confirming.zones[10].incident = none ∧
      IncidentsLawful confirming ∧ confirming.incident? 0 = none := by
  unfold IncidentsLawful Incident.lawful; decide +kernel

/-- Another zone's STAFF incident shares an auditorium. -/
theorem witness_ConfirmRaisesIncident_second :
    let s := withIncident { staffFire with source := .zone 9 } confirming
    s.zones[10].detection = .pending ∧ s.zones[10].confirmAt = some 20000 ∧ s.zones[10].incident = none ∧
      IncidentsLawful s ∧ s.incident? 1 = none ∧ (∀ j : Fin 25, j < 1 → s.incident? j ≠ none) ∧
      (s.incident? 0).any (fun v => v.stage == .staff && meets v.auds s.settings.zones[10].auds) = true := by
  unfold IncidentsLawful Incident.lawful; decide +kernel

theorem witness_ConfirmRaisesIncident_again :
    let s := withIncident staffFire confirming
    let c := { s with settings := { s.settings with zones := put s.settings.zones 10 { s.settings.zones[10] with type := .callpoint } } }
    s.powered = true ∧ s.zones[10].detection = .pending ∧ s.zones[10].confirmAt = some 20000 ∧
      s.zones[10].incident = some 0 ∧ s.incident? 0 = some staffFire ∧ s.settings.zones[10].type = .detector ∧
      c.zones[10].incident = some 0 ∧ c.incident? 0 = some staffFire ∧ c.settings.zones[10].type ≠ .detector := by
  decide +kernel

theorem witness_ConfirmRaisesIncident_none :
    house.zones[10].detection ≠ .pending ∧ house.zones[10].confirmAt = none := by decide +kernel

theorem witness_ConfirmRaisesIncident_full :
    let s := { confirming with incidents := tab fun _ => ⟨1, some staffFire⟩ }
    s.powered = true ∧ s.zones[10].detection = .pending ∧ s.zones[10].confirmAt ≠ none ∧
      s.zones[10].incident = none ∧ (∀ i : Fin 25, s.incident? i ≠ none) := by
  decide +kernel

theorem witness_ZoneTimersRun :
    let q (n : Nat) := zoneIs 10 (fun x => { x with noise := n, quietAt := some 380000 }) house
    let l := zoneIs 10 (fun x => { x with band := .short, loopAt := some 25000 }) house
    house.powered = true ∧ (q 1).zones[10].quietAt = some 380000 ∧ (q 1).zones[10].noise ≤ 1 ∧
      (q 2).zones[10].quietAt = some 380000 ∧ ¬(q 2).zones[10].noise ≤ 1 ∧ l.zones[10].loopAt = some 25000 ∧
      house.zones[10].quietAt = none ∧ house.zones[10].loopAt = none := by
  decide +kernel

theorem witness_ZoneActionsApplied_refused :
    HeardAlone house (ask 4 1) 4 (0 + 1) 0 ∧ house.role 4 = .fire ∧ house.settings.zones[0].present = false ∧
      HeardAlone house (ask 1 11) 1 (10 + 1) 0 ∧ house.role 1 = .foh ∧ house.settings.zones[10].present = true := by
  unfold HeardAlone; decide +kernel

theorem witness_ZoneActionsApplied :
    let a := zoneIs 10 (fun x => { x with detection := .alarm, band := .active }) house
    let i := zoneIs 10 (fun x => { x with isolated := true, condition := .isolated, band := .active }) house
    HeardAlone a (ask 0 11) 0 (10 + 1) 0 ∧ a.role 0 = .engineer ∧ a.settings.zones[10].present = true ∧
      a.zones[10].detection = .alarm ∧ HeardAlone i (ask 4 11) 4 (10 + 1) 0 ∧ i.role 4 = .fire ∧
      i.zones[10].isolated = true ∧ i.zones[10].band = .active ∧ i.zones[10].detection = .normal ∧
      HeardAlone house (ask 4 11) 4 (10 + 1) 0 ∧ house.zones[10].isolated = false ∧
      house.zones[10].detection ≠ .alarm := by
  unfold HeardAlone; decide +kernel

/-- Z11 isolated and its noise reset in one request; its confirm time amended beside, by a station that may and by
one that may not; an isolation in alarm; and a zone that is absent. -/
theorem witness_ZoneActionsApplied_both :
    let a := zoneIs 10 (fun x => { x with detection := .alarm, band := .active }) house
    let r (id v index : Nat) (st : Fin 8) := (askWith (fld id v) st index).withField 36 1
    lawful .zone house (r 128 1 11 4) 4 = true ∧ house.role 4 = .fire ∧ (¬∃ f ∈ (r 128 1 11 4).fields, f.id.toNat ≤ 8) ∧
      house.settings.zones[10].present = true ∧ house.zones[10].detection ≠ .alarm ∧
      house.settingsClash .zone 11 (r 128 1 11 4).fields = none ∧
      lawful .zone house (r 7 101 11 0) 0 = true ∧ house.role 0 = .engineer ∧ house.lockedOut 0 = none ∧
      (∃ f ∈ (r 7 101 11 0).fields, f.id.toNat ≤ 8) ∧ house.settingsClash .zone 11 (r 7 101 11 0).fields = none ∧
      lawful .zone house (r 7 101 11 4) 4 = true ∧ house.lockedOut 4 = some (.notPermitted, none) ∧
      lawful .zone a (r 128 1 11 4) 4 = true ∧ a.zones[10].detection = .alarm ∧ askedFor (r 128 1 11 4).fields 36 = some 1 ∧
      (r 128 1 11 4).fields = [fld 128 1, fld 36 1] ∧
      lawful .zone house (r 128 1 1 4) 4 = true ∧ house.settings.zones[0].present = false := by
  decide +kernel

/-- A station incident for A is open. -/
def stationFire : State :=
  withIncident { generalFire with source := .station 4, auds := 1, cause := some .station } house

theorem witness_StationIncidentRaised :
    Heard house (req 4 0 0 [fld 33 7]) 4 ∧ house.role 4 = .fire ∧ (7 : AudSet) ≠ 0 ∧
      (req 4 0 0 [fld 33 7]).fields = [⟨33, (7 : AudSet).setWidth 16⟩] ∧ IncidentsLawful house ∧
      (∀ j : Fin 25, (house.incident? j).any Incident.ofStation = false) ∧ house.incident? 0 = none ∧
      Heard house (req 3 0 0 [fld 33 1]) 3 ∧ house.role 3 ≠ .fire ∧ house.role 3 ≠ .foh ∧ house.role 3 ≠ .none := by
  unfold Heard IncidentsLawful Incident.lawful; decide +kernel

theorem witness_StationIncidentRaised_form :
    Heard house (req 4 0 0 [fld 33 8]) 4 ∧ house.role 4 = .fire ∧ house.role 4 ≠ .none ∧
      (∀ set : AudSet, set ≠ 0 → (req 4 0 0 [fld 33 8]).fields ≠ [⟨33, set.setWidth 16⟩]) := by
  unfold Heard; decide +kernel

theorem witness_StationIncidentRaised_widened :
    Heard stationFire (req 1 0 0 [fld 33 2]) 1 ∧ stationFire.role 1 = .foh ∧ IncidentsLawful stationFire ∧
      (stationFire.incident? 0).map (fun x => (x.ofStation, x.auds ||| 2, x.auds ||| 1)) = some (true, 3, 1) := by
  unfold Heard IncidentsLawful Incident.lawful; decide +kernel

theorem witness_IncidentStagesMove_staff :
    let s := withIncident staffFire house
    let k := withIncident { staffFire with ackBy := some 1 } house
    HeardAlone s (ask 1 1 1) 1 (0 + 1) 1 ∧ s.incidents[0] = ⟨1, some staffFire⟩ ∧ s.role 1 = .foh ∧
      staffFire.stage = .staff ∧ staffFire.ackBy = none ∧ HeardAlone s (ask 3 1 1) 3 (0 + 1) 1 ∧
      has staffFire.auds 0 = true ∧ s.isStageOf 3 0 = true ∧ HeardAlone k (ask 1 1 1) 1 (0 + 1) 1 ∧
      k.incidents[0] = ⟨1, some { staffFire with ackBy := some 1 }⟩ ∧ (1 : Nat) < (2 : Word).toNat := by
  unfold HeardAlone; decide +kernel

theorem witness_IncidentStagesMove_other :
    let s := withIncident { staffFire with auds := 1 } house
    let g := withIncident generalFire house
    HeardAlone s (ask 2 1 1) 2 (0 + 1) 1 ∧ s.role 2 = .stage ∧
      ¬(∃ a : Fin 3, has { staffFire with auds := 1 }.auds a = true ∧ s.isStageOf 2 a = true) ∧
      HeardAlone g (ask 4 1 1) 4 (0 + 1) 1 ∧ g.role 4 = .fire ∧ generalFire.stage = .general ∧
      g.incidents[0] = ⟨1, some generalFire⟩ := by
  unfold HeardAlone; decide +kernel

theorem witness_IncidentStagesMove_timers :
    let s := withIncident staffFire house
    let k := withIncident { staffFire with ackBy := some 1 } house
    s.powered = true ∧ s.incident? 0 = some staffFire ∧ staffFire.stage = .staff ∧ staffFire.timerAt = some 50000 ∧
      staffFire.ackBy = none ∧ k.incident? 0 = some { staffFire with ackBy := some 1 } ∧
      (withIncident generalFire house).incident? 0 = some generalFire ∧ generalFire.stage = .general := by
  decide +kernel

/-- Another issue, issue 0 and an empty slot; two actions, a live field, and no field. -/
theorem witness_IncidentStagesMove_record :
    let s := withIncident staffFire house
    let two : AmendReq := { ask 1 1 1 with after := [fld 129 1] }
    let live : AmendReq := { ask 1 1 1 with before := [fld 33 1] }
    Heard s ((ask 1 1 2).withField 128 1) 1 ∧ s.incidents[0].issue ≠ 2 ∧ (ask 1 1).issue = 0 ∧
      Heard s ((ask 1 2 1).withField 128 1) 1 ∧ s.incident? 1 = none ∧ s.role 1 = .foh ∧ s.incident? 0 = some staffFire ∧
      s.incidents[0].issue = 1 ∧ Heard s (two.withField 128 1) 1 ∧
      (two.withField 128 1).fields.find? (fun f => formOf .incident 1 (two.withField 128 1).fields f != none) =
        some (fld 129 1) ∧
      formOf .incident 1 (two.withField 128 1).fields (fld 129 1) = some .badField ∧
      Heard s (live.withField 128 1) 1 ∧ formOf .incident 1 (live.withField 128 1).fields (fld 33 1) = some .notAmendable ∧
      requestOf (.settingsAmendment .incident (req 1 1 1 []) false) = some (.amend, .incident, req 1 1 1 []) := by
  unfold Heard; decide +kernel

theorem witness_IncidentSilencedAndRetired_silenced :
    let s := withIncident staffFire house
    let g := withIncident generalFire house
    HeardAlone s (ask 1 1 1) 1 (0 + 1) 1 ∧ s.role 1 = .foh ∧ s.incidents[0] = ⟨1, some staffFire⟩ ∧
      HeardAlone g (ask 4 1 1) 4 (0 + 1) 1 ∧ g.role 4 = .fire ∧ g.incidents[0] = ⟨1, some generalFire⟩ ∧
      HeardAlone s (ask 3 1 1) 3 (0 + 1) 1 ∧ s.role 3 = .stage ∧ DemandsDerived hushed.frameGood := by
  unfold HeardAlone DemandsDerived SoundersDerived; decide +kernel

theorem witness_IncidentSilencedAndRetired_retired :
    Heard hushed (req 4 1 1 []) 4 ∧ (req 4 1 1 []).index.toNat = 0 + 1 ∧ hushed.role 4 = .fire ∧
      hushed.incidents[0] = ⟨(req 4 1 1 []).issue.toNat, some { generalFire with silenced := true }⟩ ∧
      hushed.zones[10].band ≠ .active ∧ hushed.settings.zones[10].type = .detector ∧
      Heard (withIncident staffFire house) (req 1 1 1 []) 1 ∧ house.role 1 = .foh ∧
      (withIncident staffFire house).zones[10].band ≠ .active := by
  unfold Heard; decide +kernel

/-- The call of A has ended ABANDONED. -/
theorem witness_IncidentSilencedAndRetired_abandoned :
    let s := withCall
      { callOfA with finished := true, outcome := some .abandoned, deliveries := [⟨1, .abandoned, 20000, none, 2, false, false⟩] }
      hushed
    Heard s (req 4 1 1 []) 4 ∧ s.role 4 = .fire ∧ s.zones[10].band ≠ .active ∧
      s.incidents[0] = ⟨1, some { generalFire with silenced := true }⟩ ∧
      (∀ z : Fin 8, s.czones[z].sounding ≠ some 0 ∧ 0 ∉ s.czones[z].queue) := by
  unfold Heard; decide +kernel

theorem witness_IncidentSilencedAndRetired_refused :
    let g := withIncident generalFire house
    let a := zoneIs 10 (fun x => { x with band := .active }) hushed
    Heard g (req 4 1 1 []) 4 ∧ g.role 4 = .fire ∧ g.incidents[0] = ⟨1, some generalFire⟩ ∧
      generalFire.silenced = false ∧ Heard g (req 1 1 1 []) 1 ∧ g.role 1 ≠ .fire ∧ Heard a (req 4 1 1 []) 4 ∧
      a.incidents[0] = ⟨1, some { generalFire with silenced := true }⟩ ∧ generalFire.source = .zone 10 ∧
      a.zones[10].band = .active := by
  unfold Heard; decide +kernel

theorem witness_IncidentSilencedAndRetired_noRecord :
    Heard hushed (req 4 1 2 []) 4 ∧ hushed.role 4 = .fire ∧ hushed.incidents[0].issue ≠ 2 ∧
      Heard hushed (req 4 1 0 []) 4 ∧ (req 4 1 0 []).issue = 0 ∧ Heard hushed (req 4 25 1 []) 4 ∧
      (req 4 25 1 []).index.toNat = 24 + 1 ∧ hushed.incident? 24 = none := by
  unfold Heard; decide +kernel

/-! ### House lights -/

theorem witness_TargetFadeStarted_refused :
    let s := groupIs 8 (fun x => { x with causes := 8 }) house
    let r (st : Fin 8) (g : Nat) := (ask st g).withField 33 500
    Heard house (r 1 12) 1 ∧ house.role 1 = .foh ∧ house.settings.groups[11].present = false ∧
      Heard house (r 3 9) 3 ∧ house.role 3 ≠ .foh ∧ house.settings.groups[8].kind = .foyer ∧
      Heard s (r 1 9) 1 ∧ s.groups[8].causes ≠ 0 ∧ s.settings.groups[8].present = true := by
  unfold Heard; decide +kernel

/-- A target and a fade time beyond their ranges, at a group of an occupied house. -/
theorem witness_TargetFadeStarted_adjusted :
    let q : AmendReq := { ask 3 1 with after := [⟨128, 6001⟩] }
    Heard (at_ .houseOpen) (q.withField 33 1001) 3 ∧ q.index.toNat = 0 + 1 ∧ q.issue = 0 ∧
      q.before ++ q.after = [⟨128, 6001⟩] ∧ (at_ .houseOpen).settings.groups[0].present = true ∧
      (at_ .houseOpen).settings.groups[0].kind ≠ .foyer ∧
      (at_ .houseOpen).isStageOf 3 (at_ .houseOpen).settings.groups[0].aud = true ∧
      (at_ .houseOpen).groups[0].causes = 0 ∧ ((at_ .houseOpen).phase 0).occupied = true := by
  unfold Heard; decide +kernel

theorem witness_TargetFadeStarted_atOnce :
    Heard house ((ask 1 9).withField 33 0) 1 ∧ (ask 1 9).before ++ (ask 1 9).after = [] ∧ house.role 1 = .foh ∧
      house.settings.groups[8].present = true ∧ house.groups[8].causes = 0 := by
  unfold Heard; decide +kernel

theorem witness_TargetFadeStarted_fadeAlone :
    Heard house (req 1 9 0 [⟨128, 30⟩]) 1 ∧ (req 1 9 0 [⟨128, 30⟩]).index.toNat = 8 + 1 ∧ house.role 1 = .foh := by
  unfold Heard; decide +kernel

theorem witness_TargetFadeStarted_settings :
    let r := (askWith (fld 7 500) 0 9).withField 33 500
    let w := (askWith (fld 7 500) 0 12).withField 33 500
    (∀ p ∈ [(r, 8), (w, 11)], Heard house p.1 0 ∧ p.1.index.toNat = p.2 + 1 ∧ p.1.issue = 0 ∧
      (p.1.fields.map (·.id)).Nodup ∧ (∀ f ∈ p.1.fields, formOf .group p.1.index p.1.fields f = none) ∧
      ∃ f ∈ p.1.fields, f.id.toNat ≤ 10) ∧
    house.role 0 = .engineer ∧ house.settings.groups[8].present = true ∧ house.settings.groups[11].present = false := by
  unfold Heard; decide +kernel

/-- G1 stands one step from the end of its fade, G2 at its start, and F2 flickers. -/
def fading : State :=
  groupIs 0 (fun x => { x with level := 4, target := 0, start := 800, steps := 200, step := 199, fading := true })
    (groupIs 1 (fun x => { x with level := 0, target := 1000, start := 0, steps := 30000, step := 0, fading := true })
      chiming)

theorem witness_FadeStepAdvances :
    fading.powered = true ∧ fading.settings.groups[0].present = true ∧ fading.groups[0].fading = true ∧
      fading.groups[0].step + 1 = fading.groups[0].steps ∧ fading.groups[1].fading = true ∧
      fading.groups[1].step + 1 < fading.groups[1].steps ∧ fading.settings.groups[1].present = true ∧
      fading.settings.groups[8].present = true ∧ fading.groups[8].fading = false ∧
      fading.settings.groups[2].present = false ∧ fading.flickers[1].code = 3 := by
  decide +kernel

theorem witness_FadeStepAdvances_level : 0 < 30000 ∧ 30000 ≤ 30000 ∧ fadeLevel 0 1000 30000 30000 = 1000 := by
  decide +kernel

/-! ### Calls -/

/-- The RAISE of `callOfA`, its ranged fields above their ranges. -/
def bigCall : Req := req 3 0 0 [fld 33 1, fld 34 0, fld 35 1, fld 36 9, fld 37 17, fld 38 6001, fld 39 3, fld 40 2]

theorem witness_CallRaisedAndQueued_form :
    let s := at_ .beginners
    Heard s (req 3 0 0 [fld 34 2]) 3 ∧ s.role 3 = .stage ∧
      (req 3 0 0 [fld 34 2]).fields.find? (fun f => !s.callFieldOk (req 3 0 0 [fld 34 2]).fields f) = some (fld 34 2) ∧
      Heard s (req 3 0 0 [fld 34 1]) 3 ∧
      (∀ f ∈ (req 3 0 0 [fld 34 1]).fields, s.callFieldOk (req 3 0 0 [fld 34 1]).fields f = true) ∧
      callWhole (req 3 0 0 [fld 34 1]).fields = false := by
  unfold Heard; decide +kernel

theorem witness_CallRaisedAndQueued_free :
    let s := at_ .beginners
    Heard s bigCall 3 ∧ (bigCall.fields.map (·.id)).Nodup ∧ (∀ f ∈ bigCall.fields, s.callFieldOk bigCall.fields f = true) ∧
      callWhole bigCall.fields = true ∧ askedFor bigCall.fields 40 = some 2 ∧ askedFor bigCall.fields 34 = some 0 ∧
      (askedFor bigCall.fields 33).bind (entryNo 3) = some 0 ∧ s.isStageOf 3 0 = true ∧ s.phase 0 = .beginners ∧
      s.czones[1].barred = false ∧ s.call? 0 = none ∧ s.czones[1].sounding = none ∧ s.czones[1].queue = [] ∧
      s.czones[1].suppressed = false ∧
      burstMode (s.circuits[chimeOf 1].condition == .sound) (s.litNow 1) 3 = some (.chimeFlicker, 3) := by
  unfold Heard; decide +kernel

/-- F2 sounds another call already. -/
theorem witness_CallRaisedAndQueued_queued :
    let s := calling .beginners
    Heard s bigCall 3 ∧ (∀ f ∈ bigCall.fields, s.callFieldOk bigCall.fields f = true) ∧ s.isStageOf 3 0 = true ∧
      s.phase 0 = .beginners ∧ s.czones[1].barred = false ∧ s.call? 1 = none ∧ (∀ j : Fin 32, j < 1 → s.call? j ≠ none) ∧
      1 ∉ s.czones[1].queue ∧ s.czones[1].sounding ≠ none := by
  unfold Heard; decide +kernel

/-- F2 is free, with a delivery in its queue that is not yet due. -/
theorem witness_CallRaisedAndQueued_behind :
    let s := czoneIs 1 (fun x => { x with queue := [0] })
      (withCall { callOfA with deliveries := [⟨1, .waiting, 50000, some 20000, 1, false, false⟩] } (at_ .beginners))
    Heard s bigCall 3 ∧ (∀ f ∈ bigCall.fields, s.callFieldOk bigCall.fields f = true) ∧ s.isStageOf 3 0 = true ∧
      s.phase 0 = .beginners ∧ s.czones[1].barred = false ∧ s.call? 1 = none ∧ (∀ j : Fin 32, j < 1 → s.call? j ≠ none) ∧
      s.czones[1].sounding = none ∧ s.czones[1].queue = [0] ∧ s.isDue 1 0 = false ∧
      (after (.raiseCall bigCall) s).czones[1].sounding = some 1 := by
  unfold Heard; decide +kernel

/-- Neither the chime circuit of F2 nor its light can tell the call. -/
theorem witness_CallRaisedAndQueued_undelivered :
    let s := groupIs 8 (fun x => { x with causes := 8, driven := 1000, drive := 1023 })
      { circuitIs 7 (fun x => { x with condition := .failed, overloads := 4 }) (at_ .beginners) with
        supply := { house.supply with mains := .lost } }
    Heard s bigCall 3 ∧ (∀ f ∈ bigCall.fields, s.callFieldOk bigCall.fields f = true) ∧ s.isStageOf 3 0 = true ∧
      s.phase 0 = .beginners ∧ s.czones[1].barred = false ∧ s.call? 0 = none ∧ s.czones[1].sounding = none ∧
      s.czones[1].queue = [] ∧ s.czones[1].suppressed = false ∧ s.circuits[chimeOf 1].condition ≠ .sound ∧
      s.litNow 1 = false := by
  unfold Heard; decide +kernel

/-- The table is full of FINISHED calls. -/
def callsOver : State :=
  { at_ .beginners with
    calls := tab fun _ => ⟨255, some { callOfA with finished := true, outcome := some .complete, deliveries := [] }⟩
    callList := List.finRange 32 }

theorem witness_CallRaisedAndQueued_replaced :
    Heard callsOver bigCall 3 ∧ (∀ f ∈ bigCall.fields, callsOver.callFieldOk bigCall.fields f = true) ∧
      callsOver.isStageOf 3 0 = true ∧ callsOver.phase 0 = .beginners ∧ callsOver.czones[1].barred = false ∧
      (∀ j : Fin 32, callsOver.call? j ≠ none) ∧ callsOver.callList.Nodup ∧
      callsOver.callList.find? (fun j => (callsOver.call? j).any (·.finished)) = some 0 := by
  unfold Heard; decide +kernel

theorem witness_CallRaisedAndQueued_lawful :
    CallsLawful callsOver ∧ CallsLawful chiming ∧ chiming.callList = [0] ∧
      ∃ t, step (asked (.retireCall (req 1 1 1 [])) chiming) = .next t :=
  ⟨by unfold CallsLawful; decide +kernel, by unfold CallsLawful; decide +kernel, rfl, step_asked (by decide +kernel)⟩

theorem witness_CallRaisedAndQueued_refused :
    let b := czoneIs 1 (fun x => { x with barred := true }) (at_ .beginners)
    let f := { at_ .beginners with calls := tab fun _ => ⟨1, some callOfA⟩ }
    (∀ s ∈ [at_ .running, at_ .beginners, b, f], (∀ x ∈ bigCall.fields, s.callFieldOk bigCall.fields x = true)) ∧
      Heard (at_ .beginners) { bigCall with station := 5 } 4 ∧ (at_ .beginners).role 4 = .fire ∧
      Heard (at_ .running) bigCall 3 ∧ (at_ .running).phase 0 = .running ∧ Heard b bigCall 3 ∧ b.czones[1].barred = true ∧
      Heard f bigCall 3 ∧ (∀ c : Fin 32, f.call? c = some callOfA) ∧ callOfA.finished = false := by
  unfold Heard; decide +kernel

theorem witness_CallAmendedAndRetired_amended :
    Heard chiming (req 3 1 1 [fld 35 3, fld 38 49]) 3 ∧ (req 3 1 1 []).index.toNat = 0 + 1 ∧
      chiming.calls[0].issue = 1 ∧ (chiming.call? 0).map (·.origin) = some 3 ∧
      ((req 3 1 1 [fld 35 3, fld 38 49]).fields.map (·.id)).Nodup ∧
      (∀ f ∈ (req 3 1 1 [fld 35 3, fld 38 49]).fields, formOf .call 1 [fld 35 3, fld 38 49] f = none) ∧
      (chiming.call? 0).map (fun x => x.deliveries.any (·.state == .waiting)) = some false := by
  unfold Heard; decide +kernel

/-- The call waits in F2 behind another call that sounds there. -/
theorem witness_CallAmendedAndRetired_waiting :
    let s := czoneIs 1 (fun x => { x with sounding := some 1, mode := some .chime, queue := [0] })
      (withCall { callOfA with deliveries := [⟨1, .waiting, 50000, some 20000, 1, false, false⟩] } house)
    Heard s (req 1 1 1 [fld 38 6000]) 1 ∧ s.role 1 = .foh ∧ s.calls[0].issue = 1 ∧ s.czones[1].sounding ≠ none ∧
      s.delivery? 0 1 = some ⟨1, .waiting, 50000, some 20000, 1, false, false⟩ ∧ callOfA.deliveries.length = 1 ∧
      Heard s (req 1 1 1 []) 1 := by
  unfold Heard; decide +kernel

theorem witness_CallAmendedAndRetired_refused :
    Heard chiming (req 3 1 1 [fld 35 4]) 3 ∧ chiming.role 3 = .stage ∧ chiming.calls[0].issue = 1 ∧
      (req 3 1 1 [fld 35 4]).fields.find? (fun f => formOf .call 1 [fld 35 4] f != none) = some (fld 35 4) ∧
      Heard chiming (req 3 1 1 [fld 36 1]) 3 ∧
      (req 3 1 1 [fld 36 1]).fields.find? (fun f => formOf .call 1 [fld 36 1] f != none) = some (fld 36 1) ∧
      Heard chiming (req 4 1 1 [fld 35 2]) 4 ∧ (∀ f ∈ (req 4 1 1 [fld 35 2]).fields, formOf .call 1 [fld 35 2] f = none) ∧
      chiming.role 4 = .fire ∧ callOfA.origin ≠ 4 := by
  unfold Heard; decide +kernel

theorem witness_CallAmendedAndRetired_retired :
    Heard chiming (req 1 1 1 []) 1 ∧ (req 1 1 1 []).index.toNat = 0 + 1 ∧ chiming.calls[0].issue = 1 ∧
      chiming.role 1 = .foh ∧ (chiming.call? 0).map (fun x => x.deliveries.map fun d => (d.zone, d.unended)) = some [(1, true)] ∧
      Heard chiming (req 2 1 1 []) 2 ∧ chiming.role 2 = .stage ∧ callOfA.origin ≠ 2 := by
  unfold Heard; decide +kernel

/-- The call's first burst sounded at 10 s and it waits in F2, with nothing sounding there. -/
def waitingFree (notBefore : Nat) : State :=
  czoneIs 1 (fun x => { x with queue := [0] })
    (withCall { callOfA with deliveries := [⟨1, .waiting, notBefore, some 10000, 1, false, false⟩] }
      { house with stations := tab fun _ => ⟨0, 0⟩ })

/-- F2 is free or suppressed, and an interval of 5 s or of 30 s makes the delivery due or not. -/
theorem witness_CallAmendedAndRetired_free :
    let s := waitingFree 40000
    let p := czoneIs 1 (fun x => { x with suppressed := true }) s
    (∀ v ∈ [50, 300], ∀ t ∈ [s, p], Heard t (req 1 1 1 [fld 38 v, fld 35 1]) 1 ∧ t.role 1 = .foh ∧
      t.calls[0].issue = 1 ∧ t.czones[1].sounding = none ∧
      (t.call? 0).map (fun x => x.deliveries.map fun d => (d.zone, d.state, d.lastStart)) =
        some [(1, .waiting, some 10000)]) ∧
    10000 + 50 * 100 ≤ s.now ∧ ¬10000 + 300 * 100 ≤ s.now := by
  unfold Heard; decide +kernel

/-- An interval equal to the call's own moves a not before that an interval before it had set: CALL is marked (R133,
R138). -/
theorem test_amendCall_notBefore :
    let t := after (.amendCall (req 1 1 1 [fld 38 300])) (waitingFree 70000)
    (t.delivery? 0 1).map (·.notBefore) = some 40000 ∧ (t.call? 0).map (·.interval) = some 300 ∧
      t.stations[1].flags = classBit .call := by
  decide +kernel

theorem witness_CallAmendedAndRetired_noRecord :
    Heard chiming (req 1 1 2 [fld 35 1]) 1 ∧ chiming.role 1 = .foh ∧ chiming.calls[0].issue ≠ 2 ∧
      Heard chiming (req 1 1 0 []) 1 ∧ (req 1 1 0 []).issue = 0 ∧ Heard chiming (req 1 32 1 []) 1 ∧
      (req 1 32 1 []).index.toNat = 31 + 1 ∧ chiming.call? 31 = none := by
  unfold Heard; decide +kernel

/-- The call is retired while it waits behind another in F2. -/
theorem witness_CallAmendedAndRetired_queued :
    let s := czoneIs 1 (fun x => { x with sounding := some 1, queue := [2, 0] }) (waitingFree 40000)
    Heard s (req 3 1 1 []) 3 ∧ callOfA.origin = 3 ∧ s.calls[0].issue = 1 ∧ s.czones[1].sounding ≠ some 0 ∧
      (s.call? 0).map (fun x => x.deliveries.map fun d => (d.zone, d.unended)) = some [(1, true)] := by
  unfold Heard; decide +kernel

theorem witness_BurstTimersRun_due :
    let d : Delivery := ⟨1, .waiting, 50000, some 20000, 1, false, false⟩
    let s := czoneIs 1 (fun x => { x with queue := [0] }) (withCall { callOfA with deliveries := [d] } house)
    s.powered = true ∧ s.call? 0 = some { callOfA with deliveries := [d] } ∧ s.delivery? 0 1 = some d ∧
      s.settings.czones[1].present = true ∧ s.czones[1].sounding = none ∧ s.czones[1].queue = [0] ∧
      s.czones[1].suppressed = false ∧ s.czones[1].barred = false ∧ s.circuits[chimeOf 1].condition = .sound := by
  decide +kernel

theorem witness_BurstTimersRun_notWaiting : ∀ d, house.delivery? 0 1 = some d → d.state ≠ .waiting := by
  intro d h
  exact absurd h (by rw [show house.delivery? 0 1 = none by decide +kernel]; simp)

/-- A delivery of a zone that is suppressed, and of one that sounds another call, comes due. -/
theorem witness_BurstTimersRun_closed :
    let s := czoneIs 1 (fun x => { x with queue := [0], suppressed := true }) (withCall callOfA house)
    let b := czoneIs 1 (fun x => { x with queue := [0], sounding := some 1, mode := some .chime }) (withCall callOfA house)
    s.powered = true ∧ s.delivery? 0 1 = some ⟨1, .waiting, 20000, none, 2, false, false⟩ ∧
      s.czones[1].suppressed = true ∧ s.czones[1].sounding = none ∧ b.powered = true ∧
      b.delivery? 0 1 = some ⟨1, .waiting, 20000, none, 2, false, false⟩ ∧ b.czones[1].sounding ≠ none := by
  decide +kernel

theorem witness_BurstTimersRun_strokes :
    let g (n : Nat) := czoneIs 1 (fun x => { x with strokeEnd := none, gapEnd := some 21200, strokesSounded := n }) chiming
    chiming.powered = true ∧ chiming.czones[1].strokeEnd = some 20400 ∧ (g 2).czones[1].gapEnd = some 21200 ∧
      (g 2).czones[1].strokesSounded < (g 2).czones[1].strokes ∧ (g 3).czones[1].gapEnd = some 21200 ∧
      (g 3).czones[1].strokes ≤ (g 3).czones[1].strokesSounded ∧ house.czones[1].strokeEnd = none ∧
      house.czones[1].gapEnd = none ∧ house.czones[1].burstEnd = none := by
  decide +kernel

/-- The burst ends as the last of its call, and as one before the last. -/
theorem witness_BurstTimersRun_end :
    let last := withCall { callOfA with deliveries := [⟨1, .sounding, 20000, none, 1, false, false⟩] } chiming
    chiming.powered = true ∧ chiming.czones[1].burstEnd = some 23600 ∧ chiming.czones[1].sounding = some 0 ∧
      chiming.czones[1].burstStart = some 20000 ∧ chiming.czones[1].queue = [] ∧
      (chiming.call? 0).map (fun x => (x.finished, x.interval, x.deliveries.length)) = some (false, 300, 1) ∧
      chiming.delivery? 0 1 = some ⟨1, .sounding, 20000, none, 2, false, false⟩ ∧
      max chiming.now 23600 < 20000 + 300 * 100 ∧ last.czones[1].burstEnd = some 23600 ∧
      last.delivery? 0 1 = some ⟨1, .sounding, 20000, none, 1, false, false⟩ := by
  decide +kernel

/-- The burst ends where another call's delivery is due first, and where its own next start has passed. -/
theorem witness_BurstTimersRun_next :
    let d : Delivery := ⟨1, .sounding, 20000, none, 2, false, false⟩
    let s := { czoneIs 1 (fun x => { x with queue := [1] })
        { chiming with calls := put chiming.calls 1 ⟨1, some { callOfA with priority := 2 }⟩, callList := [0, 1] } with
      now := 23600 }
    let n := { withCall { callOfA with interval := 50, deliveries := [d] } chiming with now := 26000 }
    s.powered = true ∧ s.czones[1].burstEnd = some 23600 ∧ s.isDue 1 1 = true ∧
      (after (.burstEnd 1) s).czones[1].sounding = some 1 ∧ n.powered = true ∧ n.czones[1].burstEnd = some 23600 ∧
      20000 + 50 * 100 ≤ n.now ∧ (after (.burstEnd 1) n).czones[1].burstStart = some 26000 := by
  decide +kernel

/-- F2 is no longer lit, in each mode of its burst and while it is free. -/
theorem witness_BurstTimersRun_lit :
    let dim (s : State) := groupIs 8 (fun x => { x with causes := 8 }) s
    let burst (m : BurstMode) := dim (czoneIs 1 (fun x => { x with mode := some m }) chiming)
    (dim chiming).lit[1] = true ∧ (dim chiming).litNow 1 = false ∧
      (∀ y : Fin 8, y ≠ 1 → (dim chiming).lit[y] = (dim chiming).litNow y) ∧
      (dim chiming).czones[1].mode = some .chimeFlicker ∧ (burst .flicker).lit[1] = true ∧
      (burst .flicker).litNow 1 = false ∧ (burst .flicker).czones[1].sounding = some 0 ∧
      (burst .flicker).czones[1].burstStart = some 20000 ∧ (burst .chime).czones[1].mode = some .chime ∧
      (dim house).lit[1] = true ∧ (dim house).czones[1].mode = none := by
  decide +kernel

/-- Z11's incident comes over F2: suppressed at STAFF while it sounds and while it is free, and barred at GENERAL. -/
theorem witness_BurstTimersRun_silenced :
    let s := withIncident staffFire chiming
    let f := withIncident staffFire house
    let b := czoneIs 1 (fun x => { x with queue := [0] }) (withIncident generalFire (withCall callOfA house))
    let g := withIncident generalFire chiming
    s.settings.czones[1].present = true ∧ s.barredNow 1 = false ∧ s.czones[1].barred = false ∧
      s.czones[1].suppressed = false ∧ s.suppressedNow 1 = true ∧ s.czones[1].sounding = some 0 ∧
      s.delivery? 0 1 = some ⟨1, .sounding, 20000, none, 2, false, false⟩ ∧ f.suppressedNow 1 = true ∧
      f.barredNow 1 = false ∧ f.czones[1].sounding = none ∧ g.barredNow 1 = true ∧ g.czones[1].barred = false ∧
      g.czones[1].sounding = some 0 ∧ (g.call? 0).isSome = true ∧ b.barredNow 1 = true ∧ b.czones[1].barred = false ∧
      b.czones[1].queue = [0] ∧ b.call? 0 = some callOfA := by
  decide +kernel

/-- A suppression of F2 has lasted until now, and a bar. -/
theorem witness_BurstTimersRun_lifted :
    let s := czoneIs 1 (fun x => { x with queue := [0], suppressed := true }) (withCall callOfA house)
    s.settings.czones[1].present = true ∧ s.barredNow 1 = false ∧ s.czones[1].barred = false ∧
      s.czones[1].suppressed = true ∧ s.suppressedNow 1 = false ∧ s.czones[1].sounding = none ∧
      (s.deriveSilence 1).czones[1].sounding = some 0 ∧
      (czoneIs 1 (fun x => { x with barred := true }) house).czones[1].barred = true ∧ house.barredNow 1 = false ∧
      house.settings.czones[0].present = false := by
  decide +kernel

/-! ### Circuits, supply, starts and settings -/

theorem witness_CircuitTimersRun :
    let p (q : Pattern) := circuitIs 14 (fun x => { x with
      demand := true, drive := true, pattern := q, switchedOn := true, partEnd := some 20500 }) house
    let c := circuitIs 4 (fun x => { x with demand := true, drive := true, switchedOn := true, condition := .overload, overloads := 1, cleanAt := some 35000 }) house
    let o := circuitIs 4 (fun x => { x with condition := .overload, overloads := 2, offAt := some 22000 }) house
    house.powered = true ∧ (p .slow).circuits[14].partEnd = some 20500 ∧ (p .slow).circuits[14].drive = true ∧
      (p .slow).circuits[14].pattern = .slow ∧ (p .fast).circuits[14].pattern = .fast ∧
      house.circuits[14].partEnd = none ∧ tripped.circuits[4].retryAt = some 25000 ∧ tripped.circuits[4].lawful ∧
      c.circuits[4].cleanAt = some 35000 ∧ o.circuits[4].offAt = some 22000 ∧ house.circuits[4].retryAt = none ∧
      house.circuits[4].cleanAt = none ∧ house.circuits[4].offAt = none ∧ isChime 4 = false := by
  unfold Circuit.lawful; decide +kernel

/-- The third and the fourth trip, and a circuit that is off. -/
theorem witness_OverloadTripsAndReset_trip :
    let f (n : Nat) := circuitIs 4 (fun x => { x with demand := true, drive := true, switchedOn := true, overloads := n }) house
    (f 2).powered = true ∧ (f 2).circuits[4].drive = true ∧ (f 2).circuits[4].switchedOn = true ∧
      ¬(4 ≤ (f 2).circuits[4].overloads + 1 ∨ (f 2).settings.circuits[4].retry = false) ∧
      4 ≤ (f 3).circuits[4].overloads + 1 ∧ (f 3).circuits[4].drive = true ∧ house.circuits[4].drive = false := by
  decide +kernel

theorem witness_OverloadTripsAndReset_chime :
    let s := czoneIs 1 (fun x => { x with mode := some .chime, flickerCode := 0 })
      { chiming with flickers := house.flickers }
    chiming.powered = true ∧ chiming.circuits[7].drive = true ∧ chiming.circuits[7].switchedOn = true ∧
      (7 : Fin 16) = chimeOf 1 ∧ chiming.circuits[7].condition = .sound ∧
      chiming.czones[1].mode = some .chimeFlicker ∧ s.circuits[7].drive = true ∧ s.circuits[7].switchedOn = true ∧
      s.circuits[7].condition = .sound ∧ s.czones[1].mode = some .chime ∧ s.litNow 1 = true ∧
      s.czones[1].sounding = some 0 ∧ (s.call? 0).isSome = true := by
  decide +kernel

/-- The chime of F2 is lost in a CHIME burst, and no light stands in for it. -/
theorem witness_OverloadTripsAndReset_unlit :
    let s := groupIs 8 (fun x => { x with causes := 8 })
      (czoneIs 1 (fun x => { x with mode := some .chime, flickerCode := 0 }) { chiming with flickers := house.flickers })
    s.powered = true ∧ s.circuits[7].drive = true ∧ s.circuits[7].switchedOn = true ∧ s.circuits[7].condition = .sound ∧
      (7 : Fin 16) = chimeOf 1 ∧ s.czones[1].mode = some .chime ∧ s.litNow 1 = false ∧ s.czones[1].sounding = some 0 ∧
      s.czones[1].burstStart = some 20000 ∧ (s.delivery? 0 1).isSome = true := by
  decide +kernel

theorem witness_OverloadTripsAndReset_reset :
    let f := circuitIs 4 (fun x => { x with condition := .failed, overloads := 4 }) house
    HeardAlone f (ask 4 5) 4 (4 + 1) 0 ∧ f.role 4 = .fire ∧ f.circuits[4].condition = .failed ∧
      HeardAlone tripped (ask 0 5) 0 (4 + 1) 0 ∧ tripped.role 0 = .engineer ∧ tripped.circuits[4].condition = .overload ∧
      HeardAlone house (ask 4 16) 4 (15 + 1) 0 ∧ house.circuits[15].condition = .sound ∧
      HeardAlone house (ask 1 1) 1 (0 + 1) 0 ∧ house.role 1 = .foh := by
  unfold HeardAlone; decide +kernel

/-- A reset beside a setting, of a tripped circuit and of a sound one, by the ENGINEER and by FIRE. -/
theorem witness_OverloadTripsAndReset_settings :
    let q (st : Fin 8) (c : Nat) := askWith (fld 2 0) st c
    (∀ p ∈ [((0 : Fin 8), 5), (0, 1), (4, 5)],
      let r := (q p.1 p.2).withField 128 1
      Heard tripped r p.1 ∧ r.issue = 0 ∧ tripped.role p.1 ≠ .none ∧ tripped.role p.1 ≠ .view ∧
        (r.fields.map (·.id)).Nodup ∧ ∀ f ∈ (q p.1 p.2).before ++ (q p.1 p.2).after,
          f.id.toNat ≤ 2 ∧ formOf .circuit r.index r.fields f = none) ∧
    tripped.lockedOut 0 = none ∧ tripped.lockedOut 4 = some (.notPermitted, none) ∧
      tripped.circuits[4].condition = .overload ∧ tripped.circuits[0].condition = .sound := by
  unfold Heard; decide +kernel

theorem witness_SupplyFollowsLines_mains :
    let w (m : Mains) (b : Bool) := { house with
      supply := { house.supply with mains := m }, lines := { house.lines with mainsPresent := b } }
    (∀ m ∈ [Mains.present, .settling], (w m true).powered = true ∧ (w m true).lines.mainsPresent ≠ false) ∧
      (w .lost false).powered = true ∧ (w .lost false).lines.mainsPresent ≠ true ∧
      house.lines.mainsPresent = true ∧ house.lines.supplyLow = false ∧ house.lines.cellGood = true := by
  decide +kernel

theorem witness_SupplyFollowsLines_timers :
    let t := { house with supply := { house.supply with
      lossAt := some 20500, settlingAt := some 30000, safetyAt := some 21000, cellAt := some 21000 } }
    let r := { t with supply := { t.supply with cellLow := true } }
    t.powered = true ∧ t.supply.lossAt = some 20500 ∧ t.supply.settlingAt = some 30000 ∧
      t.supply.safetyAt = some 21000 ∧ t.supply.cellAt = some 21000 ∧ t.supply.cellLow = false ∧
      r.supply.cellLow = true ∧ house.supply.lossAt = none ∧ house.supply.settlingAt = none ∧
      house.supply.safetyAt = none ∧ house.supply.cellAt = none := by
  decide +kernel

/-- A start from the image with the retained copy whole, after a power cut in the act; one with the copy lost;
one of a board whose image is blank; and one from the reset pin. -/
theorem witness_ColdStartRestores :
    let p : Plant := ⟨true, false, true, true, 1, 0, tab fun _ => .normal, BitVec.allOnes 16⟩
    let s := { playing with powered := false, retained := { playing.retained with checkGood := true } }
    s.imageGood = true ∧ (p.cellGood && p.copyIntact && s.retained.checkGood) = true ∧
      s.image.perfs[0].present = true ∧ s.retained.entries[0].phase ≠ .dark ∧ s.retained.entries[0].phase ≠ .prepare ∧
      s.retained.entries[1].phase = .dark ∧ s.image.irons[0].present = true ∧ s.image.zones[10].present = true ∧
      ({ p with copyIntact := false }.cellGood && { p with copyIntact := false }.copyIntact) = false ∧
      State.reset.imageGood = false ∧ playing.powered = true := by
  decide +kernel

theorem witness_SettingsAmendedAndLocked_turnedAway :
    let r (st : Fin 8) := req st 1 0 [fld 2 1000]
    let k := { house with store := { house.store with locked := true } }
    (∀ st ∈ [(0 : Fin 8), 1], Heard house (r st) st ∧ house.role st ≠ .none ∧ house.role st ≠ .view) ∧
      ((r 0).fields.map (·.id)).Nodup ∧ (r 0).issue = 0 ∧ (r 0).index.toNat ≤ kindSize .perf ∧
      (∀ f ∈ (r 0).fields, 1 ≤ f.id.toNat ∧ f.id.toNat ≤ topSetting .perf ∧ formOf .perf 1 (r 0).fields f = none) ∧
      house.role 1 ≠ .engineer ∧ Heard storing (r 0) 0 ∧ storing.store.state = .storing ∧ Heard playing (r 0) 0 ∧
      playing.phase 0 ≠ .dark ∧ Heard k (r 0) 0 ∧ k.store.locked = true ∧ k.role 0 = .engineer := by
  unfold Heard; decide +kernel

theorem witness_SettingsAmendedAndLocked_amended :
    house.role 0 = .engineer ∧ house.store.state ≠ .storing ∧ (∀ a, house.phase a = .dark) ∧
      house.store.locked = false ∧
      (∀ c ∈ [(Kind.perf, req 0 3 0 [fld 5 601]), (.iron, req 0 1 0 [fld 2 24000]), (.zone, req 0 11 0 [fld 1 1]),
          (.station, req 0 8 0 [fld 3 0])],
        Heard house c.2 0 ∧ (c.2.fields.map (·.id)).Nodup ∧ c.2.issue = 0 ∧ 1 ≤ c.2.index.toNat ∧
          c.2.index.toNat ≤ kindSize c.1 ∧
          (∀ f ∈ c.2.fields, 1 ≤ f.id.toNat ∧ f.id.toNat ≤ topSetting c.1 ∧
            formOf c.1 c.2.index c.2.fields f = none)) := by
  unfold Heard; decide +kernel

theorem witness_SettingsAmendedAndLocked_admitted :
    house.lockedOut 0 = none ∧ house.settingsClash .iron 1 [fld 2 24000] = none ∧
      house.settingsClash .zone 11 [fld 1 1] = none ∧ house.settingsClash .station 8 [fld 3 0] = none ∧
      house.settingsClash .perf 3 [fld 5 601] = none := by
  decide +kernel

/-- Settings that the record's own state does not stand against, of a channel that is not IN and of a zone that
signals; and those that it and the cross-field checks refuse. -/
theorem witness_SettingsAmendedAndLocked_clashes :
    let z := zoneIs 10 (fun x => { x with detection := .alarm }) house
    raised.lockedOut 0 = none ∧ raised.irons[0].motion ≠ .atIn ∧ raised.settingsClash .iron 1 [fld 2 24000] = none ∧
      raised.settingsClash .iron 1 [fld 1 0] = some (.refused, some .ironNotIn) ∧
      z.lockedOut 0 = none ∧ z.settingsClash .zone 11 [fld 7 20] = none ∧
      z.settingsClash .zone 11 [fld 2 1] = some (.refused, some .zoneInAlarm) ∧
      house.settingsClash .iron 1 [fld 3 60000] = some (.badField, none) ∧
      house.settingsClash .iron 1 [fld 7 50] = some (.badField, none) ∧
      house.settingsClash .station 1 [fld 1 0] = some (.badField, none) := by
  decide +kernel

/-- Flaws of form of every kind of fixed record, and a request without a field. -/
theorem witness_SettingsAmendedAndLocked_form :
    let first (k : Kind) (index : Byte) (fs : List FieldVal) := fs.find? fun f => formOf k index fs f != none
    let two : AmendReq := { ask 3 1 with after := [fld 128 1] }
    Heard house (two.withField 37 1) 3 ∧
      requestOf (.demandOut two) = some (.amend, .iron, two.withField 37 1) ∧
      first .iron 1 (two.withField 37 1).fields = some (fld 128 1) ∧
      formOf .iron 1 (two.withField 37 1).fields (fld 128 1) = some .badField ∧
      first .perf 1 [fld 33 0] = some (fld 33 0) ∧ formOf .perf 1 [fld 33 0] (fld 33 0) = some .notAmendable ∧
      first .zone 11 [fld 7 1, fld 2 3] = some (fld 2 3) ∧ first .group 9 [fld 128 30] = some (fld 128 30) ∧
      first .czone 1 [fld 2 8] = some (fld 2 8) ∧ first .circuit 7 [fld 1 1] = some (fld 1 1) ∧
      first .circuit 6 [fld 1 7] = none ∧ first .status 1 [fld 42 2] = some (fld 42 2) ∧
      first .station 1 [fld 1 6] = some (fld 1 6) ∧ Heard house (req 4 1 0 []) 4 ∧ house.role 4 = .fire := by
  unfold Heard; decide +kernel

/-- An amendment of settings by the ENGINEER: heard, of good form, and what it makes of the settings. -/
def amends (k : Kind) (index : Nat) (fs : List FieldVal) (s : State) (p : Settings → Bool) : Bool :=
  let r := req 0 index 0 fs
  s.powered && s.link.reply == none && decide (fs.length ≤ 24 ∧ r.station.toNat = 1) && s.role 0 == .engineer &&
    s.store.state != .storing && !s.store.locked && decide (∀ a, s.phase a = .dark) &&
    s.lockedOut 0 == none && s.settingsClash k r.index fs == none &&
    decide (fs ≠ [] ∧ r.issue = 0 ∧ r.index.toNat = index ∧ 1 ≤ index ∧ index ≤ kindSize k) &&
    decide ((fs.map (·.id)).Nodup) &&
    fs.all (fun f => decide (1 ≤ f.id.toNat ∧ f.id.toNat ≤ topSetting k) && formOf k r.index fs f == none) &&
    p (after (.settingsAmendment k r true) s).settings

/-- A channel and a zone are made present and absent, and a zone's type is changed. -/
theorem witness_SettingsAmendedAndLocked_presence :
    let z := { house with settings := { playhouse with zones := put playhouse.zones 10 { playhouse.zones[10] with present := true } } }
    amends .iron 3 [fld 1 1] house (·.irons[2].present) = true ∧ amends .iron 1 [fld 1 0] house (!·.irons[0].present) = true ∧
      amends .zone 11 [fld 1 1] house (·.zones[10].present) = true ∧ amends .zone 11 [fld 1 0] z (!·.zones[10].present) = true ∧
      amends .zone 11 [fld 2 1] z (fun x => x.zones[10].type != .detector) = true := by
  decide +kernel

/-- A group is made present and absent, and one that the mains alone forced is given another feed. -/
theorem witness_SettingsAmendedAndLocked_group :
    let m := groupIs 8 (fun x => { x with causes := 8 }) { house with supply := { house.supply with mains := .lost }, lit := tab fun _ => false }
    amends .group 5 [fld 1 1] house (·.groups[4].present) = true ∧ amends .group 9 [fld 1 0] house (!·.groups[8].present) = true ∧
      amends .group 9 [fld 5 1] m (fun x => x.groups[8].feed == .standby) = true ∧ m.groups[8].causes ≠ 0 ∧
      (after (.settingsAmendment .group (req 0 9 0 [fld 5 1]) false) m).causesOf 8 = 0 := by
  decide +kernel

/-- A call zone with a call is made absent, one is made present, and one serves another auditorium; a circuit, the
brigade link, and the role and mask of a station are changed. -/
theorem witness_SettingsAmendedAndLocked_others :
    amends .czone 2 [fld 1 0] (inPhase 0 .dark chiming) (!·.czones[1].present) = true ∧
      amends .czone 1 [fld 1 1] house (·.czones[0].present) = true ∧
      amends .czone 2 [fld 2 4] house (fun x => x.czones[1].serves == 4) = true ∧
      amends .circuit 1 [fld 1 7] house (fun x => x.circuits[0].serves == 7) = true ∧
      amends .status 1 [fld 4 0] house (!·.part.brigadeLink) = true ∧
      amends .station 2 [fld 1 0] house (fun x => x.stations[1].role == .none) = true ∧
      amends .station 8 [fld 1 3] house (fun x => x.stations[7].role == .foh) = true ∧
      amends .station 6 [fld 3 2] house (fun x => x.stations[5].mask == 2) = true := by
  decide +kernel

/-- The fields of PERF 1 at and beyond the ends of their ranges. -/
theorem witness_SettingsAmendedAndLocked_perf :
    let r := req 0 1 0 [fld 1 0, fld 2 1000, fld 3 1001, fld 4 600, fld 5 601]
    Heard house r 0 ∧ r.index.toNat = 0 + 1 ∧ r.issue = 0 ∧ (r.fields.map (·.id)).Nodup ∧
      (∀ f ∈ r.fields, 1 ≤ f.id.toNat ∧ f.id.toNat ≤ 5) ∧ (∀ f ∈ r.fields, f.id = 1 → f.value.toNat ≤ 1) ∧
      house.role 0 = .engineer ∧ house.store.locked = false ∧ (∀ b, house.phase b = .dark) := by
  unfold Heard; decide +kernel

/-- The lock in one request with the address, in range and beyond it. -/
theorem witness_SettingsAmendedAndLocked_lockWithSettings :
    let k := { house with store := { house.store with locked := true } }
    let r (w : Nat) (v : Word) := (askWith (fld 1 w) 0 1).withField 42 v
    lawful .status house (r 2 1) 0 = true ∧ lawful .status house (r 32 0) 0 = true ∧ lawful .status k (r 2 1) 0 = true ∧
      (r 2 1).fields = [fld 1 2, fld 42 1] ∧ (r 2 1).index = 1 ∧
      house.lockedOut 0 = none ∧ k.lockedOut 0 = some (.locked, none) ∧ house.role 0 = .engineer := by
  decide +kernel

theorem witness_SettingsAmendedAndLocked_lock :
    let k := { house with store := { house.store with locked := true } }
    HeardAlone house (ask 0 1) 0 1 0 ∧ house.role 0 = .engineer ∧ house.store.locked = false ∧
      HeardAlone k (ask 0 1) 0 1 0 ∧ k.role 0 = .engineer ∧ k.store.locked = true ∧ HeardAlone house (ask 4 1) 4 1 0 ∧
      house.role 4 ≠ .engineer ∧ house.role 4 ≠ .view ∧ (1 : Nat) < (2 : Word).toNat := by
  unfold HeardAlone; decide +kernel

end Sys2Proof.Tests

end
end

section
/-!
PROOFS. Phase requests that are heard (R5, R184), the lighting of a phase change that moves no force cause (R6,
R115, R121, R122), and the transitions to BEGINNERS and INTERVAL (R9, R11).
-/

namespace Sys2Proof

theorem entryOf_eq_some {n : Nat} {b : Byte} {i : Fin n} (h : b.toNat = i.1 + 1) : entryOf n b = some i := by
  have range : 1 ≤ b.toNat ∧ b.toNat ≤ n := by omega
  unfold entryOf
  rw [dif_pos range]
  exact congrArg some (Fin.ext (by simp [h]))

/-- An entry put where it stands already leaves the table as it was. -/
theorem put_self {α : Type} {n : Nat} (v : Vector α n) (i : Fin n) : put v i v[i] = v := by
  ext j hj
  have h := put_get v i ⟨j, hj⟩ v[i]
  by_cases e : (⟨j, hj⟩ : Fin n) = i
  · rw [if_pos e] at h; subst e; exact h
  · rw [if_neg e] at h; exact h

/-- Doing something for every entry reaches `Q` where the turn of `g` does, the turns before it keep `P` and those
after it keep `Q`. -/
theorem forAll_turn {σ : Type} {n : Nat} {P Q : σ → Prop} {f : Fin n → σ → σ} (g : Fin n)
    (before : ∀ i s, i ≠ g → P s → P (f i s)) (turn : ∀ s, P s → Q (f g s))
    (after : ∀ i s, i ≠ g → Q s → Q (f i s)) (s : σ) (hs : P s) : Q (forAll n f s) := by
  have rest : ∀ (l : List (Fin n)) (s : σ), g ∉ l → Q s → Q (l.foldl (fun s i => f i s) s) := by
    intro l
    induction l with
    | nil => exact fun s _ hs => hs
    | cons i l ih =>
      intro s hg hs
      obtain ⟨hi, hl⟩ := not_or.1 (mt List.mem_cons.2 hg)
      exact ih _ hl (after i s (Ne.symm hi) hs)
  have whole : ∀ (l : List (Fin n)) (s : σ), l.Nodup → g ∈ l → P s → Q (l.foldl (fun s i => f i s) s) := by
    intro l
    induction l with
    | nil => intro s _ hg; cases hg
    | cons i l ih =>
      intro s once hg hs
      obtain ⟨hi, hl⟩ := List.nodup_cons.1 once
      by_cases e : i = g
      · subst e; exact rest l _ hi (turn s hs)
      · exact ih _ hl ((List.mem_cons.1 hg).resolve_left (Ne.symm e)) (before i s e hs)
  exact whole _ s (List.nodup_finRange n) (List.mem_finRange g) hs

end Sys2Proof

namespace Sys2Proof.Machine

/-! ## A phase request that is heard (R5, R184) -/

/-- A good frame of a station while the receiver is open is answered as `decide` says (R181, R183). -/
theorem State.serve_heard {s : State} {r : Req} {st : Fin 8} (h : Heard s r st)
    (decide : Fin 8 → State → Verdict) :
    s.serve r decide =
      (decide st s.frameGood).2.reply s.settings.part.address r.station (decide st s.frameGood).1 := by
  obtain ⟨powered, silent, short, station⟩ := h
  have listens : s.listening = true := by simp [State.listening, powered, silent]
  simp [State.serve, listens, short, entryOf_eq_some station]

/-- The request of station `st` for the phase `p`, as the performance unit takes it. -/
def phaseAsk (q : AmendReq) (st : Fin 8) (p : Phase) : Ask where
  st := st
  kind := .perf
  req := q.withField 32 (BitVec.ofNat 16 p.code)

theorem exec_phaseCommand (p : Phase) (q : AmendReq) (s : State) :
    exec (phaseCommand p q) s = .next (s.amend .perf (q.withField 32 (BitVec.ofNat 16 p.code)) false) := by
  cases p <;> rfl

/-- The one field of a phase request has good form, is no setting and names the phase (R5, R194, R201). -/
theorem phaseField_form (p : Phase) :
    let fs : List FieldVal := [⟨32, BitVec.ofNat 16 p.code⟩]
    firstFlaw perfForm fs = none ∧ carries fs 32 = true ∧ amendsSettings .perf fs = false ∧
      (askedFor fs 32).bind Phase.ofCode = some p := by
  cases p <;> decide

theorem HeardAlone.heard {s : State} {q : AmendReq} {st : Fin 8} {index issue : Nat}
    (h : HeardAlone s q st index issue) (id : Byte) (v : Word) : Heard s (q.withField id v) st := by
  obtain ⟨powered, silent, before, after, station, -, -⟩ := h
  exact ⟨powered, silent, by simp [AmendReq.withField, before, after], station⟩

theorem HeardAlone.fields {s : State} {q : AmendReq} {st : Fin 8} {index issue : Nat}
    (h : HeardAlone s q st index issue) (id : Byte) (v : Word) : (q.withField id v).fields = [⟨id, v⟩] := by
  obtain ⟨-, -, before, after, -⟩ := h
  simp [AmendReq.withField, before, after]

/-- A role that a phase request may have passes the link port's own check (R5, R184). -/
theorem State.roleAdmits_of_phaseRole {s : State} {st : Fin 8} {a : Fin 3}
    (h : s.role st = .foh ∨ s.isStageOf st a = true) (code : ReqCode) : roleAdmits (s.role st) code = true := by
  obtain foh | stage := h
  · rw [foh]; rfl
  · have role : s.role st = .stage := by
      unfold State.isStageOf at stage
      simp only [Bool.and_eq_true, beq_iff_eq] at stage
      exact stage.1
    rw [role]; rfl

theorem State.linkStop_amendPerf {s : State} {st : Fin 8} {a : Fin 3} {r : Req}
    (index : r.index.toNat = a.1 + 1) (issue : r.issue = 0) (one : r.fields.length = 1)
    (role : s.role st = .foh ∨ s.isStageOf st a = true) : s.linkStop st .amend .perf r = none := by
  obtain ⟨f, fields⟩ := List.length_eq_one_iff.1 one
  have range : 1 ≤ r.index.toNat ∧ r.index.toNat ≤ 3 := by omega
  simp [State.linkStop, State.roleAdmits_of_phaseRole role, isDynamic, kindSize, issue, fields, repeated, carries,
    fieldOf, range]

theorem State.frameGood_settings (s : State) : s.frameGood.settings = s.settings :=
  s.frameGood_changes.same .settings (by decide)

theorem State.frameGood_role (s : State) (st : Fin 8) : s.frameGood.role st = s.role st := by
  simp [State.role, State.frameGood_settings]

theorem State.frameGood_isStageOf (s : State) (st : Fin 8) (a : Fin 3) :
    s.frameGood.isStageOf st a = s.isStageOf st a := by
  simp [State.isStageOf, State.role, State.frameGood_settings]

theorem State.frameGood_perfs (s : State) : s.frameGood.perfs = s.perfs := s.frameGood_changes.same .perfs (by decide)

theorem State.frameGood_phase (s : State) (a : Fin 3) : s.frameGood.phase a = s.phase a := by
  simp [State.phase, State.frameGood_perfs]

theorem State.amendPerf_phaseAsk {q : AmendReq} {st : Fin 8} {a : Fin 3} {p : Phase} {u : State}
    (alone : (phaseAsk q st p).req.fields = [⟨32, BitVec.ofNat 16 p.code⟩])
    (role : u.role st = .foh ∨ u.isStageOf st a = true) :
    u.amendPerf (phaseAsk q st p) a = u.phaseRequest (phaseAsk q st p) a p := by
  obtain ⟨form, carried, noSetting, named⟩ := phaseField_form p
  have admitted : (u.role st == .foh || u.isStageOf st a) = true := by simpa using role
  have stop : u.settingsStop (phaseAsk q st p) = none := by
    simp only [State.settingsStop, alone]
    exact if_neg (by rw [show (phaseAsk q st p).kind = .perf from rfl, noSetting]; decide)
  simp only [State.amendPerf, alone, form, carried, stop, named, show (phaseAsk q st p).st = st from rfl, admitted,
    Bool.not_true, Bool.and_false, Bool.false_eq_true, if_false]

/-- A phase request from a station whose role may have one is decided by the third check of R5 and on. -/
theorem exec_phaseCommand_heard {q : AmendReq} {a : Fin 3} {st : Fin 8} {s : State} (p : Phase)
    (h : HeardAlone s q st (a.1 + 1) 0) (role : s.role st = .foh ∨ s.isStageOf st a = true) :
    exec (phaseCommand p q) s =
      .next ((s.frameGood.phaseRequest (phaseAsk q st p) a p).2.reply s.settings.part.address q.station
        (s.frameGood.phaseRequest (phaseAsk q st p) a p).1) := by
  have alone := h.fields 32 (BitVec.ofNat 16 p.code)
  have heard := h.heard 32 (BitVec.ofNat 16 p.code)
  obtain ⟨-, -, -, -, -, index, issue⟩ := h
  have role' : s.frameGood.role st = .foh ∨ s.frameGood.isStageOf st a = true := by
    rwa [State.frameGood_role, State.frameGood_isStageOf]
  have stop : s.frameGood.linkStop st .amend .perf (q.withField 32 (BitVec.ofNat 16 p.code)) = none :=
    State.linkStop_amendPerf index (BitVec.eq_of_toNat_eq issue) (by rw [alone]; rfl) role'
  have decided : State.decide .amend .perf (q.withField 32 (BitVec.ofNat 16 p.code)) (State.amendReq false) st
      s.frameGood = s.frameGood.phaseRequest (phaseAsk q st p) a p := by
    have entry : entryOf 3 (phaseAsk q st p).req.index = some a := entryOf_eq_some index
    rw [← State.amendPerf_phaseAsk alone role']
    simp only [State.decide, stop]
    change State.amendReq false (phaseAsk q st p) s.frameGood = _
    simp only [State.amendReq, entry, show (phaseAsk q st p).kind = .perf from rfl]
  rw [exec_phaseCommand, State.amend, State.request, State.serve_heard heard, decided]
  rfl

/-- What the owner answers to a phase request is the reply sent (R183). -/
theorem replies_phaseAsk {q : AmendReq} {a : Fin 3} {st : Fin 8} {s t : State} (p : Phase) (status : Status)
    (why : Option Reason) (fields : List FieldVal) (h : HeardAlone s q st (a.1 + 1) 0) :
    Replies (t.reply s.settings.part.address q.station ((phaseAsk q st p).answer status why fields))
      s.settings.part.address q.station status why .perf (a.1 + 1) 0 fields := by
  obtain ⟨-, -, -, -, -, index, issue⟩ := h
  have index' : BitVec.ofNat 8 (a.1 + 1) = q.index := by rw [← index, BitVec.ofNat_toNat, BitVec.setWidth_eq]
  have issue' : BitVec.ofNat 8 0 = q.issue := by rw [← issue, BitVec.ofNat_toNat, BitVec.setWidth_eq]
  rw [Replies, index', issue']
  rfl

theorem State.reply_perfFields (s : State) (n : Nat) (b : Byte) (answer : Answer) (a : Fin 3) :
    (s.reply n b answer).perfFields a = s.perfFields a := rfl

/-- R5: a transition that the station's role is not among those admitted for is NOT_PERMITTED. -/
theorem phaseCommand_notPermitted {q : AmendReq} {a : Fin 3} {st : Fin 8} {s : State} (p : Phase) (adm : Admission)
    (h : HeardAlone s q st (a.1 + 1) 0) (role : s.role st = .foh ∨ s.isStageOf st a = true)
    (new : s.phase a ≠ p) (row : transition (s.phase a) p = some adm) (barred : s.admits st a adm = false) :
    ∃ t, exec (phaseCommand p q) s = .next t ∧ ChangesOnly [.link] s.frameGood t ∧
      Replies t s.settings.part.address q.station .notPermitted none .perf (a.1 + 1) 0
        (s.frameGood.perfFields a) := by
  have barred' : s.frameGood.admits st a adm = false := by
    rwa [State.admits, State.frameGood_role, State.frameGood_isStageOf]
  have decided : s.frameGood.phaseRequest (phaseAsk q st p) a p =
      (phaseAsk q st p).says .notPermitted (s.frameGood.perfFields a) s.frameGood := by
    simp [State.phaseRequest, State.frameGood_phase, new, row, show (phaseAsk q st p).st = st from rfl, barred']
  refine ⟨_, exec_phaseCommand_heard p h role, ?_⟩
  rw [decided]
  exact ⟨State.reply_changes .., replies_phaseAsk p _ _ _ h⟩

/-- R5: a transition that is admitted and that nothing stands in the way of is made, and the reply carries the
record it leaves. -/
theorem phaseCommand_enters {q : AmendReq} {a : Fin 3} {st : Fin 8} {s : State} (p : Phase) (adm : Admission)
    (h : HeardAlone s q st (a.1 + 1) 0) (role : s.role st = .foh ∨ s.isStageOf st a = true)
    (new : s.phase a ≠ p) (row : transition (s.phase a) p = some adm) (admitted : s.admits st a adm = true)
    (free : s.frameGood.obstacle a p = none) :
    ∃ answer t, t = (s.frameGood.enter a st p).reply s.settings.part.address q.station answer ∧
      exec (phaseCommand p q) s = .next t ∧
      Replies t s.settings.part.address q.station .done none .perf (a.1 + 1) 0 (t.perfFields a) := by
  have admitted' : s.frameGood.admits st a adm = true := by
    rwa [State.admits, State.frameGood_role, State.frameGood_isStageOf]
  have decided : s.frameGood.phaseRequest (phaseAsk q st p) a p =
      (phaseAsk q st p).says .done ((s.frameGood.enter a st p).perfFields a) (s.frameGood.enter a st p) := by
    simp [State.phaseRequest, State.frameGood_phase, new, row, show (phaseAsk q st p).st = st from rfl, admitted', free]
  refine ⟨(phaseAsk q st p).answer .done none ((s.frameGood.enter a st p).perfFields a), _, rfl, ?_, ?_⟩
  · rw [exec_phaseCommand_heard p h role, decided]
    rfl
  · rw [State.reply_perfFields]
    exact replies_phaseAsk p .done none _ h

/-! ## Groups whose force causes stay (R106, R109, R115) -/

theorem KeepsFade.refl (x : LightGroup) : KeepsFade x x := ⟨rfl, rfl, rfl, rfl, rfl, rfl, rfl⟩

theorem KeepsFade.trans {x y z : LightGroup} (h : KeepsFade x y) (k : KeepsFade y z) : KeepsFade x z := by
  obtain ⟨target, level, start, steps, step, fading, causes⟩ := h
  obtain ⟨target', level', start', steps', step', fading', causes'⟩ := k
  exact ⟨target'.trans target, level'.trans level, start'.trans start, steps'.trans steps, step'.trans step,
    fading'.trans fading, causes'.trans causes⟩

theorem KeepsFade.causes {x y : LightGroup} (h : KeepsFade x y) : y.causes = x.causes := by
  obtain ⟨-, -, -, -, -, -, causes⟩ := h
  exact causes

/-- A response that has been taken is not undone by what keeps the fade. -/
theorem TakesResponse.keep {t d : Nat} {x y z : LightGroup} (h : TakesResponse t d x y) (k : KeepsFade y z) :
    TakesResponse t d x z := by
  obtain ⟨target, level, start, steps, step, fading, -⟩ := k
  rw [TakesResponse, target, level, start, steps, step, fading]
  exact h

/-- Computing a group's output again touches nothing of its fade (R113, R114, R123). -/
theorem State.relit_keepsFade (s : State) (g : Fin 12) (x : LightGroup) : KeepsFade x (s.relit g x) := .refl x

/-- An unforced group takes a response as a fade (R109, R122). -/
theorem LightGroup.startFade_takes (t d : Nat) (x : LightGroup) (unforced : x.causes = 0) :
    TakesResponse t d x (x.startFade t d) := by
  unfold LightGroup.startFade
  by_cases none : d = 0
  · rw [if_pos none]; exact ⟨rfl, fun _ => by simp [none], fun forced => absurd unforced forced⟩
  · rw [if_neg none]; exact ⟨rfl, fun _ => by simp [none], fun forced => absurd unforced forced⟩

theorem LightGroup.startFade_causes (t d : Nat) (x : LightGroup) : (x.startFade t d).causes = x.causes := by
  unfold LightGroup.startFade; split <;> rfl

/-- A forced group takes a response as its target alone (R119, R122). -/
theorem LightGroup.target_takes (t d : Nat) (x : LightGroup) (forced : x.causes ≠ 0) :
    TakesResponse t d x { x with target := t } :=
  ⟨rfl, fun unforced => absurd unforced forced, fun _ => ⟨rfl, rfl, rfl, rfl, rfl⟩⟩

theorem LightGroup.force_same (d : Nat) (x : LightGroup) : x.force x.causes d = x := by simp [LightGroup.force]

/-! ## What the force causes and the lit states are derived from (R115, R125) -/

/-- The force causes are derived from nothing of the groups and of the stations. -/
theorem ChangesOnly.causesOf {s t : State} (h : ChangesOnly [.groups, .stations] s t) (g : Fin 12) :
    t.causesOf g = s.causesOf g := by
  have settings : t.settings = s.settings := h.same .settings (by decide)
  have incidents : t.incidents = s.incidents ∧ t.incidentList = s.incidentList := h.same .incidents (by decide)
  have supply : t.supply = s.supply := h.same .supply (by decide)
  have perfs : t.perfs = s.perfs := h.same .perfs (by decide)
  obtain ⟨slots, order⟩ := incidents
  simp only [State.causesOf, State.groupServes, State.generalSet, State.openIncidents, State.phase, settings, slots,
    order, supply, perfs]

/-- A performance's fields bear on the force causes by DARK and by interrupted alone (R115). -/
theorem State.writePerf_causesOf (s : State) (a : Fin 3) (p : Perf) (g : Fin 12)
    (dark : (p.phase != .dark) = (s.phase a != .dark)) (interrupted : p.interrupted = s.perfs[a].interrupted) :
    (s.writePerf a p).causesOf g = s.causesOf g := by
  have phases (b : Fin 3) : ((put s.perfs a p)[b].phase != .dark) = (s.perfs[b].phase != .dark) := by
    rw [put_get]
    by_cases e : b = a
    · subst e; rw [if_pos rfl, dark, State.phase]
    · rw [if_neg e]
  have restores (b : Fin 3) : (put s.perfs a p)[b].interrupted = s.perfs[b].interrupted := by
    rw [put_get]
    by_cases e : b = a
    · subst e; rw [if_pos rfl, interrupted]
    · rw [if_neg e]
  simp only [State.causesOf, State.groupServes, State.generalSet, State.openIncidents, State.phase,
    State.writePerf_settings, State.writePerf_incidents, State.writePerf_incidentList, State.writePerf_supply,
    State.writePerf_perfs, phases, restores]

/-- The lit states are derived from the settings and the groups' force causes (R125). -/
theorem State.litNow_congr {s t : State} (settings : t.settings = s.settings)
    (causes : ∀ g : Fin 12, t.groups[g].causes = s.groups[g].causes) (z : Fin 8) : t.litNow z = s.litNow z := by
  simp only [State.litNow, settings, causes]

/-- Derived force causes and lit states stay so where the groups keep their causes. -/
theorem LightsDerived.keep {s t : State} (h : LightsDerived s) (k : ChangesOnly [.groups, .stations] s t)
    (causes : ∀ g : Fin 12, t.groups[g].causes = s.groups[g].causes) : LightsDerived t := by
  obtain ⟨derived, lit⟩ := h
  have settings : t.settings = s.settings := k.same .settings (by decide)
  have same : t.lit = s.lit := k.same .lit (by decide)
  refine ⟨fun g present => ?_, fun z => ?_⟩
  · rw [causes g, k.causesOf g]; exact derived g (settings ▸ present)
  · rw [same, lit z, State.litNow_congr settings causes z]

theorem LightsDerived.writePerf {s : State} (h : LightsDerived s) (a : Fin 3) (p : Perf)
    (dark : (p.phase != .dark) = (s.phase a != .dark)) (interrupted : p.interrupted = s.perfs[a].interrupted) :
    LightsDerived (s.writePerf a p) := by
  obtain ⟨derived, lit⟩ := h
  refine ⟨fun g present => ?_, fun z => ?_⟩
  · rw [State.writePerf_causesOf s a p g dark interrupted, State.writePerf_groups]
    exact derived g (by simpa using present)
  · rw [State.writePerf_lit, lit z]
    exact (State.litNow_congr (State.writePerf_settings ..) (fun g => by rw [State.writePerf_groups]) z).symm

/-! ## Deriving what is derived (R115, R125) -/

/-- A group whose force causes are derived keeps them and its fade at the next derivation. -/
theorem State.refreshGroup_keepsFade (s : State) (i g : Fin 12)
    (derived : s.settings.groups[i].present = true → s.groups[i].causes = s.causesOf i) :
    KeepsFade s.groups[g] (s.refreshGroup i).groups[g] := by
  unfold State.refreshGroup
  dsimp only
  by_cases present : s.settings.groups[i].present = true
  · rw [if_pos present, State.writeGroup_groups, put_get]
    by_cases e : g = i
    · subst e
      rw [if_pos rfl, ← derived present, LightGroup.force_same]
      exact State.relit_keepsFade ..
    · rw [if_neg e]; exact .refl _
  · rw [if_neg present]; exact .refl _

theorem State.refreshGroups_keepsFade {s : State} (h : LightsDerived s) (g : Fin 12) :
    KeepsFade s.groups[g] s.refreshGroups.groups[g] := by
  have kept : ChangesOnly [.groups, .stations] s s.refreshGroups ∧
      ∀ g : Fin 12, KeepsFade s.groups[g] s.refreshGroups.groups[g] := by
    refine forAll_keeps (fun t => ChangesOnly [.groups, .stations] s t ∧
      ∀ g : Fin 12, KeepsFade s.groups[g] t.groups[g]) _ (fun i t ht => ?_) s
      ⟨.refl _ s, fun g => .refl s.groups[g]⟩
    obtain ⟨frame, fades⟩ := ht
    obtain ⟨derived, -⟩ := h.keep frame fun g => (fades g).causes
    exact ⟨frame.andThen (State.refreshGroup_changes i t),
      fun g => (fades g).trans (t.refreshGroup_keepsFade i g (derived i))⟩
  exact kept.2 g

/-- Where the lit states are derived there is no change of them to announce. -/
theorem State.announceLit_derived {s : State} (h : ∀ z : Fin 8, s.lit[z] = s.litNow z) : s.announceLit = s := by
  refine forAll_keeps (fun t => t = s) _ (fun z t ht => ?_) s rfl
  subst ht
  dsimp only
  rw [← h z, put_self, Bool.and_not_self]
  rfl

/-- The lights derived again where they are derived: outputs may change, and no fade, call or lit state does. -/
theorem LightsDerived.refreshLights {s : State} (h : LightsDerived s) :
    ChangesOnly [.groups, .stations] s s.refreshLights ∧
      ∀ g : Fin 12, KeepsFade s.groups[g] s.refreshLights.groups[g] := by
  have frame := s.refreshGroups_changes
  have fades := State.refreshGroups_keepsFade h
  obtain ⟨-, lit⟩ := h.keep frame fun g => (fades g).causes
  rw [State.refreshLights, State.announceLit_derived lit]
  exact ⟨frame, fades⟩

/-! ## A lighting response (R122) -/

/-- The turn of group `i` in a lighting response. -/
def State.respondTurn (a : Fin 3) (t d : Nat) (i : Fin 12) (s : State) : State :=
  if s.settings.groups[i].present && s.settings.groups[i].kind != .foyer && s.settings.groups[i].aud == a then
    if s.groups[i].causes = 0 then s.beginFade i t d else s.writeGroup i { s.groups[i] with target := t }
  else s

theorem State.respond_eq (s : State) (a : Fin 3) (t d : Nat) :
    s.respond a t d = forAll 12 (State.respondTurn a t d) s := rfl

theorem State.follows_iff (s : State) (g : Fin 12) (a : Fin 3) :
    s.follows g a ↔
      (s.settings.groups[g].present && s.settings.groups[g].kind != .foyer &&
        s.settings.groups[g].aud == a) = true := by
  simp [State.follows, and_assoc]

theorem State.respondTurn_changes (a : Fin 3) (t d : Nat) (i : Fin 12) (s : State) :
    ChangesOnly [.groups, .stations] s (s.respondTurn a t d i) := by
  unfold State.respondTurn; split
  · split
    · exact State.beginFade_changes ..
    · exact State.writeGroup_changes ..
  · exact .refl _ _

/-- What a lighting response makes of a group (R109, R119, R122). -/
def State.responded (s : State) (t d : Nat) (g : Fin 12) : LightGroup :=
  if s.groups[g].causes = 0 then s.relit g (s.groups[g].startFade t d) else { s.groups[g] with target := t }

theorem State.responded_takes (s : State) (t d : Nat) (g : Fin 12) :
    TakesResponse t d s.groups[g] (s.responded t d g) := by
  unfold State.responded
  split
  case isTrue unforced => exact (LightGroup.startFade_takes t d _ unforced).keep (State.relit_keepsFade ..)
  case isFalse forced => exact LightGroup.target_takes t d _ forced

/-- A response forces and releases no group (R119, R122). -/
theorem State.responded_causes (s : State) (t d : Nat) (g : Fin 12) :
    (s.responded t d g).causes = s.groups[g].causes := by
  unfold State.responded
  split
  · exact (State.relit_keepsFade ..).causes.trans (LightGroup.startFade_causes ..)
  · rfl

theorem State.respondTurn_groups {s : State} {a : Fin 3} (t d : Nat) {i : Fin 12} (h : s.follows i a) :
    (s.respondTurn a t d i).groups = put s.groups i (s.responded t d i) := by
  rw [State.respondTurn, if_pos ((s.follows_iff i a).1 h), State.responded]
  split
  · rfl
  · exact State.writeGroup_groups ..

theorem State.respondTurn_unreached {s : State} {a : Fin 3} (t d : Nat) {i : Fin 12} (h : ¬s.follows i a) :
    s.respondTurn a t d i = s := if_neg fun e => h ((s.follows_iff i a).2 e)

/-- The turn of one group leaves the others as they were, and its own where it does not follow. -/
theorem State.respondTurn_other (s : State) (a : Fin 3) (t d : Nat) (i g : Fin 12) (h : i ≠ g ∨ ¬s.follows g a) :
    (s.respondTurn a t d i).groups[g] = s.groups[g] := by
  by_cases reached : s.follows i a
  · have other : g ≠ i := by
      rintro rfl
      exact h.elim (fun e => e rfl) (fun e => e reached)
    simp only [State.respondTurn_groups t d reached, put_other _ _ _ _ other]
  · rw [State.respondTurn_unreached t d reached]

theorem State.respondTurn_causes (s : State) (a : Fin 3) (t d : Nat) (i g : Fin 12) :
    (s.respondTurn a t d i).groups[g].causes = s.groups[g].causes := by
  by_cases own : i = g ∧ s.follows g a
  · obtain ⟨rfl, reached⟩ := own
    simp only [State.respondTurn_groups t d reached, put_same, State.responded_causes]
  · rw [s.respondTurn_other a t d i g (not_and_or.1 own)]

theorem State.respond_causes (s : State) (a : Fin 3) (t d : Nat) (g : Fin 12) :
    (s.respond a t d).groups[g].causes = s.groups[g].causes := by
  rw [State.respond_eq]
  exact forAll_keeps (fun u => u.groups[g].causes = s.groups[g].causes) _
    (fun i u hu => (u.respondTurn_causes a t d i g).trans hu) s rfl

theorem ChangesOnly.follows {ps : List Part} {s t : State} (h : ChangesOnly ps s t)
    (settings : ps.contains .settings = false := by rfl) (g : Fin 12) (a : Fin 3) :
    t.follows g a ↔ s.follows g a := by
  have same : t.settings = s.settings := h.same .settings (by simpa using settings)
  simp only [State.follows, same]

/-- Every group that follows the auditorium takes the response (R122). -/
theorem State.respond_takes (s : State) (a : Fin 3) (t d : Nat) (g : Fin 12) (h : s.follows g a) :
    TakesResponse t d s.groups[g] (s.respond a t d).groups[g] := by
  rw [State.respond_eq]
  refine forAll_turn (P := fun u => ChangesOnly [.groups, .stations] s u ∧ u.groups[g] = s.groups[g])
    (Q := fun u => TakesResponse t d s.groups[g] u.groups[g]) g
    (fun i u other hu => ?_) (fun u hu => ?_) (fun i u other hu => ?_) s ⟨.refl _ s, rfl⟩
  · obtain ⟨frame, same⟩ := hu
    exact ⟨frame.andThen (u.respondTurn_changes a t d i),
      (u.respondTurn_other a t d i g (.inl other)).trans same⟩
  · obtain ⟨frame, same⟩ := hu
    simp only [State.respondTurn_groups t d ((frame.follows rfl g a).2 h), put_same]
    exact same ▸ u.responded_takes t d g
  · rw [u.respondTurn_other a t d i g (.inl other)]; exact hu

/-- A group that does not follow the auditorium is left as it was (R122). -/
theorem State.respond_other (s : State) (a : Fin 3) (t d : Nat) (g : Fin 12) (h : ¬s.follows g a) :
    (s.respond a t d).groups[g] = s.groups[g] := by
  have kept : ChangesOnly [.groups, .stations] s (s.respond a t d) ∧
      (s.respond a t d).groups[g] = s.groups[g] := by
    rw [State.respond_eq]
    refine forAll_keeps (fun u => ChangesOnly [.groups, .stations] s u ∧ u.groups[g] = s.groups[g]) _
      (fun i u hu => ?_) s ⟨.refl _ s, rfl⟩
    obtain ⟨frame, same⟩ := hu
    exact ⟨frame.andThen (u.respondTurn_changes a t d i),
      (u.respondTurn_other a t d i g (.inr fun k => h ((frame.follows rfl g a).1 k))).trans same⟩
  exact kept.2

/-! ## A phase change that moves no force cause (R6, R121, R173) -/

/-- A phase that changes is rewritten into the retained copy (R6, R173). -/
theorem State.writePerf_retained {s : State} {a : Fin 3} {p : Perf} (h : s.phase a ≠ p.phase) :
    (s.writePerf a p).retained = ⟨put s.retained.entries a ⟨p.phase, p.act, p.ironProved⟩, true⟩ := by
  unfold State.writePerf
  dsimp only
  rw [if_neg fun same => h same.1, State.markIf_retained]

theorem State.respondWith_changes (s : State) (a : Fin 3) (r : Option Response) :
    ChangesOnly [.groups, .stations] s (s.respondWith a r) := by
  cases r with
  | none => exact .refl _ s
  | some r => exact State.respond_changes ..

theorem State.respondWith_causes (s : State) (a : Fin 3) (r : Option Response) (g : Fin 12) :
    (s.respondWith a r).groups[g].causes = s.groups[g].causes := by
  cases r with
  | none => rfl
  | some r => exact State.respond_causes ..

/-- Performance `a` of `s` has become `p` in `t`: the record and the retained copy hold it, the fades are those that
the response left, and no call, call zone, lit state or hold has changed. -/
structure PhaseEntered (a : Fin 3) (p : Perf) (r : Option Response) (s t : State) : Prop where
  frame : ChangesOnly [.link, .perfs, .retained, .groups, .stations] s t
  perfs : t.perfs = put s.perfs a p
  retained : t.retained = ⟨put s.retained.entries a ⟨p.phase, p.act, p.ironProved⟩, true⟩
  fades : ∀ g : Fin 12, KeepsFade ((s.writePerf a p).respondWith a r).groups[g] t.groups[g]

/-- A phase change from derived lights that crosses neither DARK nor interrupted and gives no notice. -/
theorem State.enterPhase_unforced {s : State} {a : Fin 3} {p : Perf} (r : Option Response) (lights : LightsDerived s)
    (dark : (p.phase != .dark) = (s.phase a != .dark)) (interrupted : p.interrupted = s.perfs[a].interrupted)
    (new : s.phase a ≠ p.phase) : PhaseEntered a p r s (s.enterPhase a p r none) := by
  have written : LightsDerived (s.writePerf a p) := lights.writePerf a p dark interrupted
  have response := (s.writePerf a p).respondWith_changes a r
  have responded : LightsDerived ((s.writePerf a p).respondWith a r) :=
    written.keep response ((s.writePerf a p).respondWith_causes a r)
  obtain ⟨refreshed, fades⟩ := responded.refreshLights
  have lit : ChangesOnly [.groups, .stations] (s.writePerf a p) (s.enterPhase a p r none) := response.andThen refreshed
  refine ⟨(s.writePerf_changes a p).andThen lit, ?_, ?_, fades⟩
  · exact (lit.same .perfs (by decide)).trans (State.writePerf_perfs ..)
  · exact (lit.same .retained (by decide)).trans (State.writePerf_retained new)

section

variable {a : Fin 3} {p : Perf} {s t : State}

/-- The reply that answers the change leaves it as it is. -/
theorem PhaseEntered.reply {r : Option Response} (h : PhaseEntered a p r s t) (n : Nat) (b : Byte) (answer : Answer) :
    PhaseEntered a p r s (t.reply n b answer) := by
  obtain ⟨frame, perfs, retained, fades⟩ := h
  exact ⟨frame.andThen (State.reply_changes ..), perfs, retained, fades⟩

/-- Of the performances and the retained copy, entry `a` alone is new. -/
theorem PhaseEntered.entries {r : Option Response} (h : PhaseEntered a p r s t) :
    t.perfs[a] = p ∧ OnlyAt a s.perfs t.perfs ∧ t.retained.entries[a] = ⟨p.phase, p.act, p.ironProved⟩ ∧
      OnlyAt a s.retained.entries t.retained.entries ∧ t.retained.checkGood = true := by
  obtain ⟨-, perfs, retained, -⟩ := h
  refine ⟨?_, fun j other => ?_, ?_, fun j other => ?_, ?_⟩
  · simp only [perfs, put_same]
  · simp only [perfs, put_other _ _ _ _ other]
  · simp only [retained, put_same]
  · simp only [retained, put_other _ _ _ _ other]
  · rw [retained]

/-- A phase change without a response keeps every fade. -/
theorem PhaseEntered.keepsFade (h : PhaseEntered a p none s t) (g : Fin 12) :
    KeepsFade s.groups[g] t.groups[g] := by
  have fade := h.fades g
  simp only [State.respondWith, State.writePerf_groups] at fade
  exact fade

/-- A group that follows the auditorium takes the response of its phase change. -/
theorem PhaseEntered.takes {r : Response} (h : PhaseEntered a p (some r) s t) (g : Fin 12) (reached : s.follows g a) :
    TakesResponse r.target r.fade s.groups[g] t.groups[g] := by
  have takes := (s.writePerf a p).respond_takes a r.target r.fade g
    (((s.writePerf_changes a p).follows rfl g a).2 reached)
  simp only [State.writePerf_groups] at takes
  exact takes.keep (h.fades g)

/-- A group that does not follow the auditorium keeps its fade through its phase change. -/
theorem PhaseEntered.keepsFade_other {r : Response} (h : PhaseEntered a p (some r) s t) (g : Fin 12)
    (unreached : ¬s.follows g a) : KeepsFade s.groups[g] t.groups[g] := by
  have same := (s.writePerf a p).respond_other a r.target r.fade g fun k =>
    unreached (((s.writePerf_changes a p).follows rfl g a).1 k)
  simp only [State.writePerf_groups] at same
  rw [← same]
  exact h.fades g

end

/-! ## HOUSE_OPEN and INTERVAL to BEGINNERS, and RUNNING to INTERVAL (R9, R11) -/

/-- A transition for STAGE alone is admitted to the STAGE of the auditorium. -/
theorem State.admits_stage {s : State} {st : Fin 8} {a : Fin 3} (h : s.isStageOf st a = true) :
    s.admits st a ⟨true, false⟩ = true := by simp [State.admits, h]

/-- A transition for STAGE alone is not admitted to FOH. -/
theorem State.not_admits_foh {s : State} {st : Fin 8} {a : Fin 3} (h : s.role st = .foh) :
    s.admits st a ⟨true, false⟩ = false := by simp [State.admits, State.isStageOf, h]

/-- A transition from HOUSE_OPEN or INTERVAL to BEGINNERS has no conditions (R9). -/
theorem State.obstacle_beginners {s : State} {a : Fin 3} (h : s.phase a ≠ .halted) :
    s.obstacle a .beginners = none := if_neg fun k => h k.1

/-- Entry to BEGINNERS that is no return from HALTED changes the phase alone (R9). -/
theorem State.enterBeginners_eq {s : State} {a : Fin 3} (h : s.phase a ≠ .halted) :
    s.enterBeginners a = s.enterPhase a { s.perfs[a] with phase := .beginners } none none := by
  have stays : (if s.perfs[a].phase = .halted then false else s.perfs[a].interrupted) = s.perfs[a].interrupted :=
    if_neg h
  unfold State.enterBeginners
  dsimp only
  rw [stays]

/-- An auditorium in BEGINNERS may have its audience called (R135). -/
theorem State.callTooLate_beginners {s : State} {a : Fin 3} (h : s.phase a = .beginners) {x : Call}
    (aud : x.aud = some a) : s.callTooLate x = false := by
  simp [State.callTooLate, aud, h, Phase.callable]

/-- Settles O26: nothing the lights are derived from changes, so no group and no call takes notice. -/
theorem beginnersEntered : Obligations.BeginnersEntered := by
  unfold Obligations.BeginnersEntered
  intro q a st s u heard hu origin
  subst hu
  have record : s.frameGood.perfs[a] = s.perfs[a] := by simp only [State.frameGood_perfs]
  have new : s.phase a ≠ .beginners := by rcases origin with h | h <;> rw [h] <;> decide
  have notHalted : s.frameGood.phase a ≠ .halted := by
    rw [State.frameGood_phase]; rcases origin with h | h <;> rw [h] <;> decide
  have dark : (Phase.beginners != .dark) = (s.frameGood.phase a != .dark) := by
    rw [State.frameGood_phase]; rcases origin with h | h <;> rw [h] <;> rfl
  have row : transition (s.phase a) .beginners = some ⟨true, false⟩ := by
    rcases origin with h | h <;> rw [h] <;> rfl
  refine ⟨fun stage lights => ?_, fun foh => ?_⟩
  · obtain ⟨answer, t, rfl, run, reply⟩ := phaseCommand_enters .beginners _ heard (.inr stage) new row
      (State.admits_stage stage) (State.obstacle_beginners notHalted)
    have entered : PhaseEntered a { s.frameGood.perfs[a] with phase := .beginners } none s.frameGood
        (s.frameGood.enter a st .beginners) := by
      rw [State.enter, State.enterBeginners_eq notHalted]
      exact State.enterPhase_unforced none lights dark rfl (by rwa [State.frameGood_phase])
    rw [record] at entered
    have change := entered.reply s.settings.part.address q.station answer
    obtain ⟨perf, otherPerfs, entry, otherEntries, good⟩ := change.entries
    exact ⟨_, run, reply, change.frame, perf, otherPerfs, entry, otherEntries, good, change.keepsFade,
      fun x _ aud => State.callTooLate_beginners (congrArg Perf.phase perf) aud⟩
  · exact phaseCommand_notPermitted .beginners _ heard (.inl foh) new row (State.not_admits_foh foh)

/-- Settles O29: the preset response goes out as the groups stand, and no force cause follows from the phase. -/
theorem intervalEntered : Obligations.IntervalEntered := by
  unfold Obligations.IntervalEntered
  intro q a st s u heard hu running
  subst hu
  have record : s.frameGood.perfs[a] = s.perfs[a] := by simp only [State.frameGood_perfs]
  have new : s.phase a ≠ .interval := by rw [running]; decide
  have dark : (Phase.interval != .dark) = (s.frameGood.phase a != .dark) := by rw [State.frameGood_phase, running]; rfl
  have row : transition (s.phase a) .interval = some ⟨true, false⟩ := by rw [running]; rfl
  refine ⟨fun stage lights => ?_, fun foh => ?_⟩
  · obtain ⟨answer, t, rfl, run, reply⟩ := phaseCommand_enters .interval _ heard (.inr stage) new row
      (State.admits_stage stage) rfl
    have entered : PhaseEntered a { s.frameGood.perfs[a] with phase := .interval }
        (some ⟨s.frameGood.settings.perfs[a].presetLevel, s.frameGood.settings.perfs[a].presetFade⟩) s.frameGood
        (s.frameGood.enter a st .interval) :=
      State.enterPhase_unforced _ lights dark rfl (by rwa [State.frameGood_phase])
    rw [record, State.frameGood_settings] at entered
    have change := entered.reply s.settings.part.address q.station answer
    obtain ⟨perf, otherPerfs, entry, otherEntries, good⟩ := change.entries
    exact ⟨_, run, reply, change.frame, perf, otherPerfs, entry, otherEntries, good, change.takes,
      change.keepsFade_other⟩
  · exact phaseCommand_notPermitted .interval _ heard (.inl foh) new row (State.not_admits_foh foh)

end Sys2Proof.Machine
end

section
/-!
PROOFS. Amendments that are heard (R183, R184), demands on a curtain (R37, R38), what a release leaves of a channel
(R32, R40), and the demand IN (R39) and the local release (R31, R41) that rest on them.
-/

namespace Sys2Proof.Machine

/-! ## An amendment of one field that is heard (R183, R184) -/

/-- An amendment of one field of a fixed record passes the link port's own checks where the role may amend (R184). -/
theorem State.linkStop_amendFixed {s : State} {st : Fin 8} {kind : Kind} {r : Req} (fixed : isDynamic kind = false)
    (index : 1 ≤ r.index.toNat ∧ r.index.toNat ≤ kindSize kind) (issue : r.issue = 0) (one : r.fields.length = 1)
    (role : roleAdmits (s.role st) .amend = true) : s.linkStop st .amend kind r = none := by
  obtain ⟨f, fields⟩ := List.length_eq_one_iff.1 one
  simp [State.linkStop, role, fixed, index, issue, fields, repeated, carries, fieldOf]

/-- An amendment that the link port's checks let through is answered by the record's owner (R184). -/
theorem State.amend_heard {s : State} {st : Fin 8} {kind : Kind} {r : Req} (limitIn : Bool) (h : Heard s r st)
    (stop : s.frameGood.linkStop st .amend kind r = none) :
    s.amend kind r limitIn =
      (State.amendReq limitIn ⟨st, kind, r⟩ s.frameGood).2.reply s.settings.part.address r.station
        (State.amendReq limitIn ⟨st, kind, r⟩ s.frameGood).1 := by
  have decided : State.decide .amend kind r (State.amendReq limitIn) st s.frameGood =
      State.amendReq limitIn ⟨st, kind, r⟩ s.frameGood := by simp only [State.decide, stop]
  rw [State.amend, State.request, State.serve_heard h, decided]

/-- What the owner answers to a request for a fixed record is the reply sent (R183). -/
theorem Ask.answer_replies {ask : Ask} {n : Nat} (index : ask.req.index.toNat = n) (issue : ask.req.issue = 0)
    (t : State) (address : Nat) (station : Byte) (status : Status) (why : Option Reason) (fields : List FieldVal) :
    Replies (t.reply address station (ask.answer status why fields)) address station status why ask.kind n 0
      fields := by
  have index' : BitVec.ofNat 8 n = ask.req.index := by rw [← index, BitVec.ofNat_toNat, BitVec.setWidth_eq]
  rw [Replies, index', ← show ask.req.issue = BitVec.ofNat 8 0 from issue]
  rfl

/-! ## Writing a channel (R35) -/

theorem put_onlyAt {α : Type} {n : Nat} (v : Vector α n) (i : Fin n) (x : α) : OnlyAt i v (put v i x) :=
  fun j other => put_other v i j x other

/-- A channel written as it stands changes nothing, and so marks nothing. -/
theorem State.writeIron_self (s : State) (ch : Fin 3) : s.writeIron ch s.irons[ch] = s := by
  simp only [State.writeIron, put_self, bne_self_eq_false, State.markIf, Bool.false_eq_true, if_false]

theorem State.frameGood_irons (s : State) : s.frameGood.irons = s.irons := s.frameGood_changes.same .irons (by decide)

theorem State.reply_ironFields (s : State) (n : Nat) (b : Byte) (answer : Answer) (ch : Fin 3) :
    (s.reply n b answer).ironFields ch = s.ironFields ch := rfl

/-! ## What a release leaves of a channel (R32, R40) -/

theorem Iron.release_full {x : Iron} (why : ReleaseReason) (h : x.motion = .atOut) :
    Falls .full why x (x.release why) := by
  simp [Iron.release, h, Falls]

theorem Iron.release_part {x : Iron} (why : ReleaseReason) (h : x.motion = .raising ∨ x.motion = .stopped) :
    Falls .part why x (x.release why) := by
  rcases h with h | h <;> simp [Iron.release, h, Falls]

/-- A channel that is IN or falls already is left as it was (R40). -/
theorem Iron.release_still {x : Iron} (why : ReleaseReason) (h : x.motion = .atIn ∨ x.motion = .descending) :
    x.release why = x := by
  rcases h with h | h <;> simp [Iron.release, h]

/-- A channel that can fall does, whichever kind of descent it is (R40). -/
theorem Iron.release_falls {x : Iron} (why : ReleaseReason) (high : x.motion ≠ .atIn) (held : x.motion ≠ .descending) :
    ∃ kind, Falls kind why x (x.release why) := by
  cases h : x.motion with
  | atIn => exact absurd h high
  | raising => exact ⟨_, Iron.release_part why (.inl h)⟩
  | atOut => exact ⟨_, Iron.release_full why h⟩
  | stopped => exact ⟨_, Iron.release_part why (.inr h)⟩
  | descending => exact absurd h held

/-- Whether the release line is held says nothing of the fall (R40, R41). -/
theorem Falls.press {k : DescentKind} {why : ReleaseReason} {x y : Iron} (h : Falls k why x y) (held : Bool) :
    Falls k why x { y with pressed := held } := h

/-- A channel that has begun to fall has HOLD, RAISE and CHECK off (R32). -/
theorem Falls.outputs_off {k : DescentKind} {why : ReleaseReason} {x : Iron} {t : State} {ch : Fin 3}
    (h : Falls k why x t.irons[ch]) :
    t.holdOutput ch = false ∧ t.raiseOutput ch = false ∧ t.checkOutput ch = false := by
  obtain ⟨motion, -, -, -, -, sub, -⟩ := h
  simp [State.holdOutput, State.raiseOutput, State.checkOutput, motion, sub, -Fin.getElem_fin]

theorem State.release_iron (s : State) (ch : Fin 3) (why : ReleaseReason) :
    (s.release ch why).irons[ch] = s.irons[ch].release why := by
  simp only [State.release, State.writeIron_irons, put_same]

theorem State.release_onlyAt (s : State) (ch : Fin 3) (why : ReleaseReason) :
    OnlyAt ch s.irons (s.release ch why).irons := by
  simp only [State.release, State.writeIron_irons, put_onlyAt]

/-- A release of a channel that is IN or falls already changes nothing at all (R40). -/
theorem State.release_still {s : State} {ch : Fin 3} (why : ReleaseReason)
    (h : s.irons[ch].motion = .atIn ∨ s.irons[ch].motion = .descending) : s.release ch why = s := by
  rw [State.release, Iron.release_still why h, State.writeIron_self]

/-! ## Demands on a curtain (R37, R38, R39) -/

/-- The two demands by their direction. -/
def demandCommand : Bool → AmendReq → Instr
  | true => .demandOut
  | false => .demandIn

/-- The demand of station `st`, as the curtain unit takes it. -/
def demandAsk (q : AmendReq) (st : Fin 8) (out : Bool) : Ask where
  st := st
  kind := .iron
  req := q.withField 37 (BitVec.ofNat 16 out.toNat)

/-- The roles that a demand is admitted from: FOH for a demand IN alone (R37). -/
def State.mayDemand (s : State) (st : Fin 8) (ch : Fin 3) (out : Bool) : Prop :=
  s.role st = .fire ∨ s.isStageOf st ch = true ∨ out = false ∧ s.role st = .foh

/-- What stands in the way of a demand: of a demand IN, nothing (R38, R39). -/
def State.demandBar (s : State) (ch : Fin 3) (out : Bool) : Option Reason := if out then s.outBar ch else none

/-- The state that a demand leaves where nothing stands in its way (R38, R39). -/
def State.demanded (s : State) (ch : Fin 3) (out : Bool) : State :=
  if out then s.demandOut ch else s.release ch .demand

/-- The answer to a demand that is admitted and the state it leaves: REFUSED with the bar, or else DONE (R38, R39). -/
def State.demandVerdict (s : State) (ask : Ask) (ch : Fin 3) (out : Bool) : Verdict :=
  (s.demandBar ch out).elim (ask.says .done ((s.demanded ch out).ironFields ch) (s.demanded ch out))
    fun why => ask.refuses why (s.ironFields ch) s

theorem exec_demandCommand (out : Bool) (q : AmendReq) (st : Fin 8) (s : State) :
    exec (demandCommand out q) s = .next (s.amend .iron (demandAsk q st out).req false) := by
  cases out <;> rfl

/-- The one field of a demand has good form, is no setting and names the direction (R37, R194, R201). -/
theorem demandField_form (out : Bool) :
    let f : FieldVal := ⟨37, BitVec.ofNat 16 out.toNat⟩
    firstFlaw (ironForm [f]) [f] = none ∧ carries [f] 37 = true ∧ carries [f] 128 = false ∧
      askedFor [f] 37 = some out.toNat ∧ amendsSettings .iron [f] = false ∧
      ∀ x : IronSettings, [f].foldl IronSettings.amend x = x := by
  cases out <;> exact ⟨by decide, by decide, by decide, by decide, by decide, fun _ => rfl⟩

theorem State.mayDemand.roleAdmits {s : State} {st : Fin 8} {ch : Fin 3} {out : Bool} (h : s.mayDemand st ch out)
    (code : ReqCode) : roleAdmits (s.role st) code = true := by
  obtain fire | stage | ⟨-, foh⟩ := h
  · rw [fire]; rfl
  · exact State.roleAdmits_of_phaseRole (.inr stage) code
  · exact State.roleAdmits_of_phaseRole (a := ch) (.inl foh) code

/-- The curtain unit admits a demand from the roles it is for (R37). -/
theorem State.mayDemand.admits {s : State} {st : Fin 8} {ch : Fin 3} {out : Bool} (h : s.mayDemand st ch out) :
    s.admitsIron st ch [⟨37, BitVec.ofNat 16 out.toNat⟩] = true := by
  obtain ⟨-, -, noClear, asked, -⟩ := demandField_form out
  simp only [State.admitsIron, asked, noClear]
  obtain fire | stage | ⟨rfl, foh⟩ := h
  · cases out <;> simp [fire]
  · cases out <;> simp [stage]
  · simp [foh]

theorem State.mayDemand.frameGood {s : State} {st : Fin 8} {ch : Fin 3} {out : Bool} (h : s.mayDemand st ch out) :
    s.frameGood.mayDemand st ch out := by
  rwa [State.mayDemand, State.frameGood_role, State.frameGood_isStageOf]

/-- A demand writes no settings. -/
theorem State.applyIron_demand (s : State) (ch : Fin 3) (out : Bool) :
    s.applyIron ch [⟨37, BitVec.ofNat 16 out.toNat⟩] s.settings.irons[ch] false = s.demanded ch out := by
  obtain ⟨-, -, noClear, asked, -⟩ := demandField_form out
  simp only [State.applyIron, asked, noClear, put_self, bne_self_eq_false, State.noteChange, Bool.false_eq_true,
    if_false]
  cases out <;> rfl

/-- The curtain unit's answer to a demand that is admitted, on a present channel (R37, R38, R39). -/
theorem State.amendIron_demandAsk {u : State} {q : AmendReq} {st : Fin 8} {ch : Fin 3} {out : Bool}
    (alone : (demandAsk q st out).req.fields = [⟨37, BitVec.ofNat 16 out.toNat⟩])
    (present : u.settings.irons[ch].present = true) (role : u.mayDemand st ch out) :
    u.amendIron (demandAsk q st out) ch false = u.demandVerdict (demandAsk q st out) ch out := by
  obtain ⟨form, carried, noClear, asked, noSetting, same⟩ := demandField_form out
  have stop : u.settingsStop (demandAsk q st out) = none := by
    simp only [State.settingsStop, alone]
    exact if_neg (by rw [show (demandAsk q st out).kind = .iron from rfl, noSetting]; decide)
  have bar : u.ironBar ch [⟨37, BitVec.ofNat 16 out.toNat⟩] true = u.demandBar ch out := by
    simp only [State.ironBar, noClear, asked, present, bne_self_eq_false, Bool.or_self, Bool.and_false]
    cases out <;> rfl
  have admitted := role.admits
  simp only [State.amendIron, alone, form, carried, stop, noSetting, same, present, bar,
    show (demandAsk q st out).st = st from rfl, admitted, Bool.true_or, Bool.not_true, Bool.and_false, Bool.false_and,
    Bool.false_eq_true, if_false, if_true, bne_self_eq_false, State.applyIron_demand, okStatus, State.demandVerdict]
  cases u.demandBar ch out <;> rfl

/-- A demand that is heard and admitted, on a present channel, is decided by what stands in its way. -/
theorem exec_demandCommand_heard {q : AmendReq} {ch : Fin 3} {st : Fin 8} {s : State} {out : Bool}
    (h : HeardAlone s q st (ch.1 + 1) 0) (present : s.settings.irons[ch].present = true)
    (role : s.mayDemand st ch out) :
    exec (demandCommand out q) s =
      .next ((s.frameGood.demandVerdict (demandAsk q st out) ch out).2.reply s.settings.part.address q.station
        (s.frameGood.demandVerdict (demandAsk q st out) ch out).1) := by
  have heard := h.heard 37 (BitVec.ofNat 16 out.toNat)
  have alone := h.fields 37 (BitVec.ofNat 16 out.toNat)
  obtain ⟨-, -, -, -, -, index, issue⟩ := h
  have range : 1 ≤ q.index.toNat ∧ q.index.toNat ≤ kindSize .iron := by simp only [kindSize]; omega
  have stop : s.frameGood.linkStop st .amend .iron (demandAsk q st out).req = none :=
    State.linkStop_amendFixed rfl range (BitVec.eq_of_toNat_eq issue)
      (by rw [show (demandAsk q st out).req.fields = _ from alone]; rfl) (role.frameGood.roleAdmits _)
  have entry : entryOf 3 (demandAsk q st out).req.index = some ch := entryOf_eq_some index
  have decided : State.amendReq false (demandAsk q st out) s.frameGood =
      s.frameGood.demandVerdict (demandAsk q st out) ch out := by
    simp only [State.amendReq, entry, show (demandAsk q st out).kind = .iron from rfl]
    exact State.amendIron_demandAsk alone (by rwa [State.frameGood_settings]) role.frameGood
  have served := State.amend_heard false heard stop
  rw [show (⟨st, .iron, q.withField 37 (BitVec.ofNat 16 out.toNat)⟩ : Ask) = demandAsk q st out from rfl, decided]
    at served
  rw [exec_demandCommand out q st]
  exact congrArg Host.Outcome.next served

section

variable {q : AmendReq} {ch : Fin 3} {st : Fin 8} {s : State} {out : Bool}

/-- R38: a demand that something stands in the way of is REFUSED, with the record as it stands. -/
theorem demandCommand_refused {why : Reason} (h : HeardAlone s q st (ch.1 + 1) 0)
    (present : s.settings.irons[ch].present = true) (role : s.mayDemand st ch out)
    (bar : s.frameGood.demandBar ch out = some why) :
    ∃ t, exec (demandCommand out q) s = .next t ∧ ChangesOnly [.link] s.frameGood t ∧
      Replies t s.settings.part.address q.station .refused (some why) .iron (ch.1 + 1) 0
        (s.frameGood.ironFields ch) := by
  have run := exec_demandCommand_heard h present role
  rw [State.demandVerdict, bar] at run
  refine ⟨_, run, State.reply_changes .., ?_⟩
  obtain ⟨-, -, -, -, -, index, issue⟩ := h
  exact Ask.answer_replies (ask := demandAsk q st out) index (BitVec.eq_of_toNat_eq issue) ..

/-- R38, R39: a demand that nothing stands in the way of is DONE, and the reply carries the record it leaves. -/
theorem demandCommand_done (h : HeardAlone s q st (ch.1 + 1) 0) (present : s.settings.irons[ch].present = true)
    (role : s.mayDemand st ch out) (free : s.frameGood.demandBar ch out = none) :
    ∃ answer t, t = (s.frameGood.demanded ch out).reply s.settings.part.address q.station answer ∧
      exec (demandCommand out q) s = .next t ∧
      Replies t s.settings.part.address q.station .done none .iron (ch.1 + 1) 0 (t.ironFields ch) := by
  have run := exec_demandCommand_heard h present role
  rw [State.demandVerdict, free] at run
  refine ⟨(demandAsk q st out).answer .done none ((s.frameGood.demanded ch out).ironFields ch), _, rfl, run, ?_⟩
  obtain ⟨-, -, -, -, -, index, issue⟩ := h
  rw [State.reply_ironFields]
  exact Ask.answer_replies (ask := demandAsk q st out) index (BitVec.eq_of_toNat_eq issue) ..

end

/-! ## The demand IN (R39) -/

/-- Settles O37: no bar is looked at, and the release is judged on the motion state alone. -/
theorem demandInReleases : Obligations.DemandInReleases := by
  unfold Obligations.DemandInReleases
  intro q ch st s u x heard hu hx present role
  subst hu hx
  have demander : s.mayDemand st ch false := by
    rcases role with fire | foh | stage
    exacts [.inl fire, .inr (.inr ⟨rfl, foh⟩), .inr (.inl stage)]
  obtain ⟨answer, t, ht, run, reply⟩ := demandCommand_done heard present demander rfl
  have left : t = (s.frameGood.release ch .demand).reply s.settings.part.address q.station answer := ht
  have iron : t.irons[ch] = s.irons[ch].release .demand := by
    simp only [left, State.reply_irons, State.release_iron, State.frameGood_irons]
  refine ⟨t, run, ?_, ?_, reply, fun still => ⟨?_, ?_⟩, fun h => ?_, fun h => ?_, fun high held => ?_⟩
  · rw [left]; exact (State.release_changes ..).andThen (State.reply_changes ..)
  · rw [left, State.reply_irons]; exact State.release_onlyAt _ _ _
  · rw [iron, Iron.release_still _ still]
  · have kept : s.frameGood.release ch .demand = s.frameGood :=
      State.release_still _ (by rwa [State.frameGood_irons])
    rw [left, kept]; exact State.reply_changes ..
  · rw [iron]; exact Iron.release_full _ h
  · rw [iron]; exact Iron.release_part _ h
  · obtain ⟨kind, falls⟩ := Iron.release_falls .demand high held
    exact Falls.outputs_off (iron ▸ falls)

/-! ## A demand OUT of a channel that rests (R38, R43) -/

/-- A good frame changes nothing that a demand OUT is judged on. -/
theorem State.frameGood_outBar (s : State) (ch : Fin 3) : s.frameGood.outBar ch = s.outBar ch := by
  have incidents : s.frameGood.incidents = s.incidents ∧ s.frameGood.incidentList = s.incidentList :=
    s.frameGood_changes.same .incidents (by decide)
  have supply : s.frameGood.supply = s.supply := s.frameGood_changes.same .supply (by decide)
  obtain ⟨slots, order⟩ := incidents
  have opened : s.frameGood.openIncidents = s.openIncidents := by simp only [State.openIncidents, slots, order]
  simp only [State.outBar, State.raiseBar, opened, State.frameGood_irons, supply]

section

variable {s : State} {ch : Fin 3}

theorem State.outBar_resting (h : s.irons[ch].motion = .atIn ∨ s.irons[ch].motion = .stopped) :
    s.outBar ch = s.raiseBar ch := by
  rcases h with h | h <;> simp only [State.outBar, h]

theorem State.demandOut_resting (h : s.irons[ch].motion = .atIn ∨ s.irons[ch].motion = .stopped) :
    s.demandOut ch = s.writeIron ch (s.irons[ch].beginRaise s.now) := by
  rcases h with h | h <;> simp only [State.demandOut, h]

/-- Without an incident of the auditorium, a held release is the first bar of a raise (R38). -/
theorem State.raiseBar_pressed (quiet : ∀ i ∈ s.openIncidents, has i.auds ch = false)
    (held : s.irons[ch].pressed = true) : s.raiseBar ch = some .releaseActive := by
  have unconcerned : (s.openIncidents.any fun i => has i.auds ch) = false := by simpa using quiet
  simp [State.raiseBar, unconcerned, held, -Fin.getElem_fin]

/-- A raise that meets none of the four conditions is free (R38). -/
theorem State.raiseBar_free (quiet : ∀ i ∈ s.openIncidents, has i.auds ch = false)
    (letGo : s.irons[ch].pressed = false) (sound : s.irons[ch].fault = none) (mains : s.supply.mains = .present) :
    s.raiseBar ch = none := by
  have unconcerned : (s.openIncidents.any fun i => has i.auds ch) = false := by simpa using quiet
  simp [State.raiseBar, unconcerned, letGo, sound, mains, -Fin.getElem_fin]

end

/-! ## The local release (R31, R41) -/

theorem State.lines_changes (s : State) (l : Lines) : ChangesOnly [.lines] s { s with lines := l } := by
  constructor; intro p hp; cases p <;> simp_all [Part.same]

section

variable {s : State} {ch : Fin 3}

theorem exec_localReleasePress (powered : s.powered = true) :
    exec (.localReleasePress ch) s = .next (s.pressRelease ch) :=
  congrArg Host.Outcome.next (if_pos powered)

theorem exec_localReleaseLetGo (powered : s.powered = true) :
    exec (.localReleaseLetGo ch) s = .next (s.letGoRelease ch) :=
  congrArg Host.Outcome.next (if_pos powered)

/-- A press of an absent channel, or of one whose release is held already, is seen by the line alone (R31, R41). -/
theorem State.pressRelease_ignored (h : s.settings.irons[ch].present = false ∨ s.irons[ch].pressed = true) :
    ChangesOnly [.lines] s (s.pressRelease ch) := by
  have ignored : (!s.settings.irons[ch].present || s.irons[ch].pressed) = true := by
    rcases h with h | h <;> simp [h, -Fin.getElem_fin]
  rw [State.pressRelease, if_pos ignored]
  exact s.lines_changes _

theorem State.letGoRelease_ignored (h : s.settings.irons[ch].present = false) :
    ChangesOnly [.lines] s (s.letGoRelease ch) := by
  rw [State.letGoRelease, if_pos (by simp [h, -Fin.getElem_fin])]
  exact s.lines_changes _

/-- A press of a present channel releases it and is held (R41). -/
theorem State.pressRelease_writes (present : s.settings.irons[ch].present = true)
    (letGo : s.irons[ch].pressed = false) :
    ChangesOnly [.lines, .irons, .stations] s (s.pressRelease ch) ∧
      (s.pressRelease ch).irons = put s.irons ch { s.irons[ch].release .localRelease with pressed := true } := by
  rw [State.pressRelease, if_neg (by simp [present, letGo, -Fin.getElem_fin])]
  exact ⟨(s.lines_changes _).andThen (State.writeIron_changes ..), State.writeIron_irons ..⟩

/-- Letting go ends the hold of the release and nothing else of the channel (R41). -/
theorem State.letGoRelease_writes (present : s.settings.irons[ch].present = true) :
    ChangesOnly [.lines, .irons, .stations] s (s.letGoRelease ch) ∧
      (s.letGoRelease ch).irons = put s.irons ch { s.irons[ch] with pressed := false } := by
  rw [State.letGoRelease, if_neg (by simp [present, -Fin.getElem_fin])]
  exact ⟨(s.lines_changes _).andThen (State.writeIron_changes ..), State.writeIron_irons ..⟩

end

/-- R41: the press of a release that was let go, in every motion state. -/
theorem localReleasePress_released {s : State} {ch : Fin 3} (powered : s.powered = true)
    (present : s.settings.irons[ch].present = true) (letGo : s.irons[ch].pressed = false) :
    ∃ t, exec (.localReleasePress ch) s = .next t ∧ ChangesOnly [.lines, .irons, .stations] s t ∧
      OnlyAt ch s.irons t.irons ∧ t.irons[ch].pressed = true ∧
      (s.irons[ch].motion = .atOut → Falls .full .localRelease s.irons[ch] t.irons[ch]) ∧
      (s.irons[ch].motion = .raising ∨ s.irons[ch].motion = .stopped →
        Falls .part .localRelease s.irons[ch] t.irons[ch]) ∧
      (s.irons[ch].motion = .descending ∨ s.irons[ch].motion = .atIn →
        t.irons[ch] = { s.irons[ch] with pressed := true }) := by
  obtain ⟨frame, irons⟩ := State.pressRelease_writes present letGo
  refine ⟨_, exec_localReleasePress powered, frame, ?_⟩
  simp only [irons, put_same]
  exact ⟨put_onlyAt _ _ _, trivial, fun h => (Iron.release_full _ h).press true,
    fun h => (Iron.release_part _ h).press true, fun h => by rw [Iron.release_still _ h.symm]⟩

/-- R41: letting the release go, whether it was held or not. -/
theorem localReleaseLetGo_cleared {s : State} {ch : Fin 3} (powered : s.powered = true)
    (present : s.settings.irons[ch].present = true) :
    ∃ t, exec (.localReleaseLetGo ch) s = .next t ∧ ChangesOnly [.lines, .irons, .stations] s t ∧
      OnlyAt ch s.irons t.irons ∧ t.irons[ch] = { s.irons[ch] with pressed := false } := by
  obtain ⟨frame, irons⟩ := State.letGoRelease_writes present
  refine ⟨_, exec_localReleaseLetGo powered, frame, ?_⟩
  simp only [irons, put_same]
  exact ⟨put_onlyAt _ _ _, trivial⟩

/-- Settles O39: the press is a release that leaves the line held, and the held line is a bar of a raise. -/
theorem localReleasePressed : Obligations.LocalReleasePressed := by
  unfold Obligations.LocalReleasePressed
  refine ⟨fun ch s x powered present hx => ?_, fun ch s powered absent => ?_,
    fun q ch st s u heard hu present role quiet resting => ?_⟩
  · subst hx
    exact ⟨localReleasePress_released powered present,
      fun held => ⟨_, exec_localReleasePress powered, State.pressRelease_ignored (.inr held)⟩,
      localReleaseLetGo_cleared powered present⟩
  · exact ⟨⟨_, exec_localReleasePress powered, State.pressRelease_ignored (.inl absent)⟩,
      ⟨_, exec_localReleaseLetGo powered, State.letGoRelease_ignored absent⟩⟩
  · subst hu
    have demander : s.mayDemand st ch true := role.imp_right .inl
    have bar : s.frameGood.demandBar ch true = s.raiseBar ch :=
      (s.frameGood_outBar ch).trans (State.outBar_resting resting)
    refine ⟨fun held => ?_, fun letGo sound mains => ?_⟩
    · exact demandCommand_refused heard present demander (bar.trans (State.raiseBar_pressed quiet held))
    · obtain ⟨answer, t, rfl, run, -⟩ := demandCommand_done heard present demander
        (bar.trans (State.raiseBar_free quiet letGo sound mains))
      have raises : s.frameGood.demanded ch true =
          s.frameGood.writeIron ch (s.frameGood.irons[ch].beginRaise s.frameGood.now) :=
        State.demandOut_resting (by rwa [State.frameGood_irons])
      refine ⟨_, run, ?_⟩
      simp only [raises, State.reply_irons, State.writeIron_irons, put_same, Iron.beginRaise]

end Sys2Proof.Machine
end

section
/-!
PROOFS. A SUMMARY that is heard (R183, R184), what it arms (R188), and the arming that a mark cancels (R187).
-/

namespace Sys2Proof

/-- The index of a record counts its entries from 1. -/
theorem entryOf_eq_some_iff {n : Nat} {b : Byte} {i : Fin n} : entryOf n b = some i ↔ b.toNat = i.1 + 1 := by
  refine ⟨fun h => ?_, entryOf_eq_some⟩
  unfold entryOf at h
  split at h
  next range =>
    have entry : b.toNat - 1 = i.1 := congrArg Fin.val (Option.some.inj h)
    omega
  next => cases h

end Sys2Proof

namespace Sys2Proof.Machine

/-! ## Marking and arming a station (R187, R188) -/

theorem classBit_has (k : Kind) : (classBit k).getLsbD (kindCode k - 1) = true := by
  cases k <;> decide

theorem State.mark_station (s : State) (k : Kind) (i : Fin 8) :
    (s.mark k).stations[i] = markStation k s.settings.stations[i] s.stations[i] :=
  tab_get _ i

/-- R187: a station that listens has the flag of a marked class set and its arming cancelled. -/
theorem markStation_listens {k : Kind} {cfg : StationSettings} (st : StationLive) (h : listens cfg k = true) :
    (markStation k cfg st).flags.getLsbD (kindCode k - 1) = true ∧
      (markStation k cfg st).armed.getLsbD (kindCode k - 1) = false := by
  simp [markStation, h, classBit_has]

theorem State.arm_station (s : State) (i : Fin 8) :
    (s.arm i).stations[i] = { s.stations[i] with armed := s.stations[i].flags } :=
  put_same _ i _

theorem State.arm_onlyAt (s : State) (i : Fin 8) : OnlyAt i s.stations (s.arm i).stations :=
  put_onlyAt _ i _

theorem State.arm_summaryFields (s : State) (i : Fin 8) :
    (s.arm i).summaryFields i = [fv 32 s.stations[i].flags.toNat, fv 33 s.stations[i].flags.toNat] := by
  simp only [State.summaryFields, State.arm_station]

/-! ## The decision on a SUMMARY (R184, R188) -/

/-- Of the link port's checks, the role and the absence of fields are those that can stop a SUMMARY (R184). -/
theorem State.linkStop_summary (s : State) (st : Fin 8) (k : Kind) (r : Req) :
    s.linkStop st .summary k r =
      if s.role st = .none then some .notPermitted else if r.fields ≠ [] then some .badField else none := by
  by_cases fields : r.fields = []
  · cases role : s.role st <;> simp [State.linkStop, roleAdmits, role, fields, repeated]
  · cases role : s.role st <;> simp [State.linkStop, roleAdmits, role, fields]

section

variable {s : State} {st : Fin 8} {k : Kind} {r : Req}

theorem State.decide_summary_noRole (role : s.role st = .none) :
    State.decide .summary k r State.summaryReq st s = Ask.says ⟨st, k, r⟩ .notPermitted [] s := by
  simp only [State.decide, State.linkStop_summary, if_pos role]

/-- With fields the link port turns the SUMMARY away, and with another record its own rule does, alike. -/
theorem State.decide_summary_misnamed (role : s.role st ≠ .none)
    (misnamed : k ≠ .station ∨ r.index.toNat ≠ st.1 + 1 ∨ r.issue ≠ 0 ∨ r.fields ≠ []) :
    State.decide .summary k r State.summaryReq st s = Ask.says ⟨st, k, r⟩ .badField [] s := by
  simp only [State.decide, State.linkStop_summary, if_neg role]
  by_cases fields : r.fields = []
  · have other : ¬(k = .station ∧ entryOf 8 r.index = some st ∧ r.issue = 0) := by
      rw [entryOf_eq_some_iff]
      rintro ⟨kind, index, issue⟩
      simp [kind, index, issue, fields] at misnamed
    simp only [if_neg (not_not.2 fields), State.summaryReq, if_neg other]
  · simp only [if_pos fields]

theorem State.decide_summary_own (role : s.role st ≠ .none) (kind : k = .station)
    (index : r.index.toNat = st.1 + 1) (issue : r.issue = 0) (fields : r.fields = []) :
    State.decide .summary k r State.summaryReq st s =
      Ask.says ⟨st, k, r⟩ .done ((s.arm st).summaryFields st) (s.arm st) := by
  have own : k = .station ∧ entryOf 8 r.index = some st ∧ r.issue = 0 := ⟨kind, entryOf_eq_some index, issue⟩
  simp only [State.decide, State.linkStop_summary, if_neg role, if_neg (not_not.2 fields), State.summaryReq,
    if_pos own]

/-! ## The reply to a SUMMARY (R183) -/

/-- A SUMMARY that is heard leaves the state of its decision with the reply begun. -/
theorem exec_summary_heard {t : State} {status : Status} {fields : List FieldVal} (h : Heard s r st)
    (decided : State.decide .summary k r State.summaryReq st s.frameGood = Ask.says ⟨st, k, r⟩ status fields t) :
    exec (.summary k r) s =
      .next (t.reply s.settings.part.address r.station (Ask.answer ⟨st, k, r⟩ status none fields)) := by
  have served := State.serve_heard h (State.decide .summary k r State.summaryReq)
  rw [decided] at served
  exact congrArg Host.Outcome.next served

/-- What a request is answered is the reply sent, with the index and the issue the request named (R183). -/
theorem Ask.answer_echoes (ask : Ask) (t : State) (address : Nat) (station : Byte) (status : Status)
    (why : Option Reason) (fields : List FieldVal) :
    Replies (t.reply address station (ask.answer status why fields)) address station status why ask.kind
      ask.req.index.toNat ask.req.issue.toNat fields := by
  simp [Replies, State.reply, Ask.answer]

/-- A SUMMARY turned away changes nothing but the reply. -/
theorem summary_turnedAway {status : Status} (h : Heard s r st)
    (decided : State.decide .summary k r State.summaryReq st s.frameGood =
      Ask.says ⟨st, k, r⟩ status [] s.frameGood) :
    ∃ t, exec (.summary k r) s = .next t ∧ ChangesOnly [.link] s.frameGood t ∧
      Replies t s.settings.part.address r.station status none k r.index.toNat r.issue.toNat [] :=
  ⟨_, exec_summary_heard h decided, State.reply_changes .., Ask.answer_echoes ⟨st, k, r⟩ ..⟩

end

/-- Settles O20: of the three decisions on a SUMMARY only the one that names the station's own record arms; and
since arming takes over the flags, it arms a class again whose mark had set its flag and cancelled its arming. -/
theorem summaryArmsFlags : Obligations.SummaryArmsFlags := by
  unfold Obligations.SummaryArmsFlags
  refine ⟨fun k r st s u heard hu => ?_, fun s k st role mask => ?_⟩
  · subst hu
    rw [← s.frameGood_role st]
    refine ⟨fun role => summary_turnedAway heard (State.decide_summary_noRole role), fun role =>
      ⟨fun misnamed => summary_turnedAway heard (State.decide_summary_misnamed role misnamed),
        fun kind index issue fields => ?_⟩⟩
    subst kind
    have decided := State.decide_summary_own role rfl index issue fields
    refine ⟨_, exec_summary_heard heard decided, (s.frameGood.arm_changes st).andThen (State.reply_changes ..), ?_⟩
    rw [State.reply_stations, State.arm_station, State.arm_summaryFields]
    exact ⟨s.frameGood.arm_onlyAt st, rfl, rfl, Ask.answer_replies index issue ..⟩
  · have told : listens s.settings.stations[st] k = true := by
      rw [listens, mask, Bool.and_true]
      exact bne_iff_ne.2 role
    obtain ⟨flagged, disarmed⟩ := markStation_listens s.stations[st] told
    rw [State.arm_station, State.mark_station]
    exact ⟨disarmed, flagged⟩

end Sys2Proof.Machine
end

section
/-!
PROOFS. What a request that is heard can do: one relation that names, for each request code and record kind, the
answers an owner can give and the state that each leaves, with the checks that were passed on the way (R184, R185).
-/

namespace Sys2Proof.Machine

/-- The answer accepts the request: DONE, or ADJUSTED (R185). -/
def Answer.accepts (a : Answer) : Prop := a.status = .done ∨ a.status = .adjusted

theorem okStatus_accepts (b : Bool) : okStatus b = .done ∨ okStatus b = .adjusted := by cases b <;> simp [okStatus]

/-- Everything the owners can make of a request `q` of code `code` in state `s`. -/
inductive Decides (code : ReqCode) (q : Ask) (s : State) : Verdict → Prop
  /-- the request is turned away, or read and answered -/
  | stays (a : Answer) : Decides code q s (a, s)
  | looks (a : Answer) : code = .look → (a.status = .done ∨ a.status = .noRecord) →
      Decides code q s (a, s.lookClears q.st q.kind)
  | arms (a : Answer) : code = .summary → Decides code q s (a, s.arm q.st)
  | stores (a : Answer) : code = .store → s.store.state ≠ .storing → Decides code q s (a, s.beginStore)
  | restarts (a : Answer) (loads : BitVec 16) : code = .restart → s.allDark = true → s.incidentList = [] →
      s.store.state ≠ .storing → Decides code q s (a, s.softRestart loads)
  | blocks (aud : Fin 3) (k : Fin 8) : code = .amend → q.kind = .perf → carries q.req.fields 32 = true →
      Decides code q s (s.blockedBy aud k)
  | enters (a : Answer) (aud : Fin 3) (p : Phase) (adm : Admission) : code = .amend → q.kind = .perf →
      carries q.req.fields 32 = true → (askedFor q.req.fields 32).bind Phase.ofCode = some p →
      s.settingsStop q = none → (s.role q.st = .foh ∨ s.isStageOf q.st aud = true) →
      s.phase aud ≠ p → transition (s.phase aud) p = some adm → s.admits q.st aud adm = true →
      s.obstacle aud p = none → a.accepts → Decides code q s (a, s.enter aud q.st p)
  | amendsPerf (aud : Fin 3) : code = .amend → q.kind = .perf → entryOf 3 q.req.index = some aud →
      firstFlaw perfForm q.req.fields = none →
      (askedFor q.req.fields 32).bind Phase.ofCode = none → s.settingsStop q = none → q.req.fields ≠ [] →
      Decides code q s (s.applyPerf q aud)
  | amendsIron (a : Answer) (ch : Fin 3) (limitIn : Bool) (new : IronSettings) : code = .amend → q.kind = .iron →
      entryOf 3 q.req.index = some ch → firstFlaw (ironForm q.req.fields) q.req.fields = none →
      ((carries q.req.fields 37 || carries q.req.fields 128) = true → s.settings.irons[ch].present = true) →
      s.admitsIron q.st ch q.req.fields = true → s.settingsStop q = none →
      new = (if amendsSettings .iron q.req.fields then
        (q.req.fields.foldl IronSettings.amend s.settings.irons[ch]).inRange else s.settings.irons[ch]) →
      s.ironBar ch q.req.fields (q.req.fields.foldl IronSettings.amend s.settings.irons[ch]).present = none →
      a.accepts → Decides code q s (a, s.applyIron ch q.req.fields new limitIn)
  | amendsZone (a : Answer) (z : Fin 24) (new : ZoneSettings) : code = .amend → q.kind = .zone →
      entryOf 24 q.req.index = some z → firstFlaw zoneForm q.req.fields = none →
      ((carries q.req.fields 36 || carries q.req.fields 128) = true → s.settings.zones[z].present = true) →
      s.settingsStop q = none →
      new = (if amendsSettings .zone q.req.fields then
        (q.req.fields.foldl ZoneSettings.amend s.settings.zones[z]).inRange else s.settings.zones[z]) →
      s.zoneBar z q.req.fields new = false → a.accepts → Decides code q s (a, s.applyZone z q.req.fields new)
  | targets (g : Fin 12) (target : Nat) : code = .amend → q.kind = .group →
      carries q.req.fields 33 = true → s.settings.groups[g].present = true → s.admitsTarget q.st g = true →
      s.settingsStop q = none → s.groups[g].causes = 0 → Decides code q s (s.applyTarget q g target)
  | amendsGroup (g : Fin 12) : code = .amend → q.kind = .group → entryOf 12 q.req.index = some g →
      firstFlaw (groupForm q.req.fields) q.req.fields = none → carries q.req.fields 33 = false →
      s.settingsStop q = none → q.req.fields ≠ [] → Decides code q s (s.applyGroup q g)
  | amendsCZone (a : Answer) (z : Fin 8) (new : CZoneSettings) : code = .amend → q.kind = .czone →
      entryOf 8 q.req.index = some z → firstFlaw czoneForm q.req.fields = none → s.settingsStop q = none →
      q.req.fields ≠ [] → new = (q.req.fields.foldl CZoneSettings.amend s.settings.czones[z]).inRange → a.accepts →
      Decides code q s (a, (({ s with settings :=
          { s.settings with czones := put s.settings.czones z new } } : State).noteChange
        (s.settings.czones[z] != new)).czoneAmended z s.settings.czones[z])
  | amendsCircuit (a : Answer) (c : Fin 16) : code = .amend → q.kind = .circuit →
      entryOf 16 q.req.index = some c → firstFlaw (circuitForm c) q.req.fields = none →
      s.settingsStop q = none → a.accepts → Decides code q s (a, s.applyCircuit c q.req.fields)
  | amendsStatus (a : Answer) (new : PartSettings) : code = .amend → q.kind = .status →
      firstFlaw statusForm q.req.fields = none → s.settingsStop q = none →
      new = (if amendsSettings .status q.req.fields then
        (q.req.fields.foldl PartSettings.amend s.settings.part).inRange else s.settings.part) →
      a.accepts → Decides code q s (a, s.applyStatus q.req.fields new)
  | amendsStation (a : Answer) (n : Fin 8) (new : StationSettings) : code = .amend → q.kind = .station →
      entryOf 8 q.req.index = some n → firstFlaw stationForm q.req.fields = none → s.settingsStop q = none →
      q.req.fields ≠ [] → a.accepts → Decides code q s (a, s.applyStation n new)
  | raisesHold (a : Answer) (aud : Fin 3) (k : Fin 8) (n : Nat) : code = .raise → q.kind = .hold →
      s.phase aud ≠ .dark → s.freeStationSlot aud = some k →
      Decides code q s (a, s.fillHold aud k { origin := some q.st, cause := .station, reason := .code n })
  | retiresHold (a : Answer) (aud : Fin 3) (k : Fin 8) (x : Hold) (o : Fin 8) : code = .retire → q.kind = .hold →
      s.namedHold q.req = some (aud, k, x) → x.origin = some o → Decides code q s (a, s.emptyHold aud k)
  | widens (a : Answer) (i : Fin 25) (set : AudSet) : code = .raise → q.kind = .incident →
      s.stationIncident = some i → Decides code q s (a, s.widenIncident i set)
  | raisesIncident (a : Answer) (i : Fin 25) (set : AudSet) : code = .raise → q.kind = .incident →
      s.stationIncident = none → s.freeIncidentSlot = some i →
      Decides code q s (a, s.raiseStationIncident q.st set i)
  | actsIncident (a : Answer) (i : Fin 25) (x : Incident) : code = .amend → q.kind = .incident →
      s.namedIncident q.req = some (i, x) → firstFlaw (incidentForm q.req.fields) q.req.fields = none →
      wrongStage x q.req.fields = false → a.accepts → Decides code q s (a, s.actIncident i x q.st q.req.fields)
  | retiresIncident (a : Answer) (i : Fin 25) (x : Incident) : code = .retire → q.kind = .incident →
      s.namedIncident q.req = some (i, x) → s.stillSignals x = false → Decides code q s (a, s.retireIncidentAt i)
  | raisesCall (a : Answer) (x : Call) (b : Bool) (c : Fin 32) (room : State) : code = .raise → q.kind = .call →
      s.newCall q.st q.req.fields = (x, b) → (x.deliveries.any fun d => s.czones[d.zone].barred) = false →
      s.roomForCall = some (c, room) → Decides code q s (a, room.fillCall c x)
  | amendsCall (a : Answer) (c : Fin 32) (x : Call) (p iv : Option Nat) : code = .amend → q.kind = .call →
      s.namedCall q.req = some (c, x) → a.accepts → Decides code q s (a, s.amendCallAt c p iv)
  | retiresCall (a : Answer) (c : Fin 32) (x : Call) : code = .retire → q.kind = .call →
      s.namedCall q.req = some (c, x) → Decides code q s (a, s.retireCallAt c)

section

variable {q : Ask} {s : State}

theorem Decides.says {code : ReqCode} (status : Status) (fields : List FieldVal) :
    Decides code q s (q.says status fields s) := .stays _

theorem Decides.refuses {code : ReqCode} (why : Reason) (fields : List FieldVal) :
    Decides code q s (q.refuses why fields s) := .stays _

theorem Decides.flawed {code : ReqCode} (w : Flaw × FieldVal) (rec_ : List FieldVal) :
    Decides code q s (q.flawed w rec_ s) := by
  unfold Ask.flawed
  split
  · exact .says ..
  · exact .refuses ..

/-! ## The fixed kinds -/

theorem State.phaseRequest_decides {aud : Fin 3} {p : Phase} (kind : q.kind = .perf)
    (carried : carries q.req.fields 32 = true) (asked : (askedFor q.req.fields 32).bind Phase.ofCode = some p)
    (stop : s.settingsStop q = none) (role : s.role q.st = .foh ∨ s.isStageOf q.st aud = true) :
    Decides .amend q s (s.phaseRequest q aud p) := by
  unfold State.phaseRequest
  split
  · exact .says ..
  next new =>
    split
    · exact .refuses ..
    next adm row =>
      split
      · exact .says ..
      next admitted =>
        split
        · exact .says ..
        · exact .blocks _ _ rfl kind carried
        · exact .refuses ..
        next free =>
          exact .enters _ _ p adm rfl kind carried asked stop role new row (by simpa using admitted) free (.inl rfl)

theorem State.amendPerf_decides {aud : Fin 3} (kind : q.kind = .perf) (index : entryOf 3 q.req.index = some aud) :
    Decides .amend q s (s.amendPerf q aud) := by
  unfold State.amendPerf
  dsimp only
  split
  · exact .flawed ..
  next form =>
    split
    · exact .says ..
    next role =>
      split
      · exact .says ..
      next stop =>
        split
        next p asked =>
          have carried : carries q.req.fields 32 = true := by
            obtain ⟨v, found, -⟩ := Option.bind_eq_some_iff.1 asked
            obtain ⟨f, found, -⟩ := Option.map_eq_some_iff.1 found
            simp [carries, found]
          refine State.phaseRequest_decides kind carried asked stop ?_
          simpa [carried, or_iff_not_imp_left] using role
        next asked =>
          split
          · exact .says ..
          next given => exact .amendsPerf aud rfl kind index form asked stop given

theorem State.amendIron_decides {ch : Fin 3} (limitIn : Bool) (kind : q.kind = .iron)
    (index : entryOf 3 q.req.index = some ch) : Decides .amend q s (s.amendIron q ch limitIn) := by
  unfold State.amendIron
  dsimp only
  split
  · exact .flawed ..
  next form =>
    split
    · exact .says ..
    next present =>
      split
      · exact .says ..
      next role =>
        split
        · exact .says ..
        next stop =>
          split
          · exact .refuses ..
          next free =>
            split
            · exact .says ..
            · exact .amendsIron _ ch limitIn _ rfl kind index form (by simpa using present) (by simpa using role) stop
                rfl free (okStatus_accepts _)

theorem State.amendZone_decides {z : Fin 24} (kind : q.kind = .zone) (index : entryOf 24 q.req.index = some z) :
    Decides .amend q s (s.amendZone q z) := by
  unfold State.amendZone
  dsimp only
  split
  · exact .flawed ..
  next form =>
    split
    · exact .says ..
    next present =>
      split
      · exact .says ..
      · split
        · exact .says ..
        next stop =>
          generalize hn : (if amendsSettings .zone q.req.fields = true then
            (q.req.fields.foldl ZoneSettings.amend s.settings.zones[z]).inRange else s.settings.zones[z]) = new
          split
          · exact .refuses ..
          next free =>
            exact .amendsZone _ z new rfl kind index form (by simpa using present) stop hn.symm (by simpa using free)
              (okStatus_accepts _)

theorem State.amendGroup_decides {g : Fin 12} (kind : q.kind = .group) (index : entryOf 12 q.req.index = some g) :
    Decides .amend q s (s.amendGroup q g) := by
  unfold State.amendGroup
  dsimp only
  split
  · exact .flawed ..
  next form =>
    split
    · exact .says ..
    next present =>
      split
      · exact .says ..
      next role =>
        split
        · exact .says ..
        next stop =>
          split
          next target asked =>
            have carried : carries q.req.fields 33 = true := by
              unfold askedFor at asked
              obtain ⟨f, found, -⟩ := Option.map_eq_some_iff.1 asked
              simp [carries, found]
            split
            · exact .refuses ..
            next unforced =>
              exact .targets g target rfl kind carried (by simpa [carried] using present)
                (by simpa [carried] using role) stop (by simpa using unforced)
          next asked =>
            split
            · exact .says ..
            next given =>
              have absent : carries q.req.fields 33 = false := by
                unfold askedFor at asked
                simp [carries, Option.map_eq_none_iff.1 asked]
              exact .amendsGroup g rfl kind index form absent stop given

theorem State.amendCZone_decides {z : Fin 8} (kind : q.kind = .czone) (index : entryOf 8 q.req.index = some z) :
    Decides .amend q s (s.amendCZone q z) := by
  unfold State.amendCZone
  dsimp only
  split
  · exact .flawed ..
  next form =>
    split
    · exact .says ..
    next stop =>
      split
      · exact .says ..
      next given => exact .amendsCZone _ z _ rfl kind index form stop given rfl (okStatus_accepts _)

theorem State.amendCircuit_decides {c : Fin 16} (kind : q.kind = .circuit) (index : entryOf 16 q.req.index = some c) :
    Decides .amend q s (s.amendCircuit q c) := by
  unfold State.amendCircuit
  dsimp only
  split
  · exact .flawed ..
  next form =>
    split
    · exact .says ..
    · split
      · exact .says ..
      next stop => exact .amendsCircuit _ c rfl kind index form stop (.inl rfl)

theorem State.amendStatus_decides (kind : q.kind = .status) : Decides .amend q s (s.amendStatus q) := by
  unfold State.amendStatus
  dsimp only
  split
  · exact .flawed ..
  next form =>
    split
    · exact .says ..
    · split
      · exact .says ..
      next stop =>
        split
        · exact .says ..
        · split
          · exact .says ..
          · exact .amendsStatus _ _ rfl kind form stop rfl (okStatus_accepts _)

theorem State.amendStation_decides {n : Fin 8} (kind : q.kind = .station) (index : entryOf 8 q.req.index = some n) :
    Decides .amend q s (s.amendStation q n) := by
  unfold State.amendStation
  dsimp only
  split
  · exact .flawed ..
  next form =>
    split
    · exact .says ..
    next stop =>
      split
      · exact .says ..
      next given =>
        split
        · exact .amendsStation _ n _ rfl kind index form stop given (.inl rfl)
        · exact .says ..

/-! ## The dynamic kinds -/

theorem State.amendHoldReq_decides : Decides .amend q s (s.amendHoldReq q) := by
  unfold State.amendHoldReq
  split
  · exact .says ..
  · exact .refuses ..

theorem State.amendIncidentReq_decides (kind : q.kind = .incident) :
    Decides .amend q s (s.amendIncidentReq q) := by
  unfold State.amendIncidentReq
  split
  · exact .says ..
  next i x named =>
    dsimp only
    split
    · exact .flawed ..
    next form =>
      split
      · exact .says ..
      · split
        · exact .refuses ..
        next stage => exact .actsIncident _ i x rfl kind named form (by simpa using stage) (.inl rfl)

theorem State.amendCallReq_decides (kind : q.kind = .call) : Decides .amend q s (s.amendCallReq q) := by
  unfold State.amendCallReq
  split
  · exact .says ..
  next c x named =>
    dsimp only
    split
    · exact .flawed ..
    · split
      · exact .says ..
      · exact .amendsCall _ c x _ _ rfl kind named (okStatus_accepts _)

theorem State.amendReq_decides (limitIn : Bool) : Decides .amend q s (State.amendReq limitIn q s) := by
  unfold State.amendReq
  split
  next kind =>
    split
    next index => exact State.amendPerf_decides kind index
    next => exact .says ..
  next => exact State.amendHoldReq_decides
  next kind => exact State.amendIncidentReq_decides kind
  next kind =>
    split
    next index => exact State.amendZone_decides kind index
    next => exact .says ..
  next kind =>
    split
    next index => exact State.amendIron_decides limitIn kind index
    next => exact .says ..
  next kind =>
    split
    next index => exact State.amendGroup_decides kind index
    next => exact .says ..
  next kind => exact State.amendCallReq_decides kind
  next kind =>
    split
    next index => exact State.amendCZone_decides kind index
    next => exact .says ..
  next kind =>
    split
    next index => exact State.amendCircuit_decides kind index
    next => exact .says ..
  next kind => exact State.amendStatus_decides kind
  next kind =>
    split
    next index => exact State.amendStation_decides kind index
    next => exact .says ..

theorem State.raiseHoldReq_decides (kind : q.kind = .hold) : Decides .raise q s (s.raiseHoldReq q) := by
  unfold State.raiseHoldReq
  split
  · exact .says ..
  next aud n _ =>
    split
    · exact .says ..
    · split
      · exact .refuses ..
      next open_ =>
        split
        · exact .says ..
        next k free => exact .raisesHold _ aud k n rfl kind open_ free

theorem State.raiseIncidentReq_decides (kind : q.kind = .incident) : Decides .raise q s (s.raiseIncidentReq q) := by
  unfold State.raiseIncidentReq
  split
  · exact .says ..
  · split
    · exact .says ..
    · split
      next i found => exact .widens _ i _ rfl kind found
      next absent =>
        split
        · exact .says ..
        next i free => exact .raisesIncident _ i _ rfl kind absent free

theorem State.raiseCallReq_decides (kind : q.kind = .call) : Decides .raise q s (s.raiseCallReq q) := by
  unfold State.raiseCallReq
  dsimp only
  split
  · exact .says ..
  · split
    · exact .says ..
    · split
      · exact .says ..
      · split
        · exact .refuses ..
        · split
          · exact .refuses ..
          next unbarred =>
            split
            · exact .says ..
            next c room found =>
              exact .raisesCall _ _ _ c room rfl kind rfl (by simpa using unbarred) found

theorem State.retireHoldReq_decides (kind : q.kind = .hold) : Decides .retire q s (s.retireHoldReq q) := by
  unfold State.retireHoldReq
  split
  · exact .says ..
  next aud k x named =>
    split
    · exact .says ..
    next o origin =>
      split
      · exact .retiresHold _ aud k x o rfl kind named origin
      · exact .says ..

theorem State.retireIncidentReq_decides (kind : q.kind = .incident) :
    Decides .retire q s (s.retireIncidentReq q) := by
  unfold State.retireIncidentReq
  split
  · exact .says ..
  next i x named =>
    split
    · exact .says ..
    · split
      · exact .refuses ..
      · split
        · exact .refuses ..
        next quiet => exact .retiresIncident _ i x rfl kind named (by simpa using quiet)

theorem State.retireCallReq_decides (kind : q.kind = .call) : Decides .retire q s (s.retireCallReq q) := by
  unfold State.retireCallReq
  split
  · exact .says ..
  next c x named =>
    split
    · exact .retiresCall _ c x rfl kind named
    · exact .says ..

/-! ## The link port's own requests -/

theorem State.lookReq_decides : ∃ a, s.lookReq q = (a, s) ∧ (a.status = .done ∨ a.status = .noRecord) := by
  unfold State.lookReq
  split
  · exact ⟨_, rfl, .inr rfl⟩
  · split
    · exact ⟨_, rfl, .inl rfl⟩
    · exact ⟨_, rfl, .inr rfl⟩

theorem State.summaryReq_decides : Decides .summary q s (s.summaryReq q) := by
  unfold State.summaryReq
  split
  · exact .arms _ rfl
  · exact .says ..

theorem State.storeReq_decides : Decides .store q s (s.storeReq q) := by
  unfold State.storeReq
  split
  · exact .says ..
  · split
    · exact .says ..
    · split
      · exact .says ..
      next idle => exact .stores _ rfl idle

theorem State.restartReq_decides (loads : BitVec 16) : Decides .restart q s (State.restartReq loads q s) := by
  unfold State.restartReq
  split
  · exact .says ..
  · split
    · exact .says ..
    · split
      · exact .says ..
      next idle =>
        split
        · exact .refuses ..
        next dark =>
          split
          · exact .refuses ..
          next quiet => exact .restarts _ loads rfl (by simpa using dark) (by simpa using quiet) idle

end

/-! ## A request that is served -/

/-- The decision of the link port and the owner. -/
theorem State.decide_decides {code : ReqCode} {kind : Kind} {r : Req} {handler : Ask → State → Verdict}
    (h : ∀ q : Ask, q.kind = kind → ∀ s, Decides code q s (handler q s)) (st : Fin 8) (s : State) :
    Decides code ⟨st, kind, r⟩ s (State.decide code kind r handler st s) := by
  unfold State.decide
  dsimp only
  split
  · exact .says ..
  · exact h _ rfl s

/-- What becomes of a request: it is lost, it counts as a frame error, or it is decided after the good frame has been
counted, and the reply begins (R180..R183; log entry 12). -/
inductive Served (code : ReqCode) (kind : Kind) (r : Req) (s : State) : State → Prop
  | lost : s.listening = false → Served code kind r s s
  | failed : s.listening = true → Served code kind r s s.frameFails
  | decided (st : Fin 8) (v : Verdict) : Heard s r st → Decides code ⟨st, kind, r⟩ s.frameGood v →
      Served code kind r s (v.2.reply s.settings.part.address r.station v.1)

/-- A frame that is neither lost nor an error is heard (R178..R181). -/
theorem State.serve_served {code : ReqCode} {kind : Kind} {r : Req} {decide : Fin 8 → State → Verdict} {s : State}
    (h : ∀ st u, Decides code ⟨st, kind, r⟩ u (decide st u)) : Served code kind r s (s.serve r decide) := by
  unfold State.serve
  split
  next closed => exact .lost (by simpa using closed)
  next listens =>
    have listens : s.listening = true := by simpa using listens
    split
    · exact .failed listens
    next st station =>
      have heard : Heard s r st := by
        obtain ⟨powered, silent⟩ : s.powered = true ∧ s.link.reply = none := by
          simpa [State.listening] using listens
        split at station
        next short => exact ⟨powered, silent, short, entryOf_eq_some_iff.1 station⟩
        next => cases station
      exact .decided st _ heard (h st _)

theorem State.look_served (kind : Kind) (r : Req) (s : State) : Served .look kind r s (s.look kind r) := by
  refine State.serve_served fun st u => ?_
  have turned : ∀ v : Verdict, v.2 = u → Decides .look ⟨st, kind, r⟩ u (lookRead kind st v) := by
    rintro ⟨a, t⟩ (rfl : t = u)
    unfold lookRead
    dsimp only
    split
    next read => exact .looks _ rfl (by simpa using read)
    next => exact .stays _
  refine turned _ ?_
  unfold State.decide
  dsimp only
  split
  · rfl
  · obtain ⟨a, read, -⟩ := State.lookReq_decides (q := ⟨st, kind, r⟩) (s := u)
    rw [read]

/-- Every request of a known code and kind is served. -/
theorem exec_served {i : Instr} {code : ReqCode} {kind : Kind} {r : Req} (h : requestOf i = some (code, kind, r))
    (s : State) : ∃ t, exec i s = .next t ∧ Served code kind r s t := by
  have amended : ∀ (kind : Kind) (r : Req) (limitIn : Bool), Served .amend kind r s (s.amend kind r limitIn) :=
    fun kind r limitIn => State.serve_served (State.decide_decides fun q _ u => State.amendReq_decides limitIn)
  cases i with
  | look k x => cases h; exact ⟨_, rfl, State.look_served ..⟩
  | summary k x =>
    cases h; exact ⟨_, rfl, State.serve_served (State.decide_decides fun q _ u => State.summaryReq_decides)⟩
  | store k x =>
    cases h; exact ⟨_, rfl, State.serve_served (State.decide_decides fun q _ u => State.storeReq_decides)⟩
  | restart k x loads =>
    cases h; exact ⟨_, rfl, State.serve_served (State.decide_decides fun q _ u => State.restartReq_decides loads)⟩
  | raiseHold x =>
    cases h; exact ⟨_, rfl, State.serve_served (State.decide_decides fun q k u => State.raiseHoldReq_decides k)⟩
  | raiseIncident x =>
    cases h; exact ⟨_, rfl, State.serve_served (State.decide_decides fun q k u => State.raiseIncidentReq_decides k)⟩
  | raiseCall x =>
    cases h; exact ⟨_, rfl, State.serve_served (State.decide_decides fun q k u => State.raiseCallReq_decides k)⟩
  | retireHold x =>
    cases h; exact ⟨_, rfl, State.serve_served (State.decide_decides fun q k u => State.retireHoldReq_decides k)⟩
  | retireIncident x =>
    cases h; exact ⟨_, rfl, State.serve_served (State.decide_decides fun q k u => State.retireIncidentReq_decides k)⟩
  | retireCall x =>
    cases h; exact ⟨_, rfl, State.serve_served (State.decide_decides fun q k u => State.retireCallReq_decides k)⟩
  | amendCall x =>
    cases h; exact ⟨_, rfl, State.serve_served (State.decide_decides fun q k u => State.amendCallReq_decides k)⟩
  | amendHold x =>
    cases h; exact ⟨_, rfl, State.serve_served (State.decide_decides fun q k u => State.amendHoldReq_decides)⟩
  | settingsAmendment k x l => cases h; exact ⟨_, rfl, amended ..⟩
  | commissioningLock a v => cases h; exact ⟨_, by simp [exec, execCommissioningLock, State.amendWith]; rfl, amended ..⟩
  | amendIncidentStage a v => cases h; exact ⟨_, by simp [exec, execAmendIncidentStage, State.amendWith]; rfl, amended ..⟩
  | amendTarget a v => cases h; exact ⟨_, by simp [exec, execAmendTarget, State.amendWith]; rfl, amended ..⟩
  | amendPhasePrepare a => cases h; exact ⟨_, rfl, amended ..⟩
  | amendPhaseHouseOpen a => cases h; exact ⟨_, rfl, amended ..⟩
  | amendPhaseBeginners a => cases h; exact ⟨_, rfl, amended ..⟩
  | amendPhaseRunning a => cases h; exact ⟨_, rfl, amended ..⟩
  | amendPhaseInterval a => cases h; exact ⟨_, rfl, amended ..⟩
  | amendPhaseClosing a => cases h; exact ⟨_, rfl, amended ..⟩
  | amendPhaseHalted a => cases h; exact ⟨_, rfl, amended ..⟩
  | amendPhaseDark a => cases h; exact ⟨_, rfl, amended ..⟩
  | acknowledge a => cases h; exact ⟨_, rfl, amended ..⟩
  | silence a => cases h; exact ⟨_, rfl, amended ..⟩
  | demandOut a => cases h; exact ⟨_, rfl, amended ..⟩
  | demandIn a => cases h; exact ⟨_, rfl, amended ..⟩
  | clearFault a => cases h; exact ⟨_, rfl, amended ..⟩
  | isolate a => cases h; exact ⟨_, rfl, amended ..⟩
  | restoreZone a => cases h; exact ⟨_, rfl, amended ..⟩
  | resetNoise a => cases h; exact ⟨_, rfl, amended ..⟩
  | resetCircuit a => cases h; exact ⟨_, rfl, amended ..⟩
  | _ => cases h

end Sys2Proof.Machine
end

section
/-!
PROOFS. The fields of a request (R185, R194, R201), and the parts of the state that each command can change.
-/

namespace Sys2Proof.Machine

/-! ## The fields of a request -/

theorem firstFlaw_eq_none {judge : FieldVal → Option Flaw} {fs : List FieldVal} :
    firstFlaw judge fs = none ↔ ∀ f ∈ fs, judge f = none := by
  simp [firstFlaw, List.findSome?_eq_none_iff]

theorem carries_iff {fs : List FieldVal} {id : Nat} : carries fs id = true ↔ ∃ f ∈ fs, idOf f = id := by
  simp [carries, fieldOf]

theorem askedFor_eq_none {fs : List FieldVal} {id : Nat} : askedFor fs id = none ↔ carries fs id = false := by
  simp [askedFor, carries]

theorem askedFor_eq_some {fs : List FieldVal} {id v : Nat} (h : askedFor fs id = some v) :
    ∃ f ∈ fs, idOf f = id ∧ valOf f = v := by
  obtain ⟨f, found, value⟩ := Option.map_eq_some_iff.1 h
  exact ⟨f, List.mem_of_find?_eq_some found, by simpa using List.find?_some found, value⟩

theorem carries_of_askedFor {fs : List FieldVal} {id v : Nat} (h : askedFor fs id = some v) :
    carries fs id = true := by
  obtain ⟨f, mem, named, -⟩ := askedFor_eq_some h
  exact carries_iff.2 ⟨f, mem, named⟩

theorem exists_askedFor {fs : List FieldVal} {id : Nat} (h : carries fs id = true) : ∃ v, askedFor fs id = some v := by
  cases asked : askedFor fs id with
  | some v => exact ⟨v, rfl⟩
  | none => rw [askedFor_eq_none.1 asked] at h; cases h

theorem amendsSettings_iff {k : Kind} {fs : List FieldVal} :
    amendsSettings k fs = true ↔ ∃ f ∈ fs, 1 ≤ idOf f ∧ idOf f ≤ topSetting k := by
  simp [amendsSettings]

theorem withField_carries (a : AmendReq) (id : Byte) (v : Word) :
    carries (a.withField id v).fields id.toNat = true :=
  carries_iff.2 ⟨⟨id, v⟩, by simp [AmendReq.withField], rfl⟩

/-- Of two ids that a request carries, one stands before the other. -/
theorem carriedBefore_or {fs : List FieldVal} {a b : Nat} (ne : a ≠ b) (ha : carries fs a = true)
    (hb : carries fs b = true) : carriedBefore fs a b = true ∨ carriedBefore fs b a = true := by
  simp only [carriedBefore, carries_iff] at *
  induction fs with
  | nil => simp at ha
  | cons f fs ih =>
    by_cases hfa : idOf f = a
    · exact .inr ⟨f, by simp [hfa, ne], hfa⟩
    · by_cases hfb : idOf f = b
      · exact .inl ⟨f, by simp [hfb, ne.symm], hfb⟩
      · simp only [List.mem_cons, exists_eq_or_imp, hfa, hfb, false_or] at ha hb
        simpa [hfa, hfb] using ih ha hb

/-- An incident's AMEND in good form carries one action (R99). -/
theorem incidentForm_one {fs : List FieldVal} (form : firstFlaw (incidentForm fs) fs = none) {a b : Nat}
    (ha : a ∈ [128, 129, 130]) (hb : b ∈ [128, 129, 130]) (ne : a ≠ b) (carried : carries fs a = true) :
    carries fs b = false := by
  by_contra other
  have other : carries fs b = true := by simpa using other
  have clean : ∀ {x y : Nat}, x ∈ [128, 129, 130] → y ∈ [128, 129, 130] → x ≠ y → carries fs x = true →
      carriedBefore fs x y = false := by
    intro x y hx hy xy cx
    obtain ⟨f, mem, named⟩ := carries_iff.1 cx
    have good := firstFlaw_eq_none.1 form f mem
    by_contra before
    have before : carriedBefore fs x y = true := by simpa using before
    simp only [List.mem_cons, List.not_mem_nil, or_false] at hx hy
    rcases hx with rfl | rfl | rfl <;> rcases hy with rfl | rfl | rfl <;>
      simp_all [incidentForm, orBad]
  rcases carriedBefore_or ne carried other with h | h
  · rw [clean ha hb ne carried] at h; cases h
  · rw [clean hb ha ne.symm other] at h; cases h

/-- A phase field in good form names a phase (R5). -/
theorem phase_of_perfForm {fs : List FieldVal} (form : firstFlaw perfForm fs = none) (carried : carries fs 32 = true) :
    (askedFor fs 32).bind Phase.ofCode ≠ none := by
  obtain ⟨v, asked⟩ := exists_askedFor carried
  obtain ⟨f, mem, named, value⟩ := askedFor_eq_some asked
  have good := firstFlaw_eq_none.1 form f mem
  have small : v ≤ 7 := by simpa [perfForm, named, orBad, value] using good
  rw [asked]
  interval_cases v <;> simp [Phase.ofCode]

/-- A request that passes the settings checks carries no setting, or is an ENGINEER's with every lock open (R194). -/
theorem State.settingsStop_eq_none {s : State} {q : Ask} (h : s.settingsStop q = none) :
    amendsSettings q.kind q.req.fields = false ∨
      s.role q.st = .engineer ∧ s.store.state ≠ .storing ∧ s.allDark = true ∧ s.store.locked = false := by
  unfold State.settingsStop at h
  split at h
  next =>
    unfold State.settingsBar at h
    right
    split at h
    · cases h
    next role =>
      split at h
      · cases h
      next idle =>
        split at h
        · cases h
        next locks =>
          simp only [Bool.or_eq_true, Bool.not_eq_true', not_or] at locks
          exact ⟨by simpa using role, by simpa using idle, by simpa using locks.1, by simpa using locks.2⟩
  next none => exact .inl (by simpa using none)

/-! ## Frames of the operations that requests and events come down to -/

theorem State.noteChange_changes (s : State) (b : Bool) : ChangesOnly [.store, .stations] s (s.noteChange b) := by
  unfold State.noteChange; split
  · exact State.writeStore_changes ..
  · exact .refl _ _

theorem State.settings_changes (s : State) (x : Settings) : ChangesOnly [.settings] s { s with settings := x } := by
  constructor; intro p hp; cases p <;> simp_all [Part.same]

/-- Writing the settings and noting the change. -/
theorem State.settle_changes (s : State) (x : Settings) (b : Bool) :
    ChangesOnly [.settings, .store, .stations] s (({ s with settings := x } : State).noteChange b) :=
  (s.settings_changes x).andThen (State.noteChange_changes ..)

theorem State.beginStore_changes (s : State) : ChangesOnly [.store, .image, .stations] s s.beginStore := by
  unfold State.beginStore
  refine ChangesOnly.andThen (ps := [.image]) ?_ (State.writeStore_changes ..)
  constructor; intro p hp; cases p <;> simp_all [Part.same]

theorem State.applyPerf_changes (s : State) (q : Ask) (a : Fin 3) :
    ChangesOnly [.settings, .store, .stations] s (s.applyPerf q a).2 := s.settle_changes ..

theorem State.demandOut_changes (s : State) (ch : Fin 3) : ChangesOnly [.irons, .stations] s (s.demandOut ch) := by
  unfold State.demandOut; split
  · exact State.writeIron_changes ..
  · exact State.writeIron_changes ..
  · exact .refl _ _
  · exact .refl _ _
  · exact .refl _ _

theorem State.ironPresence_changes (s : State) (ch : Fin 3) (limitIn : Bool) :
    ChangesOnly [.irons, .holds, .stations] s (s.ironPresence ch limitIn) :=
  ((State.writeIron_changes ..).andThen (rs := [.irons, .stations]) (State.markIf_changes ..)).andThen
    (State.evalHolds_changes ..)

/-- The actions of an IRON amendment, without its settings (R37, R61). -/
def State.actIron (ch : Fin 3) (fs : List FieldVal) (s : State) : State :=
  let s2 :=
    match askedFor fs 37 with
    | none => s
    | some 1 => s.demandOut ch
    | some _ => s.release ch .demand
  if carries fs 128 then s2.clearIronFault ch else s2

theorem State.actIron_changes (s : State) (ch : Fin 3) (fs : List FieldVal) :
    ChangesOnly [.irons, .holds, .stations] s (s.actIron ch fs) := by
  unfold State.actIron
  have demand : ChangesOnly [.irons, .holds, .stations] s
      (match askedFor fs 37 with
        | none => s
        | some 1 => s.demandOut ch
        | some _ => s.release ch .demand) := by
    split
    · exact .refl _ _
    · exact (State.demandOut_changes ..).mono
    · exact (State.release_changes ..).mono
  dsimp only
  split
  · exact demand.andThen (State.clearIronFault_changes ..)
  · exact demand

theorem State.applyIron_eq (s : State) (ch : Fin 3) (fs : List FieldVal) (new : IronSettings) (limitIn : Bool) :
    s.applyIron ch fs new limitIn =
      let t := (({ s with settings := { s.settings with irons := put s.settings.irons ch new } } : State).noteChange
        (s.settings.irons[ch] != new)).actIron ch fs
      if s.settings.irons[ch].present != new.present then t.ironPresence ch limitIn else t := rfl

/-- Without settings an IRON amendment is its actions (R37). -/
theorem State.applyIron_actions (s : State) (ch : Fin 3) (fs : List FieldVal) (limitIn : Bool) :
    s.applyIron ch fs s.settings.irons[ch] limitIn = s.actIron ch fs := by
  simp only [State.applyIron_eq, put_self, bne_self_eq_false, State.noteChange, Bool.false_eq_true, if_false]

theorem State.applyIron_changes (s : State) (ch : Fin 3) (fs : List FieldVal) (new : IronSettings) (l : Bool) :
    ChangesOnly [.irons, .holds, .settings, .store, .stations] s (s.applyIron ch fs new l) := by
  rw [State.applyIron_eq]
  have acted := (s.settle_changes { s.settings with irons := put s.settings.irons ch new }
    (s.settings.irons[ch] != new)).andThen (rs := [.irons, .holds, .settings, .store, .stations])
    (State.actIron_changes _ ch fs)
  dsimp only
  split
  · exact acted.andThen (State.ironPresence_changes ..)
  · exact acted

theorem State.zonePresence_changes (s : State) (z : Fin 24) :
    ChangesOnly [.zones, .holds, .stations] s (s.zonePresence z) := by
  have h (x : Zone) := (s.writeZone_changes z x).andThen (rs := [.zones, .stations]) (State.mark_changes _ .zone)
  unfold State.zonePresence; dsimp only; split
  · exact (h _).mono
  · exact (h _).andThen (State.evalHolds_changes ..)

theorem State.applyZone_changes (s : State) (z : Fin 24) (fs : List FieldVal) (new : ZoneSettings) :
    ChangesOnly ([.zones, .holds, .settings, .store] ++ burstParts) s (s.applyZone z fs new) := by
  unfold State.applyZone; dsimp only
  have settled := s.settle_changes { s.settings with zones := put s.settings.zones z new } (s.settings.zones[z] != new)
  generalize ({ s with settings := { s.settings with zones := put s.settings.zones z new } } : State).noteChange
    (s.settings.zones[z] != new) = s1 at *
  have h2 : ChangesOnly [.zones, .holds, .settings, .store, .stations] s
      (if (s.settings.zones[z].present != new.present) = true then s1.zonePresence z
        else if (carries fs 128 || carries fs 36) = true then
          (s1.writeZone z (s1.zones[z].acted s1.now new.confirmTime fs)).deriveCondition z
        else s1) := by
    split
    · exact settled.andThen (State.zonePresence_changes ..)
    · split
      · exact (settled.andThen (rs := [.zones, .settings, .store, .stations]) (State.writeZone_changes ..)).andThen
          (State.deriveCondition_changes ..)
      · exact settled.mono
  generalize (if (s.settings.zones[z].present != new.present) = true then s1.zonePresence z
    else if (carries fs 128 || carries fs 36) = true then
      (s1.writeZone z (s1.zones[z].acted s1.now new.confirmTime fs)).deriveCondition z
    else s1) = s2 at *
  have h3 : ChangesOnly [.zones, .holds, .settings, .store, .circuits, .stations] s
      (if (s.settings.zones[z].alarms != new.alarms) = true then s2.demandSounders else s2) := by
    split
    · exact h2.andThen (State.demandSounders_changes ..)
    · exact h2.mono
  split
  · exact h3.andThen (State.deriveSilences_changes ..)
  · exact h3.mono

theorem State.applyTarget_changes (s : State) (q : Ask) (g : Fin 12) (target : Nat) :
    ChangesOnly [.groups, .stations] s (s.applyTarget q g target).2 := State.beginFade_changes ..

theorem State.groupAmended_changes (s : State) (g : Fin 12) (old : GroupSettings) :
    ChangesOnly [.groups, .stations] s (s.groupAmended g old) := by
  unfold State.groupAmended; dsimp only
  refine ChangesOnly.andThen (ps := [.groups, .stations]) ?_ (State.markIf_changes ..)
  refine ChangesOnly.andThen (ps := [.groups, .stations]) ?_ (State.refreshGroup_changes ..)
  split
  · exact State.writeGroup_changes ..
  · exact .refl _ _

theorem State.applyGroup_changes (s : State) (q : Ask) (g : Fin 12) :
    ChangesOnly ([.settings, .store] ++ lightParts) s (s.applyGroup q g).2 := by
  unfold State.applyGroup; dsimp only [Ask.says]
  have settled := s.settle_changes
    { s.settings with groups := put s.settings.groups g (q.req.fields.foldl GroupSettings.amend s.settings.groups[g]).inRange }
    (s.settings.groups[g] != (q.req.fields.foldl GroupSettings.amend s.settings.groups[g]).inRange)
  generalize (({ s with settings := _ } : State).noteChange _) = s1 at *
  exact (settled.andThen (rs := [.settings, .store, .groups, .stations]) (State.groupAmended_changes ..)).andThen
    (State.announceLit_changes _)

theorem State.czoneAmended_changes (s : State) (z : Fin 8) (old : CZoneSettings) :
    ChangesOnly lightParts s (s.czoneAmended z old) := by
  unfold State.czoneAmended; dsimp only
  have marked := s.markIf_changes (old != s.settings.czones[z]) .czone
  generalize s.markIf (old != s.settings.czones[z]) .czone = s1 at *
  have h2 : ChangesOnly burstParts s
      (if (old.present && !s.settings.czones[z].present) = true then
        (s1.dropZone z .undelivered).writeCZone z CallZone.idle
      else if (!old.present && s.settings.czones[z].present) = true then
        ((s1.writeCZone z CallZone.idle).deriveSilence z).arbitrate z
      else s1) := by
    split
    · exact (marked.andThen (rs := burstParts) (State.dropZone_changes ..)).andThen (State.writeCZone_changes ..)
    · split
      · exact ((marked.andThen (rs := burstParts) (State.writeCZone_changes ..)).andThen (rs := burstParts)
          (State.deriveSilence_changes ..)).andThen (State.arbitrate_changes ..)
      · exact marked.mono
  split
  · exact h2.mono
  · exact ((h2.andThen (rs := lightParts) (State.deriveSilence_changes ..)).andThen (rs := lightParts)
      (State.refreshLights_changes _)).andThen (State.markIf_changes ..)

theorem State.applyCircuit_changes (s : State) (c : Fin 16) (fs : List FieldVal) :
    ChangesOnly ([.holds, .settings, .store] ++ burstParts) s (s.applyCircuit c fs) := by
  unfold State.applyCircuit; dsimp only
  have settled := s.settle_changes
    { s.settings with circuits := put s.settings.circuits c (fs.foldl CircuitSettings.amend s.settings.circuits[c]) }
    (s.settings.circuits[c] != fs.foldl CircuitSettings.amend s.settings.circuits[c])
  generalize (({ s with settings := _ } : State).noteChange _) = s1 at *
  have h2 : ChangesOnly [.holds, .settings, .store, .stations] s
      (if (s.settings.circuits[c].serves != (fs.foldl CircuitSettings.amend s.settings.circuits[c]).serves) = true then
        (s1.mark .circuit).evalHolds .system else s1) := by
    split
    · exact (settled.andThen (rs := [.settings, .store, .stations]) (State.mark_changes ..)).andThen
        (State.evalHolds_changes ..)
    · exact settled.mono
  split
  · exact h2.andThen (State.changeCircuit_changes ..)
  · exact h2.mono

theorem State.applyStatus_changes (s : State) (fs : List FieldVal) (new : PartSettings) :
    ChangesOnly [.settings, .store, .circuits, .stations] s (s.applyStatus fs new) := by
  unfold State.applyStatus; dsimp only
  have settled := s.settle_changes { s.settings with part := new } (s.settings.part != new)
  generalize (({ s with settings := { s.settings with part := new } } : State).noteChange _) = s1 at *
  have h2 : ChangesOnly [.settings, .store, .circuits, .stations] s
      (if (s.settings.part.brigadeLink != new.brigadeLink) = true then s1.demandBrigade else s1) := by
    split
    · exact settled.andThen (State.demandBrigade_changes ..)
    · exact settled.mono
  split
  · exact h2.andThen (State.writeStore_changes ..)
  · exact h2

theorem State.applyStation_changes (s : State) (n : Fin 8) (new : StationSettings) :
    ChangesOnly [.settings, .store, .stations] s (s.applyStation n new) := by
  unfold State.applyStation; dsimp only
  refine ChangesOnly.andThen (ps := [.settings, .store, .stations]) ?_ (State.markIf_changes ..)
  refine ChangesOnly.andThen (ps := [.settings, .stations]) ?_ (State.noteChange_changes ..)
  constructor; intro p hp; cases p <;> simp_all [Part.same]

theorem State.actIncident_changes (s : State) (i : Fin 25) (x : Incident) (st : Fin 8) (fs : List FieldVal) :
    ChangesOnly incidentParts s (s.actIncident i x st fs) := by
  unfold State.actIncident; split
  · split
    · exact (State.acknowledgeIncident_changes ..).mono
    · exact .refl _ _
  · split
    · split
      · exact (State.escalateIncident_changes ..).mono
      · exact .refl _ _
    · split
      · split
        · exact .refl _ _
        · exact (State.silenceIncident_changes ..).mono
      · exact .refl _ _

theorem State.roomForCall_changes {s room : State} {c : Fin 32} (h : s.roomForCall = some (c, room)) :
    ChangesOnly [.calls, .stations] s room := by
  unfold State.roomForCall at h
  split at h
  · cases h; exact .refl _ _
  · obtain ⟨c, -, made⟩ := Option.map_eq_some_iff.1 h
    cases made; exact State.emptyCall_changes ..

/-! ## The soft restart and the start -/

theorem State.dropCalls_changes (s : State) : ChangesOnly burstParts s s.dropCalls := by
  have stopped : ChangesOnly burstParts s (forAll 8 (fun z s =>
      let t := s.stopBurst z
      t.writeCZone z { t.czones[z] with queue := [], suppressed := false, barred := false }) s) :=
    .forAll (fun z s => (State.stopBurst_changes ..).andThen (State.writeCZone_changes ..)) s
  have emptied (t : State) (v : Vector CallSlot 32) (l : List (Fin 32)) :
      ChangesOnly [.calls] t { t with calls := v, callList := l } := by
    constructor; intro p hp; cases p <;> simp_all [Part.same]
  exact stopped.andThen (emptied ..)

theorem State.restartLights_changes (s : State) :
    ChangesOnly [.flickers, .groups, .lit, .stations] s s.restartLights := by
  have stopped (v : Vector Flicker 8) (w : Vector LightGroup 12) :
      ChangesOnly [.flickers, .groups] s { s with flickers := v, groups := w } := by
    constructor; intro p hp; cases p <;> simp_all [Part.same]
  have announced (t : State) (v : Vector Bool 8) : ChangesOnly [.lit] t { t with lit := v } := by
    constructor; intro p hp; cases p <;> simp_all [Part.same]
  exact ((stopped ..).andThen (rs := [.flickers, .groups, .stations]) (State.refreshGroups_changes _)).andThen
    (announced ..)

theorem State.restartCircuits_changes (s : State) (loads : BitVec 16) :
    ChangesOnly (.holds :: burstParts) s (s.restartCircuits loads) :=
  .forAll (fun _ _ => (State.changeCircuit_changes ..).andThen (State.changeCircuit_changes ..)) s

theorem State.restartZones_changes (s : State) : ChangesOnly [.zones, .holds, .stations] s s.restartZones := by
  refine .forAll (fun z s => ?_) s
  dsimp only; split
  · exact (State.writeZone_changes ..).mono
  · exact (State.writeZone_changes ..).andThen (State.evalHolds_changes ..)

theorem State.restartIrons_changes (s : State) : ChangesOnly [.irons, .stations] s s.restartIrons :=
  .forAll (fun _ _ => State.writeIron_changes ..) s

theorem State.restartLink_changes (s : State) : ChangesOnly [.link, .holds, .stations] s s.restartLink := by
  refine ChangesOnly.andThen (ps := [.link]) ?_ (State.setDegraded_changes ..)
  constructor; intro p hp; cases p <;> simp_all [Part.same]

theorem State.softRestart_changes (s : State) (loads : BitVec 16) :
    ChangesOnly ([.link, .holds, .supply, .zones, .irons] ++ lightParts) s (s.softRestart loads) := by
  unfold State.softRestart; dsimp only
  let all : List Part := [.link, .holds, .supply, .zones, .irons] ++ lightParts
  have lights : ChangesOnly all s s.dropCalls.restartLights :=
    (State.dropCalls_changes s).andThen (State.restartLights_changes _)
  have circuits := lights.andThen (rs := all) (State.restartCircuits_changes _ loads)
  have irons := (circuits.andThen (rs := all) (State.restartZones_changes _)).andThen (rs := all)
    (State.restartIrons_changes _)
  exact ((irons.andThen (rs := all) (State.writeSupply_changes ..)).andThen (rs := all)
    (State.restartLink_changes _)).andThen (State.flagAll_changes _)

theorem State.start_changes (s : State) (p : Plant) (fromPin : Bool) : ChangesOnly startParts s (s.start p fromPin) := by
  unfold State.start
  have loaded : ChangesOnly startParts s s.loadSettings := by
    unfold State.loadSettings; split <;>
      (constructor; intro p hp; cases p <;> simp_all [Part.same, startParts])
  have set (t : State) : ChangesOnly startParts t (t.setUp p fromPin) := by
    constructor; intro p hp; cases p <;> simp_all [Part.same, startParts, State.setUp]
  have written (t : State) : ChangesOnly startParts t t.writeRetained := by
    constructor; intro p hp; cases p <;> simp_all [Part.same, startParts, State.writeRetained]
  have lights (t : State) : ChangesOnly startParts t t.startLights := by
    constructor; intro p hp; cases p <;> simp_all [Part.same, startParts, State.startLights]
  have holds (t : State) : ChangesOnly startParts t t.startHolds :=
    ChangesOnly.mono (.forAll State.evalAllHolds_changes t)
  exact ((((loaded.andThen (rs := startParts) (set _)).andThen (rs := startParts) (written _)).andThen
    (rs := startParts) (lights _)).andThen (rs := startParts) (holds _)).andThen (State.flagAll_changes _)

/-! ## What a decided request can change -/

/-- The parts that the owner of a kind can change at a request of a code. -/
def ownerParts : ReqCode → Kind → List Part
  | .look, _ => [.stations]
  | .summary, _ => [.stations]
  | .store, _ => [.store, .image, .stations]
  | .restart, _ => [.link, .holds, .supply, .zones, .irons] ++ lightParts
  | .amend, .perf => [.perfs, .retained, .holds, .settings, .store] ++ lightParts
  | .amend, .iron => [.irons, .holds, .settings, .store, .stations]
  | .amend, .zone => [.zones, .holds, .settings, .store] ++ burstParts
  | .amend, .group => [.settings, .store] ++ lightParts
  | .amend, .czone => [.settings, .store] ++ lightParts
  | .amend, .circuit => [.holds, .settings, .store] ++ burstParts
  | .amend, .status => [.settings, .store, .circuits, .stations]
  | .amend, .station => [.settings, .store, .stations]
  | .amend, .hold => []
  | .amend, .incident => incidentParts
  | .amend, .call => burstParts
  | .raise, .hold => [.holds, .stations]
  | .raise, .incident => incidentParts
  | .raise, .call => burstParts
  | .retire, .hold => [.holds, .stations]
  | .retire, .incident => [.zones, .incidents, .holds] ++ lightParts
  | .retire, .call => burstParts
  | _, _ => []

theorem Decides.changes {code : ReqCode} {q : Ask} {s : State} {v : Verdict} (h : Decides code q s v) :
    ChangesOnly (ownerParts code q.kind) s v.2 := by
  cases h with
  | stays => exact .refl _ _
  | looks _ hc => subst hc; exact State.lookClears_changes ..
  | arms _ hc => subst hc; exact State.arm_changes ..
  | stores _ hc => subst hc; exact State.beginStore_changes ..
  | restarts _ loads hc => subst hc; exact State.softRestart_changes ..
  | blocks aud k hc hk => subst hc; rw [hk]; exact (State.mark_changes ..).mono
  | enters _ aud p adm hc hk => subst hc; rw [hk]; exact (State.enter_changes ..).mono
  | amendsPerf aud hc hk => subst hc; rw [hk]; exact (State.applyPerf_changes ..).mono
  | amendsIron _ ch l new hc hk => subst hc; rw [hk]; exact State.applyIron_changes ..
  | amendsZone _ z new hc hk => subst hc; rw [hk]; exact State.applyZone_changes ..
  | targets g n hc hk => subst hc; rw [hk]; exact (State.applyTarget_changes ..).mono
  | amendsGroup g hc hk => subst hc; rw [hk]; exact State.applyGroup_changes ..
  | amendsCZone _ z new hc hk =>
    subst hc; rw [hk]; exact (State.settle_changes ..).andThen (State.czoneAmended_changes ..)
  | amendsCircuit _ c hc hk => subst hc; rw [hk]; exact State.applyCircuit_changes ..
  | amendsStatus _ new hc hk => subst hc; rw [hk]; exact State.applyStatus_changes ..
  | amendsStation _ n new hc hk => subst hc; rw [hk]; exact State.applyStation_changes ..
  | raisesHold _ aud k n hc hk => subst hc; rw [hk]; exact State.fillHold_changes ..
  | retiresHold _ aud k x o hc hk => subst hc; rw [hk]; exact State.emptyHold_changes ..
  | widens _ i set hc hk => subst hc; rw [hk]; exact (State.widenIncident_changes ..).mono
  | raisesIncident _ i set hc hk => subst hc; rw [hk]; exact (State.raiseStationIncident_changes ..).mono
  | actsIncident _ i x hc hk => subst hc; rw [hk]; exact State.actIncident_changes ..
  | retiresIncident _ i x hc hk => subst hc; rw [hk]; exact (State.retireIncidentAt_changes ..).mono
  | raisesCall _ x b c room hc hk _ _ found =>
    subst hc; rw [hk]; exact (State.roomForCall_changes found).andThen (State.fillCall_changes ..)
  | amendsCall _ c x p iv hc hk => subst hc; rw [hk]; exact State.amendCallAt_changes ..
  | retiresCall _ c x hc hk => subst hc; rw [hk]; exact State.retireCallAt_changes ..

/-- A served request changes what the link port and its owner can change. -/
theorem Served.changes {code : ReqCode} {kind : Kind} {r : Req} {s t : State} (h : Served code kind r s t)
    {ps : List Part} (owner : ∀ q u v, q.kind = kind → q.req = r → Decides code q u v → ChangesOnly ps u v.2)
    (port : within requestParts ps = true := by rfl) : ChangesOnly ps s t := by
  cases h with
  | lost => exact .refl _ _
  | failed => exact (State.frameFails_changes s).mono port
  | decided st v heard decides =>
    have good := (State.frameGood_changes s).andThen (owner _ _ _ rfl rfl decides) port (within_refl ps)
    exact good.andThen (State.reply_changes ..) (within_refl ps)
      (by simpa [within] using List.all_eq_true.1 port .link (by decide))

end Sys2Proof.Machine
end

section
/-!
PROOFS. What the events of the plant and of the timers can change, and so every command (00, "Block overview"); the
settings and the lock (R193..R196); a part without power (R178); the step and the attention flags (R187, R190).
-/

namespace Sys2Proof.Machine

/-! ## Events of the curtain channels -/

theorem State.countEncoder_changes (s : State) (ch : Fin 3) (up : Bool) :
    ChangesOnly [.irons, .holds, .stations] s (s.countEncoder ch up) := by
  unfold State.countEncoder
  split
  · exact .refl _ _
  · dsimp only
    have counted := s.writeIron_changes ch ((s.irons[ch].tally up).count up)
    generalize s.writeIron ch _ = s1 at *
    have h2 : ChangesOnly [.irons, .holds, .stations] s
        (if s.irons[ch].saturates up = true then s1.faultInMotion ch .drift else s1) := by
      split
      · exact counted.andThen (State.faultInMotion_changes ..)
      · exact counted.mono
    generalize (if s.irons[ch].saturates up = true then s1.faultInMotion ch .drift else s1) = s2 at *
    split
    · exact h2.andThen (State.faultInMotion_changes ..)
    · split
      · exact (h2.andThen (rs := [.irons, .holds, .stations]) (State.writeIron_changes ..)).andThen
          (State.recordFault_changes ..)
      · exact h2

theorem State.indexSeen_changes (s : State) (ch : Fin 3) :
    ChangesOnly [.irons, .holds, .stations] s (s.indexSeen ch) := by
  unfold State.indexSeen; split
  · exact .refl _ _
  · exact State.reload_changes ..

theorem State.limitInMade_changes (s : State) (ch : Fin 3) :
    ChangesOnly [.irons, .holds, .perfs, .retained, .stations] s (s.limitInMade ch) := by
  unfold State.limitInMade; split
  · exact .refl _ _
  · dsimp only
    have loaded := s.reload_changes ch 0 true
    generalize s.reload ch 0 true = s1 at *
    have fallen : ChangesOnly [.irons, .holds, .stations] s
        (if s.irons[ch].drifted s.settings.irons[ch].driftTol 0 = true then s1 else s1.recordFault ch .drift) := by
      split
      · exact loaded
      · exact loaded.andThen (State.recordFault_changes ..)
    split
    · exact loaded.andThen (State.arrive_changes ..)
    · exact fallen.andThen (State.writeIron_changes ..)
    · exact fallen.andThen (State.writeIron_changes ..)
    · exact loaded.mono
    · exact loaded.mono

theorem State.limitOutMade_changes (s : State) (ch : Fin 3) :
    ChangesOnly [.irons, .holds, .stations] s (s.limitOutMade ch) := by
  unfold State.limitOutMade; split
  · exact .refl _ _
  · dsimp only; split
    · exact (State.reload_changes ..).andThen (State.writeIron_changes ..)
    · exact State.reload_changes ..

theorem State.pressRelease_changes (s : State) (ch : Fin 3) :
    ChangesOnly [.lines, .irons, .stations] s (s.pressRelease ch) := by
  unfold State.pressRelease; dsimp only; split
  · exact (s.lines_changes _).mono
  · exact (s.lines_changes _).andThen (State.writeIron_changes ..)

theorem State.letGoRelease_changes (s : State) (ch : Fin 3) :
    ChangesOnly [.lines, .irons, .stations] s (s.letGoRelease ch) := by
  unfold State.letGoRelease; dsimp only; split
  · exact (s.lines_changes _).mono
  · exact (s.lines_changes _).andThen (State.writeIron_changes ..)

theorem State.now_changes (s : State) (t : Nat) : ChangesOnly [.clock] s { s with now := t } := by
  constructor; intro p hp; cases p <;> simp_all [Part.same]

theorem State.sample_changes (s : State) (ch : Fin 3) :
    ChangesOnly [.clock, .irons, .holds, .stations] s (s.sample ch) := by
  unfold State.sample; split
  · exact .refl _ _
  · dsimp only
    have clock := s.now_changes (max s.now (s.irons[ch].sampleAt + Config.sampleMs))
    generalize ({ s with now := _ } : State) = s1 at *
    have supervised : ChangesOnly [.clock, .irons, .holds, .stations] s
        (if s.irons[ch].motion = .descending then s1.superviseDescent ch else s1) := by
      split
      · exact clock.andThen (State.superviseDescent_changes ..)
      · exact clock.mono
    exact (supervised.andThen (rs := [.clock, .irons, .holds, .stations]) (State.writeIron_changes ..)).andThen
      (State.markIf_changes ..)

theorem State.stallSample_changes (s : State) (ch : Fin 3) :
    ChangesOnly [.clock, .irons, .holds, .stations] s (s.stallSample ch) := by
  unfold State.stallSample; dsimp only; split
  · exact State.sample_changes ..
  · exact .refl _ _

theorem State.slowSample_changes (s : State) (ch : Fin 3) :
    ChangesOnly [.clock, .irons, .holds, .stations] s (s.slowSample ch) := by
  unfold State.slowSample; dsimp only; split
  · exact State.sample_changes ..
  · exact .refl _ _

theorem State.raiseTimesOut_changes (s : State) (ch : Fin 3) :
    ChangesOnly [.clock, .irons, .holds, .stations] s (s.raiseTimesOut ch) := by
  unfold State.raiseTimesOut; dsimp only; split
  · exact (State.reach_changes ..).andThen (State.faultInMotion_changes ..)
  · exact .refl _ _

/-! ## Events of zones and incidents -/

/-- The ways in which a confirmation can end: with no running timer nothing happens; with the alarm written, an
incident is raised, or the zone's own is reactivated, or nothing more happens (R69, R98). -/
theorem State.confirms_cases {s t : State} {z : Fin 24} (h : s.confirms z = .next t) :
    t = s ∨ ∃ time u, s.zones[z].detection = .pending ∧ s.zones[z].confirmAt = some time ∧
      u = (s.reach time).writeZone z { s.zones[z] with detection := .alarm, confirmAt := none } ∧
      ((∃ i, s.zones[z].incident = none ∧ u.freeIncidentSlot = some i ∧ t = u.raiseZoneIncident z i) ∨
        (∃ i, s.zones[z].incident = some i ∧ s.settings.zones[z].type = .detector ∧ t = u.reactivate i) ∨
        (s.zones[z].incident.isSome = true ∧ s.settings.zones[z].type ≠ .detector ∧ t = u)) := by
  unfold State.confirms at h
  dsimp only at h
  split at h
  next time pending running =>
    refine .inr ⟨time, _, pending, running, rfl, ?_⟩
    generalize (s.reach time).writeZone z _ = u at *
    split at h
    next absent =>
      split at h
      next i free => exact .inl ⟨i, absent, free, (Host.Outcome.next.inj h).symm⟩
      next => cases h
    next i own detector => exact .inr (.inl ⟨i, own, detector, (Host.Outcome.next.inj h).symm⟩)
    next own other => exact .inr (.inr ⟨by rw [own]; rfl, by rw [other]; decide, (Host.Outcome.next.inj h).symm⟩)
    next own other => exact .inr (.inr ⟨by rw [own]; rfl, by rw [other]; decide, (Host.Outcome.next.inj h).symm⟩)
  next => exact .inl (Host.Outcome.next.inj h).symm

/-- Where a confirmation ends in a next state, what it can change. -/
theorem State.confirms_changes {s t : State} {z : Fin 24} (h : s.confirms z = .next t) :
    ChangesOnly ([.clock, .zones] ++ incidentParts) s t := by
  obtain rfl | ⟨time, u, -, -, hu, ends⟩ := State.confirms_cases h
  · exact .refl _ _
  have alarm : ChangesOnly [.clock, .zones, .stations] s u :=
    hu ▸ (s.reach_changes time).andThen (State.writeZone_changes ..)
  obtain ⟨i, -, -, rfl⟩ | ⟨i, -, -, rfl⟩ | ⟨-, -, rfl⟩ := ends
  · exact alarm.andThen (State.raiseZoneIncident_changes ..)
  · exact alarm.andThen (State.reactivate_changes ..)
  · exact alarm.mono

theorem State.quietRuns_changes (s : State) (z : Fin 24) :
    ChangesOnly [.clock, .zones, .holds, .stations] s (s.quietRuns z) := by
  unfold State.quietRuns; dsimp only; split
  · exact .refl _ _
  · exact ((State.reach_changes ..).andThen (rs := [.clock, .zones, .stations]) (State.writeZone_changes ..)).andThen
      (State.deriveCondition_changes ..)

theorem State.loopRuns_changes (s : State) (z : Fin 24) :
    ChangesOnly [.clock, .zones, .holds, .stations] s (s.loopRuns z) := by
  unfold State.loopRuns; dsimp only; split
  · exact .refl _ _
  · exact ((State.reach_changes ..).andThen (rs := [.clock, .zones, .stations]) (State.writeZone_changes ..)).andThen
      (State.deriveCondition_changes ..)

theorem State.ackRunsOut_changes (s : State) (i : Fin 25) :
    ChangesOnly (.clock :: incidentParts) s (s.ackRunsOut i) := by
  unfold State.ackRunsOut; split
  · exact .refl _ _
  · split
    · exact (State.reach_changes ..).andThen (State.escalateIncident_changes ..)
    · exact .refl _ _

theorem State.investigationRunsOut_changes (s : State) (i : Fin 25) :
    ChangesOnly (.clock :: incidentParts) s (s.investigationRunsOut i) := by
  unfold State.investigationRunsOut; split
  · exact .refl _ _
  · split
    · exact (State.reach_changes ..).andThen (State.escalateIncident_changes ..)
    · exact .refl _ _

/-! ## Events of lights, calls and circuits -/

theorem State.fadeEnds_changes (s : State) (g : Fin 12) :
    ChangesOnly [.clock, .grid, .flickers, .groups, .stations] s (s.fadeEnds g) := by
  unfold State.fadeEnds; dsimp only; split
  · exact State.fadeEngineStep_changes s
  · exact .refl _ _

theorem State.notBeforePasses_changes (s : State) (c : Fin 32) (z : Fin 8) :
    ChangesOnly (.clock :: burstParts) s (s.notBeforePasses c z) := by
  unfold State.notBeforePasses; split
  · exact .refl _ _
  · split
    · exact (State.reach_changes ..).andThen (State.arbitrate_changes ..)
    · exact .refl _ _

theorem State.strokeOnRuns_changes (s : State) (z : Fin 8) :
    ChangesOnly [.clock, .czones, .circuits, .stations] s (s.strokeOnRuns z) := by
  unfold State.strokeOnRuns; dsimp only; split
  · exact .refl _ _
  · exact ((State.reach_changes ..).andThen (rs := [.clock, .czones, .stations]) (State.writeCZone_changes ..)).andThen
      (State.demand_changes ..)

theorem State.strokeGapRuns_changes (s : State) (z : Fin 8) :
    ChangesOnly [.clock, .czones, .circuits, .stations] s (s.strokeGapRuns z) := by
  unfold State.strokeGapRuns; dsimp only; split
  · exact .refl _ _
  · split
    · exact (State.reach_changes ..).andThen (State.beginStroke_changes ..)
    · exact .refl _ _

theorem State.burstRuns_changes (s : State) (z : Fin 8) :
    ChangesOnly (.clock :: burstParts) s (s.burstRuns z) := by
  unfold State.burstRuns; split
  · exact .refl _ _
  · exact (State.reach_changes ..).andThen (State.countBurst_changes ..)

theorem State.patternRuns_changes (s : State) (c : Fin 16) :
    ChangesOnly [.clock, .circuits, .stations] s (s.patternRuns c) := by
  unfold State.patternRuns; dsimp only; split
  · exact .refl _ _
  · split
    · exact (State.reach_changes ..).andThen (State.writeCircuit_changes ..)
    · exact .refl _ _

theorem State.testRuns_changes (s : State) (c : Fin 16) (seen : Bool) :
    ChangesOnly ([.clock, .holds] ++ burstParts) s (s.testRuns c seen) :=
  (State.reach_changes ..).andThen (State.changeCircuit_changes ..)

theorem State.overloads_changes (s : State) (c : Fin 16) : ChangesOnly (.holds :: burstParts) s (s.overloads c) := by
  unfold State.overloads; dsimp only; split
  · exact State.changeCircuit_changes ..
  · exact .refl _ _

theorem State.retryRuns_changes (s : State) (c : Fin 16) :
    ChangesOnly ([.clock, .holds] ++ burstParts) s (s.retryRuns c) := by
  unfold State.retryRuns; dsimp only; split
  · exact .refl _ _
  · exact (State.reach_changes ..).andThen (State.changeCircuit_changes ..)

theorem State.cleanRuns_changes (s : State) (c : Fin 16) :
    ChangesOnly ([.clock, .holds] ++ burstParts) s (s.cleanRuns c) := by
  unfold State.cleanRuns; dsimp only; split
  · exact .refl _ _
  · exact (State.reach_changes ..).andThen (State.changeCircuit_changes ..)

theorem State.offRuns_changes (s : State) (c : Fin 16) :
    ChangesOnly ([.clock, .holds] ++ burstParts) s (s.offRuns c) := by
  unfold State.offRuns; dsimp only; split
  · exact .refl _ _
  · exact (State.reach_changes ..).andThen (State.changeCircuit_changes ..)

/-! ## Events of the supply, the store and the part itself -/

theorem State.mainsLine_changes (s : State) (present : Bool) :
    ChangesOnly ([.lines, .supply, .irons, .holds] ++ lightParts) s (s.mainsLine present) := by
  unfold State.mainsLine; split
  · exact .refl _ _
  · dsimp only
    have line := s.lines_changes { s.lines with mainsPresent := present }
    generalize ({ s with lines := { s.lines with mainsPresent := present } } : State) = s1 at *
    split
    · exact line.andThen (State.writeSupply_changes ..)
    · exact line.andThen (State.writeSupply_changes ..)
    · exact line.andThen (State.setMains_changes ..)
    · exact line.andThen (State.setMains_changes ..)
    · exact line.mono
    · exact line.mono

theorem State.lossRuns_changes (s : State) :
    ChangesOnly ([.clock, .supply, .irons, .holds] ++ lightParts) s s.lossRuns := by
  unfold State.lossRuns; split
  · exact .refl _ _
  · exact (State.reach_changes ..).andThen (State.setMains_changes ..)

theorem State.settlingRuns_changes (s : State) :
    ChangesOnly ([.clock, .supply, .irons, .holds] ++ lightParts) s s.settlingRuns := by
  unfold State.settlingRuns; split
  · exact .refl _ _
  · exact (State.reach_changes ..).andThen (State.setMains_changes ..)

theorem State.supplyLine_changes (s : State) (on : Bool) :
    ChangesOnly [.lines, .supply, .stations] s (s.supplyLine on) := by
  unfold State.supplyLine; split
  · exact .refl _ _
  · exact (s.lines_changes _).andThen (State.writeSupply_changes ..)

theorem State.safetyRuns_changes (s : State) : ChangesOnly [.clock, .supply, .holds, .stations] s s.safetyRuns := by
  unfold State.safetyRuns; split
  · exact .refl _ _
  · exact ((State.reach_changes ..).andThen (rs := [.clock, .supply, .stations]) (State.writeSupply_changes ..)).andThen
      (State.evalHolds_changes ..)

theorem State.cellLine_changes (s : State) (good : Bool) :
    ChangesOnly [.lines, .supply, .stations] s (s.cellLine good) := by
  unfold State.cellLine; split
  · exact .refl _ _
  · exact (s.lines_changes _).andThen (State.writeSupply_changes ..)

theorem State.writeRetained_changes (s : State) : ChangesOnly [.retained] s s.writeRetained := by
  constructor; intro p hp; cases p <;> simp_all [Part.same, State.writeRetained]

theorem State.cellRuns_changes (s : State) : ChangesOnly [.clock, .supply, .retained, .stations] s s.cellRuns := by
  unfold State.cellRuns; split
  · exact .refl _ _
  · split
    · exact ((State.reach_changes ..).andThen (rs := [.clock, .retained]) (State.writeRetained_changes _)).andThen
        (State.writeSupply_changes ..)
    · exact (State.reach_changes ..).andThen (State.writeSupply_changes ..)

theorem State.failPower_changes (s : State) : ChangesOnly [.power, .link] s s.failPower := by
  constructor; intro p hp; cases p <;> simp_all [Part.same, State.failPower]

theorem State.replyEnds_changes (s : State) : ChangesOnly [.link] s s.replyEnds := by
  constructor; intro p hp; cases p <;> simp_all [Part.same, State.replyEnds]

theorem State.storeCompletes_changes (s : State) : ChangesOnly [.image, .store, .stations] s s.storeCompletes := by
  unfold State.storeCompletes; split
  · refine ChangesOnly.andThen (ps := [.image]) ?_ (State.writeStore_changes ..)
    constructor; intro p hp; cases p <;> simp_all [Part.same]
  · exact .refl _ _

theorem State.frameDropped_changes (s : State) (chars : List Byte) :
    ChangesOnly requestParts s (s.frameDropped chars) := by
  unfold State.frameDropped; split
  · exact State.frameFails_changes s
  · exact .refl _ _

theorem State.frameJudged_changes (s : State) (chars : List Byte) :
    ChangesOnly requestParts s (s.frameJudged chars) := by
  unfold State.frameJudged; split
  · exact State.frameFails_changes s
  · exact .refl _ _

/-! ## Every command -/

/-- An event that a powered part takes changes what its meaning changes. -/
theorem State.takes_changes {s t : State} {f : State → State} {ps : List Part} (h : s.takes f = .next t)
    (k : ChangesOnly ps s (f s)) : ChangesOnly ps s t := by
  unfold State.takes at h
  split at h
  · cases h; exact k
  · cases h; exact .refl _ _

theorem unknown_changes (code kind : Byte) (r : Req) (s : State) :
    ChangesOnly requestParts s (s.unknown code kind r) := by
  unfold State.unknown
  split
  · exact .refl _ _
  · unfold State.serve
    split
    · exact .refl _ _
    · split
      · exact State.frameFails_changes s
      · exact (State.frameGood_changes s).andThen (State.reply_changes ..)

/-- A request that is served changes its touches where they hold all its owner's parts. -/
theorem request_changes {i : Instr} {code : ReqCode} {kind : Kind} {r : Req} {s t : State}
    (named : requestOf i = some (code, kind, r)) (run : exec i s = .next t) {ps : List Part}
    (owner : ∀ q u v, q.kind = kind → q.req = r → Decides code q u v → ChangesOnly ps u v.2)
    (port : within requestParts ps = true := by rfl) : ChangesOnly ps s t := by
  obtain ⟨u, ran, served⟩ := exec_served named s
  rw [run] at ran
  cases ran
  exact served.changes owner port

/-- As `request_changes`, where nothing but the code and the kind matters. -/
theorem request_changes_kind {i : Instr} {code : ReqCode} {kind : Kind} {r : Req} {s t : State}
    (named : requestOf i = some (code, kind, r)) (run : exec i s = .next t) {ps : List Part}
    (port : within requestParts ps = true := by rfl) (own : within (ownerParts code kind) ps = true := by rfl) :
    ChangesOnly ps s t :=
  request_changes named run (fun _ _ _ hk _ h => (hk ▸ h.changes).mono own) port

/-- A phase request writes no settings (R5). -/
theorem phaseDecides_changes {q : Ask} {u : State} {v : Verdict} (kind : q.kind = .perf)
    (carried : carries q.req.fields 32 = true) (h : Decides .amend q u v) :
    ChangesOnly ([.link, .holds, .perfs, .retained] ++ lightParts) u v.2 := by
  cases h with
  | stays => exact .refl _ _
  | blocks => exact (State.mark_changes ..).mono
  | enters => exact (State.enter_changes ..).mono
  | amendsPerf aud _ _ _ form asked => exact absurd asked (phase_of_perfForm form carried)
  | _ => simp_all

theorem phaseCommand_changes {p : Phase} {a : AmendReq} {s t : State} (run : exec (phaseCommand p a) s = .next t) :
    ChangesOnly ([.link, .holds, .perfs, .retained] ++ lightParts) s t := by
  have named : requestOf (phaseCommand p a) = some (.amend, .perf, a.withField 32 (BitVec.ofNat 16 p.code)) := by
    cases p <;> rfl
  exact request_changes named run fun q u v hk hr h =>
    phaseDecides_changes hk (hr ▸ withField_carries a 32 _) h

/-- A demand comes from no ENGINEER, and so with no settings (R37, R194). -/
theorem State.admitsIron_demand {s : State} {st : Fin 8} {ch : Fin 3} {fs : List FieldVal} (carried : carries fs 37 = true)
    (h : s.admitsIron st ch fs = true) : s.role st ≠ .engineer := by
  intro engineer
  obtain ⟨v, asked⟩ := exists_askedFor carried
  unfold State.admitsIron at h
  simp only [asked, State.isStageOf, engineer] at h
  split at h <;> simp_all

theorem demandDecides_changes {q : Ask} {u : State} {v : Verdict} (kind : q.kind = .iron)
    (carried : carries q.req.fields 37 = true) (h : Decides .amend q u v) :
    ChangesOnly [.link, .holds, .stations, .irons] u v.2 := by
  cases h with
  | stays => exact .refl _ _
  | amendsIron a ch limitIn new _ _ _ _ _ role stop written =>
    have plain : amendsSettings .iron q.req.fields = false := by
      rcases State.settingsStop_eq_none stop with none | locks
      · rwa [kind] at none
      · exact absurd locks.1 (State.admitsIron_demand carried role)
    rw [if_neg (by simp [plain])] at written
    subst written
    rw [State.applyIron_actions]
    exact (State.actIron_changes ..).mono
  | _ => simp_all

/-- A target goes with no settings, which are an ENGINEER's (R107, R194), and a form with a target is no settings
amendment. -/
theorem targetDecides_changes {q : Ask} {u : State} {v : Verdict} (kind : q.kind = .group)
    (carried : carries q.req.fields 33 = true) (h : Decides .amend q u v) :
    ChangesOnly [.link, .holds, .stations, .groups] u v.2 := by
  cases h with
  | stays => exact .refl _ _
  | targets => exact (State.applyTarget_changes ..).mono
  | amendsGroup g _ _ _ _ absent => rw [carried] at absent; cases absent
  | _ => simp_all

/-- An acknowledgement, and a silence, escalate nothing (R91, R97, R99). -/
theorem actionDecides_changes {q : Ask} {u : State} {v : Verdict} (kind : q.kind = .incident)
    (carried : carries q.req.fields 128 = true ∨ carries q.req.fields 130 = true) (h : Decides .amend q u v) :
    ChangesOnly [.link, .holds, .stations, .incidents, .circuits] u v.2 := by
  cases h with
  | stays => exact .refl _ _
  | actsIncident a i x _ _ _ form =>
    have noStage : askedFor q.req.fields 129 = none := by
      rw [askedFor_eq_none]
      rcases carried with c | c
      · exact incidentForm_one form (by decide) (by decide) (by decide) c
      · exact incidentForm_one form (by decide) (by decide) (by decide) c
    simp only [State.actIncident, noStage]
    split
    · split
      · exact (State.acknowledgeIncident_changes ..).mono
      · exact .refl _ _
    · rw [if_neg (by simp)]
      split
      · split
        · exact .refl _ _
        · exact (State.silenceIncident_changes ..).mono
      · exact .refl _ _
  | _ => simp_all

/-- Settles O14: a request by what its owner can make of it, an event by its own frame. -/
theorem commandsTouchOnlyTheirParts : Obligations.CommandsTouchOnlyTheirParts := by
  unfold Obligations.CommandsTouchOnlyTheirParts
  intro i s t run
  cases i with
  | look => exact request_changes_kind rfl run
  | summary => exact request_changes_kind rfl run
  | store => exact request_changes_kind rfl run
  | restart => exact request_changes_kind rfl run
  | unknownRequest code kind r => cases run; exact unknown_changes ..
  | amendPhasePrepare a => exact phaseCommand_changes (p := .prepare) run
  | amendPhaseHouseOpen a => exact phaseCommand_changes (p := .houseOpen) run
  | amendPhaseBeginners a => exact phaseCommand_changes (p := .beginners) run
  | amendPhaseRunning a => exact phaseCommand_changes (p := .running) run
  | amendPhaseInterval a => exact phaseCommand_changes (p := .interval) run
  | amendPhaseClosing a => exact phaseCommand_changes (p := .closing) run
  | amendPhaseHalted a => exact phaseCommand_changes (p := .halted) run
  | amendPhaseDark a => exact phaseCommand_changes (p := .dark) run
  | settingsAmendment k r l => cases k <;> exact request_changes_kind rfl run
  | commissioningLock => exact request_changes_kind rfl run
  | raiseHold => exact request_changes_kind rfl run
  | retireHold => exact request_changes_kind rfl run
  | raiseIncident => exact request_changes_kind rfl run
  | acknowledge a =>
    exact request_changes rfl run fun q u v hk hr h =>
      actionDecides_changes hk (.inl (hr ▸ withField_carries a 128 _)) h
  | amendIncidentStage => exact request_changes_kind rfl run
  | silence a =>
    exact request_changes rfl run fun q u v hk hr h =>
      actionDecides_changes hk (.inr (hr ▸ withField_carries a 130 _)) h
  | retireIncident => exact request_changes_kind rfl run
  | demandOut a =>
    exact request_changes rfl run fun q u v hk hr h => demandDecides_changes hk (hr ▸ withField_carries a 37 _) h
  | demandIn a =>
    exact request_changes rfl run fun q u v hk hr h => demandDecides_changes hk (hr ▸ withField_carries a 37 _) h
  | clearFault => exact request_changes_kind rfl run
  | isolate => exact request_changes_kind rfl run
  | restoreZone => exact request_changes_kind rfl run
  | resetNoise => exact request_changes_kind rfl run
  | amendTarget a target =>
    exact request_changes rfl run fun q u v hk hr h => targetDecides_changes hk (hr ▸ withField_carries a 33 _) h
  | raiseCall => exact request_changes_kind rfl run
  | amendCall => exact request_changes_kind rfl run
  | retireCall => exact request_changes_kind rfl run
  | resetCircuit => exact request_changes_kind rfl run
  | amendHold => exact request_changes_kind rfl run
  | frameError chars => cases run; exact State.frameJudged_changes ..
  | frameDiscarded chars => cases run; exact State.frameDropped_changes ..
  | frameGapTimeout chars => cases run; exact State.frameDropped_changes ..
  | frameForOtherAddress chars => cases run; exact .refl _ _
  | storeComplete => exact State.takes_changes run (State.storeCompletes_changes s)
  | encoderCount ch up => exact State.takes_changes run (s.countEncoder_changes ch up)
  | indexEvent ch => exact State.takes_changes run (s.indexSeen_changes ch)
  | limitInEvent ch => exact State.takes_changes run (s.limitInMade_changes ch)
  | limitOutEvent ch => exact State.takes_changes run (s.limitOutMade_changes ch)
  | localReleasePress ch => exact State.takes_changes run (s.pressRelease_changes ch)
  | localReleaseLetGo ch => exact State.takes_changes run (s.letGoRelease_changes ch)
  | descentSample ch => exact State.takes_changes run (s.sample_changes ch)
  | stall ch => exact State.takes_changes run (s.stallSample_changes ch)
  | tooSlow ch => exact State.takes_changes run (s.slowSample_changes ch)
  | raiseTimeout ch => exact State.takes_changes run (s.raiseTimesOut_changes ch)
  | bandEvent z b => exact State.takes_changes run (s.bandChanges_changes z b)
  | confirmTimerExpiry z =>
    simp only [exec, execConfirmTimerExpiry] at run
    split at run
    · exact State.confirms_changes run
    · cases run; exact .refl _ _
  | quietTimerExpiry z => exact State.takes_changes run (s.quietRuns_changes z)
  | loopTimerExpiry z => exact State.takes_changes run (s.loopRuns_changes z)
  | acknowledgeTimerExpiry i => exact State.takes_changes run (s.ackRunsOut_changes i)
  | investigationTimerExpiry i => exact State.takes_changes run (s.investigationRunsOut_changes i)
  | fadeStep => exact State.takes_changes run s.fadeEngineStep_changes
  | fadeComplete g => exact State.takes_changes run (s.fadeEnds_changes g)
  | notBeforeDue c z => exact State.takes_changes run (s.notBeforePasses_changes c z)
  | strokeOnElapsed z => exact State.takes_changes run (s.strokeOnRuns_changes z)
  | strokeGapElapsed z => exact State.takes_changes run (s.strokeGapRuns_changes z)
  | burstEnd z => exact State.takes_changes run (s.burstRuns_changes z)
  | patternPartEnd c => exact State.takes_changes run (s.patternRuns_changes c)
  | testTimerExpiry c seen => exact State.takes_changes run (s.testRuns_changes c seen)
  | overloadEvent c => exact State.takes_changes run (s.overloads_changes c)
  | retryTimerExpiry c => exact State.takes_changes run (s.retryRuns_changes c)
  | cleanTimerExpiry c => exact State.takes_changes run (s.cleanRuns_changes c)
  | offTimerExpiry c => exact State.takes_changes run (s.offRuns_changes c)
  | mainsSenseChange on => exact State.takes_changes run (s.mainsLine_changes on)
  | lossTimerExpiry => exact State.takes_changes run s.lossRuns_changes
  | settlingTimerExpiry => exact State.takes_changes run s.settlingRuns_changes
  | supplyLowLineChange on => exact State.takes_changes run (s.supplyLine_changes on)
  | safetySupplyTimerExpiry => exact State.takes_changes run s.safetyRuns_changes
  | cellSenseChange good => exact State.takes_changes run (s.cellLine_changes good)
  | cellTimerExpiry => exact State.takes_changes run s.cellRuns_changes
  | coldStart p =>
    obtain rfl : s.start p false = t := Host.Outcome.next.inj run
    exact State.start_changes ..
  | resetPin p => exact State.takes_changes run (s.start_changes p true)
  | powerFail => exact State.takes_changes run s.failPower_changes
  | replyEnd => exact State.takes_changes run s.replyEnds_changes

end Sys2Proof.Machine
end

section
/-!
PROOFS. The step (00), the settings and their locks (R193..R196), a part without power (R178), marks and the attention
line (R187, R190), and an AMEND that is turned away (R185).
-/

namespace Sys2Proof.Machine

/-- Settles O1: the step takes the front of the queue. -/
theorem stepRunsFrontCommand : Obligations.StepRunsFrontCommand := by
  unfold Obligations.StepRunsFrontCommand
  refine ⟨fun s c rest front => ?_, fun s idle powered => ?_, fun s idle unpowered => ?_⟩
  · simp only [step, front, State.withRest]
  · simp only [step, idle, State.idle, powered, if_true]
  · simp only [step, idle, State.idle, unpowered, Bool.false_eq_true, if_false]

/-! ## Marks and the attention line (R187, R190) -/

theorem State.attentionLine_iff (s : State) :
    s.attentionLine = true ↔ s.powered = true ∧ ∃ j : Fin 8, s.role j ≠ .none ∧ s.stations[j].flags ≠ 0 := by
  simp [State.attentionLine, someIx_iff, State.role]

theorem markStation_deaf {k : Kind} {cfg : StationSettings} (st : StationLive) (h : listens cfg k = false) :
    markStation k cfg st = st := by simp [markStation, h]

theorem listens_iff {cfg : StationSettings} {k : Kind} :
    listens cfg k = true ↔ cfg.role ≠ .none ∧ cfg.mask.getLsbD (kindCode k - 1) = true := by
  simp [listens]

/-- Settles O16: one station at a mark, by whether it listens; the line is the definition read out. -/
theorem markSetsFlags : Obligations.MarkSetsFlags := by
  unfold Obligations.MarkSetsFlags
  intro s k i
  refine ⟨s.mark_changes k, fun told => ?_, fun deaf => ?_, s.attentionLine_iff⟩
  · have hears : listens s.settings.stations[i] k = true := listens_iff.2 told
    refine ⟨by rw [State.mark_station, markStation, if_pos hears], fun powered => ?_⟩
    refine (State.attentionLine_iff _).2 ⟨powered, i, told.1, fun cleared => ?_⟩
    obtain ⟨flagged, -⟩ := markStation_listens s.stations[i] hears
    rw [← State.mark_station, cleared] at flagged
    simp at flagged
  · rw [State.mark_station]
    refine markStation_deaf _ ?_
    by_contra hears
    obtain ⟨role, mask⟩ := listens_iff.1 (Bool.not_eq_false _ ▸ hears)
    rcases deaf with h | h
    · exact role h
    · rw [mask] at h; cases h

/-! ## A part without power (R178) -/

/-- An unpowered part is not served. -/
theorem State.serve_unpowered {s : State} (h : s.powered = false) (r : Req) (decide : Fin 8 → State → Verdict) :
    s.serve r decide = s := by
  simp [State.serve, State.listening, h]

theorem State.takes_unpowered {s : State} (h : s.powered = false) (f : State → State) : s.takes f = .next s := by
  simp [State.takes, h]

/-- Nothing is decided for a part that hears nothing. -/
theorem Served.unpowered {code : ReqCode} {kind : Kind} {r : Req} {s t : State} (h : Served code kind r s t)
    (off : s.powered = false) : t = s := by
  have deaf : s.listening = false := by simp [State.listening, off]
  cases h with
  | lost => rfl
  | failed listens => rw [deaf] at listens; cases listens
  | decided st v heard => rw [heard.1] at off; cases off

theorem exec_unpowered {s : State} (i : Instr) (off : s.powered = false) (warm : ∀ p, i ≠ .coldStart p) :
    exec i s = .next s := by
  have deaf : s.listening = false := by simp [State.listening, off]
  cases named : requestOf i with
  | some request =>
    obtain ⟨code, kind, r⟩ := request
    obtain ⟨t, run, served⟩ := exec_served named s
    rw [run, served.unpowered off]
  | none =>
    cases i with
    | coldStart p => exact absurd rfl (warm p)
    | unknownRequest code kind r =>
      change Host.Outcome.next (s.unknown code kind r) = _
      unfold State.unknown
      split
      · rfl
      · rw [State.serve_unpowered off]
    | frameError chars =>
      change Host.Outcome.next (s.frameJudged chars) = _
      simp [State.frameJudged, deaf]
    | frameDiscarded chars =>
      change Host.Outcome.next (s.frameDropped chars) = _
      simp [State.frameDropped, deaf]
    | frameGapTimeout chars =>
      change Host.Outcome.next (s.frameDropped chars) = _
      simp [State.frameDropped, deaf]
    | frameForOtherAddress chars => rfl
    | confirmTimerExpiry z => simp [exec, execConfirmTimerExpiry, off]
    | _ => first | exact State.takes_unpowered off _ | cases named

/-- Settles O15: a part without power hears no frame and takes no event, and each output asks for power first. -/
theorem unpoweredPartTakesNothing : Obligations.UnpoweredPartTakesNothing := by
  unfold Obligations.UnpoweredPartTakesNothing
  refine ⟨fun s on => ?_, fun s i off warm => exec_unpowered i off warm, fun s off => ?_⟩
  · exact ⟨s.failPower, congrArg Host.Outcome.next (if_pos on), rfl, rfl, rfl, rfl, s.failPower_changes⟩
  · simp [State.attentionLine, State.linkDriver, State.circuitOutput, State.holdOutput, State.raiseOutput,
      State.checkOutput, off]

/-! ## Settings change only unlocked (R193, R195, R196) -/

theorem State.frameGood_store (s : State) : s.frameGood.store = s.store := s.frameGood_changes.same .store (by decide)

theorem State.frameGood_allDark (s : State) : s.frameGood.allDark = s.allDark := by
  simp only [State.allDark, State.frameGood_phase]

theorem State.allDark_iff (s : State) : s.allDark = true ↔ ∀ a, s.phase a = .dark := by
  rw [State.allDark, Bool.not_eq_true', Bool.eq_false_iff, ne_eq, someIx_iff]
  simp

/-- What an amendment leaves of the settings where it carries none: each of them as it was (R194). -/
theorem foldl_amend_same {α : Type} {amend : α → FieldVal → α} {top : Nat}
    (outside : ∀ x f, ¬(1 ≤ idOf f ∧ idOf f ≤ top) → amend x f = x) {fs : List FieldVal}
    (none : ∀ f ∈ fs, ¬(1 ≤ idOf f ∧ idOf f ≤ top)) (x : α) : fs.foldl amend x = x := by
  induction fs generalizing x with
  | nil => rfl
  | cons f fs ih =>
    rw [List.foldl_cons, outside x f (none f (by simp)), ih fun g hg => none g (by simp [hg])]

theorem CircuitSettings.amend_action (x : CircuitSettings) (f : FieldVal) (h : ¬(1 ≤ idOf f ∧ idOf f ≤ 2)) :
    x.amend f = x := by
  unfold CircuitSettings.amend
  split <;> first | omega | rfl

theorem amendsSettings_of_all {k : Kind} {fs : List FieldVal} (given : fs ≠ [])
    (h : ∀ f ∈ fs, 1 ≤ idOf f ∧ idOf f ≤ topSetting k) : amendsSettings k fs = true := by
  obtain ⟨f, fs, rfl⟩ := List.exists_cons_of_ne_nil given
  exact amendsSettings_iff.2 ⟨f, by simp, h f (by simp)⟩

/-- The ids that a PERF, GROUP, CZONE and STATION field in good form can have (R3, R5, R104, R107, R128, R186). -/
theorem perfForm_id {f : FieldVal} (h : perfForm f = none) : idOf f = 32 ∨ 1 ≤ idOf f ∧ idOf f ≤ 5 := by
  unfold perfForm at h
  split at h <;> first | omega | cases h

theorem groupForm_id {fs : List FieldVal} {f : FieldVal} (h : groupForm fs f = none) :
    idOf f = 33 ∨ (idOf f = 128 ∧ carries fs 33 = true) ∨ 1 ≤ idOf f ∧ idOf f ≤ 10 := by
  unfold groupForm at h
  split at h
  case h_12 id => exact .inr (.inl ⟨id, by simpa [orBad] using h⟩)
  all_goals first | omega | cases h

theorem czoneForm_id {f : FieldVal} (h : czoneForm f = none) : 1 ≤ idOf f ∧ idOf f ≤ 4 := by
  unfold czoneForm at h
  split at h <;> first | omega | cases h

theorem stationForm_id {f : FieldVal} (h : stationForm f = none) : 1 ≤ idOf f ∧ idOf f ≤ 3 := by
  unfold stationForm at h
  split at h <;> first | omega | cases h

/-- A PERF amendment without a phase, in good form, carries a setting (R3). -/
theorem perfForm_settings {fs : List FieldVal} (form : firstFlaw perfForm fs = none)
    (noPhase : (askedFor fs 32).bind Phase.ofCode = none) (given : fs ≠ []) : amendsSettings .perf fs = true := by
  refine amendsSettings_of_all given fun f mem => ?_
  rcases perfForm_id (firstFlaw_eq_none.1 form f mem) with phase | setting
  · exact absurd noPhase (phase_of_perfForm form (carries_iff.2 ⟨f, mem, phase⟩))
  · exact setting

/-- A GROUP amendment without a target, in good form, carries a setting (R104, R107). -/
theorem groupForm_settings {fs : List FieldVal} (form : firstFlaw (groupForm fs) fs = none)
    (noTarget : carries fs 33 = false) (given : fs ≠ []) : amendsSettings .group fs = true := by
  refine amendsSettings_of_all given fun f mem => ?_
  rcases groupForm_id (firstFlaw_eq_none.1 form f mem) with target | ⟨-, target⟩ | setting
  · rw [carries_iff.2 ⟨f, mem, target⟩] at noTarget; cases noTarget
  · rw [target] at noTarget; cases noTarget
  · exact setting

theorem State.noteChange_settings (s : State) (b : Bool) : (s.noteChange b).settings = s.settings :=
  (s.noteChange_changes b).same .settings (by decide)

/-- R193: an amendment that changes a setting notes it, and no more of the store. -/
theorem State.noteChange_store (s : State) (b : Bool) :
    (s.noteChange b).store = { s.store with changed := s.store.changed || b } := by
  unfold State.noteChange
  split
  next h => simp [h]
  next h => simp [h]

/-- An ENGINEER's station with every lock open (R194..R196). -/
def State.unlocked (s : State) (st : Fin 8) : Prop :=
  s.role st = .engineer ∧ s.store.state ≠ .storing ∧ s.allDark = true ∧ s.store.locked = false

/-- What a request may do to the settings and the lock: the settings stand or its station was free to write them, and
a lock that is set stays set. -/
structure SettingsGuarded (st : Fin 8) (s t : State) : Prop where
  settings : t.settings = s.settings ∨ s.unlocked st
  lock : s.store.locked = true → t.store.locked = true

theorem SettingsGuarded.of_changes {ps : List Part} {st : Fin 8} {s t : State} (h : ChangesOnly ps s t)
    (hs : ps.contains .settings = false := by rfl) (hl : ps.contains .store = false := by rfl) :
    SettingsGuarded st s t := by
  have store : t.store = s.store := h.same .store (by simpa using hl)
  exact ⟨.inl (h.same .settings (by simpa using hs)), fun k => by rw [store]; exact k⟩

/-- What follows a guarded change and touches neither settings nor store is guarded. -/
theorem SettingsGuarded.andThen {ps : List Part} {st : Fin 8} {s t u : State} (g : SettingsGuarded st s t)
    (h : ChangesOnly ps t u) (hs : ps.contains .settings = false := by rfl)
    (hl : ps.contains .store = false := by rfl) : SettingsGuarded st s u := by
  obtain ⟨settings, lock⟩ := SettingsGuarded.of_changes (st := st) h hs hl
  have store : u.store = t.store := h.same .store (by simpa using hl)
  refine ⟨?_, fun k => by rw [store]; exact g.lock k⟩
  rw [h.same .settings (by simpa using hs)]
  exact g.settings

/-- The settings are written as amended and the change noted (R193, R194). -/
def State.settled (s : State) (x : Settings) (b : Bool) : State := ({ s with settings := x } : State).noteChange b

theorem State.settled_changes (s : State) (x : Settings) (b : Bool) :
    ChangesOnly [.settings, .store, .stations] s (s.settled x b) := s.settle_changes x b

@[simp] theorem State.settled_settings (s : State) (x : Settings) (b : Bool) : (s.settled x b).settings = x :=
  State.noteChange_settings ..

/-- Writing settings where the station was free to, or as they were, guards them. -/
theorem State.settled_guarded {st : Fin 8} {s : State} {x : Settings} {b : Bool}
    (free : x = s.settings ∨ s.unlocked st) : SettingsGuarded st s (s.settled x b) where
  settings := by rw [State.settled_settings]; exact free
  lock k := by rw [State.settled, State.noteChange_store]; exact k

/-- Of a request in good order, the settings it writes are those there were, or its station was free to. -/
theorem settled_free {s : State} {q : Ask} {x : Settings} (stop : s.settingsStop q = none)
    (plain : amendsSettings q.kind q.req.fields = false → x = s.settings) : x = s.settings ∨ s.unlocked q.st :=
  (State.settingsStop_eq_none stop).imp plain id

/-! ### What applying an amendment does once its settings are written -/

def Settings.withPerf (x : Settings) (a : Fin 3) (new : PerfSettings) : Settings :=
  { x with perfs := put x.perfs a new }
def Settings.withIron (x : Settings) (ch : Fin 3) (new : IronSettings) : Settings :=
  { x with irons := put x.irons ch new }
def Settings.withZone (x : Settings) (z : Fin 24) (new : ZoneSettings) : Settings :=
  { x with zones := put x.zones z new }
def Settings.withGroup (x : Settings) (g : Fin 12) (new : GroupSettings) : Settings :=
  { x with groups := put x.groups g new }
def Settings.withCZone (x : Settings) (z : Fin 8) (new : CZoneSettings) : Settings :=
  { x with czones := put x.czones z new }
def Settings.withCircuit (x : Settings) (c : Fin 16) (new : CircuitSettings) : Settings :=
  { x with circuits := put x.circuits c new }

/-- The presence of a zone, or its actions, follow its settings (R66, R77). -/
def State.actZone (z : Fin 24) (fs : List FieldVal) (old new : ZoneSettings) (s : State) : State :=
  if old.present != new.present then s.zonePresence z
  else if carries fs 128 || carries fs 36 then
    (s.writeZone z (s.zones[z].acted s.now new.confirmTime fs)).deriveCondition z
  else s

/-- What a zone serves follows its settings (R66). -/
def State.serveZone (old new : ZoneSettings) (s : State) : State :=
  let t := if old.alarms != new.alarms then s.demandSounders else s
  if old.callZones != new.callZones then t.deriveSilences else t

/-- The SYSTEM hold follows what a circuit serves (R15, R150). -/
def State.serveCircuit (old new : CircuitSettings) (s : State) : State :=
  if old.serves != new.serves then (s.mark .circuit).evalHolds .system else s

def State.resetCircuit (c : Fin 16) (fs : List FieldVal) (s : State) : State :=
  if carries fs 128 then s.changeCircuit c (s.circuits[c].resetByStation s.now) else s

def State.serveBrigade (old new : PartSettings) (s : State) : State :=
  if old.brigadeLink != new.brigadeLink then s.demandBrigade else s

def State.setLock (fs : List FieldVal) (s : State) : State :=
  if askedFor fs 42 = some 1 then s.writeStore { s.store with locked := true } else s

theorem State.applyPerf_settled (s : State) (q : Ask) (a : Fin 3) :
    ∃ new, (s.applyPerf q a).2 = s.settled (s.settings.withPerf a new) (s.settings.perfs[a] != new) := ⟨_, rfl⟩

theorem State.applyIron_settled (s : State) (ch : Fin 3) (fs : List FieldVal) (new : IronSettings) (l : Bool) :
    s.applyIron ch fs new l =
      let t := (s.settled (s.settings.withIron ch new) (s.settings.irons[ch] != new)).actIron ch fs
      if s.settings.irons[ch].present != new.present then t.ironPresence ch l else t := rfl

theorem State.applyZone_settled (s : State) (z : Fin 24) (fs : List FieldVal) (new : ZoneSettings) :
    s.applyZone z fs new =
      ((s.settled (s.settings.withZone z new) (s.settings.zones[z] != new)).actZone z fs s.settings.zones[z] new).serveZone
        s.settings.zones[z] new := rfl

theorem State.applyGroup_settled (s : State) (q : Ask) (g : Fin 12) :
    ∃ new, (s.applyGroup q g).2 = ((s.settled (s.settings.withGroup g new)
      (s.settings.groups[g] != new)).groupAmended g s.settings.groups[g]).announceLit := by
  refine ⟨(q.req.fields.foldl GroupSettings.amend s.settings.groups[g]).inRange, ?_⟩
  delta State.applyGroup Ask.says State.settled Settings.withGroup
  dsimp only

theorem State.applyCircuit_settled (s : State) (c : Fin 16) (fs : List FieldVal) :
    s.applyCircuit c fs =
      let new := fs.foldl CircuitSettings.amend s.settings.circuits[c]
      ((s.settled (s.settings.withCircuit c new) (s.settings.circuits[c] != new)).serveCircuit
        s.settings.circuits[c] new).resetCircuit c fs := rfl

theorem State.applyStatus_settled (s : State) (fs : List FieldVal) (new : PartSettings) :
    s.applyStatus fs new =
      ((s.settled { s.settings with part := new } (s.settings.part != new)).serveBrigade s.settings.part new).setLock
        fs := rfl

theorem State.actZone_changes (s : State) (z : Fin 24) (fs : List FieldVal) (old new : ZoneSettings) :
    ChangesOnly [.zones, .holds, .stations] s (s.actZone z fs old new) := by
  unfold State.actZone
  split
  · exact State.zonePresence_changes ..
  · split
    · exact (State.writeZone_changes ..).andThen (State.deriveCondition_changes ..)
    · exact .refl _ _

theorem State.serveZone_changes (s : State) (old new : ZoneSettings) :
    ChangesOnly burstParts s (s.serveZone old new) := by
  have sounders : ChangesOnly burstParts s (if (old.alarms != new.alarms) = true then s.demandSounders else s) := by
    split
    · exact (State.demandSounders_changes ..).mono
    · exact .refl _ _
  unfold State.serveZone
  dsimp only
  split
  · exact sounders.andThen (State.deriveSilences_changes ..)
  · exact sounders

theorem State.serveCircuit_changes (s : State) (old new : CircuitSettings) :
    ChangesOnly [.holds, .stations] s (s.serveCircuit old new) := by
  unfold State.serveCircuit
  split
  · exact (State.mark_changes ..).andThen (State.evalHolds_changes ..)
  · exact .refl _ _

theorem State.resetCircuit_changes (s : State) (c : Fin 16) (fs : List FieldVal) :
    ChangesOnly (.holds :: burstParts) s (s.resetCircuit c fs) := by
  unfold State.resetCircuit
  split
  · exact (State.changeCircuit_changes ..).mono
  · exact .refl _ _

theorem State.serveBrigade_changes (s : State) (old new : PartSettings) :
    ChangesOnly [.circuits, .stations] s (s.serveBrigade old new) := by
  unfold State.serveBrigade
  split
  · exact State.demandBrigade_changes ..
  · exact .refl _ _

/-- Setting the lock leaves what is guarded guarded (R196). -/
theorem SettingsGuarded.setLock {st : Fin 8} {s t : State} (g : SettingsGuarded st s t) (fs : List FieldVal) :
    SettingsGuarded st s (t.setLock fs) := by
  unfold State.setLock
  split
  · exact ⟨by simpa using g.settings, fun _ => by simp⟩
  · exact g

/-! ### What each decision does to the settings and the lock -/

theorem State.applyIron_guarded {s : State} {st : Fin 8} {ch : Fin 3} {fs : List FieldVal} {new : IronSettings}
    {limitIn : Bool} (free : s.settings.withIron ch new = s.settings ∨ s.unlocked st) :
    SettingsGuarded st s (s.applyIron ch fs new limitIn) := by
  rw [State.applyIron_settled]
  have acted := (State.settled_guarded (b := s.settings.irons[ch] != new) free).andThen
    (State.actIron_changes _ ch fs)
  dsimp only
  split
  · exact acted.andThen (State.ironPresence_changes ..)
  · exact acted

theorem Decides.guarded {code : ReqCode} {q : Ask} {s : State} {v : Verdict} (h : Decides code q s v) :
    SettingsGuarded q.st s v.2 := by
  cases h with
  | stores => exact ⟨.inl (s.beginStore_changes.same .settings (by decide)), fun k => by simpa [State.beginStore] using k⟩
  | amendsPerf aud _ kind _ form noPhase stop given =>
    obtain ⟨new, written⟩ := s.applyPerf_settled q aud
    rw [written]
    refine State.settled_guarded (settled_free stop fun plain => ?_)
    rw [kind, perfForm_settings form noPhase given] at plain
    cases plain
  | amendsIron a ch limitIn new _ kind _ _ _ _ stop written =>
    refine State.applyIron_guarded (settled_free stop fun plain => ?_)
    rw [written, if_neg (by rw [← kind, plain]; decide), Settings.withIron, put_self]
  | amendsZone a z new _ kind _ _ _ stop written =>
    rw [State.applyZone_settled]
    refine ((State.settled_guarded (settled_free stop fun plain => ?_)).andThen (State.actZone_changes ..)).andThen
      (State.serveZone_changes ..)
    rw [written, if_neg (by rw [← kind, plain]; decide), Settings.withZone, put_self]
  | amendsGroup g _ kind _ form noTarget stop given =>
    obtain ⟨new, written⟩ := s.applyGroup_settled q g
    rw [written]
    refine ((State.settled_guarded (settled_free stop fun plain => ?_)).andThen (State.groupAmended_changes ..)).andThen
      (State.announceLit_changes _)
    rw [kind, groupForm_settings form noTarget given] at plain
    cases plain
  | amendsCZone a z new _ kind _ form stop given =>
    refine (State.settled_guarded (x := s.settings.withCZone z new) (settled_free stop fun plain => ?_)).andThen
      (State.czoneAmended_changes ..)
    rw [kind, amendsSettings_of_all (k := .czone) given fun f mem => czoneForm_id (firstFlaw_eq_none.1 form f mem)] at plain
    cases plain
  | amendsCircuit a c _ kind _ _ stop =>
    rw [State.applyCircuit_settled]
    refine ((State.settled_guarded (settled_free stop fun plain => ?_)).andThen (State.serveCircuit_changes ..)).andThen
      (State.resetCircuit_changes ..)
    rw [foldl_amend_same CircuitSettings.amend_action fun f mem setting => ?_, Settings.withCircuit, put_self]
    rw [kind, amendsSettings_iff (k := .circuit).2 ⟨f, mem, setting⟩] at plain
    cases plain
  | amendsStatus a new _ kind _ stop written =>
    rw [State.applyStatus_settled]
    have free : ({ s.settings with part := new } : Settings) = s.settings ∨ s.unlocked q.st :=
      settled_free stop fun plain => by rw [written, if_neg (by rw [← kind, plain]; decide)]
    exact ((State.settled_guarded free).andThen (State.serveBrigade_changes ..)).setLock q.req.fields
  | amendsStation a n new _ kind _ form stop given =>
    have free := (State.settingsStop_eq_none stop).resolve_left fun plain => by
      rw [kind, amendsSettings_of_all (k := .station) given fun f mem => stationForm_id (firstFlaw_eq_none.1 form f mem)] at plain
      cases plain
    refine ⟨.inr free, fun k => ?_⟩
    simp only [State.applyStation, State.markIf_store, State.noteChange_store]
    exact k
  | stays => exact .of_changes (.refl [] _)
  | looks => exact .of_changes (State.lookClears_changes ..)
  | arms => exact .of_changes (State.arm_changes ..)
  | restarts => exact .of_changes (State.softRestart_changes ..)
  | blocks => exact .of_changes (State.mark_changes ..)
  | enters => exact .of_changes (State.enter_changes ..)
  | targets => exact .of_changes (State.applyTarget_changes ..)
  | raisesHold => exact .of_changes (State.fillHold_changes ..)
  | retiresHold => exact .of_changes (State.emptyHold_changes ..)
  | widens => exact .of_changes (State.widenIncident_changes ..)
  | raisesIncident => exact .of_changes (State.raiseStationIncident_changes ..)
  | actsIncident => exact .of_changes (State.actIncident_changes ..)
  | retiresIncident => exact .of_changes (State.retireIncidentAt_changes ..)
  | raisesCall _ x b c room _ _ _ _ found =>
    exact .of_changes ((State.roomForCall_changes found).andThen (rs := burstParts) (State.fillCall_changes ..))
  | amendsCall => exact .of_changes (State.amendCallAt_changes ..)
  | retiresCall => exact .of_changes (State.retireCallAt_changes ..)

/-- Only an AMEND writes settings. -/
theorem Decides.settings_amend {code : ReqCode} {q : Ask} {s : State} {v : Verdict} (h : Decides code q s v)
    (other : code ≠ .amend) : v.2.settings = s.settings := by
  refine h.changes.same .settings ?_
  cases code <;> cases q.kind <;> first | decide | exact absurd rfl other

/-- The commands that are no request and no start touch neither settings nor store, STORE_COMPLETE apart. -/
theorem event_settings {i : Instr} {s t : State} (run : exec i s = .next t) (event : requestOf i = none)
    (warm : ∀ p, i ≠ .coldStart p ∧ i ≠ .resetPin p) :
    t.settings = s.settings ∧ t.store.locked = s.store.locked := by
  have frame := commandsTouchOnlyTheirParts i s t run
  have both (hs : (touches i).contains .settings = false) (hl : (touches i).contains .store = false) :
      t.settings = s.settings ∧ t.store.locked = s.store.locked := by
    have store : t.store = s.store := frame.same .store (by simpa using hl)
    exact ⟨frame.same .settings (by simpa using hs), by rw [store]⟩
  cases i with
  | coldStart p => exact absurd rfl (warm p).1
  | resetPin p => exact absurd rfl (warm p).2
  | storeComplete =>
    refine ⟨frame.same .settings (by decide), ?_⟩
    simp only [exec, execStoreComplete, State.takes] at run
    split at run
    · cases run
      unfold State.storeCompletes
      split
      · simp
      · rfl
    · cases run; rfl
  | _ => first | exact both rfl rfl | cases event

/-- Settles O13: a request by what guards the settings in each decision, an event by its frame. -/
theorem settingsChangeOnlyUnlocked : Obligations.SettingsChangeOnlyUnlocked := by
  unfold Obligations.SettingsChangeOnlyUnlocked
  intro i s t run
  by_cases start : ∃ p, i = .coldStart p ∨ i = .resetPin p
  · refine ⟨fun _ => .inl start, fun _ _ => start⟩
  have warm : ∀ p, i ≠ .coldStart p ∧ i ≠ .resetPin p := fun p =>
    ⟨fun h => start ⟨p, .inl h⟩, fun h => start ⟨p, .inr h⟩⟩
  cases named : requestOf i with
  | none =>
    obtain ⟨settings, locked⟩ := event_settings run named warm
    exact ⟨fun change => absurd settings change, fun set cleared => by rw [locked, set] at cleared; cases cleared⟩
  | some request =>
    obtain ⟨code, kind, r⟩ := request
    obtain ⟨u, ran, served⟩ := exec_served named s
    rw [run] at ran
    cases ran
    cases served with
    | lost => exact ⟨fun change => absurd rfl change, fun set cleared => by rw [set] at cleared; cases cleared⟩
    | failed =>
      have store : s.frameFails.store = s.store := s.frameFails_changes.same .store (by decide)
      exact ⟨fun change => absurd (s.frameFails_changes.same .settings (by decide)) change,
        fun set cleared => by rw [store, set] at cleared; cases cleared⟩
    | decided st v heard decides =>
      obtain ⟨settings, lock⟩ := decides.guarded
      refine ⟨fun change => .inr ?_, fun set cleared => ?_⟩
      · have written : v.2.settings ≠ s.frameGood.settings := by rw [State.frameGood_settings]; exact change
        obtain ⟨role, idle, dark, unlocked⟩ := settings.resolve_left written
        have amend : code = .amend := by
          by_contra other
          exact written (decides.settings_amend other)
        subst amend
        rw [State.frameGood_role] at role
        rw [State.frameGood_store] at idle unlocked
        rw [State.frameGood_allDark, State.allDark_iff] at dark
        exact ⟨kind, r, st, rfl, heard, role, dark, unlocked, idle⟩
      · have kept := lock (by rw [State.frameGood_store]; exact set)
        rw [State.reply_store, kept] at cleared
        cases cleared

/-! ## An AMEND that is turned away (R185) -/

theorem State.setDegraded_reply (s : State) (b : Bool) : (s.setDegraded b).link.reply = s.link.reply := by
  unfold State.setDegraded
  split
  · rfl
  · rw [(State.evalHolds_changes ..).same .link (by decide), State.mark_link]

/-- A frame that fails reads the error counter and the degraded state alone (R181). -/
theorem State.frameFails_reply (s : State) : s.frameFails.link.reply = s.link.reply := by
  unfold State.frameFails
  dsimp only
  split
  · rw [State.setDegraded_reply]
  · rfl

/-- Settles O23: of the decisions on an AMEND that leave the state other than it was, each accepts, but for the mark of
a hold that blocks. -/
theorem refusedAmendLeavesState : Obligations.RefusedAmendLeavesState := by
  unfold Obligations.RefusedAmendLeavesState
  intro i k r st s t rep named heard run reply notDone notAdjusted
  obtain ⟨u, ran, served⟩ := exec_served named s
  rw [run] at ran
  cases ran
  have accepted : ∀ {a : Answer}, a.accepts → rep.status ≠ a.status := by
    rintro a (h | h) <;> rw [h] <;> assumption
  have hears : s.listening = true := by simp [State.listening, heard.1, heard.2.1]
  cases served with
  | lost closed => rw [hears] at closed; cases closed
  | failed =>
    rw [State.frameFails_reply, heard.2.1] at reply
    cases reply
  | decided st' v _ decides =>
    have status : rep.status = v.1.status := by
      rw [← Option.some.inj reply]
    cases decides with
    | stays => exact ⟨(State.reply_changes ..).mono, fun _ => State.reply_changes ..⟩
    | blocks =>
      have reason : rep.reason = some .holdPresent := by rw [← Option.some.inj reply]; rfl
      exact ⟨(State.mark_changes ..).andThen (State.reply_changes ..), fun other => absurd reason other⟩
    | amendsPerf | targets | amendsGroup => exact absurd status (accepted (okStatus_accepts _))
    | enters | amendsIron | amendsZone | amendsCZone | amendsCircuit | amendsStatus | amendsStation | actsIncident
    | amendsCall => exact absurd status (accepted ‹Answer.accepts _›)
    | _ => contradiction

end Sys2Proof.Machine
end

section
/-!
PROOFS. What the call unit and the lighting unit keep: everything they do is made of a few writes, so that whatever
those writes keep stands through every burst, notice, silence and announcement of theirs (R119..R152).
-/

namespace Sys2Proof.Machine

/-- `P` stands through each write that bursts and calls are made of: none of them bars or suppresses a zone. -/
structure BurstClosed (P : State → Prop) : Prop where
  clock : ∀ {s : State} (t : Nat), P s → P (s.reach t)
  mark : ∀ {s : State} (k : Kind), P s → P (s.mark k)
  table : ∀ {s : State} (calls : Vector CallSlot 32) (list : List (Fin 32)), P s →
    P { s with calls := calls, callList := list }
  czone : ∀ {s : State} (z : Fin 8) (x : CallZone), x.barred = s.czones[z].barred →
    x.suppressed = s.czones[z].suppressed → P s → P { s with czones := put s.czones z x }
  chime : ∀ {s : State} (z : Fin 8) (on : Bool), P s → P (s.demand (chimeOf z) on .continuous)
  flicker : ∀ {s : State} (z : Fin 8) (code : Nat), P s → P (s.flickerRequest z code)

namespace BurstClosed

variable {P : State → Prop} {s : State}

theorem markIf (h : BurstClosed P) (b : Bool) (k : Kind) (hs : P s) : P (s.markIf b k) := by
  cases b
  · exact hs
  · exact h.mark k hs

theorem writeCall (h : BurstClosed P) (c : Fin 32) (x : Call) (hs : P s) : P (s.writeCall c x) :=
  h.markIf _ _ (h.table _ _ hs)

theorem writeCZone (h : BurstClosed P) (z : Fin 8) (x : CallZone) (hs : P s)
    (barred : x.barred = s.czones[z].barred := by rfl) (suppressed : x.suppressed = s.czones[z].suppressed := by rfl) :
    P (s.writeCZone z x) := h.markIf _ _ (h.czone z x barred suppressed hs)

/-- What stands through a function stands through its turns over a list. -/
theorem foldl {α : Type} {f : State → α → State} (turn : ∀ t a, P t → P (f t a)) (l : List α) (hs : P s) :
    P (l.foldl f s) := foldl_keeps P f turn l s hs

theorem turns {n : Nat} {f : Fin n → State → State} (turn : ∀ i t, P t → P (f i t)) (hs : P s) :
    P (forAll n f s) := forAll_keeps P f turn s hs

theorem editDelivery (h : BurstClosed P) (c : Fin 32) (z : Fin 8) (f : Delivery → Delivery) (hs : P s) :
    P (s.editDelivery c z f) := by
  unfold State.editDelivery
  split
  · exact hs
  · exact h.writeCall _ _ hs

theorem finishCall (h : BurstClosed P) (c : Fin 32) (hs : P s) : P (s.finishCall c) := by
  unfold State.finishCall
  split
  · exact hs
  · split
    · exact hs
    · exact h.writeCall _ _ hs

theorem endDelivery (h : BurstClosed P) (c : Fin 32) (z : Fin 8) (st : DeliveryState) (hs : P s) :
    P (s.endDelivery c z st) := h.finishCall c (h.editDelivery c z _ hs)

theorem joinQueue (h : BurstClosed P) (z : Fin 8) (c : Fin 32) (hs : P s) : P (s.joinQueue z c) := h.writeCZone _ _ hs

theorem leaveQueue (h : BurstClosed P) (z : Fin 8) (c : Fin 32) (hs : P s) : P (s.leaveQueue z c) :=
  h.writeCZone _ _ hs

theorem beginStroke (h : BurstClosed P) (z : Fin 8) (hs : P s) : P (s.beginStroke z) :=
  h.chime z true (h.writeCZone _ _ hs)

theorem handFlicker (h : BurstClosed P) (z : Fin 8) (code : Nat) (hs : P s) : P (s.handFlicker z code) :=
  h.flicker z code (h.writeCZone _ _ hs)

theorem startBurst (h : BurstClosed P) (z : Fin 8) (c : Fin 32) (m : BurstMode) (code : Nat) (hs : P s) :
    P (s.startBurst z c m code) := by
  unfold State.startBurst
  have edited := h.editDelivery c z (fun d => { d with state := .sounding, resumes := false }) hs
  dsimp only
  split
  · exact h.beginStroke z (h.writeCZone _ _ edited)
  · exact h.beginStroke z (h.handFlicker z _ (h.writeCZone _ _ edited))
  · exact h.handFlicker z _ (h.writeCZone _ _ edited)

theorem lookFor (h : BurstClosed P) (z : Fin 8) (fuel : Nat) (hs : P s) : P (s.lookFor z fuel) := by
  induction fuel generalizing s with
  | zero => exact hs
  | succ n ih =>
    unfold State.lookFor
    dsimp only
    split
    · exact hs
    · split
      · exact hs
      · split
        · exact h.startBurst _ _ _ _ hs
        · exact ih (h.endDelivery _ _ _ (h.leaveQueue _ _ hs))

theorem arbitrate (h : BurstClosed P) (z : Fin 8) (hs : P s) : P (s.arbitrate z) := h.lookFor z _ hs

theorem endSignals (h : BurstClosed P) (z : Fin 8) (hs : P s) : P (s.endSignals z) := by
  have silent := h.chime z false hs
  unfold State.endSignals
  dsimp only
  split
  · exact silent
  · exact h.handFlicker z 0 silent

theorem stopBurst (h : BurstClosed P) (z : Fin 8) (hs : P s) : P (s.stopBurst z) :=
  h.writeCZone _ _ (h.endSignals z hs)

theorem countBurst (h : BurstClosed P) (z : Fin 8) (hs : P s) : P (s.countBurst z) := by
  unfold State.countBurst
  dsimp only
  split
  · exact hs
  · refine h.arbitrate z ?_
    split
    · exact h.joinQueue _ _ (h.editDelivery _ _ _ (h.stopBurst z hs))
    · exact h.finishCall _ (h.editDelivery _ _ _ (h.stopBurst z hs))

theorem chimeLost (h : BurstClosed P) (z : Fin 8) (hs : P s) : P (s.chimeLost z) := by
  have silent : P ((s.writeCZone z { s.czones[z] with mode := some .flicker, strokeEnd := none, gapEnd := none }).demand
      (chimeOf z) false .continuous) := h.chime z false (h.writeCZone z _ hs)
  unfold State.chimeLost
  dsimp only
  split
  · exact silent
  · split
    · exact h.handFlicker z _ silent
    · exact h.countBurst z silent
  · exact hs
  · exact hs

theorem litLost (h : BurstClosed P) (z : Fin 8) (hs : P s) : P (s.litLost z) := by
  unfold State.litLost
  dsimp only
  split
  · exact h.handFlicker z 0 (h.writeCZone _ _ hs)
  · exact h.countBurst z hs
  · exact hs
  · exact hs

theorem dropZone (h : BurstClosed P) (z : Fin 8) (st : DeliveryState) (hs : P s) : P (s.dropZone z st) := by
  unfold State.dropZone
  dsimp only
  refine foldl (fun t c ht => h.endDelivery _ _ _ (h.leaveQueue _ _ ht)) _ ?_
  split
  · exact h.endDelivery _ _ _ (h.stopBurst z hs)
  · exact hs

theorem withdraw (h : BurstClosed P) (c : Fin 32) (z : Fin 8) (hs : P s) : P (s.withdraw c z) := by
  unfold State.withdraw
  split
  · exact h.stopBurst z hs
  · exact h.leaveQueue _ _ hs

theorem callNotice (h : BurstClosed P) (a : Fin 3) (st : DeliveryState) (hs : P s) : P (s.callNotice a st) := by
  unfold State.callNotice
  refine foldl (fun t z ht => h.arbitrate z ht) _ (foldl (fun t c ht => foldl (fun u d hu => ?_) _ ht) _ hs)
  split
  · exact h.endDelivery _ _ _ (h.withdraw _ _ hu)
  · exact hu

theorem emptyCall (h : BurstClosed P) (c : Fin 32) (hs : P s) : P (s.emptyCall c) := h.mark .call (h.table _ _ hs)

theorem retireCallAt (h : BurstClosed P) (c : Fin 32) (hs : P s) : P (s.retireCallAt c) := by
  unfold State.retireCallAt
  refine foldl (fun t z ht => h.arbitrate z ht) _ (h.emptyCall c (foldl (fun t d ht => ?_) _ hs))
  split
  · exact h.withdraw _ _ ht
  · exact ht

theorem fillCall (h : BurstClosed P) (c : Fin 32) (x : Call) (hs : P s) : P (s.fillCall c x) := by
  unfold State.fillCall
  have filled := h.mark .call (h.table (put s.calls c { issue := nextIssue s.calls[c].issue, call := some x })
    (s.callList.erase c ++ [c]) hs)
  dsimp only
  exact foldl (fun t z ht => h.arbitrate z ht) _ (foldl (fun t z ht => h.joinQueue z c ht) _ filled)

theorem roomForCall (h : BurstClosed P) {c : Fin 32} {room : State} (found : s.roomForCall = some (c, room))
    (hs : P s) : P room := by
  unfold State.roomForCall at found
  split at found
  · obtain ⟨rfl, rfl⟩ := found
    exact hs
  · obtain ⟨d, -, taken⟩ := Option.map_eq_some_iff.1 found
    obtain ⟨rfl, rfl⟩ := taken
    exact h.emptyCall _ hs

theorem amendCallAt (h : BurstClosed P) (c : Fin 32) (p iv : Option Nat) (hs : P s) : P (s.amendCallAt c p iv) := by
  unfold State.amendCallAt
  split
  · exact hs
  · refine foldl (fun t (d : Delivery) ht => h.arbitrate d.zone ht) _ ?_
    split
    · exact foldl (fun t (d : Delivery) ht => h.joinQueue d.zone c ht) _ (h.markIf _ _ (h.writeCall _ _ hs))
    · exact h.markIf _ _ (h.writeCall _ _ hs)

theorem notBeforePasses (h : BurstClosed P) (c : Fin 32) (z : Fin 8) (hs : P s) : P (s.notBeforePasses c z) := by
  unfold State.notBeforePasses
  split
  · exact hs
  · split
    · exact h.arbitrate z (h.clock _ hs)
    · exact hs

theorem strokeOnRuns (h : BurstClosed P) (z : Fin 8) (hs : P s) : P (s.strokeOnRuns z) := by
  unfold State.strokeOnRuns
  dsimp only
  split
  · exact hs
  · exact h.chime z false (h.writeCZone _ _ (h.clock _ hs))

theorem strokeGapRuns (h : BurstClosed P) (z : Fin 8) (hs : P s) : P (s.strokeGapRuns z) := by
  unfold State.strokeGapRuns
  dsimp only
  split
  · exact hs
  · split
    · exact h.beginStroke z (h.clock _ hs)
    · exact hs

theorem burstRuns (h : BurstClosed P) (z : Fin 8) (hs : P s) : P (s.burstRuns z) := by
  unfold State.burstRuns
  split
  · exact hs
  · exact h.countBurst z (h.clock _ hs)

end BurstClosed

/-- `P` stands through suppressions and bars as well. -/
structure SilenceClosed (P : State → Prop) : Prop extends BurstClosed P where
  silence : ∀ {s : State} (z : Fin 8) (x : CallZone), P s → P { s with czones := put s.czones z x }

namespace SilenceClosed

variable {P : State → Prop} {s : State}

theorem setCZone (h : SilenceClosed P) (z : Fin 8) (x : CallZone) (hs : P s) : P (s.writeCZone z x) :=
  h.markIf _ _ (h.silence z x hs)

theorem suppress (h : SilenceClosed P) (z : Fin 8) (hs : P s) : P (s.suppress z) := by
  unfold State.suppress
  dsimp only
  split
  · exact h.setCZone _ _ hs
  · exact h.joinQueue _ _ (h.editDelivery _ _ _ (h.stopBurst z (h.setCZone _ _ hs)))

theorem bar (h : SilenceClosed P) (z : Fin 8) (hs : P s) : P (s.bar z) := h.dropZone z _ (h.setCZone _ _ hs)

theorem deriveSilence (h : SilenceClosed P) (z : Fin 8) (hs : P s) : P (s.deriveSilence z) := by
  unfold State.deriveSilence
  split
  · exact hs
  · extract_lets cz b p s1 cz1 s2
    have barred : P s1 := by
      unfold s1
      split
      · exact h.bar z hs
      · split
        · exact h.setCZone _ _ hs
        · exact hs
    have suppressed : P s2 := by
      unfold s2
      split
      · exact h.suppress z barred
      · split
        · exact h.setCZone _ _ barred
        · exact barred
    split
    · exact h.arbitrate z suppressed
    · exact suppressed

theorem deriveSilences (h : SilenceClosed P) (hs : P s) : P s.deriveSilences :=
  BurstClosed.turns (fun z _ ht => h.deriveSilence z ht) hs

theorem dropCalls (h : SilenceClosed P) (hs : P s) : P s.dropCalls := by
  unfold State.dropCalls
  refine h.table _ _ (BurstClosed.turns (fun z t ht => ?_) hs)
  dsimp only
  exact h.setCZone _ _ (h.stopBurst z ht)

end SilenceClosed

/-- `P` stands through the announced lit states as well. -/
structure LightClosed (P : State → Prop) : Prop extends BurstClosed P where
  lit : ∀ {s : State} (v : Vector Bool 8), P s → P { s with lit := v }

namespace LightClosed

variable {P : State → Prop} {s : State}

theorem announceLit (h : LightClosed P) (hs : P s) : P s.announceLit := by
  unfold State.announceLit
  refine BurstClosed.turns (fun z t ht => ?_) hs
  dsimp only
  split
  · exact h.litLost z (h.lit _ ht)
  · exact h.lit _ ht

end LightClosed

end Sys2Proof.Machine
end

section
/-!
PROOFS. What every operation of the part keeps, whatever it is asked: flags nested within masks (R187), circuits driven
as their demands and conditions have it (R156..R161), and counters within their ranges (R4, R72, R182).
-/

namespace Sys2Proof.Machine

/-! ## One circuit (R156..R163) -/

namespace Circuit

variable {x : Circuit}

/-- What R157..R161 ask of the output, the timers and the trips, whatever the drive should be. -/
structure Timed (x : Circuit) : Prop where
  on : x.switchedOn = true → x.drive = true
  part : x.partEnd.isSome = true → x.drive = true
  retry : x.retryAt.isSome = true → x.condition = .overload
  clean : x.cleanAt.isSome = true → x.condition = .overload ∧ x.drive = true
  off : x.offAt.isSome = true → x.condition = .overload ∧ x.demand = false
  trips : x.overloads ≤ Config.tripLimit
  spare : x.condition ≠ .failed → x.overloads < Config.tripLimit

/-- CONTINUOUS keeps the output of a driven circuit on (R157). -/
def Steady (x : Circuit) : Prop := x.drive = true → x.pattern = .continuous → x.switchedOn = true

theorem lawful_iff : x.lawful ↔ x.drive = x.wantsDrive ∧ x.Steady ∧ x.Timed :=
  ⟨fun ⟨drive, on, part, steady, retry, clean, off, trips, spare⟩ =>
      ⟨drive, steady, on, part, retry, clean, off, trips, spare⟩,
    fun ⟨drive, steady, on, part, retry, clean, off, trips, spare⟩ =>
      ⟨drive, on, part, steady, retry, clean, off, trips, spare⟩⟩

theorem wantsDrive_overload (h : x.condition = .overload) : x.wantsDrive = (x.demand && x.retryAt.isNone) := by
  simp [wantsDrive, h]

theorem wantsDrive_failed (h : x.condition = .failed) : x.wantsDrive = false := by simp [wantsDrive, h]

theorem wantsDrive_sound (h : x.condition = .sound ∨ x.condition = .openLoad) : x.wantsDrive = x.demand := by
  rcases h with h | h <;> simp [wantsDrive, h]

theorem demand_of_wantsDrive (h : x.wantsDrive = true) : x.demand = true := by
  simp only [wantsDrive, Bool.and_eq_true] at h
  exact h.1

theorem cleared_lawful (now : Nat) : (Circuit.cleared now).lawful := by
  simp [lawful, cleared, wantsDrive, Config.tripLimit]

theorem driveOn_timed (now : Nat) (h : x.Timed) (still : x.drive = false) : (x.driveOn now).Timed where
  on _ := rfl
  part _ := rfl
  retry := h.retry
  clean runs := by
    have stopped : x.cleanAt.isSome ≠ true := fun runs => by simpa [still] using (h.clean runs).2
    by_cases tripped : x.condition = .overload
    · exact ⟨tripped, rfl⟩
    · simp only [driveOn, inOverload, beq_iff_eq, tripped, if_false] at runs
      exact absurd runs stopped
  off := h.off
  trips := h.trips
  spare := h.spare

theorem driveOff_timed (h : x.Timed) : x.driveOff.Timed where
  on off := by cases off
  part off := by cases off
  retry := h.retry
  clean off := by cases off
  off := h.off
  trips := h.trips
  spare := h.spare

theorem newPeriod_timed (now : Nat) (h : x.Timed) (driven : x.drive = true) : (x.newPeriod now).Timed :=
  ⟨fun _ => driven, fun _ => driven, h.retry, h.clean, h.off, h.trips, h.spare⟩

/-- Setting the drive makes it what the demand and the condition ask for (R156). -/
theorem setDrive_drive (now : Nat) (x : Circuit) :
    (x.setDrive now).drive = x.wantsDrive ∧ (x.setDrive now).wantsDrive = x.wantsDrive := by
  unfold setDrive
  split
  next wants =>
    split
    next driven => exact ⟨by rw [driven, wants], rfl⟩
    · exact ⟨wants.symm, rfl⟩
  next wants =>
    have wants : x.wantsDrive = false := by simpa using wants
    split
    · exact ⟨wants.symm, rfl⟩
    next still => exact ⟨by rw [wants]; simpa using still, rfl⟩

theorem setDrive_timed (now : Nat) (h : x.Timed) : (x.setDrive now).Timed := by
  unfold setDrive
  split
  · split
    · exact h
    next still => exact driveOn_timed now h (by simpa using still)
  · split
    · exact driveOff_timed h
    · exact h

/-- A circuit whose drive is set from off stands steady: its output goes on with the drive (R157). -/
theorem setDrive_steady (now : Nat) (h : x.Steady) : (x.setDrive now).Steady := by
  unfold setDrive
  split
  · split
    · exact h
    · exact fun _ _ => rfl
  · split
    · exact fun driven => by cases driven
    · exact h

theorem setDrive_lawful (now : Nat) (steady : x.Steady) (timed : x.Timed) : (x.setDrive now).lawful := by
  obtain ⟨drive, wants⟩ := setDrive_drive now x
  exact lawful_iff.2 ⟨drive.trans wants.symm, setDrive_steady now steady, setDrive_timed now timed⟩

theorem demandEvent_lawful (now : Nat) (on : Bool) (p : Pattern) (h : x.lawful) : (x.demandEvent now on p).lawful := by
  obtain ⟨drive, steady, timed⟩ := lawful_iff.1 h
  unfold demandEvent
  split
  · exact h
  extract_lets y w
  have offTimer : y.offAt.isSome = true → y.condition = .overload ∧ y.demand = false := by
    intro runs
    by_cases tripped : x.condition = .overload
    · refine ⟨tripped, ?_⟩
      cases on
      · rfl
      · simp [y, inOverload, tripped] at runs
    · refine absurd (timed.off ?_).1 tripped
      simpa [y, inOverload, tripped] using runs
  have y_timed : y.Timed := ⟨timed.on, timed.part, timed.retry, timed.clean, offTimer, timed.trips, timed.spare⟩
  have w_timed : w.Timed := setDrive_timed now y_timed
  obtain ⟨w_drive, w_wants⟩ := setDrive_drive now y
  split
  next both =>
    have driven : w.drive = true := by simp at both; exact both.2
    exact lawful_iff.2 ⟨w_drive.trans w_wants.symm, fun _ _ => rfl, newPeriod_timed now w_timed driven⟩
  next either =>
    refine lawful_iff.2 ⟨w_drive.trans w_wants.symm, ?_, w_timed⟩
    cases was : x.drive
    · exact setDrive_steady now fun driven => by rw [show y.drive = x.drive from rfl, was] at driven; cases driven
    · intro driven
      rw [was, driven] at either
      exact absurd rfl either

/-- Neither the output nor the timers of an undriven circuit run (R157, R160). -/
theorem partEnds_lawful (t : Nat) (h : x.lawful) (driven : x.drive = true) : (x.partEnds t).lawful := by
  obtain ⟨drive, steady, timed⟩ := lawful_iff.1 h
  unfold partEnds
  split
  · exact h
  next n part =>
    have moving : x.pattern ≠ .continuous := fun same => by rw [same] at part; cases part
    split
    · exact lawful_iff.2 ⟨drive, fun _ same => absurd same moving, ⟨nofun, fun _ => driven, timed.retry, timed.clean,
        timed.off, timed.trips, timed.spare⟩⟩
    · exact lawful_iff.2 ⟨drive, fun _ same => absurd same moving, ⟨fun _ => driven, fun _ => driven, timed.retry,
        timed.clean, timed.off, timed.trips, timed.spare⟩⟩

/-- Between SOUND and OPEN nothing but the condition differs to the laws (R158). -/
theorem lawful_of_untripped {c : CircuitCondition} (h : x.lawful) (was : x.condition = .sound ∨ x.condition = .openLoad)
    (now : c = .sound ∨ c = .openLoad) : ({ x with condition := c } : Circuit).lawful := by
  obtain ⟨drive, steady, timed⟩ := lawful_iff.1 h
  have calm : x.condition ≠ .overload := by rcases was with e | e <;> rw [e] <;> decide
  have whole : x.condition ≠ .failed := by rcases was with e | e <;> rw [e] <;> decide
  refine lawful_iff.2 ⟨?_, steady, ⟨timed.on, timed.part, fun r => absurd (timed.retry r) calm,
    fun r => absurd (timed.clean r).1 calm, fun r => absurd (timed.off r).1 calm, timed.trips,
    fun _ => timed.spare whole⟩⟩
  rw [show ({ x with condition := c } : Circuit).wantsDrive = x.demand from wantsDrive_sound now,
    ← wantsDrive_sound was]
  exact drive

theorem tested_lawful (seen : Bool) (h : x.lawful) : (x.tested seen).lawful := by
  unfold tested
  split
  · exact h
  · split
    next was =>
      split
      · exact h
      · exact lawful_of_untripped h (.inl was) (.inr rfl)
    next was =>
      split
      · exact lawful_of_untripped h (.inr was) (.inl rfl)
      · exact h
    · exact h
    · exact h

/-- The laws do not speak of the test timer (R158). -/
theorem testAt_lawful (t : Nat) (h : x.lawful) : ({ x with testAt := t } : Circuit).lawful := h

theorem trip_lawful (now : Nat) (retry : Bool) (h : x.lawful) (driven : x.drive = true) :
    (x.trip now retry).lawful := by
  obtain ⟨drive, steady, timed⟩ := lawful_iff.1 h
  have wants : x.wantsDrive = true := drive.symm.trans driven
  have whole : x.condition ≠ .failed := fun e => by rw [wantsDrive_failed e] at wants; cases wants
  have spare := timed.spare whole
  have demanded := demand_of_wantsDrive wants
  have calm : x.offAt.isSome ≠ true := fun r => by rw [(timed.off r).2] at demanded; cases demanded
  unfold trip
  dsimp only
  split
  · exact lawful_iff.2 ⟨(wantsDrive_failed rfl).symm, nofun, ⟨nofun, nofun, nofun, nofun, nofun,
      by simpa [driveOff] using spare, fun e => absurd rfl e⟩⟩
  next few =>
    refine lawful_iff.2 ⟨?_, nofun, ⟨nofun, nofun, fun _ => rfl, nofun, fun r => absurd r calm,
      by simpa [driveOff] using spare, fun _ => by simp only [ge_iff_le, not_or, not_le] at few; exact few.1⟩⟩
    rw [wantsDrive_overload rfl]
    simp [driveOff]

theorem retryRun_lawful (now : Nat) (h : x.lawful) : (x.retryRun now).lawful := by
  obtain ⟨drive, steady, timed⟩ := lawful_iff.1 h
  exact setDrive_lawful now steady ⟨timed.on, timed.part, nofun, timed.clean, timed.off, timed.trips, timed.spare⟩

theorem judgedClean_timed (h : x.Timed) : x.judgedClean.Timed :=
  ⟨h.on, h.part, nofun, nofun, nofun, by simp [judgedClean, Config.tripLimit], fun _ => by
    simp [judgedClean, Config.tripLimit]⟩

/-- A circuit judged clean whose drive follows its demand is lawful (R160, R161). -/
theorem judgedClean_lawful (h : x.lawful) (follows : x.drive = x.demand) : x.judgedClean.lawful := by
  obtain ⟨drive, steady, timed⟩ := lawful_iff.1 h
  exact lawful_iff.2 ⟨follows.trans (wantsDrive_sound (x := x.judgedClean) (.inl rfl)).symm, steady,
    judgedClean_timed timed⟩

/-- The clean timer runs in a driven circuit (R160). -/
theorem judgedClean_of_clean (h : x.lawful) (runs : x.cleanAt.isSome = true) : x.judgedClean.lawful := by
  obtain ⟨drive, steady, timed⟩ := lawful_iff.1 h
  have driven := (timed.clean runs).2
  refine judgedClean_lawful h ?_
  rw [driven, demand_of_wantsDrive (drive.symm.trans driven)]

/-- The off timer runs in a circuit without a demand (R161). -/
theorem judgedClean_of_off (h : x.lawful) (runs : x.offAt.isSome = true) : x.judgedClean.lawful := by
  obtain ⟨drive, steady, timed⟩ := lawful_iff.1 h
  have off := (timed.off runs).2
  refine judgedClean_lawful h ?_
  rw [drive, off]
  by_contra wants
  rw [demand_of_wantsDrive (by simpa using wants)] at off
  cases off

theorem resetByStation_lawful (now : Nat) (h : x.lawful) : (x.resetByStation now).lawful := by
  obtain ⟨drive, steady, timed⟩ := lawful_iff.1 h
  unfold resetByStation
  split
  · exact h
  · exact h
  · exact setDrive_lawful now steady (judgedClean_timed timed)
  · exact setDrive_lawful now steady (judgedClean_timed timed)

end Circuit

end Sys2Proof.Machine
end

section
/-!
PROOFS. What every operation of the part keeps, whatever it is asked: flags nested within masks (R187), circuits driven
as their demands and conditions have it (R156..R161), and counters within their ranges (R4, R72, R182).
-/

namespace Sys2Proof.Machine

/-- From `s` to `t` nested flags stay nested, lawful drives lawful and bounded counters bounded. -/
structure Kept (s t : State) : Prop where
  nested : AttentionNested s → AttentionNested t
  drives : DrivesFollowDemands s → DrivesFollowDemands t
  counters : CountersBounded s → CountersBounded t

namespace Kept

variable {s t u : State}

theorem refl (s : State) : Kept s s := ⟨id, id, id⟩

theorem trans (h : Kept s t) (k : Kept t u) : Kept s u :=
  ⟨k.nested ∘ h.nested, k.drives ∘ h.drives, k.counters ∘ h.counters⟩

/-- What touches none of the parts that these laws speak of. -/
theorem of_changes {ps : List Part} (h : ChangesOnly ps s t)
    (out : ps.all (fun p => !([.settings, .stations, .circuits, .link, .zones, .perfs, .retained] : List Part).contains p)
      = true := by rfl) : Kept s t := by
  have same (p : Part) (mem : p ∈ ([.settings, .stations, .circuits, .link, .zones, .perfs, .retained] : List Part)) :
      p.same s t := h.same p fun inside => by
    have := List.all_eq_true.1 out p inside
    simp only [Bool.not_eq_true', List.contains_eq_mem, decide_eq_false_iff_not] at this
    exact this mem
  have settings : t.settings = s.settings := same .settings (by simp)
  have stations : t.stations = s.stations := same .stations (by simp)
  have circuits : t.circuits = s.circuits := same .circuits (by simp)
  have link : t.link = s.link := same .link (by simp)
  have zones : t.zones = s.zones := same .zones (by simp)
  have perfs : t.perfs = s.perfs := same .perfs (by simp)
  have retained : t.retained = s.retained := same .retained (by simp)
  refine ⟨fun n => ?_, fun d => ?_, fun c => ?_⟩
  · unfold AttentionNested at *; rw [settings, stations]; exact n
  · unfold DrivesFollowDemands at *; rw [circuits]; exact d
  · unfold CountersBounded at *; rw [link, zones, perfs, retained]; exact c

/-- The settings are written, the stations' as they are. -/
theorem settings {x : Settings} (h : x.stations = s.settings.stations) : Kept s { s with settings := x } :=
  ⟨fun n i => by dsimp only; rw [h]; exact n i, id, id⟩

end Kept

/-! ## Marks (R187) -/

/-- The armed and the flagged classes of a station, nested within its mask (R187). -/
def StationNested (cfg : StationSettings) (st : StationLive) : Prop :=
  st.armed &&& ~~~st.flags = 0 ∧ st.flags &&& ~~~cfg.mask = 0

theorem attentionNested_iff {s : State} :
    AttentionNested s ↔ ∀ i : Fin 8, StationNested s.settings.stations[i] s.stations[i] := .rfl

theorem classBit_getLsbD (k : Kind) (i : Nat) : (classBit k).getLsbD i = decide (i = kindCode k - 1) := by
  have lt : kindCode k - 1 < 11 := by cases k <;> decide
  simp only [classBit, single, BitVec.getLsbD_shiftLeft, BitVec.getLsbD_one]
  by_cases e : i = kindCode k - 1
  · subst e; simp [lt]
  · rcases Nat.lt_or_gt_of_ne e with h | h
    · simp [e, h]
    · simp only [e, decide_false, Bool.and_eq_false_iff]
      right; right
      simp; omega

theorem markStation_nested {cfg : StationSettings} {st : StationLive} (k : Kind) (h : StationNested cfg st) :
    StationNested cfg (markStation k cfg st) := by
  unfold markStation
  split
  next hears =>
    obtain ⟨-, inMask⟩ := listens_iff.1 hears
    obtain ⟨armed, flags⟩ := h
    constructor
    · ext i hi
      have := congrArg (·.getLsbD i) armed
      simp at this ⊢
      grind
    · ext i hi
      have bit := classBit_getLsbD k i
      have := congrArg (·.getLsbD i) flags
      simp [BitVec.getLsbD_eq_getElem hi] at this bit ⊢
      grind
  · exact h

theorem State.mark_nested {s : State} (k : Kind) (h : AttentionNested s) : AttentionNested (s.mark k) := by
  refine attentionNested_iff.2 fun i => ?_
  rw [State.mark_station, State.mark_settings]
  exact markStation_nested k (attentionNested_iff.1 h i)

/-! ## The primitive writes -/

namespace Kept

variable {s t u : State}

theorem mark (s : State) (k : Kind) : Kept s (s.mark k) :=
  ⟨State.mark_nested k, fun d => d, fun c => c⟩

theorem marked (h : Kept s t) (k : Kind) : Kept s (t.mark k) := h.trans (mark t k)

theorem markIf (s : State) (b : Bool) (k : Kind) : Kept s (s.markIf b k) := by
  cases b
  · exact refl s
  · exact mark s k

theorem forAll {n : Nat} {f : Fin n → State → State} (turn : ∀ i s, Kept s (f i s)) (s : State) :
    Kept s (forAll n f s) := forAll_keeps (Kept s) f (fun i t ht => ht.trans (turn i t)) s (refl s)

theorem foldl {α : Type} {f : State → α → State} (turn : ∀ s a, Kept s (f s a)) (l : List α) (s : State) :
    Kept s (l.foldl f s) := foldl_keeps (Kept s) f (fun t a ht => ht.trans (turn t a)) l s (refl s)

theorem reach (s : State) (t : Nat) : Kept s (s.reach t) := ⟨id, id, id⟩

theorem drawn (s : State) : Kept s s.drawn := ⟨id, id, id⟩

theorem maybe {f : State → State} (hf : ∀ s, Kept s (f s)) (s : State) : Kept s (s.maybe f) :=
  State.maybe_cases (drawn s) ((drawn s).trans (hf _))

theorem writeIron (s : State) (ch : Fin 3) (x : Iron) : Kept s (s.writeIron ch x) :=
  trans (t := { s with irons := put s.irons ch x }) ⟨id, id, id⟩ (markIf ..)

theorem writeIncident (s : State) (i : Fin 25) (x : Incident) : Kept s (s.writeIncident i x) :=
  trans (t := { s with incidents := put s.incidents i { s.incidents[i] with incident := some x } }) ⟨id, id, id⟩
    (markIf ..)

theorem writeGroup (s : State) (g : Fin 12) (x : LightGroup) : Kept s (s.writeGroup g x) :=
  trans (t := { s with groups := put s.groups g x }) ⟨id, id, id⟩ (markIf ..)

theorem writeSupply (s : State) (x : Supply) : Kept s (s.writeSupply x) :=
  trans (t := { s with supply := x }) ⟨id, id, id⟩ (markIf ..)

theorem writeStore (s : State) (x : Store) : Kept s (s.writeStore x) :=
  trans (t := { s with store := x }) ⟨id, id, id⟩ (markIf ..)

/-- A PERF record with its act in range, and its retained entry, are written (R4, R173). -/
theorem writePerf (s : State) (a : Fin 3) (p : Perf) (act : s.perfs[a].act ≤ 15 → p.act ≤ 15) :
    Kept s (s.writePerf a p) := by
  have perfs : Kept s { s with perfs := put s.perfs a p } := by
    refine ⟨id, id, fun ⟨errors, noise, acts⟩ => ⟨errors, noise, fun b => ⟨?_, (acts b).2⟩⟩⟩
    dsimp only
    rw [put_get]
    split
    · exact act (acts a).1
    · exact (acts b).1
  unfold State.writePerf
  dsimp only
  refine trans ?_ (markIf ..)
  split
  · exact perfs
  · refine ⟨id, id, fun ⟨errors, noise, acts⟩ => ⟨errors, noise, fun b => ⟨?_, ?_⟩⟩⟩
    · dsimp only
      rw [put_get]
      split
      · exact act (acts a).1
      · exact (acts b).1
    · dsimp only
      rw [put_get]
      split
      · exact act (acts a).1
      · exact (acts b).2

/-- A zone with its noise counter in range is written (R72). -/
theorem writeZone (s : State) (z : Fin 24) (x : Zone) (noise : s.zones[z].noise ≤ 32 → x.noise ≤ 32) :
    Kept s (s.writeZone z x) := by
  refine trans (t := { s with zones := put s.zones z x }) ?_ (markIf ..)
  refine ⟨id, id, fun ⟨errors, noises, acts⟩ => ⟨errors, fun i => ?_, acts⟩⟩
  dsimp only
  rw [put_get]
  split
  · exact noise (noises z)
  · exact noises i

/-- A lawful circuit is written (R156..R161). -/
theorem writeCircuit (s : State) (c : Fin 16) (x : Circuit) (lawful : s.circuits[c].lawful → x.lawful) :
    Kept s (s.writeCircuit c x) := by
  refine trans (t := { s with circuits := put s.circuits c x }) ?_ (markIf ..)
  refine ⟨id, fun d i => ?_, id⟩
  dsimp only
  rw [put_get]
  split
  · exact lawful (d c)
  · exact d i

theorem demand (s : State) (c : Fin 16) (on : Bool) (p : Pattern) : Kept s (s.demand c on p) :=
  writeCircuit s c _ (Circuit.demandEvent_lawful s.now on p)

theorem flickerRequest (s : State) (z : Fin 8) (code : Nat) : Kept s (s.flickerRequest z code) := by
  unfold State.flickerRequest
  dsimp only
  refine trans (t := { s with flickers := put s.flickers z { code := code, start := s.now, dip := isDip code 0 } })
    ⟨id, id, id⟩ (forAll (fun g t => ?_) _)
  split
  · exact writeGroup ..
  · exact refl _

/-- All that bursts and announcements of lit states do keeps these laws. -/
theorem lights (s : State) : LightClosed (Kept s) where
  clock t h := h.trans (reach _ t)
  mark k h := h.trans (mark _ k)
  table _ _ h := h.trans ⟨id, id, id⟩
  czone _ _ _ _ h := h.trans ⟨id, id, id⟩
  chime z on h := h.trans (demand ..)
  flicker z code h := h.trans (flickerRequest ..)
  lit _ h := h.trans ⟨id, id, id⟩

theorem silences (s : State) : SilenceClosed (Kept s) where
  toBurstClosed := (lights s).toBurstClosed
  silence _ _ h := h.trans ⟨id, id, id⟩

/-! ## Holds, circuits and lights -/

theorem fillHold (s : State) (a : Fin 3) (k : Fin 8) (x : Hold) : Kept s (s.fillHold a k x) := by
  unfold State.fillHold
  refine marked ?_ _
  exact ⟨id, id, id⟩

theorem emptyHold (s : State) (a : Fin 3) (k : Fin 8) : Kept s (s.emptyHold a k) := by
  unfold State.emptyHold
  refine marked ?_ _
  exact ⟨id, id, id⟩

theorem evalHold (c : HoldCause) (a : Fin 3) (s : State) : Kept s (s.evalHold c a) := by
  unfold State.evalHold
  split
  · exact refl s
  · split
    · exact fillHold ..
    · exact emptyHold ..
    · exact refl s
    · exact refl s

theorem evalHolds (c : HoldCause) (s : State) : Kept s (s.evalHolds c) := forAll (evalHold c) s

theorem evalAllHolds (a : Fin 3) (s : State) : Kept s (s.evalAllHolds a) :=
  (((evalHold .iron a s).trans (evalHold ..)).trans (evalHold ..)).trans (evalHold ..)

theorem clearHolds (a : Fin 3) (s : State) : Kept s (s.clearHolds a) := by
  refine forAll (fun k t => ?_) s
  split
  · exact emptyHold ..
  · exact refl t

theorem announceCondition (s : State) (c : Fin 16) (old : CircuitCondition) : Kept s (s.announceCondition c old) := by
  unfold State.announceCondition
  dsimp only
  split
  · exact refl s
  · split
    · exact evalHolds ..
    · split
      · split
        · exact (lights s).chimeLost _ (refl s)
        · exact refl s
      · exact refl s

theorem changeCircuit (s : State) (c : Fin 16) (x : Circuit) (lawful : s.circuits[c].lawful → x.lawful) :
    Kept s (s.changeCircuit c x) := (writeCircuit s c x lawful).trans (announceCondition ..)

theorem beginFade (s : State) (g : Fin 12) (t d : Nat) : Kept s (s.beginFade g t d) := by
  unfold State.beginFade
  refine marked ?_ _
  exact ⟨id, id, id⟩

theorem refreshGroup (g : Fin 12) (s : State) : Kept s (s.refreshGroup g) := by
  unfold State.refreshGroup
  dsimp only
  split
  · exact writeGroup ..
  · exact refl s

theorem refreshGroups (s : State) : Kept s s.refreshGroups := forAll refreshGroup s

theorem announceLit (s : State) : Kept s s.announceLit := (lights s).announceLit (refl s)

theorem refreshLights (s : State) : Kept s s.refreshLights := (refreshGroups s).trans (announceLit _)

theorem deriveSilence (s : State) (z : Fin 8) : Kept s (s.deriveSilence z) := (silences s).deriveSilence z (refl s)

theorem deriveSilences (s : State) : Kept s s.deriveSilences := (silences s).deriveSilences (refl s)

theorem callNotice (s : State) (a : Fin 3) (st : DeliveryState) : Kept s (s.callNotice a st) :=
  (lights s).callNotice a st (refl s)

theorem respond (s : State) (a : Fin 3) (t d : Nat) : Kept s (s.respond a t d) := by
  unfold State.respond
  refine forAll (fun g u => ?_) s
  dsimp only
  split
  · split
    · exact beginFade ..
    · exact writeGroup ..
  · exact refl u

theorem groupAmended (s : State) (g : Fin 12) (old : GroupSettings) : Kept s (s.groupAmended g old) := by
  unfold State.groupAmended
  dsimp only
  refine (trans ?_ (refreshGroup ..)).trans (markIf ..)
  split
  · exact writeGroup ..
  · exact refl s

theorem czoneAmended (s : State) (z : Fin 8) (old : CZoneSettings) : Kept s (s.czoneAmended z old) := by
  unfold State.czoneAmended
  extract_lets cfg s1 s2
  have marked : Kept s s1 := markIf ..
  have present : Kept s s2 := by
    unfold s2
    split
    · exact (silences s).setCZone _ _ ((lights s).dropZone _ _ marked)
    · split
      · exact (lights s).arbitrate _ ((silences s).deriveSilence _ ((silences s).setCZone _ _ marked))
      · exact marked
  split
  · exact present
  · exact ((present.trans (deriveSilence ..)).trans (refreshLights _)).trans (markIf ..)

/-! ## Performances -/

theorem setProved (s : State) (a : Fin 3) (p : IronProved) : Kept s (s.setProved a p) := by
  unfold State.setProved
  dsimp only
  split
  · exact refl s
  · exact (writePerf s a { s.perfs[a] with ironProved := p } id).trans (evalHold ..)

theorem takeJudgement (s : State) (a : Fin 3) (k : DescentKind) (b : Bool) : Kept s (s.takeJudgement a k b) := by
  unfold State.takeJudgement
  split
  · exact refl s
  · split
    · exact setProved ..
    · exact refl s

theorem respondWith (s : State) (a : Fin 3) (r : Option Response) : Kept s (s.respondWith a r) := by
  cases r
  · exact refl s
  · exact respond ..

theorem enterPhase (s : State) (a : Fin 3) (p : Perf) (r : Option Response) (notice : Option DeliveryState)
    (act : s.perfs[a].act ≤ 15 → p.act ≤ 15) : Kept s (s.enterPhase a p r notice) := by
  have lit := ((writePerf s a p act).trans (respondWith _ a r)).trans (refreshLights _)
  unfold State.enterPhase
  dsimp only
  split
  · exact lit
  · exact lit.trans (callNotice ..)

theorem halt (s : State) (a : Fin 3) : Kept s (s.halt a) := by
  have written := writePerf s a { s.perfs[a] with phase := .halted } id
  unfold State.halt
  exact (written.trans (respond ..)).trans (callNotice ..)

theorem haltSet (set : AudSet) (s : State) : Kept s (s.haltSet set) := by
  unfold State.haltSet
  refine forAll (fun a t => ?_) s
  split
  · exact halt ..
  · exact refl t

/-! ## Curtains -/

theorem recordFault (s : State) (ch : Fin 3) (f : IronFault) : Kept s (s.recordFault ch f) := by
  unfold State.recordFault
  dsimp only
  split
  · exact writeIron ..
  · exact (writeIron ..).trans (evalHolds ..)

theorem faultInMotion (s : State) (ch : Fin 3) (f : IronFault) : Kept s (s.faultInMotion ch f) := by
  have recorded := recordFault s ch f
  unfold State.faultInMotion
  dsimp only
  split
  · exact recorded.trans (writeIron ..)
  · exact recorded

theorem release (s : State) (ch : Fin 3) (why : ReleaseReason) : Kept s (s.release ch why) := writeIron ..

theorem fireRelease (inc : Incident) (s : State) : Kept s (s.fireRelease inc) := by
  unfold State.fireRelease
  refine forAll (fun ch t => ?_) s
  split
  · split
    · exact release ..
    · split
      · exact release ..
      · exact refl t
    · split
      · exact release ..
      · exact refl t
    · exact refl t
    · exact refl t
  · exact refl t

theorem stopRaises (s : State) : Kept s s.stopRaises := by
  refine forAll (fun ch t => ?_) s
  split
  · exact writeIron ..
  · exact refl t

theorem reload (s : State) (ch : Fin 3) (at_ : Nat) (stops : Bool) : Kept s (s.reload ch at_ stops) := by
  unfold State.reload
  dsimp only
  refine trans ?_ (writeIron ..)
  split
  · split
    · exact faultInMotion ..
    · exact recordFault ..
  · exact refl s

theorem countEncoder (s : State) (ch : Fin 3) (up : Bool) : Kept s (s.countEncoder ch up) := by
  unfold State.countEncoder
  split
  · exact refl s
  extract_lets x tol s1 s2 y
  have counted : Kept s s1 := writeIron ..
  have saturated : Kept s s2 := by
    unfold s2
    split
    · exact counted.trans (faultInMotion ..)
    · exact counted
  split
  · exact saturated.trans (faultInMotion ..)
  · split
    · exact (saturated.trans (writeIron ..)).trans (recordFault ..)
    · exact saturated

theorem indexSeen (s : State) (ch : Fin 3) : Kept s (s.indexSeen ch) := by
  unfold State.indexSeen
  split
  · exact refl s
  · exact reload ..

theorem arrive (s : State) (ch : Fin 3) : Kept s (s.arrive ch) := by
  unfold State.arrive
  extract_lets x v s1 s2 result s3
  have landed : Kept s s1 := writeIron ..
  have checked : Kept s s2 := by
    unfold s2
    split
    · exact landed.trans (recordFault ..)
    · exact landed
  exact (checked.trans (writeIron ..)).trans (takeJudgement ..)

theorem limitInMade (s : State) (ch : Fin 3) : Kept s (s.limitInMade ch) := by
  unfold State.limitInMade
  split
  · exact refl s
  extract_lets x s1 s2 uncommanded
  have loaded : Kept s s1 := reload ..
  have fallen : Kept s uncommanded := by
    unfold uncommanded
    refine trans ?_ (writeIron ..)
    unfold s2
    split
    · exact loaded
    · exact loaded.trans (recordFault ..)
  split
  · exact loaded.trans (arrive ..)
  · exact fallen
  · exact fallen
  · exact loaded
  · exact loaded

theorem limitOutMade (s : State) (ch : Fin 3) : Kept s (s.limitOutMade ch) := by
  have loaded := reload s ch s.settings.irons[ch].travel false
  unfold State.limitOutMade
  dsimp only
  split
  · exact refl s
  · split
    · exact loaded.trans (writeIron ..)
    · exact loaded

theorem pressRelease (s : State) (ch : Fin 3) : Kept s (s.pressRelease ch) := by
  unfold State.pressRelease
  dsimp only
  split
  · exact ⟨id, id, id⟩
  · refine trans ?_ (writeIron ..)
    exact ⟨id, id, id⟩

theorem letGoRelease (s : State) (ch : Fin 3) : Kept s (s.letGoRelease ch) := by
  unfold State.letGoRelease
  dsimp only
  split
  · exact ⟨id, id, id⟩
  · refine trans ?_ (writeIron ..)
    exact ⟨id, id, id⟩

theorem superviseDescent (s : State) (ch : Fin 3) : Kept s (s.superviseDescent ch) := by
  unfold State.superviseDescent
  extract_lets cfg x crossed s1 x2 s2 x3 s3
  have advanced : Kept s s1 := writeIron ..
  have overspeed : Kept s s2 := by
    unfold s2
    split
    · exact (advanced.trans (writeIron ..)).trans (recordFault ..)
    · exact advanced
  have stall : Kept s s3 := by
    unfold s3
    split
    · exact (overspeed.trans (writeIron ..)).trans (recordFault ..)
    · exact overspeed
  split
  · exact (stall.trans (writeIron ..)).trans (recordFault ..)
  · exact stall

theorem sample (s : State) (ch : Fin 3) : Kept s (s.sample ch) := by
  unfold State.sample
  split
  · exact refl s
  extract_lets x t s1 s2 y
  have timed : Kept s s1 := ⟨id, id, id⟩
  refine trans (trans ?_ (writeIron ..)) (markIf ..)
  unfold s2
  split
  · exact timed.trans (superviseDescent ..)
  · exact timed

theorem stallSample (s : State) (ch : Fin 3) : Kept s (s.stallSample ch) := by
  unfold State.stallSample
  dsimp only
  split
  · exact sample ..
  · exact refl s

theorem slowSample (s : State) (ch : Fin 3) : Kept s (s.slowSample ch) := by
  unfold State.slowSample
  dsimp only
  split
  · exact sample ..
  · exact refl s

theorem raiseTimesOut (s : State) (ch : Fin 3) : Kept s (s.raiseTimesOut ch) := by
  unfold State.raiseTimesOut
  dsimp only
  split
  · exact (reach ..).trans (faultInMotion ..)
  · exact refl s

theorem clearIronFault (s : State) (ch : Fin 3) : Kept s (s.clearIronFault ch) := by
  unfold State.clearIronFault
  dsimp only
  split
  · exact (writeIron ..).trans (evalHolds ..)
  · exact refl s

theorem ironPresence (s : State) (ch : Fin 3) (limitIn : Bool) : Kept s (s.ironPresence ch limitIn) :=
  ((writeIron ..).trans (markIf ..)).trans (evalHolds ..)

theorem demandOut (s : State) (ch : Fin 3) : Kept s (s.demandOut ch) := by
  unfold State.demandOut
  split
  · exact writeIron ..
  · exact writeIron ..
  · exact refl s
  · exact refl s
  · exact refl s

theorem actIron (s : State) (ch : Fin 3) (fs : List FieldVal) : Kept s (s.actIron ch fs) := by
  unfold State.actIron
  extract_lets s2
  have demanded : Kept s s2 := by
    unfold s2
    split
    · exact refl s
    · exact demandOut ..
    · exact release ..
  split
  · exact demanded.trans (clearIronFault ..)
  · exact demanded

/-! ## Incidents -/

theorem demandAlert (s : State) : Kept s s.demandAlert := by
  unfold State.demandAlert
  split
  · exact demand ..
  · exact demand ..

theorem demandSounders (s : State) : Kept s s.demandSounders := by
  unfold State.demandSounders
  exact forAll (fun c t => demand ..) s

theorem demandBrigade (s : State) : Kept s s.demandBrigade := demand ..

theorem demandAll (s : State) : Kept s s.demandAll :=
  ((demandAlert s).trans (demandSounders _)).trans (demandBrigade _)

theorem lightsAndCalls (s : State) : Kept s s.lightsAndCalls := by
  unfold State.lightsAndCalls
  split
  · exact ((drawn s).trans (deriveSilences _)).trans (announceLit _)
  · exact ((drawn s).trans (announceLit _)).trans (deriveSilences _)

theorem maybeLightsAndCalls (s : State) : Kept s s.maybeLightsAndCalls :=
  ((maybe announceLit s).trans (maybe deriveSilences _)).trans (maybe announceLit _)

theorem announceIncidents (ids : List (Fin 25)) (s : State) : Kept s (s.announceIncidents ids) := by
  unfold State.announceIncidents
  extract_lets set s1 s2 s3
  have heard : Kept s s1 := (evalHolds ..).trans (maybe deriveSilences _)
  have halted : Kept s s2 := by
    unfold s2
    split
    · exact ((heard.trans (drawn _)).trans (refreshGroups _)).trans ((maybeLightsAndCalls _).trans (haltSet ..))
    · exact (((heard.trans (drawn _)).trans (haltSet ..)).trans (maybe deriveSilences _)).trans (refreshGroups _)
  have released : Kept s s3 := by
    refine halted.trans (foldl (fun t i => ?_) ids s2)
    split
    · exact fireRelease ..
    · exact refl t
  exact released.trans (lightsAndCalls _)

theorem fillIncident (s : State) (i : Fin 25) (x : Incident) : Kept s (s.fillIncident i x) := by
  unfold State.fillIncident
  refine marked ?_ _
  exact ⟨id, id, id⟩

theorem emptyIncident (s : State) (i : Fin 25) : Kept s (s.emptyIncident i) := by
  unfold State.emptyIncident
  refine marked ?_ _
  exact ⟨id, id, id⟩

theorem editIncident (s : State) (i : Fin 25) (f : Incident → Incident) : Kept s (s.editIncident i f) := by
  unfold State.editIncident
  split
  · exact refl s
  · exact writeIncident ..

theorem escalateIncident (s : State) (i : Fin 25) (why : EscalationCause) : Kept s (s.escalateIncident i why) :=
  ((editIncident ..).trans (demandAll _)).trans (announceIncidents ..)

theorem zoneRetired (s : State) (z : Fin 24) : Kept s (s.zoneRetired z) := by
  unfold State.zoneRetired
  refine marked (writeZone s z _ ?_) _
  exact id

theorem raiseZoneIncident (s : State) (z : Fin 24) (i : Fin 25) : Kept s (s.raiseZoneIncident z i) := by
  unfold State.raiseZoneIncident
  extract_lets x shared s1 x2 s2 s3
  have filled : Kept s s1 := fillIncident ..
  have named : Kept s s2 := by
    refine filled.trans (writeZone _ _ _ ?_)
    exact id
  have escalated : Kept s s3 := named.trans (foldl (fun t j => editIncident ..) shared s2)
  exact (escalated.trans (demandAll _)).trans (announceIncidents ..)

theorem reactivate (s : State) (i : Fin 25) : Kept s (s.reactivate i) := by
  unfold State.reactivate
  exact marked ((editIncident ..).trans (demandAll _)) _

theorem raiseStationIncident (s : State) (st : Fin 8) (set : AudSet) (i : Fin 25) :
    Kept s (s.raiseStationIncident st set i) :=
  ((fillIncident ..).trans (demandAll _)).trans (announceIncidents ..)

theorem widenIncident (s : State) (i : Fin 25) (set : AudSet) : Kept s (s.widenIncident i set) := by
  unfold State.widenIncident
  split
  · exact refl s
  · extract_lets s1
    have widened : Kept s s1 := (writeIncident ..).trans (demandAll _)
    split
    · exact widened
    · exact widened.trans (announceIncidents ..)

theorem retireIncidentAt (s : State) (i : Fin 25) : Kept s (s.retireIncidentAt i) := by
  unfold State.retireIncidentAt
  split
  · exact refl s
  · extract_lets s1 s2
    have emptied : Kept s s1 := (emptyIncident ..).trans (demandAll _)
    have told : Kept s s2 := by
      unfold s2
      split
      · exact emptied.trans (zoneRetired ..)
      · exact emptied
    exact ((told.trans (evalHolds ..)).trans (refreshLights _)).trans (deriveSilences _)

theorem acknowledgeIncident (s : State) (i : Fin 25) (st : Fin 8) : Kept s (s.acknowledgeIncident i st) :=
  (editIncident ..).trans (demandAlert _)

theorem silenceIncident (s : State) (i : Fin 25) : Kept s (s.silenceIncident i) :=
  (editIncident ..).trans (demandSounders _)

theorem actIncident (s : State) (i : Fin 25) (x : Incident) (st : Fin 8) (fs : List FieldVal) :
    Kept s (s.actIncident i x st fs) := by
  unfold State.actIncident
  split
  · split
    · exact acknowledgeIncident ..
    · exact refl s
  · split
    · split
      · exact escalateIncident ..
      · exact refl s
    · split
      · split
        · exact refl s
        · exact silenceIncident ..
      · exact refl s

end Kept

end Sys2Proof.Machine
end

section
/-!
PROOFS. An invariant of the step is one of every decision on a request and of every event; the flags (R187), the circuits
(R156..R161) and the counters (R4, R72, R182) are such.
-/

namespace Sys2Proof.Machine

/-! ## From the step to decisions and events -/

/-- What a command keeps, whatever the clock reads and whatever waits, a step keeps (00). -/
theorem step_keeps {P : State → Prop} {s t : State} (clock : ∀ (s : State) (n : Nat), P s → P { s with now := n })
    (queue : ∀ (s : State) (rest : List Instr), P s → P { s with pending := rest })
    (command : ∀ (i : Instr) (s t : State), P s → exec i s = .next t → P t) (h : P s) (run : step s = .next t) : P t := by
  obtain ⟨front, idle, off⟩ := stepRunsFrontCommand
  cases pending : s.pending with
  | cons i rest =>
    rw [front s i rest pending] at run
    exact command i _ t (queue s rest h) run
  | nil =>
    cases powered : s.powered
    · rw [off s pending powered] at run
      obtain rfl := Host.Outcome.next.inj run
      exact h
    · rw [idle s pending powered] at run
      obtain rfl := Host.Outcome.next.inj run
      exact clock s _ h

/-- What a decision keeps, with the counting of its frame and its reply, and every event keeps, a command keeps. -/
theorem exec_keeps {P : State → Prop} {i : Instr} {s t : State} (good : ∀ s, P s → P s.frameGood)
    (fails : ∀ s, P s → P s.frameFails)
    (reply : ∀ (s : State) (n : Nat) (b : Byte) (a : Answer), P s → P (s.reply n b a))
    (decides : ∀ (code : ReqCode) (q : Ask) (s : State) (v : Verdict), P s → Decides code q s v → P v.2)
    (event : requestOf i = none → (∀ code kind r, i ≠ .unknownRequest code kind r) → P s → P t) (h : P s)
    (run : exec i s = .next t) : P t := by
  cases named : requestOf i with
  | some request =>
    obtain ⟨code, kind, r⟩ := request
    obtain ⟨u, ran, served⟩ := exec_served named s
    obtain rfl : u = t := Host.Outcome.next.inj (ran.symm.trans run)
    cases served with
    | lost => exact h
    | failed => exact fails s h
    | decided st v heard decided => exact reply _ _ _ _ (decides _ _ _ _ (good s h) decided)
  | none =>
    by_cases strange : ∃ code kind r, i = .unknownRequest code kind r
    · obtain ⟨code, kind, r, rfl⟩ := strange
      obtain rfl : s.unknown code kind r = t := Host.Outcome.next.inj run
      unfold State.unknown
      split
      · exact h
      · unfold State.serve
        split
        · exact h
        · split
          · exact fails s h
          · exact reply _ _ _ _ (good s h)
    · exact event named (fun code kind r e => strange ⟨code, kind, r, e⟩) h

namespace Kept

/-! ## Zones -/

theorem deriveCondition (s : State) (z : Fin 24) : Kept s (s.deriveCondition z) := by
  unfold State.deriveCondition
  dsimp only
  split
  · exact refl s
  · refine (writeZone s z _ ?_).trans (evalHolds ..)
    exact id

theorem confirmation_noise (now : Nat) (cfg : ZoneSettings) (b : Band) (x : Zone) (h : x.noise ≤ 32) :
    (x.confirmation now cfg b).noise ≤ 32 := by
  unfold Zone.confirmation
  split
  · split
    · exact h
    · exact h
  · split
    · exact h
    · exact Nat.min_le_left ..
  · split
    · exact h
    · exact h

theorem loopTimer_noise (now : Nat) (b : Band) (x : Zone) : (x.loopTimer now b).noise = x.noise := by
  unfold Zone.loopTimer
  split
  · rfl
  · split
    · split
      · rfl
      · rfl
    · rfl

theorem bandChanges (s : State) (z : Fin 24) (b : Band) : Kept s (s.bandChanges z b) := by
  unfold State.bandChanges
  dsimp only
  have seen : Kept s { s with lines := { s.lines with bands := put s.lines.bands z b } } := ⟨id, id, id⟩
  split
  · exact seen
  · refine (seen.trans (writeZone _ z _ fun h => ?_)).trans (deriveCondition ..)
    rw [loopTimer_noise]
    exact confirmation_noise _ _ _ _ h

theorem confirms {s t : State} {z : Fin 24} (run : s.confirms z = .next t) : Kept s t := by
  obtain rfl | ⟨time, u, -, -, hu, ends⟩ := State.confirms_cases run
  · exact refl _
  have alarm : Kept s u := by
    rw [hu]
    refine (reach ..).trans (writeZone _ z _ ?_)
    exact id
  obtain ⟨i, -, -, rfl⟩ | ⟨i, -, -, rfl⟩ | ⟨-, -, rfl⟩ := ends
  · exact alarm.trans (raiseZoneIncident ..)
  · exact alarm.trans (reactivate ..)
  · exact alarm

theorem quietRuns (s : State) (z : Fin 24) : Kept s (s.quietRuns z) := by
  unfold State.quietRuns
  dsimp only
  split
  · exact refl s
  · refine ((reach ..).trans (writeZone _ z _ fun h => ?_)).trans (deriveCondition ..)
    exact (Nat.sub_le ..).trans h

theorem loopRuns (s : State) (z : Fin 24) : Kept s (s.loopRuns z) := by
  unfold State.loopRuns
  dsimp only
  split
  · exact refl s
  · refine ((reach ..).trans (writeZone _ z _ ?_)).trans (deriveCondition ..)
    exact id

theorem readBand_noise (now confirmTime : Nat) (b : Band) (x : Zone) :
    (x.readBand now confirmTime b).noise = x.noise := by
  unfold Zone.readBand
  dsimp only
  split
  · rfl
  · rfl

theorem atStart_noise (now : Nat) (cfg : ZoneSettings) (b : Band) : (Zone.atStart now cfg b).noise = 0 := by
  unfold Zone.atStart
  split
  · rw [readBand_noise]; rfl
  · rfl

theorem setIsolated_noise (now confirmTime : Nat) (on : Bool) (x : Zone) :
    (x.setIsolated now confirmTime on).noise = x.noise := by
  unfold Zone.setIsolated Zone.restore
  dsimp only
  split
  · rfl
  · split
    · rfl
    · split
      · rfl
      · rfl

theorem acted_noise (now confirmTime : Nat) (fs : List FieldVal) (x : Zone) (h : x.noise ≤ 32) :
    (x.acted now confirmTime fs).noise ≤ 32 := by
  unfold Zone.acted
  extract_lets y
  have reset : y.noise ≤ 32 := by
    unfold y
    split
    · exact Nat.zero_le _
    · exact h
  split
  · exact reset
  · rw [setIsolated_noise]
    exact reset

theorem zonePresence (s : State) (z : Fin 24) : Kept s (s.zonePresence z) := by
  have written := (writeZone s z (Zone.atStart s.now s.settings.zones[z] s.lines.bands[z]) fun _ => by
    rw [atStart_noise]; exact Nat.zero_le _).marked .zone
  unfold State.zonePresence
  dsimp only
  split
  · exact written
  · exact written.trans (evalHolds ..)

theorem actZone (s : State) (z : Fin 24) (fs : List FieldVal) (old new : ZoneSettings) :
    Kept s (s.actZone z fs old new) := by
  unfold State.actZone
  split
  · exact zonePresence ..
  · split
    · exact (writeZone s z _ (acted_noise _ _ _ _)).trans (deriveCondition ..)
    · exact refl s

theorem serveZone (s : State) (old new : ZoneSettings) : Kept s (s.serveZone old new) := by
  unfold State.serveZone
  extract_lets t
  have sounders : Kept s t := by
    unfold t
    split
    · exact demandSounders s
    · exact refl s
  split
  · exact sounders.trans (deriveSilences _)
  · exact sounders

/-! ## Supply and circuits -/

theorem announceMains (s : State) : Kept s s.announceMains := by
  have lit := refreshLights s
  unfold State.announceMains
  dsimp only
  refine trans ?_ (evalHolds ..)
  split
  · exact lit.trans (stopRaises _)
  · exact lit

theorem setMains (s : State) (x : Supply) : Kept s (s.setMains x) := (writeSupply s x).trans (announceMains _)

theorem mainsLine (s : State) (on : Bool) : Kept s (s.mainsLine on) := by
  unfold State.mainsLine
  split
  · exact refl s
  · have seen : Kept s { s with lines := { s.lines with mainsPresent := on } } := ⟨id, id, id⟩
    generalize { s with lines := { s.lines with mainsPresent := on } } = u at *
    dsimp only
    split
    · exact seen.trans (writeSupply ..)
    · exact seen.trans (writeSupply ..)
    · exact seen.trans (setMains ..)
    · exact seen.trans (setMains ..)
    · exact seen
    · exact seen

theorem lossRuns (s : State) : Kept s s.lossRuns := by
  unfold State.lossRuns
  split
  · exact refl s
  · exact (reach ..).trans (setMains ..)

theorem settlingRuns (s : State) : Kept s s.settlingRuns := by
  unfold State.settlingRuns
  split
  · exact refl s
  · exact (reach ..).trans (setMains ..)

theorem supplyLine (s : State) (on : Bool) : Kept s (s.supplyLine on) := by
  unfold State.supplyLine
  split
  · exact refl s
  · refine trans ?_ (writeSupply ..)
    exact ⟨id, id, id⟩

theorem safetyRuns (s : State) : Kept s s.safetyRuns := by
  unfold State.safetyRuns
  split
  · exact refl s
  · exact ((reach ..).trans (writeSupply ..)).trans (evalHolds ..)

theorem cellLine (s : State) (good : Bool) : Kept s (s.cellLine good) := by
  unfold State.cellLine
  split
  · exact refl s
  · refine trans ?_ (writeSupply ..)
    exact ⟨id, id, id⟩

theorem writeRetained (s : State) : Kept s s.writeRetained := by
  refine ⟨id, id, fun ⟨errors, noise, acts⟩ => ⟨errors, noise, fun a => ⟨(acts a).1, ?_⟩⟩⟩
  simp only [State.writeRetained, tab_get]
  exact (acts a).1

theorem cellRuns (s : State) : Kept s s.cellRuns := by
  unfold State.cellRuns
  split
  · exact refl s
  · split
    · exact ((reach ..).trans (writeRetained _)).trans (writeSupply ..)
    · exact (reach ..).trans (writeSupply ..)

theorem patternRuns (s : State) (c : Fin 16) : Kept s (s.patternRuns c) := by
  unfold State.patternRuns
  dsimp only
  split
  · exact refl s
  · split
    next driven => exact (reach ..).trans (writeCircuit _ c _ fun h => Circuit.partEnds_lawful _ h driven)
    · exact refl s

theorem testRuns (s : State) (c : Fin 16) (seen : Bool) : Kept s (s.testRuns c seen) :=
  (reach ..).trans (changeCircuit _ c _ fun h => Circuit.testAt_lawful _ (Circuit.tested_lawful seen h))

theorem overloads (s : State) (c : Fin 16) : Kept s (s.overloads c) := by
  unfold State.overloads
  dsimp only
  split
  next both =>
    have driven : s.circuits[c].drive = true := by
      rw [Bool.and_eq_true] at both
      exact both.1
    exact changeCircuit s c _ fun h => Circuit.trip_lawful _ _ h driven
  · exact refl s

theorem retryRuns (s : State) (c : Fin 16) : Kept s (s.retryRuns c) := by
  unfold State.retryRuns
  dsimp only
  split
  · exact refl s
  · exact (reach ..).trans (changeCircuit _ c _ fun h => Circuit.retryRun_lawful _ h)

theorem cleanRuns (s : State) (c : Fin 16) : Kept s (s.cleanRuns c) := by
  unfold State.cleanRuns
  dsimp only
  split
  · exact refl s
  next runs =>
    exact (reach ..).trans (changeCircuit _ c _ fun h => Circuit.judgedClean_of_clean h (by rw [runs]; rfl))

theorem offRuns (s : State) (c : Fin 16) : Kept s (s.offRuns c) := by
  unfold State.offRuns
  dsimp only
  split
  · exact refl s
  next runs =>
    exact (reach ..).trans (changeCircuit _ c _ fun h => Circuit.judgedClean_of_off h (by rw [runs]; rfl))

theorem serveCircuit (s : State) (old new : CircuitSettings) : Kept s (s.serveCircuit old new) := by
  unfold State.serveCircuit
  split
  · exact (mark ..).trans (evalHolds ..)
  · exact refl s

theorem resetCircuit (s : State) (c : Fin 16) (fs : List FieldVal) : Kept s (s.resetCircuit c fs) := by
  unfold State.resetCircuit
  split
  · exact changeCircuit s c _ fun h => Circuit.resetByStation_lawful _ h
  · exact refl s

theorem serveBrigade (s : State) (old new : PartSettings) : Kept s (s.serveBrigade old new) := by
  unfold State.serveBrigade
  split
  · exact demandBrigade s
  · exact refl s

/-! ## Fades -/

theorem stepGroup (g : Fin 12) (s : State) : Kept s (s.stepGroup g) := by
  unfold State.stepGroup
  dsimp only
  split
  · refine trans ?_ (markIf ..)
    exact ⟨id, id, id⟩
  · exact refl s

theorem fadeEngineStep (s : State) : Kept s s.fadeEngineStep := by
  unfold State.fadeEngineStep
  refine trans ?_ (forAll stepGroup _)
  exact ⟨id, id, id⟩

theorem fadeEnds (s : State) (g : Fin 12) : Kept s (s.fadeEnds g) := by
  unfold State.fadeEnds
  dsimp only
  split
  · exact fadeEngineStep s
  · exact refl s

/-! ## The link, the store and the power -/

/-- The link's fields are written with the error counter in range (R182). -/
theorem setLink (s : State) (x : Link) (errors : s.link.errors ≤ 32 → x.errors ≤ 32) : Kept s { s with link := x } :=
  ⟨id, id, fun ⟨e, rest⟩ => ⟨errors e, rest⟩⟩

theorem setDegraded (s : State) (b : Bool) : Kept s (s.setDegraded b) := by
  unfold State.setDegraded
  split
  · exact refl s
  · refine trans (marked (setLink s _ ?_) _) (evalHolds ..)
    exact id

theorem frameFails (s : State) : Kept s s.frameFails := by
  have counted : Kept s { s with link := { s.link with errors := min Config.errorTop (s.link.errors + 1) } } :=
    setLink s _ fun _ => Nat.min_le_left ..
  unfold State.frameFails
  dsimp only
  split
  · exact counted.trans (setDegraded ..)
  · exact counted

theorem frameGood (s : State) : Kept s s.frameGood := by
  have counted : Kept s { s with link := { s.link with errors := s.link.errors - 1 } } :=
    setLink s _ fun h => (Nat.sub_le ..).trans h
  unfold State.frameGood
  dsimp only
  split
  · exact counted.trans (setDegraded ..)
  · exact counted

theorem reply (s : State) (n : Nat) (b : Byte) (a : Answer) : Kept s (s.reply n b a) := ⟨id, id, id⟩

theorem frameJudged (s : State) (chars : List Byte) : Kept s (s.frameJudged chars) := by
  unfold State.frameJudged
  split
  · exact frameFails s
  · exact refl s

theorem frameDropped (s : State) (chars : List Byte) : Kept s (s.frameDropped chars) := by
  unfold State.frameDropped
  split
  · exact frameFails s
  · exact refl s

theorem storeCompletes (s : State) : Kept s s.storeCompletes := by
  unfold State.storeCompletes
  split
  · refine trans ?_ (writeStore ..)
    exact ⟨id, id, id⟩
  · exact refl s

theorem beginStore (s : State) : Kept s s.beginStore := by
  unfold State.beginStore
  refine trans ?_ (writeStore ..)
  exact ⟨id, id, id⟩

theorem noteChange (s : State) (b : Bool) : Kept s (s.noteChange b) := by
  unfold State.noteChange
  split
  · exact writeStore ..
  · exact refl s

theorem settled (s : State) {x : Settings} (b : Bool) (h : x.stations = s.settings.stations) :
    Kept s (s.settled x b) := (settings h).trans (noteChange ..)

theorem setLock (s : State) (fs : List FieldVal) : Kept s (s.setLock fs) := by
  unfold State.setLock
  split
  · exact writeStore ..
  · exact refl s

/-! ## Starts (R174..R177) -/

theorem flagAll_nested (s : State) : AttentionNested s.flagAll := by
  refine attentionNested_iff.2 fun i => ?_
  simp only [State.flagAll, tab_get]
  constructor
  · simp
  · split
    · simp
    · simp

theorem flagAll (s : State) : Kept s s.flagAll := ⟨fun _ => flagAll_nested s, id, id⟩

theorem restartLights (s : State) : Kept s s.restartLights := by
  unfold State.restartLights
  extract_lets s1 s2
  have stopped : Kept s s1 := ⟨id, id, id⟩
  exact (lights s).lit _ (stopped.trans (refreshGroups _))

theorem restartCircuits (loads : BitVec 16) (s : State) : Kept s (s.restartCircuits loads) := by
  unfold State.restartCircuits
  refine forAll (fun c t => ?_) s
  exact (changeCircuit t c _ fun _ => Circuit.cleared_lawful _).trans
    (changeCircuit _ c _ fun h => Circuit.tested_lawful _ h)

theorem softRestart_noise (now : Nat) (cfg : ZoneSettings) (b : Band) (x : Zone) (h : x.noise ≤ 32) :
    (x.softRestart now cfg b).noise ≤ 32 := by
  unfold Zone.softRestart
  dsimp only
  split
  · rw [readBand_noise]
    exact Nat.zero_le _
  · exact h

theorem restartZones (s : State) : Kept s s.restartZones := by
  unfold State.restartZones
  refine forAll (fun z t => ?_) s
  have written := writeZone t z _ (softRestart_noise t.now t.settings.zones[z] t.lines.bands[z] _)
  dsimp only
  split
  · exact written
  · exact written.trans (evalHolds ..)

theorem restartIrons (s : State) : Kept s s.restartIrons := by
  unfold State.restartIrons
  exact forAll (fun ch t => writeIron ..) s

theorem restartLink (s : State) : Kept s s.restartLink := by
  unfold State.restartLink
  refine trans (setLink s _ fun _ => Nat.zero_le _) (setDegraded ..)

theorem softRestart (s : State) (loads : BitVec 16) : Kept s (s.softRestart loads) := by
  unfold State.softRestart
  extract_lets s1 s2
  have cleared : Kept s s1 := ((silences s).dropCalls (refl s)).trans (restartLights _)
  have plant : Kept s s2 := ((cleared.trans (restartCircuits ..)).trans (restartZones _)).trans (restartIrons _)
  exact ((plant.trans (writeSupply ..)).trans (restartLink _)).trans (flagAll _)

theorem setUp_drives (s : State) (p : Plant) (b : Bool) : DrivesFollowDemands (s.setUp p b) := by
  intro c
  simp only [State.setUp, tab_get]
  exact Circuit.tested_lawful _ (Circuit.cleared_lawful 0)

theorem restored_act (present ironPresent defaults : Bool) (e : Option RetainedEntry) (h : ∀ x ∈ e, x.act ≤ 15) :
    (Perf.restored present ironPresent defaults e).act ≤ 15 := by
  unfold Perf.restored
  dsimp only
  split
  · exact Nat.zero_le _
  · cases e with
    | none => exact Nat.zero_le _
    | some x => exact h x rfl

theorem setUp_counters {s : State} (p : Plant) (b : Bool) (h : CountersBounded s) : CountersBounded (s.setUp p b) := by
  obtain ⟨-, -, acts⟩ := h
  refine ⟨Nat.zero_le _, fun z => ?_, fun a => ⟨?_, (acts a).2⟩⟩
  · simp only [State.setUp, tab_get, atStart_noise]
    exact Nat.zero_le _
  · simp only [State.setUp, tab_get]
    refine restored_act _ _ _ _ fun x mem => ?_
    split at mem
    · obtain rfl := Option.some.inj mem
      exact (acts a).2
    · cases mem

theorem startLights (s : State) : Kept s s.startLights := ⟨id, id, id⟩

theorem startHolds (s : State) : Kept s s.startHolds := by
  unfold State.startHolds
  exact forAll evalAllHolds s

theorem loadSettings_counters {s : State} (h : CountersBounded s) : CountersBounded s.loadSettings := by
  unfold State.loadSettings
  split
  · exact h
  · exact h

theorem start (s : State) (p : Plant) (fromPin : Bool) : Kept s (s.start p fromPin) := by
  have drives := setUp_drives s.loadSettings p fromPin
  have counters (h : CountersBounded s) := setUp_counters p fromPin (loadSettings_counters h)
  unfold State.start
  generalize s.loadSettings.setUp p fromPin = u at *
  have flagged : Kept u u.writeRetained.startLights.startHolds.flagAll :=
    (((writeRetained u).trans (startLights _)).trans (startHolds _)).trans (flagAll _)
  exact ⟨fun _ => flagAll_nested _, fun _ => flagged.drives drives, fun h => flagged.counters (counters h)⟩

end Kept

/-! ## Decisions, events and the step -/

/-- A station's flags and arming stay nested within its mask as its settings change (R186). -/
theorem amended_nested {old new : StationSettings} {x : StationLive} (h : StationNested old x) :
    StationNested new (x.amended old new) := by
  obtain ⟨armed, flags⟩ := h
  unfold StationLive.amended
  split
  · exact ⟨by simp, by simp⟩
  · split
    · exact ⟨by simp, by simp⟩
    · constructor
      · ext i hi
        have a := congrArg (·.getLsbD i) armed
        simp at a ⊢
        grind
      · ext i hi
        have a := congrArg (·.getLsbD i) flags
        simp at a ⊢
        grind

theorem Kept.applyStation (s : State) (n : Fin 8) (new : StationSettings) : Kept s (s.applyStation n new) := by
  unfold State.applyStation
  extract_lets old settings x
  have written : Kept s x := by
    refine ⟨fun nested => attentionNested_iff.2 fun i => ?_, id, id⟩
    have was := attentionNested_iff.1 nested i
    simp only [x, put_get]
    split
    next same => subst same; exact amended_nested was
    · exact was
  exact (written.trans (Kept.noteChange ..)).trans (Kept.markIf ..)

/-- Entering a phase, by whatever transition (R7..R18). -/
theorem Kept.enter (s : State) (a : Fin 3) (st : Fin 8) (p : Phase) : Kept s (s.enter a st p) := by
  have phase (q : Perf) (r : Option Response) (n : Option DeliveryState) (act : q.act = s.perfs[a].act) :
      Kept s (s.enterPhase a q r n) := enterPhase s a q r n fun h => act ▸ h
  unfold State.enter
  cases p with
  | dark =>
    have perfs : (s.clearHolds a).perfs = s.perfs := (s.clearHolds_changes a).same .perfs (by decide)
    dsimp only
    unfold State.enterDark
    refine (clearHolds a s).trans (enterPhase _ a _ _ _ fun h => ?_)
    rw [perfs] at h
    exact h
  | prepare =>
    dsimp only
    unfold State.enterPrepare
    refine trans (enterPhase s a _ _ _ fun _ => ?_) (evalAllHolds ..)
    exact Nat.zero_le _
  | houseOpen =>
    dsimp only
    unfold State.enterHouseOpen
    refine phase _ _ _ ?_
    rfl
  | beginners =>
    dsimp only
    unfold State.enterBeginners
    refine phase _ _ _ ?_
    rfl
  | running =>
    dsimp only
    unfold State.enterRunning
    refine enterPhase s a _ _ _ fun h => ?_
    dsimp only
    split
    · exact Nat.le_refl _
    next below => omega
  | interval =>
    dsimp only
    unfold State.enterInterval
    refine phase _ _ _ ?_
    rfl
  | closing =>
    dsimp only
    unfold State.enterClosing
    refine phase _ _ _ ?_
    rfl
  | halted =>
    dsimp only
    exact halt s a

/-- One station's classes are written, nested within its mask. -/
theorem Kept.writeStation (s : State) (i : Fin 8) (x : StationLive)
    (h : StationNested s.settings.stations[i] s.stations[i] → StationNested s.settings.stations[i] x) :
    Kept s { s with stations := put s.stations i x } := by
  refine ⟨fun nested => attentionNested_iff.2 fun j => ?_, id, id⟩
  have was := attentionNested_iff.1 nested
  dsimp only
  rw [put_get]
  split
  next same => subst same; exact h (was j)
  · exact was j

theorem Kept.lookClears (s : State) (i : Fin 8) (k : Kind) : Kept s (s.lookClears i k) := by
  unfold State.lookClears
  dsimp only
  split
  · refine writeStation s i _ fun ⟨armed, flags⟩ => ⟨?_, ?_⟩
    · ext j hj
      have a := congrArg (·.getLsbD j) armed
      simp at a ⊢
      grind
    · ext j hj
      have a := congrArg (·.getLsbD j) flags
      simp at a ⊢
      grind
  · exact refl s

theorem Kept.arm (s : State) (i : Fin 8) : Kept s (s.arm i) := by
  unfold State.arm
  refine writeStation s i _ fun ⟨armed, flags⟩ => ⟨?_, flags⟩
  simp

theorem Kept.applyIron (s : State) (ch : Fin 3) (fs : List FieldVal) (new : IronSettings) (l : Bool) :
    Kept s (s.applyIron ch fs new l) := by
  rw [State.applyIron_settled]
  have acted := (Kept.settled s (x := s.settings.withIron ch new) (s.settings.irons[ch] != new) rfl).trans
    (Kept.actIron _ ch fs)
  dsimp only
  split
  · exact acted.trans (Kept.ironPresence ..)
  · exact acted

/-- Whatever is asked and however it is decided, the laws of flags, circuits and counters are kept. -/
theorem Decides.kept {code : ReqCode} {q : Ask} {s : State} {v : Verdict} (h : Decides code q s v) : Kept s v.2 := by
  have lights := Kept.lights s
  have here := Kept.refl s
  cases h with
  | stays => exact here
  | looks => exact Kept.lookClears ..
  | arms => exact Kept.arm ..
  | stores => exact Kept.beginStore s
  | restarts => exact Kept.softRestart ..
  | blocks => exact Kept.mark ..
  | enters => exact Kept.enter ..
  | amendsPerf aud =>
    obtain ⟨new, written⟩ := s.applyPerf_settled q aud
    rw [written]
    exact Kept.settled s _ rfl
  | amendsIron => exact Kept.applyIron ..
  | amendsZone a z new =>
    have noted : Kept s (s.settled (s.settings.withZone z new) (s.settings.zones[z] != new)) := .settled s _ rfl
    rw [State.applyZone_settled]
    exact (noted.trans (Kept.actZone ..)).trans (Kept.serveZone ..)
  | targets => exact Kept.beginFade ..
  | amendsGroup g =>
    obtain ⟨new, written⟩ := s.applyGroup_settled q g
    have noted : Kept s (s.settled (s.settings.withGroup g new) (s.settings.groups[g] != new)) := .settled s _ rfl
    rw [written]
    exact (noted.trans (Kept.groupAmended ..)).trans (Kept.announceLit _)
  | amendsCZone a z new =>
    have noted : Kept s (s.settled (s.settings.withCZone z new) (s.settings.czones[z] != new)) := .settled s _ rfl
    exact noted.trans (Kept.czoneAmended ..)
  | amendsCircuit a c =>
    have noted (x : CircuitSettings) (b : Bool) : Kept s (s.settled (s.settings.withCircuit c x) b) := .settled s _ rfl
    rw [State.applyCircuit_settled]
    exact ((noted ..).trans (Kept.serveCircuit ..)).trans (Kept.resetCircuit ..)
  | amendsStatus a new =>
    have noted : Kept s (s.settled { s.settings with part := new } (s.settings.part != new)) := .settled s _ rfl
    rw [State.applyStatus_settled]
    exact (noted.trans (Kept.serveBrigade ..)).trans (Kept.setLock ..)
  | amendsStation => exact Kept.applyStation ..
  | raisesHold => exact Kept.fillHold ..
  | retiresHold => exact Kept.emptyHold ..
  | widens => exact Kept.widenIncident ..
  | raisesIncident => exact Kept.raiseStationIncident ..
  | actsIncident => exact Kept.actIncident ..
  | retiresIncident => exact Kept.retireIncidentAt ..
  | raisesCall _ x b c room _ _ _ _ found => exact lights.fillCall c x (lights.roomForCall found here)
  | amendsCall => exact lights.amendCallAt _ _ _ here
  | retiresCall => exact lights.retireCallAt _ here

theorem Kept.ackRunsOut (s : State) (i : Fin 25) : Kept s (s.ackRunsOut i) := by
  unfold State.ackRunsOut
  split
  · exact refl s
  · split
    · exact (reach ..).trans (escalateIncident ..)
    · exact refl s

theorem Kept.investigationRunsOut (s : State) (i : Fin 25) : Kept s (s.investigationRunsOut i) := by
  unfold State.investigationRunsOut
  split
  · exact refl s
  · split
    · exact (reach ..).trans (escalateIncident ..)
    · exact refl s

/-- An event that the part takes. -/
theorem Kept.takes {s t : State} {f : State → State} (run : s.takes f = .next t) (h : Kept s (f s)) : Kept s t := by
  unfold State.takes at run
  obtain rfl := Host.Outcome.next.inj run
  split
  · exact h
  · exact .refl s

theorem event_kept {i : Instr} {s t : State} (run : exec i s = .next t) (event : requestOf i = none)
    (known : ∀ code kind r, i ≠ .unknownRequest code kind r) : Kept s t := by
  have lights := Kept.lights s
  have here := Kept.refl s
  cases i with
  | unknownRequest code kind r => exact absurd rfl (known code kind r)
  | frameError chars => cases run; exact Kept.frameJudged ..
  | frameDiscarded chars => cases run; exact Kept.frameDropped ..
  | frameGapTimeout chars => cases run; exact Kept.frameDropped ..
  | frameForOtherAddress chars => cases run; exact here
  | storeComplete => exact .takes run (.storeCompletes s)
  | encoderCount ch up => exact .takes run (.countEncoder s ch up)
  | indexEvent ch => exact .takes run (.indexSeen s ch)
  | limitInEvent ch => exact .takes run (.limitInMade s ch)
  | limitOutEvent ch => exact .takes run (.limitOutMade s ch)
  | localReleasePress ch => exact .takes run (.pressRelease s ch)
  | localReleaseLetGo ch => exact .takes run (.letGoRelease s ch)
  | descentSample ch => exact .takes run (.sample s ch)
  | stall ch => exact .takes run (.stallSample s ch)
  | tooSlow ch => exact .takes run (.slowSample s ch)
  | raiseTimeout ch => exact .takes run (.raiseTimesOut s ch)
  | bandEvent z b => exact .takes run (.bandChanges s z b)
  | confirmTimerExpiry z =>
    simp only [exec, execConfirmTimerExpiry] at run
    split at run
    · exact .confirms run
    · cases run; exact here
  | quietTimerExpiry z => exact .takes run (.quietRuns s z)
  | loopTimerExpiry z => exact .takes run (.loopRuns s z)
  | acknowledgeTimerExpiry i => exact .takes run (.ackRunsOut s i)
  | investigationTimerExpiry i => exact .takes run (.investigationRunsOut s i)
  | fadeStep => exact .takes run (.fadeEngineStep s)
  | fadeComplete g => exact .takes run (.fadeEnds s g)
  | notBeforeDue c z => exact .takes run (lights.notBeforePasses c z here)
  | strokeOnElapsed z => exact .takes run (lights.strokeOnRuns z here)
  | strokeGapElapsed z => exact .takes run (lights.strokeGapRuns z here)
  | burstEnd z => exact .takes run (lights.burstRuns z here)
  | patternPartEnd c => exact .takes run (.patternRuns s c)
  | testTimerExpiry c seen => exact .takes run (.testRuns s c seen)
  | overloadEvent c => exact .takes run (.overloads s c)
  | retryTimerExpiry c => exact .takes run (.retryRuns s c)
  | cleanTimerExpiry c => exact .takes run (.cleanRuns s c)
  | offTimerExpiry c => exact .takes run (.offRuns s c)
  | mainsSenseChange on => exact .takes run (.mainsLine s on)
  | lossTimerExpiry => exact .takes run (.lossRuns s)
  | settlingTimerExpiry => exact .takes run (.settlingRuns s)
  | supplyLowLineChange on => exact .takes run (.supplyLine s on)
  | safetySupplyTimerExpiry => exact .takes run (.safetyRuns s)
  | cellSenseChange good => exact .takes run (.cellLine s good)
  | cellTimerExpiry => exact .takes run (.cellRuns s)
  | coldStart p =>
    obtain rfl : s.start p false = t := Host.Outcome.next.inj run
    exact .start ..
  | resetPin p => exact .takes run (.start s p true)
  | powerFail => exact .takes run ⟨id, id, id⟩
  | replyEnd => exact .takes run ⟨id, id, id⟩
  | _ => cases event

/-- A command keeps the laws of flags, circuits and counters. -/
theorem exec_kept {i : Instr} {s t : State} (run : exec i s = .next t) : Kept s t :=
  exec_keeps (P := Kept s) (fun u h => h.trans (.frameGood u)) (fun u h => h.trans (.frameFails u))
    (fun u n b a h => h.trans (.reply u n b a)) (fun _ _ _ _ h decided => h.trans decided.kept)
    (fun event known _ => event_kept run event known) (.refl s) run

/-- A step keeps the laws of flags, circuits and counters. -/
theorem step_kept {s t : State} (run : step s = .next t) : Kept s t :=
  step_keeps (P := Kept s) (fun u n h => h.trans ⟨id, id, id⟩) (fun u rest h => h.trans ⟨id, id, id⟩)
    (fun i u w h ran => h.trans (exec_kept ran)) (.refl s) run

/-- Settles O3. -/
theorem attentionStaysNested : Obligations.AttentionStaysNested := by
  unfold Obligations.AttentionStaysNested
  exact fun s t h run => (step_kept run).nested h

/-- Settles O5. -/
theorem drivesStayLawful : Obligations.DrivesStayLawful := by
  unfold Obligations.DrivesStayLawful
  exact fun s t h run => (step_kept run).drives h

/-- Settles O6. -/
theorem countersStayBounded : Obligations.CountersStayBounded := by
  unfold Obligations.CountersStayBounded
  exact fun s t h run => (step_kept run).counters h

end Sys2Proof.Machine
end

section
/-!
PROOFS. The hold list (R20..R28): what raising, removing and evaluating a hold does, when the condition of an automatic
hold is true, and when the list stays lawful.
-/

namespace Sys2Proof.Machine

/-! ## Raising and removing one hold (R20) -/

section

variable (s : State) (a b : Fin 3) (k j : Fin 8) (x : Hold)

theorem State.fillHold_slot : (s.fillHold a k x).holds[a][k] = ⟨nextIssue s.holds[a][k].issue, some x⟩ := by
  change (put s.holds a (put s.holds[a] k _))[a][k] = _
  rw [put_same, put_same]

theorem State.emptyHold_slot : (s.emptyHold a k).holds[a][k] = ⟨s.holds[a][k].issue, none⟩ := by
  change (put s.holds a (put s.holds[a] k _))[a][k] = _
  rw [put_same, put_same]

theorem State.fillHold_onlyAt : OnlyAt a s.holds (s.fillHold a k x).holds ∧
    OnlyAt k s.holds[a] (s.fillHold a k x).holds[a] ∧ OnlyAt a s.holdLists (s.fillHold a k x).holdLists := by
  refine ⟨put_onlyAt _ _ _, ?_, put_onlyAt _ _ _⟩
  change OnlyAt k s.holds[a] (put s.holds a (put s.holds[a] k _))[a]
  rw [put_same]
  exact put_onlyAt _ _ _

theorem State.emptyHold_onlyAt : OnlyAt a s.holds (s.emptyHold a k).holds ∧
    OnlyAt k s.holds[a] (s.emptyHold a k).holds[a] ∧ OnlyAt a s.holdLists (s.emptyHold a k).holdLists := by
  refine ⟨put_onlyAt _ _ _, ?_, put_onlyAt _ _ _⟩
  change OnlyAt k s.holds[a] (put s.holds a (put s.holds[a] k _))[a]
  rw [put_same]
  exact put_onlyAt _ _ _

theorem State.fillHold_list : (s.fillHold a k x).holdLists[a] = s.holdLists[a].erase k ++ [k] := put_same ..

theorem State.emptyHold_list : (s.emptyHold a k).holdLists[a] = s.holdLists[a].erase k := put_same ..

theorem State.fillHold_hold? :
    (s.fillHold a k x).hold? b j = if b = a ∧ j = k then some x else s.hold? b j := by
  obtain ⟨others, slots, -⟩ := s.fillHold_onlyAt a k x
  unfold State.hold?
  split
  next same =>
    obtain ⟨rfl, rfl⟩ := same
    rw [State.fillHold_slot]
  next other =>
    by_cases e : b = a
    · subst e; rw [slots j fun same => other ⟨rfl, same⟩]
    · rw [others b e]

theorem State.emptyHold_hold? :
    (s.emptyHold a k).hold? b j = if b = a ∧ j = k then none else s.hold? b j := by
  obtain ⟨others, slots, -⟩ := s.emptyHold_onlyAt a k
  unfold State.hold?
  split
  next same =>
    obtain ⟨rfl, rfl⟩ := same
    rw [State.emptyHold_slot]
  next other =>
    by_cases e : b = a
    · subst e; rw [slots j fun same => other ⟨rfl, same⟩]
    · rw [others b e]

end

/-! ## Evaluating an automatic hold (R23) -/

/-- Outside DARK an evaluation raises, removes or leaves the hold of its cause; in DARK it leaves it. -/
theorem State.evalHold_cases (c : HoldCause) (a : Fin 3) (s : State) :
    (s.evalHold c a = s ∧ (s.phase a = .dark ∨ (s.holdReason a c).isSome = (s.hold? a (holdSlot c)).isSome)) ∨
    (s.phase a ≠ .dark ∧ ∃ why, s.holdReason a c = some why ∧ s.hold? a (holdSlot c) = none ∧
      s.evalHold c a = s.fillHold a (holdSlot c) { origin := none, cause := c, reason := why }) ∨
    (s.phase a ≠ .dark ∧ s.holdReason a c = none ∧ (s.hold? a (holdSlot c)).isSome = true ∧
      s.evalHold c a = s.emptyHold a (holdSlot c)) := by
  by_cases dark : s.phase a = .dark
  · exact .inl ⟨by rw [State.evalHold, if_pos dark], .inl dark⟩
  unfold State.evalHold
  rw [if_neg dark]
  cases reason : s.holdReason a c with
  | some why =>
    cases stands : s.hold? a (holdSlot c) with
    | some h => exact .inl ⟨rfl, .inr rfl⟩
    | none => exact .inr (.inl ⟨dark, why, rfl, rfl, rfl⟩)
  | none =>
    cases stands : s.hold? a (holdSlot c) with
    | some h => exact .inr (.inr ⟨dark, rfl, rfl, rfl⟩)
    | none => exact .inl ⟨rfl, .inr rfl⟩

/-- Settles O35. -/
theorem automaticHoldEvaluated : Obligations.AutomaticHoldEvaluated := by
  unfold Obligations.AutomaticHoldEvaluated
  rintro c a s t rfl
  have keeps {n : Nat} {α : Type} (i : Fin n) (v : Vector α n) : OnlyAt i v v := fun _ _ => rfl
  refine ⟨State.evalHold_changes .., ?_⟩
  obtain ⟨still, dark | same⟩ | ⟨light, why, reason, absent, raised⟩ | ⟨light, reason, stands, removed⟩ :=
    State.evalHold_cases c a s
  · rw [still]
    exact ⟨keeps _ _, keeps _ _, keeps _ _, fun _ => rfl, fun light => absurd dark light, fun light => absurd dark light⟩
  · rw [still]
    refine ⟨keeps _ _, keeps _ _, keeps _ _, fun _ => rfl, fun _ why reason => ⟨fun _ _ => rfl, fun absent => ?_⟩,
      fun _ reason => ⟨fun _ => rfl, fun h stands => ?_⟩⟩
    · rw [reason, absent] at same; cases same
    · rw [reason, stands] at same; cases same
  · rw [raised]
    obtain ⟨holds, slots, lists⟩ := s.fillHold_onlyAt a (holdSlot c) { origin := none, cause := c, reason := why }
    refine ⟨holds, lists, slots, fun dark => absurd dark light, fun _ why' reason' => ⟨fun h stands => ?_, fun _ => ?_⟩,
      fun _ none' => ?_⟩
    · rw [absent] at stands; cases stands
    · obtain rfl : why = why' := Option.some.inj (reason.symm.trans reason')
      refine ⟨State.fillHold_slot .., fun fresh => ?_⟩
      rw [State.fillHold_list, List.erase_of_not_mem fresh]
    · rw [reason] at none'; cases none'
  · rw [removed]
    obtain ⟨holds, slots, lists⟩ := s.emptyHold_onlyAt a (holdSlot c)
    refine ⟨holds, lists, slots, fun dark => absurd dark light, fun _ why reason' => ?_,
      fun _ _ => ⟨fun absent => ?_, fun h _ => ⟨State.emptyHold_slot .., State.emptyHold_list ..⟩⟩⟩
    · rw [reason] at reason'; cases reason'
    · rw [absent] at stands; cases stands

/-- An evaluation changes no slot but that of its cause in its performance. -/
theorem State.evalHold_hold?_other (c : HoldCause) (a b : Fin 3) (k : Fin 8) (s : State) (h : b ≠ a ∨ k ≠ holdSlot c) :
    (s.evalHold c a).hold? b k = s.hold? b k := by
  have other : ¬(b = a ∧ k = holdSlot c) := fun ⟨e, e'⟩ => h.elim (fun n => n e) fun n => n e'
  obtain ⟨still, -⟩ | ⟨-, why, -, -, raised⟩ | ⟨-, -, -, removed⟩ := State.evalHold_cases c a s
  · rw [still]
  · rw [raised, State.fillHold_hold?, if_neg other]
  · rw [removed, State.emptyHold_hold?, if_neg other]

theorem State.evalHold_phase (c : HoldCause) (a b : Fin 3) (s : State) : (s.evalHold c a).phase b = s.phase b := by
  have perfs : (s.evalHold c a).perfs = s.perfs := (s.evalHold_changes c a).same .perfs (by decide)
  simp only [State.phase, perfs]

/-! ## The conditions of the automatic holds (R24..R27) -/

theorem State.holdReason_iron (s : State) (a : Fin 3) : (s.holdReason a .iron).isSome =
    ((s.settings.irons[a].present && s.irons[a].fault.isSome) || unproved s.perfs[a].ironProved) := by
  unfold State.holdReason
  cases s.settings.irons[a].present <;> cases s.irons[a].fault <;> cases unproved s.perfs[a].ironProved <;> rfl

theorem State.holdReason_fire (s : State) (a : Fin 3) :
    (s.holdReason a .fire).isSome = s.openIncidents.any fun x => has x.auds a := by
  unfold State.holdReason State.fireReason
  dsimp only
  rw [Option.isSome_map, Bool.eq_iff_iff, List.find?_isSome, List.any_eq_true]

theorem State.holdReason_supply (s : State) (a : Fin 3) :
    (s.holdReason a .supply).isSome = (s.supply.mains != .present || s.supply.safetyLow) := by
  unfold State.holdReason
  dsimp only
  cases s.supply.mains != .present <;> cases s.supply.safetyLow <;> rfl

theorem firstIx_isSome {n : Nat} (p : Fin n → Bool) : (firstIx n p).isSome = someIx n p := by
  rw [firstIx, someIx, Bool.eq_iff_iff, List.find?_isSome, List.any_eq_true]

theorem State.holdReason_system (s : State) (a : Fin 3) : (s.holdReason a .system).isSome =
    (someIx 24 (s.zoneHolds a) || someIx 16 (s.circuitHolds a) || s.link.degraded) := by
  rw [← firstIx_isSome, ← firstIx_isSome]
  unfold State.holdReason State.systemReason
  dsimp only
  cases firstIx 24 (s.zoneHolds a) with
  | some z => rfl
  | none =>
    cases firstIx 16 (s.circuitHolds a) with
    | some c => rfl
    | none => cases s.link.degraded <;> rfl

/-- The automatic causes, in slot order. -/
def HoldCause.automatic (c : HoldCause) : Prop := c ∈ [HoldCause.iron, .fire, .supply, .system]

theorem HoldCause.automatic_iron : HoldCause.iron.automatic := by simp [HoldCause.automatic]
theorem HoldCause.automatic_fire : HoldCause.fire.automatic := by simp [HoldCause.automatic]
theorem HoldCause.automatic_supply : HoldCause.supply.automatic := by simp [HoldCause.automatic]
theorem HoldCause.automatic_system : HoldCause.system.automatic := by simp [HoldCause.automatic]

theorem HoldCause.automatic_iff {c : HoldCause} : c.automatic ↔ c ≠ .station := by
  cases c <;> simp [HoldCause.automatic]

theorem holdSlot_inj {c d : HoldCause} (h : holdSlot c = holdSlot d) : c = d := by
  revert h
  cases c <;> cases d <;> decide

theorem holdSlot_automatic {c : HoldCause} (h : c.automatic) : 4 ≤ (holdSlot c).1 := by
  cases c with
  | station => simp [HoldCause.automatic] at h
  | _ => decide

/-! ## Lawful lists -/

/-- The list of performance `a` names its filled slots once each, station holds in 1..4 and automatic ones in 5..8
(R20). -/
def HoldListLawful (s : State) (a : Fin 3) : Prop :=
  s.holdLists[a].Nodup ∧ ∀ k : Fin 8, (s.hold? a k).isSome = s.holdLists[a].contains k ∧
    (s.hold? a k).all (fun h => h.origin.isNone == decide (4 ≤ k.1)) = true

/-- The hold of cause `c` stands in performance `a`, out of DARK, exactly while its condition is true (R23). -/
def HoldDue (c : HoldCause) (a : Fin 3) (s : State) : Prop :=
  s.phase a ≠ .dark → (s.hold? a (holdSlot c)).isSome = (s.holdReason a c).isSome

/-- The lists are lawful, DARK performances have none, and the holds that `ok` names are due. -/
structure HoldsLawfulFor (ok : HoldCause → Fin 3 → Prop) (s : State) : Prop where
  lists : ∀ a, HoldListLawful s a
  dark : ∀ a, s.phase a = .dark → s.holdLists[a] = []
  due : ∀ c a, c.automatic → ok c a → HoldDue c a s

theorem holdsLawful_iff {s : State} : HoldsLawful s ↔ HoldsLawfulFor (fun _ _ => True) s := by
  constructor
  · intro h
    refine ⟨fun a => ?_, fun a dark => ?_, fun c a auto _ light => ?_⟩
    · obtain ⟨once, slots, -⟩ := h a
      exact ⟨once, slots⟩
    · obtain ⟨-, -, empty, -⟩ := h a
      exact empty dark
    · obtain ⟨-, -, -, due⟩ := h a
      exact due light c auto
  · rintro ⟨lists, dark, due⟩ a
    exact ⟨(lists a).1, (lists a).2, dark a, fun light c auto => due c a auto trivial light⟩

/-- Filling an empty slot of the right half keeps a list lawful (R20, R21). -/
theorem HoldListLawful.fill {s : State} {a b : Fin 3} {k : Fin 8} {x : Hold} (h : HoldListLawful s b)
    (empty : s.hold? a k = none) (half : x.origin.isNone = decide (4 ≤ k.1)) : HoldListLawful (s.fillHold a k x) b := by
  obtain ⟨-, -, lists⟩ := s.fillHold_onlyAt a k x
  by_cases e : b = a
  · subst e
    obtain ⟨once, slots⟩ := h
    have fresh : k ∉ s.holdLists[b] := fun mem => by
      have filled := (slots k).1
      rw [empty, List.contains_iff_mem.2 mem] at filled
      cases filled
    unfold HoldListLawful
    rw [State.fillHold_list, List.erase_of_not_mem fresh]
    refine ⟨?_, fun j => ?_⟩
    · rw [List.nodup_append]
      exact ⟨once, by simp, fun u hu v hv e => fresh (by rw [List.mem_singleton.1 hv] at e; exact e ▸ hu)⟩
    · rw [State.fillHold_hold?]
      by_cases same : j = k
      · subst same
        simp [half]
      · rw [if_neg fun both => same both.2]
        simpa [same] using slots j
  · unfold HoldListLawful
    rw [lists b e]
    refine ⟨h.1, fun j => ?_⟩
    rw [State.fillHold_hold?, if_neg fun both => e both.1]
    exact h.2 j

/-- Emptying a slot keeps a list lawful (R20). -/
theorem HoldListLawful.empty {s : State} {a b : Fin 3} (k : Fin 8) (h : HoldListLawful s b) :
    HoldListLawful (s.emptyHold a k) b := by
  obtain ⟨-, -, lists⟩ := s.emptyHold_onlyAt a k
  by_cases e : b = a
  · subst e
    obtain ⟨once, slots⟩ := h
    unfold HoldListLawful
    rw [State.emptyHold_list]
    refine ⟨once.erase k, fun j => ?_⟩
    rw [State.emptyHold_hold?]
    by_cases same : j = k
    · subst same
      have gone : ¬j ∈ s.holdLists[b].erase j := fun mem => absurd rfl (once.mem_erase_iff.1 mem).1
      rw [if_pos ⟨rfl, rfl⟩]
      exact ⟨(Bool.eq_false_iff.2 fun mem => gone (List.contains_iff_mem.1 mem)).symm, rfl⟩
    · rw [if_neg fun both => same both.2]
      simpa [once.mem_erase_iff, same] using slots j
  · unfold HoldListLawful
    rw [lists b e]
    refine ⟨h.1, fun j => ?_⟩
    rw [State.emptyHold_hold?, if_neg fun both => e both.1]
    exact h.2 j

/-- The parts that the condition of a cause is read from (R24..R27). -/
def reasonParts : HoldCause → List Part
  | .station => []
  | .iron => [.settings, .irons, .perfs]
  | .fire => [.incidents]
  | .supply => [.supply]
  | .system => [.settings, .zones, .circuits, .link]

/-- A condition stands while the parts it is read from do. -/
theorem ChangesOnly.holdReason_of {ps : List Part} {s t : State} (h : ChangesOnly ps s t) (a : Fin 3) {c : HoldCause}
    (out : ∀ p ∈ reasonParts c, ps.contains p = false) : t.holdReason a c = s.holdReason a c := by
  have same (p : Part) (mem : p ∈ reasonParts c) : p.same s t := h.same p (by simpa using out p mem)
  cases c with
  | station => rfl
  | iron =>
    have settings : t.settings = s.settings := same .settings (by decide)
    have irons : t.irons = s.irons := same .irons (by decide)
    have perfs : t.perfs = s.perfs := same .perfs (by decide)
    simp only [State.holdReason, settings, irons, perfs]
  | fire =>
    obtain ⟨incidents, list⟩ : t.incidents = s.incidents ∧ t.incidentList = s.incidentList :=
      same .incidents (by decide)
    simp only [State.holdReason, State.fireReason, State.openIncidents, incidents, list]
  | supply =>
    have supply : t.supply = s.supply := same .supply (by decide)
    simp only [State.holdReason, supply]
  | system =>
    have settings : t.settings = s.settings := same .settings (by decide)
    have zones : t.zones = s.zones := same .zones (by decide)
    have circuits : t.circuits = s.circuits := same .circuits (by decide)
    have link : t.link = s.link := same .link (by decide)
    have zoneHolds : t.zoneHolds a = s.zoneHolds a := by funext z; simp only [State.zoneHolds, settings, zones]
    have circuitHolds : t.circuitHolds a = s.circuitHolds a := by
      funext i; simp only [State.circuitHolds, settings, circuits]
    simp only [State.holdReason, State.systemReason, zoneHolds, circuitHolds, link]

/-- The conditions of the automatic holds are read outside the hold lists. -/
theorem ChangesOnly.holdReason {s t : State} (h : ChangesOnly [.holds, .stations] s t) (a : Fin 3) (c : HoldCause) :
    t.holdReason a c = s.holdReason a c := h.holdReason_of a (by cases c <;> decide)

theorem State.evalHold_stands (c : HoldCause) (a : Fin 3) (s : State) (light : s.phase a ≠ .dark) :
    ((s.evalHold c a).hold? a (holdSlot c)).isSome = (s.holdReason a c).isSome := by
  obtain ⟨still, dark | same⟩ | ⟨-, why, reason, -, raised⟩ | ⟨-, reason, -, removed⟩ := State.evalHold_cases c a s
  · exact absurd dark light
  · rw [still, same]
  · rw [raised, State.fillHold_hold?, if_pos ⟨rfl, rfl⟩, reason]
    rfl
  · rw [removed, State.emptyHold_hold?, if_pos ⟨rfl, rfl⟩, reason]
    rfl

/-- Evaluating a hold makes it due, and leaves the others as they were. -/
theorem HoldsLawfulFor.evalHold {ok : HoldCause → Fin 3 → Prop} {s : State} {c : HoldCause} {a : Fin 3}
    (h : HoldsLawfulFor (fun d b => ok d b ∧ ¬(b = a ∧ d = c)) s) (auto : c.automatic) :
    HoldsLawfulFor ok (s.evalHold c a) := by
  have phase := s.evalHold_phase c a
  have reason := (s.evalHold_changes c a).holdReason
  have due : ∀ d b, d.automatic → ok d b → HoldDue d b (s.evalHold c a) := by
    intro d b auto' mem light
    rw [phase] at light
    rw [reason]
    by_cases same : b = a ∧ d = c
    · obtain ⟨rfl, rfl⟩ := same
      exact State.evalHold_stands d b s light
    · rw [State.evalHold_hold?_other]
      · exact h.due d b auto' ⟨mem, same⟩ light
      · by_cases e : b = a
        · exact .inr fun slot => same ⟨e, holdSlot_inj slot⟩
        · exact .inl e
  obtain ⟨still, -⟩ | ⟨light, why, -, absent, raised⟩ | ⟨light, -, -, removed⟩ := State.evalHold_cases c a s
  · refine ⟨fun b => ?_, fun b => ?_, due⟩
    · rw [still]; exact h.lists b
    · rw [still]; exact h.dark b
  · refine ⟨fun b => ?_, fun b dark => ?_, due⟩
    · rw [raised]
      refine (h.lists b).fill absent ?_
      rw [decide_eq_true (holdSlot_automatic auto)]
      rfl
    · rw [phase] at dark
      rw [raised, (s.fillHold_onlyAt a _ _).2.2 b fun e => light (e ▸ dark)]
      exact h.dark b dark
  · refine ⟨fun b => ?_, fun b dark => ?_, due⟩
    · rw [removed]
      exact (h.lists b).empty _
    · rw [phase] at dark
      rw [removed, (s.emptyHold_onlyAt a _).2.2 b fun e => light (e ▸ dark)]
      exact h.dark b dark

theorem HoldsLawfulFor.mono {ok ok' : HoldCause → Fin 3 → Prop} {s : State} (h : HoldsLawfulFor ok s)
    (sub : ∀ c a, ok' c a → ok c a) : HoldsLawfulFor ok' s :=
  ⟨h.lists, h.dark, fun c a auto mem => h.due c a auto (sub c a mem)⟩

/-- After an announcement the holds of its cause are due, whatever they were. -/
theorem State.evalHolds_due (c : HoldCause) (s : State) (a : Fin 3) : HoldDue c a (s.evalHolds c) := by
  intro light
  have turned : (s.evalHolds c).phase a ≠ .dark →
      ((s.evalHolds c).hold? a (holdSlot c)).isSome = (s.holdReason a c).isSome := by
    refine forAll_turn (P := fun t => ∀ b d, t.holdReason b d = s.holdReason b d)
      (Q := fun t => t.phase a ≠ .dark → (t.hold? a (holdSlot c)).isSome = (s.holdReason a c).isSome) a ?_ ?_ ?_ s
      fun _ _ => rfl
    · intro i t _ same b d
      rw [(t.evalHold_changes c i).holdReason]
      exact same b d
    · intro t same light
      rw [State.evalHold_phase] at light
      rw [State.evalHold_stands c a t light, same]
    · intro i t other stands light
      rw [State.evalHold_phase] at light
      rw [State.evalHold_hold?_other c i a _ t (.inl other.symm)]
      exact stands light
  rw [(State.evalHolds_changes ..).holdReason]
  exact turned light

/-- An announcement makes the holds of its cause due, and leaves the others as they were (R23). -/
theorem HoldsLawfulFor.evalHolds {ok : HoldCause → Fin 3 → Prop} {s : State} {c : HoldCause}
    (h : HoldsLawfulFor (fun d b => ok d b ∧ d ≠ c) s) (auto : c.automatic) : HoldsLawfulFor ok (s.evalHolds c) := by
  have kept : HoldsLawfulFor (fun d b => ok d b ∧ d ≠ c) (s.evalHolds c) :=
    forAll_keeps _ _ (fun a t h => HoldsLawfulFor.evalHold (h.mono fun _ _ => And.left) auto) s h
  refine ⟨kept.lists, kept.dark, fun d a auto' mem => ?_⟩
  by_cases e : d = c
  · subst e; exact State.evalHolds_due d s a
  · exact kept.due d a auto' ⟨mem, e⟩

/-- Evaluating one more hold of performance `a`, beside those of the causes in `done`. -/
theorem HoldsLawfulFor.evalNext {ok : HoldCause → Fin 3 → Prop} {s : State} {a : Fin 3} {done : List HoldCause}
    {c : HoldCause} (h : HoldsLawfulFor (fun d b => ok d b ∧ (b = a → d ∈ done)) s) (auto : c.automatic) :
    HoldsLawfulFor (fun d b => ok d b ∧ (b = a → d ∈ c :: done)) (s.evalHold c a) := by
  refine HoldsLawfulFor.evalHold (h.mono ?_) auto
  rintro d b ⟨⟨mem, listed⟩, other⟩
  exact ⟨mem, fun e => (List.mem_cons.1 (listed e)).resolve_left fun same => other ⟨e, same⟩⟩

/-- Evaluating the four automatic holds of a performance makes them all due (R7, R29). -/
theorem HoldsLawfulFor.evalAllHolds {ok : HoldCause → Fin 3 → Prop} {s : State} {a : Fin 3}
    (h : HoldsLawfulFor (fun d b => ok d b ∧ b ≠ a) s) : HoldsLawfulFor ok (s.evalAllHolds a) := by
  have none : HoldsLawfulFor (fun d b => ok d b ∧ (b = a → d ∈ ([] : List HoldCause))) s :=
    h.mono fun _ _ ⟨mem, listed⟩ => ⟨mem, fun e => List.not_mem_nil (listed e)⟩
  have all := (((none.evalNext HoldCause.automatic_iron).evalNext HoldCause.automatic_fire).evalNext
    HoldCause.automatic_supply).evalNext HoldCause.automatic_system
  refine ⟨all.lists, all.dark, fun c b auto mem => all.due c b auto ⟨mem, fun _ => ?_⟩⟩
  cases c with
  | station => simp [HoldCause.automatic] at auto
  | _ => decide

/-- What leaves the holds, which performances are DARK, and the conditions that `ok'` names. -/
theorem HoldsLawfulFor.keep {ok ok' : HoldCause → Fin 3 → Prop} {s t : State} (h : HoldsLawfulFor ok s)
    (holds : t.holds = s.holds ∧ t.holdLists = s.holdLists) (dark : ∀ a, t.phase a = .dark ↔ s.phase a = .dark)
    (sub : ∀ c a, ok' c a → ok c a)
    (reasons : ∀ c a, c.automatic → ok' c a → (t.holdReason a c).isSome = (s.holdReason a c).isSome) :
    HoldsLawfulFor ok' t := by
  have hold? : ∀ a k, t.hold? a k = s.hold? a k := fun a k => by simp only [State.hold?, holds.1]
  refine ⟨fun a => ?_, fun a d => ?_, fun c a auto mem light => ?_⟩
  · unfold HoldListLawful
    simp only [hold?, holds.2]
    exact h.lists a
  · rw [holds.2]
    exact h.dark a ((dark a).1 d)
  · rw [hold?, reasons c a auto mem]
    exact h.due c a auto (sub c a mem) fun d => light ((dark a).2 d)

end Sys2Proof.Machine
end

section
/-!
PROOFS. The lighting unit (R109..R125): how force causes, outputs and lit states are derived, and what bursts, silences
and announcements of lit states leave of the groups and of the circuits.
-/

namespace Sys2Proof.Machine

/-! ## What is derived of a group, and from what (R113..R115, R123) -/

theorem ChangesOnly.generalSet {ps : List Part} {s t : State} (h : ChangesOnly ps s t)
    (out : ps.contains .incidents = false := by rfl) : t.generalSet = s.generalSet := by
  obtain ⟨slots, order⟩ : t.incidents = s.incidents ∧ t.incidentList = s.incidentList :=
    h.same .incidents (by simpa using out)
  simp only [State.generalSet, State.openIncidents, slots, order]

/-- The force causes are derived from the settings, the GENERAL incidents, mains, and of each performance from DARK and
interrupted (R115). -/
theorem State.causesOf_congr {s t : State} (settings : t.settings = s.settings) (general : t.generalSet = s.generalSet)
    (mains : t.supply.mains = s.supply.mains) (dark : ∀ a, (t.phase a != .dark) = (s.phase a != .dark))
    (interrupted : ∀ a : Fin 3, t.perfs[a].interrupted = s.perfs[a].interrupted) (g : Fin 12) :
    t.causesOf g = s.causesOf g := by
  simp only [State.causesOf, State.groupServes, settings, general, mains, dark, interrupted]

/-- A group's output is derived from the settings, the flicker of its call zone, and of each performance from DARK
(R113, R123). -/
theorem State.relit_congr {s t : State} {g : Fin 12} (settings : t.settings = s.settings)
    (dark : ∀ a, (t.phase a != .dark) = (s.phase a != .dark))
    (flicker : s.settings.groups[g].kind = .foyer →
      t.flickers[s.settings.groups[g].callZone] = s.flickers[s.settings.groups[g].callZone]) (x : LightGroup) :
    t.relit g x = s.relit g x := by
  have driven : t.drivenOf g x = s.drivenOf g x := by
    simp only [State.drivenOf, settings, dark]
    cases kind : s.settings.groups[g].kind with
    | house => rfl
    | foyer => simp only [flicker kind]
    | aisle => rfl
  have follows : t.flickerFollows g x = s.flickerFollows g x := by
    simp only [State.flickerFollows, settings]
    by_cases kind : s.settings.groups[g].kind = .foyer
    · simp only [flicker kind]
    · simp only [beq_eq_false_iff_ne.2 kind, Bool.false_and]
  unfold State.relit
  rw [driven, follows, settings]

theorem State.relit_relit (s : State) (g : Fin 12) (x : LightGroup) : s.relit g (s.relit g x) = s.relit g x := rfl

/-- A present group shows its output, and an absent one is dark (R105, R113). -/
def State.shown (s : State) (g : Fin 12) : Prop :=
  if s.settings.groups[g].present = true then s.groups[g] = s.relit g s.groups[g] else s.groups[g] = LightGroup.dark

theorem eq_relit_iff {s : State} {g : Fin 12} {x : LightGroup} : x = s.relit g x ↔
    x.driven = s.drivenOf g x ∧ x.drive = driveOf s.settings.groups[g].law x.driven ∧
      x.flickerActive = s.flickerFollows g x := by
  constructor
  · intro h
    have driven : x.driven = s.drivenOf g x := congrArg LightGroup.driven h
    refine ⟨driven, ?_, congrArg LightGroup.flickerActive h⟩
    rw [driven]
    exact congrArg LightGroup.drive h
  · rintro ⟨driven, drive, flicker⟩
    unfold State.relit
    dsimp only
    rw [← driven, ← drive, ← flicker]

theorem outputsDerived_iff {s : State} : OutputsDerived s ↔ ∀ g, s.shown g := by
  refine forall_congr' fun g => ?_
  unfold State.shown
  split
  next present => rw [eq_relit_iff, present]; simp
  next absent =>
    have absent : s.settings.groups[g].present = false := by simpa using absent
    rw [absent]
    simp

/-- The output of a group is shown where its record and what it is derived from are as they were. -/
theorem State.shown_congr {s t : State} {g : Fin 12} (h : s.shown g) (settings : t.settings = s.settings)
    (dark : ∀ a, (t.phase a != .dark) = (s.phase a != .dark))
    (flicker : s.settings.groups[g].present = true → s.settings.groups[g].kind = .foyer →
      t.flickers[s.settings.groups[g].callZone] = s.flickers[s.settings.groups[g].callZone])
    (group : t.groups[g] = s.groups[g]) : t.shown g := by
  unfold State.shown at *
  rw [settings, group]
  split at h
  next present =>
    rw [if_pos present, State.relit_congr settings dark (flicker present)]
    exact h
  next absent =>
    rw [if_neg absent]
    exact h

theorem OutputsDerived.keep {ps : List Part} {s t : State} (h : OutputsDerived s) (frame : ChangesOnly ps s t)
    (out : ps.all (fun p => !([.settings, .perfs, .flickers, .groups] : List Part).contains p) = true := by rfl) :
    OutputsDerived t := by
  have same (p : Part) (mem : p ∈ ([.settings, .perfs, .flickers, .groups] : List Part)) : p.same s t :=
    frame.same p fun inside => by
      have := List.all_eq_true.1 out p inside
      simp only [Bool.not_eq_true', List.contains_eq_mem, decide_eq_false_iff_not] at this
      exact this mem
  have settings : t.settings = s.settings := same .settings (by simp)
  have perfs : t.perfs = s.perfs := same .perfs (by simp)
  have flickers : t.flickers = s.flickers := same .flickers (by simp)
  have groups : t.groups = s.groups := same .groups (by simp)
  refine outputsDerived_iff.2 fun g => State.shown_congr (outputsDerived_iff.1 h g) settings (fun a => ?_) (fun _ _ => ?_) ?_
  · simp only [State.phase, perfs]
  · rw [flickers]
  · rw [groups]

/-! ## Turns over the twelve groups -/

/-- Twelve turns, each of which writes its own group from what is outside the groups and from its own record. -/
theorem forAll_groups {f : Fin 12 → State → State} {v : Fin 12 → LightGroup} {s : State}
    (frame : ∀ i t, ChangesOnly [.groups, .stations] t (f i t))
    (other : ∀ (i : Fin 12) (t : State) (g : Fin 12), g ≠ i → (f i t).groups[g] = t.groups[g])
    (turn : ∀ (i : Fin 12) (t : State), ChangesOnly [.groups, .stations] s t → t.groups[i] = s.groups[i] →
      (f i t).groups[i] = v i) (g : Fin 12) : (forAll 12 f s).groups[g] = v g := by
  refine forAll_turn (P := fun t => ChangesOnly [.groups, .stations] s t ∧ t.groups[g] = s.groups[g])
    (Q := fun t => t.groups[g] = v g) g (fun i t ne ⟨h, same⟩ => ⟨h.andThen (frame i t), ?_⟩)
    (fun t ⟨h, same⟩ => turn g t h same) (fun i t ne same => ?_) s ⟨.refl _ s, rfl⟩
  · rw [other i t g ne.symm, same]
  · rw [other i t g ne.symm, same]

theorem State.writeGroup_group (s : State) (g i : Fin 12) (x : LightGroup) :
    (s.writeGroup g x).groups[i] = if i = g then x else s.groups[i] := by
  rw [State.writeGroup_groups, put_get]

/-- A group as its force causes and its output are derived (R113, R115). -/
def State.refreshed (s : State) (g : Fin 12) : LightGroup :=
  if s.settings.groups[g].present then
    s.relit g (s.groups[g].force (s.causesOf g) s.settings.groups[g].restoreFade)
  else s.groups[g]

theorem State.refreshGroup_group (s : State) (g i : Fin 12) :
    (s.refreshGroup g).groups[i] = if i = g then s.refreshed g else s.groups[i] := by
  unfold State.refreshGroup State.refreshed
  dsimp only
  by_cases present : s.settings.groups[g].present = true
  · rw [if_pos present, if_pos present, State.writeGroup_group]
  · rw [if_neg present, if_neg present]
    split
    next e => rw [e]
    · rfl

theorem ChangesOnly.relit {ps : List Part} {s t : State} (h : ChangesOnly ps s t) (g : Fin 12) (x : LightGroup)
    (out : ps.all (fun p => !([.settings, .perfs, .flickers] : List Part).contains p) = true := by rfl) :
    t.relit g x = s.relit g x := by
  have same (p : Part) (mem : p ∈ ([.settings, .perfs, .flickers] : List Part)) : p.same s t :=
    h.same p fun inside => by
      have := List.all_eq_true.1 out p inside
      simp only [Bool.not_eq_true', List.contains_eq_mem, decide_eq_false_iff_not] at this
      exact this mem
  have perfs : t.perfs = s.perfs := same .perfs (by simp)
  have flickers : t.flickers = s.flickers := same .flickers (by simp)
  exact State.relit_congr (same .settings (by simp)) (fun a => by simp only [State.phase, perfs])
    (fun _ => by rw [flickers]) x

theorem State.refreshGroups_group (s : State) (g : Fin 12) : s.refreshGroups.groups[g] = s.refreshed g := by
  refine forAll_groups (v := s.refreshed) (fun i t => State.refreshGroup_changes i t) (fun i t g ne => ?_)
    (fun i t h same => ?_) g
  · rw [State.refreshGroup_group, if_neg ne]
  · have settings : t.settings = s.settings := h.same .settings (by decide)
    rw [State.refreshGroup_group, if_pos rfl]
    unfold State.refreshed
    rw [settings, same, h.relit, h.causesOf]

theorem LightGroup.force_causes (c : CauseSet) (d : Nat) (x : LightGroup) : (x.force c d).causes = c := by
  unfold LightGroup.force
  split
  next e => exact e.symm
  · split
    · rfl
    · split
      next zero =>
        rw [LightGroup.startFade_causes]
        exact zero.symm
      · rfl

theorem State.refreshed_causes (s : State) (g : Fin 12) (present : s.settings.groups[g].present = true) :
    (s.refreshed g).causes = s.causesOf g := by
  rw [State.refreshed, if_pos present]
  exact LightGroup.force_causes ..

/-- Every present group carries the force causes that R115 derives. -/
def CausesDerived (s : State) : Prop :=
  ∀ g : Fin 12, s.settings.groups[g].present = true → s.groups[g].causes = s.causesOf g

/-- The lit state last announced of every call zone is its lit state (R125). -/
def LitDerived (s : State) : Prop := ∀ z : Fin 8, s.lit[z] = s.litNow z

theorem lightsDerived_iff {s : State} : LightsDerived s ↔ CausesDerived s ∧ LitDerived s := .rfl

/-- Deriving the groups derives their causes, whatever they were (R115). -/
theorem State.refreshGroups_derived (s : State) : CausesDerived s.refreshGroups := by
  intro g present
  have frame := s.refreshGroups_changes
  rw [frame.same .settings (by decide)] at present
  rw [State.refreshGroups_group, State.refreshed_causes s g present, frame.causesOf]

theorem CausesDerived.keep {s t : State} (h : CausesDerived s) (settings : t.settings = s.settings)
    (general : t.generalSet = s.generalSet) (mains : t.supply.mains = s.supply.mains)
    (dark : ∀ a, (t.phase a != .dark) = (s.phase a != .dark))
    (interrupted : ∀ a : Fin 3, t.perfs[a].interrupted = s.perfs[a].interrupted)
    (causes : ∀ g : Fin 12, t.groups[g].causes = s.groups[g].causes) : CausesDerived t := by
  intro g present
  rw [causes, State.causesOf_congr settings general mains dark interrupted]
  exact h g (settings ▸ present)

theorem LitDerived.keep {s t : State} (h : LitDerived s) (settings : t.settings = s.settings) (lit : t.lit = s.lit)
    (causes : ∀ g : Fin 12, t.groups[g].causes = s.groups[g].causes) : LitDerived t := by
  intro z
  rw [lit, State.litNow_congr settings causes]
  exact h z

/-- Deriving a group shows its output, and leaves the outputs shown of the others. -/
theorem OutputsDerived.refreshGroups {s : State} (dark : ∀ g : Fin 12, s.settings.groups[g].present = false →
    s.groups[g] = LightGroup.dark) : OutputsDerived s.refreshGroups := by
  have frame := s.refreshGroups_changes
  have settings : s.refreshGroups.settings = s.settings := frame.same .settings (by decide)
  refine outputsDerived_iff.2 fun g => ?_
  unfold State.shown
  rw [settings, State.refreshGroups_group, State.refreshed]
  split
  · rw [frame.relit, State.relit_relit]
  next absent => exact dark g (by simpa using absent)

end Sys2Proof.Machine
end

section
/-!
PROOFS. What bursts, silences and announcements of lit states leave of the groups and of the circuits (R123, R142), and
what the announcements of lit states and of silences derive, whatever went before (R125, R146, R149).
-/

namespace Sys2Proof.Machine

/-! ## Circuits and flicker -/

theorem Circuit.setDrive_condition (now : Nat) (x : Circuit) : (x.setDrive now).condition = x.condition := by
  unfold Circuit.setDrive
  split
  · split
    · rfl
    · rfl
  · split
    · rfl
    · rfl

theorem Circuit.demandEvent_condition (now : Nat) (on : Bool) (p : Pattern) (x : Circuit) :
    (x.demandEvent now on p).condition = x.condition := by
  unfold Circuit.demandEvent
  split
  · rfl
  · extract_lets y w
    have kept : w.condition = x.condition := Circuit.setDrive_condition ..
    split
    · exact kept
    · exact kept

theorem State.demand_circuit (s : State) (c i : Fin 16) (on : Bool) (p : Pattern) :
    (s.demand c on p).circuits[i] = if i = c then s.circuits[c].demandEvent s.now on p else s.circuits[i] := by
  rw [State.demand, State.writeCircuit_circuits, put_get]

theorem State.demand_condition (s : State) (c i : Fin 16) (on : Bool) (p : Pattern) :
    (s.demand c on p).circuits[i].condition = s.circuits[i].condition := by
  rw [State.demand_circuit]
  split
  next e => rw [Circuit.demandEvent_condition, e]
  · rfl

theorem isChime_chimeOf (z : Fin 8) : isChime (chimeOf z) = true := by
  have := z.2
  change (decide (6 ≤ 6 + z.1) && decide (6 + z.1 < 14)) = true
  rw [Bool.and_eq_true, decide_eq_true_eq, decide_eq_true_eq]
  omega

/-- The flicker kept for a zone when it is handed a code (R123, R124). -/
def State.flickered (s : State) (z : Fin 8) (code : Nat) : State :=
  { s with flickers := put s.flickers z { code := code, start := s.now, dip := isDip code 0 } }

/-- A flicker request computes the output of every present FOYER group of its zone again (R123). -/
theorem State.flickerRequest_group (s : State) (z : Fin 8) (code : Nat) (g : Fin 12) :
    (s.flickerRequest z code).groups[g] =
      if s.settings.groups[g].present = true ∧ s.settings.groups[g].kind = .foyer ∧ s.settings.groups[g].callZone = z
      then (s.flickered z code).relit g s.groups[g] else s.groups[g] := by
  have turns := forAll_groups (s := s.flickered z code)
    (f := fun g s =>
      let cfg := s.settings.groups[g]
      if cfg.present && cfg.kind == .foyer && cfg.callZone == z then s.writeGroup g (s.relit g s.groups[g]) else s)
    (v := fun g => if s.settings.groups[g].present = true ∧ s.settings.groups[g].kind = .foyer ∧
        s.settings.groups[g].callZone = z then (s.flickered z code).relit g s.groups[g] else s.groups[g])
  refine turns (fun i t => ?_) (fun i t j ne => ?_) (fun i t h same => ?_) g
  · dsimp only
    split
    · exact State.writeGroup_changes ..
    · exact .refl _ _
  · dsimp only
    split
    · rw [State.writeGroup_group, if_neg ne]
    · rfl
  · have settings : t.settings = s.settings := h.same .settings (by decide)
    have same : t.groups[i] = s.groups[i] := same
    simp only [settings, Bool.and_eq_true, beq_iff_eq, and_assoc]
    split
    · rw [State.writeGroup_group, if_pos rfl, same, h.relit]
    · exact same

theorem State.flickerRequest_flickers (s : State) (z : Fin 8) (code : Nat) :
    (s.flickerRequest z code).flickers = put s.flickers z { code := code, start := s.now, dip := isDip code 0 } := by
  unfold State.flickerRequest
  refine forAll_keeps (fun t : State => t.flickers = put s.flickers z { code := code, start := s.now, dip := isDip code 0 })
    _ (fun g t ht => ?_) _ rfl
  dsimp only
  split
  · rw [State.writeGroup_flickers]; exact ht
  · exact ht

theorem OutputsDerived.flickerRequest {s : State} (h : OutputsDerived s) (z : Fin 8) (code : Nat) :
    OutputsDerived (s.flickerRequest z code) := by
  have frame := s.flickerRequest_changes z code
  have settings : (s.flickerRequest z code).settings = s.settings := frame.same .settings (by decide)
  have perfs : (s.flickerRequest z code).perfs = s.perfs := frame.same .perfs (by decide)
  have dark (a : Fin 3) : ((s.flickerRequest z code).phase a != .dark) = (s.phase a != .dark) := by
    simp only [State.phase, perfs]
  have flickers := s.flickerRequest_flickers z code
  have group := s.flickerRequest_group z code
  generalize s.flickerRequest z code = t at *
  refine outputsDerived_iff.2 fun g => ?_
  by_cases told : s.settings.groups[g].present = true ∧ s.settings.groups[g].kind = .foyer ∧
      s.settings.groups[g].callZone = z
  · have again : t.relit g = (s.flickered z code).relit g := by
      funext x
      exact State.relit_congr (s := s.flickered z code) settings dark (fun _ => by rw [flickers]; rfl) x
    unfold State.shown
    rw [settings, if_pos told.1, group, if_pos told, again, State.relit_relit]
  · refine State.shown_congr (outputsDerived_iff.1 h g) settings dark (fun present foyer => ?_) ?_
    · rw [flickers, put_get]
      split
      next same => exact absurd ⟨present, foyer, same⟩ told
      · rfl
    · rw [group, if_neg told]

/-! ## What sounds leave -/

/-- Between `s` and `t` no fade has moved, no circuit changed its condition, none but the chimes changed at all, and
outputs that were shown are shown. -/
structure Sounded (s t : State) : Prop where
  fades : ∀ g : Fin 12, KeepsFade s.groups[g] t.groups[g]
  conditions : ∀ c : Fin 16, t.circuits[c].condition = s.circuits[c].condition
  alarms : ∀ c : Fin 16, isChime c = false → t.circuits[c] = s.circuits[c]
  outputs : OutputsDerived s → OutputsDerived t

namespace Sounded

variable {s t u : State}

theorem trans (h : Sounded s t) (k : Sounded t u) : Sounded s u :=
  ⟨fun g => (h.fades g).trans (k.fades g), fun c => (k.conditions c).trans (h.conditions c),
    fun c other => (k.alarms c other).trans (h.alarms c other), fun o => k.outputs (h.outputs o)⟩

/-- What touches neither groups and their flicker, nor circuits, nor what an output is derived from. -/
theorem of_same (groups : t.groups = s.groups) (circuits : t.circuits = s.circuits) (settings : t.settings = s.settings)
    (perfs : t.perfs = s.perfs) (flickers : t.flickers = s.flickers) : Sounded s t := by
  refine ⟨fun g => ?_, fun c => ?_, fun c _ => ?_, fun o => outputsDerived_iff.2 fun g => ?_⟩
  · rw [groups]; exact .refl _
  · rw [circuits]
  · rw [circuits]
  · refine State.shown_congr (outputsDerived_iff.1 o g) settings (fun a => ?_) (fun _ _ => ?_) ?_
    · simp only [State.phase, perfs]
    · rw [flickers]
    · rw [groups]

theorem refl (s : State) : Sounded s s := of_same rfl rfl rfl rfl rfl

theorem chime (s : State) (z : Fin 8) (on : Bool) : Sounded s (s.demand (chimeOf z) on .continuous) where
  fades g := by rw [(State.demand_changes ..).same .groups (by decide)]; exact .refl _
  conditions c := State.demand_condition ..
  alarms c other := by
    rw [State.demand_circuit, if_neg]
    intro e
    rw [e, isChime_chimeOf] at other
    cases other
  outputs o := o.keep (State.demand_changes s (chimeOf z) on .continuous)

theorem flicker (s : State) (z : Fin 8) (code : Nat) : Sounded s (s.flickerRequest z code) := by
  have circuits : (s.flickerRequest z code).circuits = s.circuits :=
    (s.flickerRequest_changes z code).same .circuits (by decide)
  refine ⟨fun g => ?_, fun c => by rw [circuits], fun c _ => by rw [circuits], fun o => o.flickerRequest z code⟩
  rw [State.flickerRequest_group]
  split
  · exact State.relit_keepsFade ..
  · exact .refl _

/-- All that bursts and announcements of lit states do leaves this. -/
theorem lights (s : State) : LightClosed (Sounded s) where
  clock t h := h.trans (of_same rfl rfl rfl rfl rfl)
  mark k h := h.trans (of_same rfl rfl rfl rfl rfl)
  table _ _ h := h.trans (of_same rfl rfl rfl rfl rfl)
  czone _ _ _ _ h := h.trans (of_same rfl rfl rfl rfl rfl)
  chime z on h := h.trans (chime ..)
  flicker z code h := h.trans (flicker ..)
  lit _ h := h.trans (of_same rfl rfl rfl rfl rfl)

theorem silences (s : State) : SilenceClosed (Sounded s) where
  toBurstClosed := (lights s).toBurstClosed
  silence _ _ h := h.trans (of_same rfl rfl rfl rfl rfl)

theorem causes (h : Sounded s t) (g : Fin 12) : t.groups[g].causes = s.groups[g].causes := (h.fades g).causes

theorem announceLit (s : State) : Sounded s s.announceLit := (lights s).announceLit (refl s)

theorem deriveSilence (s : State) (z : Fin 8) : Sounded s (s.deriveSilence z) := (silences s).deriveSilence z (refl s)

theorem deriveSilences (s : State) : Sounded s s.deriveSilences := (silences s).deriveSilences (refl s)

theorem callNotice (s : State) (a : Fin 3) (st : DeliveryState) : Sounded s (s.callNotice a st) :=
  (lights s).callNotice a st (refl s)

end Sounded

/-! ## Announcing lit states (R125) -/

/-- The turn of a call zone at an announcement of the lit states. -/
def State.announceLitOf (z : Fin 8) (s : State) : State :=
  let now := s.litNow z
  let s1 := { s with lit := put s.lit z now }
  if s.lit[z] && !now then s1.litLost z else s1

theorem State.announceLit_eq (s : State) : s.announceLit = forAll 8 State.announceLitOf s := rfl

theorem State.announceLitOf_spec (z : Fin 8) (s : State) : Sounded s (s.announceLitOf z) ∧
    ChangesOnly lightParts s (s.announceLitOf z) ∧ (s.announceLitOf z).lit = put s.lit z (s.litNow z) := by
  have set : ChangesOnly [.lit] s { s with lit := put s.lit z (s.litNow z) } := by
    constructor; intro p hp; cases p <;> simp_all [Part.same]
  have sounded : Sounded s { s with lit := put s.lit z (s.litNow z) } := .of_same rfl rfl rfl rfl rfl
  have lit : ({ s with lit := put s.lit z (s.litNow z) } : State).lit = put s.lit z (s.litNow z) := rfl
  unfold State.announceLitOf
  dsimp only
  generalize ({ s with lit := put s.lit z (s.litNow z) } : State) = u at *
  split
  · have lost := State.litLost_changes u z
    refine ⟨(Sounded.lights s).litLost z sounded, set.andThen lost, ?_⟩
    rw [lost.same .lit (by decide), lit]
  · exact ⟨sounded, set.mono, lit⟩

/-- Announcing the lit states makes the announced ones those there are, whatever they were. -/
theorem State.announceLit_lit (s : State) : LitDerived s.announceLit := by
  intro z
  rw [State.announceLit_eq]
  have turned := forAll_turn (f := State.announceLitOf) (P := fun t => Sounded s t ∧ t.settings = s.settings)
    (Q := fun t => (Sounded s t ∧ t.settings = s.settings) ∧ t.lit[z] = s.litNow z) z ?_ ?_ ?_ s ⟨.refl s, rfl⟩
  · obtain ⟨⟨sounded, settings⟩, lit⟩ := turned
    rw [lit, State.litNow_congr settings sounded.causes]
  · rintro i t - ⟨sounded, settings⟩
    obtain ⟨turn, frame, -⟩ := t.announceLitOf_spec i
    exact ⟨sounded.trans turn, (frame.same .settings (by decide)).trans settings⟩
  · rintro t ⟨sounded, settings⟩
    obtain ⟨turn, frame, lit⟩ := t.announceLitOf_spec z
    refine ⟨⟨sounded.trans turn, (frame.same .settings (by decide)).trans settings⟩, ?_⟩
    rw [lit, put_same, State.litNow_congr settings sounded.causes]
  · rintro i t ne ⟨⟨sounded, settings⟩, same⟩
    obtain ⟨turn, frame, lit⟩ := t.announceLitOf_spec i
    refine ⟨⟨sounded.trans turn, (frame.same .settings (by decide)).trans settings⟩, ?_⟩
    rw [lit, put_other _ _ _ _ ne.symm, same]

/-! ## Deriving silences (R146, R149) -/

/-- Every call zone is barred and suppressed as it was. -/
def SilencesKept (s t : State) : Prop :=
  ∀ z : Fin 8, t.czones[z].barred = s.czones[z].barred ∧ t.czones[z].suppressed = s.czones[z].suppressed

theorem SilencesKept.refl (s : State) : SilencesKept s s := fun _ => ⟨rfl, rfl⟩

theorem SilencesKept.trans {s t u : State} (h : SilencesKept s t) (k : SilencesKept t u) : SilencesKept s u :=
  fun z => ⟨(k z).1.trans (h z).1, (k z).2.trans (h z).2⟩

theorem SilencesKept.of_changes {ps : List Part} {s t : State} (h : ChangesOnly ps s t)
    (out : ps.contains .czones = false := by rfl) : SilencesKept s t := by
  have czones : t.czones = s.czones := h.same .czones (by simpa using out)
  exact fun z => by rw [czones]; exact ⟨rfl, rfl⟩

/-- No burst, notice or announcement of lit states bars or suppresses a zone. -/
theorem SilencesKept.lights (s : State) : LightClosed (SilencesKept s) where
  clock t h := h
  mark k h := h
  table _ _ h := h
  czone {t} z x barred suppressed h i := by
    dsimp only
    rw [put_get]
    split
    next same => subst same; exact ⟨barred.trans (h i).1, suppressed.trans (h i).2⟩
    · exact h i
  chime z on h := h.trans (.of_changes (State.demand_changes ..))
  flicker z code h := h.trans (.of_changes (State.flickerRequest_changes ..))
  lit _ h := h

theorem ChangesOnly.barredNow {ps : List Part} {s t : State} (h : ChangesOnly ps s t) (z : Fin 8)
    (hs : ps.contains .settings = false := by rfl) (hi : ps.contains .incidents = false := by rfl) :
    t.barredNow z = s.barredNow z ∧ t.suppressedNow z = s.suppressedNow z := by
  have settings : t.settings = s.settings := h.same .settings (by simpa using hs)
  obtain ⟨slots, order⟩ : t.incidents = s.incidents ∧ t.incidentList = s.incidentList :=
    h.same .incidents (by simpa using hi)
  simp only [State.barredNow, State.suppressedNow, State.generalSet, State.openIncidents, settings, slots, order,
    and_self]

/-- Zone `z` is now barred as `b` and suppressed as `p` say, and every other zone as it was. -/
structure SilencedAs (z : Fin 8) (b p : Bool) (s t : State) : Prop where
  barred : t.czones[z].barred = b
  suppressed : t.czones[z].suppressed = p
  others : ∀ j : Fin 8, j ≠ z → t.czones[j].barred = s.czones[j].barred ∧
    t.czones[j].suppressed = s.czones[j].suppressed

namespace SilencedAs

variable {z : Fin 8} {b p b' p' : Bool} {s t u : State}

theorem refl (s : State) (z : Fin 8) : SilencedAs z s.czones[z].barred s.czones[z].suppressed s s :=
  ⟨rfl, rfl, fun _ _ => ⟨rfl, rfl⟩⟩

theorem keep (h : SilencedAs z b p s t) (k : SilencesKept t u) : SilencedAs z b p s u :=
  ⟨(k z).1.trans h.barred, (k z).2.trans h.suppressed, fun j ne =>
    ⟨(k j).1.trans (h.others j ne).1, (k j).2.trans (h.others j ne).2⟩⟩

theorem write (h : SilencedAs z b p s t) (x : CallZone) (barred : x.barred = b') (suppressed : x.suppressed = p') :
    SilencedAs z b' p' s (t.writeCZone z x) := by
  refine ⟨?_, ?_, fun j ne => ?_⟩
  · rw [State.writeCZone_czone, if_pos rfl, barred]
  · rw [State.writeCZone_czone, if_pos rfl, suppressed]
  · rw [State.writeCZone_czone, if_neg ne]
    exact h.others j ne

theorem bar (h : SilencedAs z b p s t) : SilencedAs z true p s (t.bar z) :=
  (h.write { t.czones[z] with barred := true } rfl h.suppressed).keep
    ((SilencesKept.lights _).dropZone z .abandoned (.refl _))

theorem suppress (h : SilencedAs z b p s t) : SilencedAs z b true s (t.suppress z) := by
  have written := h.write { t.czones[z] with suppressed := true } h.barred rfl
  unfold State.suppress
  dsimp only
  have lights := SilencesKept.lights (t.writeCZone z { t.czones[z] with suppressed := true })
  split
  · exact written
  · exact written.keep (lights.joinQueue z _ (lights.editDelivery _ z _ (lights.stopBurst z (.refl _))))

/-- Deriving the silence of a present zone leaves it barred and suppressed as the incidents have it, and every other
zone as it was (R146, R149). -/
theorem deriveSilence (s : State) (z : Fin 8) (present : s.settings.czones[z].present = true) :
    SilencedAs z (s.barredNow z) (s.suppressedNow z) s (s.deriveSilence z) := by
  unfold State.deriveSilence
  rw [if_neg (by rw [present]; decide)]
  extract_lets cz b p s1 cz1 s2
  have barred : SilencedAs z b cz.suppressed s s1 := by
    have here : SilencedAs z cz.barred cz.suppressed s s := refl s z
    unfold s1
    cases hb : b <;> cases hz : cz.barred
    · simpa [hb, hz] using hz ▸ here
    · simpa [hb, hz] using here.write { cz with barred := false } rfl rfl
    · simpa [hb, hz] using here.bar
    · simpa [hb, hz] using hz ▸ here
  have suppressed : SilencedAs z b p s s2 := by
    unfold s2
    cases hp : p <;> cases hz : cz.suppressed
    · simpa [hp, hz] using hz ▸ barred
    · simpa [hp, hz] using barred.write { cz1 with suppressed := false } barred.barred rfl
    · simpa [hp, hz] using barred.suppress
    · simpa [hp, hz] using hz ▸ barred
  split
  · exact suppressed.keep ((SilencesKept.lights _).arbitrate z (.refl _))
  · exact suppressed

end SilencedAs

/-- Zones but `z` keep their silences as that of `z` is derived. -/
theorem State.deriveSilence_other (s : State) {z j : Fin 8} (ne : j ≠ z) :
    (s.deriveSilence z).czones[j].barred = s.czones[j].barred ∧
      (s.deriveSilence z).czones[j].suppressed = s.czones[j].suppressed := by
  by_cases present : s.settings.czones[z].present = true
  · exact (SilencedAs.deriveSilence s z present).others j ne
  · unfold State.deriveSilence
    rw [if_pos (by simpa using present)]
    exact ⟨rfl, rfl⟩

/-- Deriving the silences makes every present zone barred and suppressed as the incidents have it, whatever it was. -/
theorem State.deriveSilences_derived (s : State) : SilencesDerived s.deriveSilences := by
  intro z present
  have frame := s.deriveSilences_changes
  have settings : s.deriveSilences.settings = s.settings := frame.same .settings (by decide)
  rw [settings] at present
  obtain ⟨barred, suppressed⟩ := frame.barredNow z
  rw [barred, suppressed]
  refine (forAll_turn (f := State.deriveSilence) (P := fun t => ChangesOnly burstParts s t)
    (Q := fun t => ChangesOnly burstParts s t ∧ t.czones[z].barred = s.barredNow z ∧
      t.czones[z].suppressed = s.suppressedNow z) z ?_ ?_ ?_ s (.refl _ s)).2
  · exact fun i t _ h => h.andThen (State.deriveSilence_changes ..)
  · intro t h
    have set : t.settings = s.settings := h.same .settings (by decide)
    have silenced := SilencedAs.deriveSilence t z (set ▸ present)
    obtain ⟨b, p⟩ := h.barredNow z
    exact ⟨h.andThen (State.deriveSilence_changes ..), silenced.barred.trans b, silenced.suppressed.trans p⟩
  · rintro i t ne ⟨h, b, p⟩
    obtain ⟨b', p'⟩ := t.deriveSilence_other ne.symm
    exact ⟨h.andThen (State.deriveSilence_changes ..), b'.trans b, p'.trans p⟩

theorem SilencesDerived.keep {ps : List Part} {s t : State} (h : SilencesDerived s) (frame : ChangesOnly ps s t)
    (kept : SilencesKept s t) (hs : ps.contains .settings = false := by rfl)
    (hi : ps.contains .incidents = false := by rfl) : SilencesDerived t := by
  intro z present
  rw [frame.same .settings (by simpa using hs)] at present
  obtain ⟨barred, suppressed⟩ := frame.barredNow z hs hi
  obtain ⟨b, p⟩ := h z present
  exact ⟨(kept z).1.trans (b.trans barred.symm), (kept z).2.trans (p.trans suppressed.symm)⟩

end Sys2Proof.Machine
end

section
/-!
PROOFS. Halts (R14), fire releases (R42), and what an announcement of incidents does in every order that its free
choices leave (04, "What the alarm unit announces"; log entries 5, 6 and 33).
-/

namespace Sys2Proof.Machine

/-! ## Halts (R14) -/

theorem State.respond_frame_perfs (s : State) (a : Fin 3) (t d : Nat) : (s.respond a t d).perfs = s.perfs :=
  (s.respond_changes a t d).same .perfs (by decide)

theorem State.halt_perfs (s : State) (a : Fin 3) :
    (s.halt a).perfs = put s.perfs a { s.perfs[a] with phase := .halted } := by
  unfold State.halt
  rw [(State.callNotice_changes ..).same .perfs (by decide), State.respond_frame_perfs, State.writePerf_perfs]

/-- A halt of a performance that is not DARK moves none between DARK and another phase, and interrupts none. -/
theorem State.halt_phases {s : State} {a : Fin 3} (light : s.phase a ≠ .dark) (b : Fin 3) :
    ((s.halt a).phase b != .dark) = (s.phase b != .dark) ∧ (s.halt a).perfs[b].interrupted = s.perfs[b].interrupted := by
  simp only [State.phase, State.halt_perfs, put_get]
  split
  next same =>
    subst same
    exact ⟨by rw [(bne_iff_ne (a := s.perfs[b].phase)).2 light]; rfl, rfl⟩
  · exact ⟨rfl, rfl⟩

theorem State.halt_causes (s : State) (a : Fin 3) (g : Fin 12) :
    (s.halt a).groups[g].causes = s.groups[g].causes := by
  unfold State.halt
  rw [(Sounded.callNotice ..).causes, State.respond_causes, State.writePerf_groups]

theorem haltable_light {p : Phase} (h : p.haltable = true) : p ≠ .dark := by
  rintro rfl
  cases h

/-- The turn of a performance in a halt of those of a set. -/
def State.haltTurn (set : AudSet) (a : Fin 3) (s : State) : State :=
  if has set a && (s.phase a).haltable then s.halt a else s

theorem State.haltSet_eq (s : State) (set : AudSet) : s.haltSet set = forAll 3 (State.haltTurn set) s := rfl

theorem State.haltTurn_cases (s : State) (set : AudSet) (a : Fin 3) :
    ((has set a = true ∧ (s.phase a).haltable = true) ∧ s.haltTurn set a = s.halt a) ∨
      (¬(has set a = true ∧ (s.phase a).haltable = true) ∧ s.haltTurn set a = s) := by
  unfold State.haltTurn
  split
  next both => exact .inl ⟨by simpa using both, rfl⟩
  next either => exact .inr ⟨by simpa using either, rfl⟩

theorem State.haltTurn_changes (s : State) (set : AudSet) (a : Fin 3) :
    ChangesOnly (.perfs :: .retained :: burstParts) s (s.haltTurn set a) := by
  obtain ⟨-, e⟩ | ⟨-, e⟩ := s.haltTurn_cases set a
  · rw [e]; exact State.halt_changes ..
  · rw [e]; exact .refl _ _

/-- The performances of the set that a halt moves are HALTED, and every other one is as it was (R14). -/
theorem State.haltSet_perf (s : State) (set : AudSet) (a : Fin 3) : (s.haltSet set).perfs[a] =
    if has set a = true ∧ (s.phase a).haltable = true then { s.perfs[a] with phase := .halted } else s.perfs[a] := by
  rw [State.haltSet_eq]
  refine forAll_turn (P := fun t => t.perfs[a] = s.perfs[a]) (Q := fun t => t.perfs[a] =
      if has set a = true ∧ (s.phase a).haltable = true then { s.perfs[a] with phase := .halted } else s.perfs[a]) a
    (fun i t ne same => ?_) (fun t same => ?_) (fun i t ne same => ?_) s rfl
  · obtain ⟨-, e⟩ | ⟨-, e⟩ := t.haltTurn_cases set i
    · rw [e, State.halt_perfs, put_other _ _ _ _ ne.symm, same]
    · rw [e, same]
  · have phase : t.phase a = s.phase a := congrArg Perf.phase same
    obtain ⟨both, e⟩ | ⟨either, e⟩ := t.haltTurn_cases set a
    · rw [e, State.halt_perfs, put_same, same, if_pos (phase ▸ both)]
    · rw [e, same, if_neg (phase ▸ either)]
  · obtain ⟨-, e⟩ | ⟨-, e⟩ := t.haltTurn_cases set i
    · rw [e, State.halt_perfs, put_other _ _ _ _ ne.symm, same]
    · rw [e, same]

/-- What a halt leaves of the lights' derivation: which performances are DARK or interrupted, and every cause. -/
structure HaltKept (s t : State) : Prop where
  dark : ∀ a, (t.phase a != .dark) = (s.phase a != .dark)
  interrupted : ∀ a : Fin 3, t.perfs[a].interrupted = s.perfs[a].interrupted
  causes : ∀ g : Fin 12, t.groups[g].causes = s.groups[g].causes

theorem HaltKept.trans {s t u : State} (h : HaltKept s t) (k : HaltKept t u) : HaltKept s u :=
  ⟨fun a => (k.dark a).trans (h.dark a), fun a => (k.interrupted a).trans (h.interrupted a),
    fun g => (k.causes g).trans (h.causes g)⟩

theorem State.haltSet_kept (s : State) (set : AudSet) : HaltKept s (s.haltSet set) := by
  rw [State.haltSet_eq]
  refine forAll_keeps (HaltKept s) _ (fun a t kept => kept.trans ?_) s ⟨fun _ => rfl, fun _ => rfl, fun _ => rfl⟩
  obtain ⟨⟨-, haltable⟩, e⟩ | ⟨-, e⟩ := t.haltTurn_cases set a
  · have light := haltable_light haltable
    rw [e]
    exact ⟨fun b => (State.halt_phases light b).1, fun b => (State.halt_phases light b).2, t.halt_causes a⟩
  · rw [e]
    exact ⟨fun _ => rfl, fun _ => rfl, fun _ => rfl⟩

/-! ## Fire releases (R42) -/

/-- The turn of a channel in the fire release of an incident. -/
def State.fireTurn (inc : Incident) (ch : Fin 3) (s : State) : State :=
  if s.settings.irons[ch].present && has inc.auds ch then
    match s.irons[ch].motion with
    | .raising => s.release ch .fire
    | .atOut => if s.fromStageHouse inc || inc.stage == .general then s.release ch .fire else s
    | .stopped => if s.fromStageHouse inc || inc.stage == .general then s.release ch .fire else s
    | .atIn => s
    | .descending => s
  else s

theorem State.fireRelease_eq (s : State) (inc : Incident) : s.fireRelease inc = forAll 3 (State.fireTurn inc) s := rfl

/-- A channel's turn releases it where the incident concerns it so, and leaves the part as it is otherwise. -/
theorem State.fireTurn_cases (s : State) (inc : Incident) (ch : Fin 3) :
    (s.burns inc ch ∧ s.fireTurn inc ch = s.release ch .fire) ∨ (¬s.burns inc ch ∧ s.fireTurn inc ch = s) := by
  unfold State.fireTurn State.burns
  by_cases concerned : (s.settings.irons[ch].present && has inc.auds ch) = true
  · rw [if_pos concerned]
    simp only [Bool.and_eq_true] at concerned
    have told : (s.fromStageHouse inc || inc.stage == .general) = true ↔
        s.fromStageHouse inc = true ∨ inc.stage = .general := by simp
    cases motion : s.irons[ch].motion with
    | raising => exact .inl ⟨⟨concerned.1, concerned.2, .inl rfl⟩, rfl⟩
    | atOut =>
      by_cases h : s.fromStageHouse inc = true ∨ inc.stage = .general
      · exact .inl ⟨⟨concerned.1, concerned.2, .inr ⟨.inl rfl, h⟩⟩, by dsimp only; rw [if_pos (told.2 h)]⟩
      · exact .inr ⟨by simp [h], by dsimp only; rw [if_neg fun k => h (told.1 k)]⟩
    | stopped =>
      by_cases h : s.fromStageHouse inc = true ∨ inc.stage = .general
      · exact .inl ⟨⟨concerned.1, concerned.2, .inr ⟨.inr rfl, h⟩⟩, by dsimp only; rw [if_pos (told.2 h)]⟩
      · exact .inr ⟨by simp [h], by dsimp only; rw [if_neg fun k => h (told.1 k)]⟩
    | atIn => exact .inr ⟨by simp, rfl⟩
    | descending => exact .inr ⟨by simp, rfl⟩
  · rw [if_neg concerned]
    exact .inr ⟨fun ⟨present, concerns, _⟩ => concerned (by rw [present, concerns]; rfl), rfl⟩

theorem State.fireTurn_changes (s : State) (inc : Incident) (ch : Fin 3) :
    ChangesOnly [.irons, .stations] s (s.fireTurn inc ch) := by
  obtain ⟨-, e⟩ | ⟨-, e⟩ := s.fireTurn_cases inc ch
  · rw [e]; exact State.release_changes ..
  · rw [e]; exact .refl _ _

theorem State.fireTurn_other (s : State) (inc : Incident) {ch i : Fin 3} (ne : i ≠ ch) :
    (s.fireTurn inc ch).irons[i] = s.irons[i] := by
  obtain ⟨-, e⟩ | ⟨-, e⟩ := s.fireTurn_cases inc ch
  · rw [e]; exact State.release_onlyAt s ch .fire i ne
  · rw [e]

/-- Whether an incident concerns a channel so is read from the settings and the channel. -/
theorem State.burns_congr {s t : State} (settings : t.settings = s.settings) {ch : Fin 3}
    (iron : t.irons[ch] = s.irons[ch]) (inc : Incident) : t.burns inc ch ↔ s.burns inc ch := by
  simp only [State.burns, State.fromStageHouse, settings, iron]

/-- A fire release releases the channels that the incident concerns so and leaves the others (R42). -/
theorem State.fireRelease_iron (s : State) (inc : Incident) (ch : Fin 3) :
    (s.burns inc ch → (s.fireRelease inc).irons[ch] = s.irons[ch].release .fire) ∧
      (¬s.burns inc ch → (s.fireRelease inc).irons[ch] = s.irons[ch]) := by
  rw [State.fireRelease_eq]
  refine forAll_turn
    (P := fun t => ChangesOnly [.irons, .stations] s t ∧ t.irons[ch] = s.irons[ch])
    (Q := fun t => (s.burns inc ch → t.irons[ch] = s.irons[ch].release .fire) ∧
      (¬s.burns inc ch → t.irons[ch] = s.irons[ch])) ch
    (fun i t ne ⟨frame, same⟩ => ⟨frame.andThen (t.fireTurn_changes inc i), by rw [t.fireTurn_other inc ne.symm, same]⟩)
    (fun t ⟨frame, same⟩ => ?_) (fun i t ne h => by rw [t.fireTurn_other inc ne.symm]; exact h) s ⟨.refl _ s, rfl⟩
  have alike := State.burns_congr (frame.same .settings (by decide)) same inc
  obtain ⟨burns, e⟩ | ⟨spared, e⟩ := t.fireTurn_cases inc ch
  · refine ⟨fun _ => ?_, fun no => absurd (alike.1 burns) no⟩
    rw [e, State.release_iron, same]
  · refine ⟨fun yes => absurd (alike.2 yes) spared, fun _ => ?_⟩
    rw [e, same]

/-- A channel that falls is not released again (R40). -/
theorem State.not_burns_of_descending {s : State} {ch : Fin 3} (h : s.irons[ch].motion = .descending) (inc : Incident) :
    ¬s.burns inc ch := by
  rintro ⟨-, -, raising | ⟨out | stopped, -⟩⟩
  · rw [h] at raising; cases raising
  · rw [h] at out; cases out
  · rw [h] at stopped; cases stopped

/-- The fire releases of the incidents in the slots `ids`, one after another. -/
def State.fireReleases (ids : List (Fin 25)) (s : State) : State :=
  ids.foldl (fun s i =>
    match s.incident? i with
    | some x => s.fireRelease x
    | none => s) s

theorem State.fireReleases_changes (ids : List (Fin 25)) (s : State) :
    ChangesOnly [.irons, .stations] s (s.fireReleases ids) := by
  refine .foldl (fun t i => ?_) ids s
  split
  · exact State.fireRelease_changes ..
  · exact .refl _ _

/-- A channel that an incident concerns so falls by its release: FULL from OUT, PARTIAL from RAISING and STOPPED
(R40, R42). -/
theorem State.burns_falls {s : State} {inc : Incident} {ch : Fin 3} (h : s.burns inc ch) :
    Falls (if s.irons[ch].motion = .atOut then .full else .part) .fire s.irons[ch] (s.irons[ch].release .fire) := by
  obtain ⟨-, -, raising | ⟨out | stopped, -⟩⟩ := h
  · rw [if_neg (by rw [raising]; decide)]
    exact Iron.release_part .fire (.inl raising)
  · rw [if_pos out]
    exact Iron.release_full .fire out
  · rw [if_neg (by rw [stopped]; decide)]
    exact Iron.release_part .fire (.inr stopped)

/-- A channel that some of the incidents concern so falls, once, and every other one is as it was (R42). -/
theorem State.fireReleases_iron (ids : List (Fin 25)) (s : State) (ch : Fin 3) :
    ((∃ x ∈ ids.filterMap s.incident?, s.burns x ch) →
      (s.fireReleases ids).irons[ch] = s.irons[ch].release .fire) ∧
    ((∀ x ∈ ids.filterMap s.incident?, ¬s.burns x ch) → (s.fireReleases ids).irons[ch] = s.irons[ch]) := by
  induction ids generalizing s with
  | nil => exact ⟨by simp, fun _ => rfl⟩
  | cons i ids ih =>
    change (_ → (State.fireReleases ids (match s.incident? i with
        | some x => s.fireRelease x
        | none => s)).irons[ch] = _) ∧ (_ → (State.fireReleases ids (match s.incident? i with
        | some x => s.fireRelease x
        | none => s)).irons[ch] = _)
    cases slot : s.incident? i with
    | none =>
      rw [List.filterMap_cons_none slot]
      exact ih s
    | some x =>
      rw [List.filterMap_cons_some slot]
      have frame := s.fireRelease_changes x
      have settings : (s.fireRelease x).settings = s.settings := frame.same .settings (by decide)
      have incidents : (s.fireRelease x).incident? = s.incident? := by
        funext j
        rw [State.incident?, (frame.same .incidents (by decide)).1, State.incident?]
      obtain ⟨released, spared⟩ := s.fireRelease_iron x ch
      obtain ⟨later, never⟩ := ih (s.fireRelease x)
      rw [incidents] at later never
      by_cases burns : s.burns x ch
      · obtain ⟨falling, -⟩ := State.burns_falls burns
        rw [← released burns] at falling
        have once := never fun y _ => State.not_burns_of_descending falling y
        refine ⟨fun _ => once.trans (released burns), fun none => absurd burns (none x (by simp))⟩
      · have alike (y : Incident) := State.burns_congr settings (spared burns) y
        simp only [alike, spared burns] at later never
        refine ⟨fun some => later ?_, fun none => never fun y mem => none y (by simp [mem])⟩
        obtain ⟨y, mem, told⟩ := some
        rcases List.mem_cons.1 mem with rfl | mem
        · exact absurd told burns
        · exact ⟨y, mem, told⟩

/-! ## The announcement (04) -/

/-- What an announcement's hearers can change before it releases the curtains, the halts left out. -/
def hearParts : List Part := .choices :: lightParts

theorem State.doneIf_changes {f : State → State} (h : ∀ s, ChangesOnly lightParts s (f s)) (b : Bool) (s : State) :
    ChangesOnly hearParts s (s.doneIf b f) := by
  unfold State.doneIf
  split
  · exact (State.drawn_changes s).andThen (h _)
  · exact (State.drawn_changes s).mono

theorem Sounded.drawn (s : State) : Sounded s s.drawn := .of_same rfl rfl rfl rfl rfl

theorem Sounded.doneIf {f : State → State} (h : ∀ s, Sounded s (f s)) (b : Bool) (s : State) :
    Sounded s (s.doneIf b f) := by
  unfold State.doneIf
  split
  · exact (drawn s).trans (h _)
  · exact drawn s

/-- Derived causes stay so through what changes no settings, incident, supply or performance and no cause. -/
theorem CausesDerived.sounded {ps : List Part} {s t : State} (h : CausesDerived s) (frame : ChangesOnly ps s t)
    (sounded : Sounded s t)
    (out : ps.all (fun p => !([.settings, .incidents, .supply, .perfs] : List Part).contains p) = true := by rfl) :
    CausesDerived t := by
  have same (p : Part) (mem : p ∈ ([.settings, .incidents, .supply, .perfs] : List Part)) : p.same s t :=
    frame.same p fun inside => by
      have := List.all_eq_true.1 out p inside
      simp only [Bool.not_eq_true', List.contains_eq_mem, decide_eq_false_iff_not] at this
      exact this mem
  have supply : t.supply = s.supply := same .supply (by simp)
  have perfs : t.perfs = s.perfs := same .perfs (by simp)
  obtain ⟨slots, order⟩ : t.incidents = s.incidents ∧ t.incidentList = s.incidentList := same .incidents (by simp)
  refine h.keep (same .settings (by simp)) ?_ (by rw [supply]) (fun a => ?_) (fun a => by rw [perfs]) sounded.causes
  · simp only [State.generalSet, State.openIncidents, slots, order]
  · simp only [State.phase, perfs]

/-- From `s` the performances of `set` have been halted and the force causes derived, in either order. -/
structure Halted (set : AudSet) (s t : State) : Prop where
  frame : ChangesOnly (.perfs :: .retained :: hearParts) s t
  causes : CausesDerived t
  perf : ∀ a : Fin 3, t.perfs[a] =
    if has set a = true ∧ (s.phase a).haltable = true then { s.perfs[a] with phase := .halted } else s.perfs[a]

/-- A halt moves no performance between DARK and another phase. -/
theorem Halted.dark {set : AudSet} {s t : State} (h : Halted set s t) (a : Fin 3) :
    t.phase a = .dark ↔ s.phase a = .dark := by
  rw [State.phase, h.perf]
  split
  next halts =>
    have light := haltable_light halts.2
    exact ⟨nofun, fun e => absurd e light⟩
  · rfl

/-- The halts after the forces. -/
theorem Halted.last {set : AudSet} {s t : State} (h : ChangesOnly hearParts s t) (causes : CausesDerived t) :
    Halted set s (t.haltSet set) := by
  have perfs : t.perfs = s.perfs := h.same .perfs (by decide)
  have frame := t.haltSet_changes set
  have kept := t.haltSet_kept set
  have supply : (t.haltSet set).supply = t.supply := frame.same .supply (by decide)
  refine ⟨h.andThen frame, causes.keep (frame.same .settings (by decide)) frame.generalSet (by rw [supply]) kept.dark
    kept.interrupted kept.causes, fun a => ?_⟩
  rw [State.haltSet_perf, State.phase, State.phase, perfs]

/-- The halts before the forces. -/
theorem Halted.first {set : AudSet} {s t u : State} (h : ChangesOnly hearParts s t)
    (hears : ChangesOnly hearParts (t.haltSet set) u) : Halted set s u.refreshGroups := by
  have perfs : t.perfs = s.perfs := h.same .perfs (by decide)
  have frame := u.refreshGroups_changes
  have perf := t.haltSet_perf set
  have halts := t.haltSet_changes set
  generalize t.haltSet set = w at *
  have whole : ChangesOnly (.perfs :: .retained :: hearParts) s u :=
    (h.andThen (rs := .perfs :: .retained :: hearParts) halts).andThen hears
  refine ⟨whole.andThen frame, u.refreshGroups_derived, fun a => ?_⟩
  rw [frame.same .perfs (by decide), hears.same .perfs (by decide), perf, State.phase, State.phase, perfs]

/-- The six free choices aside, an announcement has the FIRE holds evaluated, then halts and has the force causes
derived, then releases the curtains, and last tells the call unit. -/
theorem State.announcedIn_halts (a b c d e f : Bool) (ids : List (Fin 25)) (s : State) :
    ∃ t, s.announcedIn a b c d e f ids = (t.fireReleases ids).lightsAndCallsIn f ∧
      Halted ((s.evalHolds .fire).haltsOf ids) (s.evalHolds .fire) t := by
  unfold State.announcedIn
  extract_lets set s1 s2
  refine ⟨s2, rfl, ?_⟩
  have heard : ChangesOnly hearParts (s.evalHolds .fire) s1.drawn :=
    (State.doneIf_changes (fun t => t.deriveSilences_changes.mono) a _).andThen (rs := hearParts) (State.drawn_changes s1)
  unfold s2
  generalize s1.drawn = u at *
  cases b
  · exact .first heard (State.doneIf_changes (fun t => t.deriveSilences_changes.mono) c _)
  · have refreshed : ChangesOnly hearParts (s.evalHolds .fire) u.refreshGroups := heard.andThen u.refreshGroups_changes
    have derived := u.refreshGroups_derived
    generalize u.refreshGroups = v at *
    have hears : ChangesOnly hearParts v (((v.doneIf c State.announceLit).doneIf d State.deriveSilences).doneIf e
        State.announceLit) :=
      ((State.doneIf_changes State.announceLit_changes c v).andThen (rs := hearParts)
        (State.doneIf_changes (fun t => t.deriveSilences_changes.mono) d _)).andThen
        (State.doneIf_changes State.announceLit_changes e _)
    have sounded : Sounded v (((v.doneIf c State.announceLit).doneIf d State.deriveSilences).doneIf e
        State.announceLit) :=
      ((Sounded.doneIf .announceLit c v).trans (.doneIf .deriveSilences d _)).trans (.doneIf .announceLit e _)
    exact .last (refreshed.andThen hears) (derived.sounded hears sounded)

/-- What the call unit and the lighting unit hear last makes lit states and silences those there are, in either
order. -/
theorem State.lightsAndCallsIn_derives (f : Bool) (s : State) :
    ChangesOnly hearParts s (s.lightsAndCallsIn f) ∧ Sounded s (s.lightsAndCallsIn f) ∧
      LitDerived (s.lightsAndCallsIn f) ∧ SilencesDerived (s.lightsAndCallsIn f) := by
  have drawn := s.drawn_changes
  unfold State.lightsAndCallsIn
  split
  · have silences := s.drawn.deriveSilences_changes
    have lit := s.drawn.deriveSilences.announceLit_changes
    refine ⟨(drawn.andThen (rs := hearParts) silences).andThen lit,
      ((Sounded.drawn s).trans (.deriveSilences _)).trans (.announceLit _), State.announceLit_lit _, ?_⟩
    exact (State.deriveSilences_derived _).keep lit ((SilencesKept.lights _).announceLit (.refl _))
  · have lit := s.drawn.announceLit_changes
    have silences := s.drawn.announceLit.deriveSilences_changes
    refine ⟨(drawn.andThen (rs := hearParts) lit).andThen silences,
      ((Sounded.drawn s).trans (.announceLit _)).trans (.deriveSilences _), ?_, State.deriveSilences_derived _⟩
    exact (State.announceLit_lit _).keep (silences.same .settings (by decide)) (silences.same .lit (by decide))
      (Sounded.deriveSilences _).causes

theorem has_or (x y : AudSet) (a : Fin 3) : has (x ||| y) a = (has x a || has y a) := by simp [has]

/-- The auditoria that an announcement halts are those that a GENERAL one of its incidents concerns (R14). -/
theorem State.haltsOf_has (s : State) (ids : List (Fin 25)) (a : Fin 3) : has (s.haltsOf ids) a = true ↔
    ∃ x ∈ ids.filterMap s.incident?, x.stage = .general ∧ has x.auds a = true := by
  have grows : ∀ (ids : List (Fin 25)) (set : AudSet),
      has (ids.foldl (fun set i =>
        match s.incident? i with
        | some x => if x.stage = .general then set ||| x.auds else set
        | none => set) set) a = true ↔
      has set a = true ∨ ∃ x ∈ ids.filterMap s.incident?, x.stage = .general ∧ has x.auds a = true := by
    intro ids
    induction ids with
    | nil => simp
    | cons i ids ih =>
      intro set
      rw [List.foldl_cons, ih]
      cases slot : s.incident? i with
      | none => rw [List.filterMap_cons_none slot]
      | some x =>
        rw [List.filterMap_cons_some slot]
        by_cases general : x.stage = .general
        · simp [general, has_or, or_assoc]
        · simp [general]
  have none : has 0 a = false := by simp [has]
  exact (grows ids 0).trans (by rw [none]; simp)

/-- Announcing incidents tells every block that reads them, whatever it had heard before (R14, R25, R42, R115, R146,
R149). -/
theorem State.announceIncidents_announced (ids : List (Fin 25)) (s : State) :
    Announced ids s (s.announceIncidents ids) := by
  refine State.announceIncidents_orders (Announced ids s) ids s fun a b c d e f => ?_
  obtain ⟨u, order, halted⟩ := s.announcedIn_halts a b c d e f ids
  rw [order]
  have fire := s.evalHolds_changes .fire
  have holds := s.evalHolds_due .fire
  generalize s.evalHolds .fire = s0 at *
  have releases := u.fireReleases_changes ids
  have irons := u.fireReleases_iron ids
  generalize u.fireReleases ids = v at *
  obtain ⟨hears, sounded, lit, silences⟩ := v.lightsAndCallsIn_derives f
  generalize v.lightsAndCallsIn f = t at *
  have toU : ChangesOnly (.holds :: .perfs :: .retained :: hearParts) s u := fire.andThen halted.frame
  have toT : ChangesOnly (.irons :: .perfs :: .retained :: hearParts) s0 t :=
    (halted.frame.andThen (rs := .irons :: .perfs :: .retained :: hearParts) releases).andThen hears
  have incident? (w : State) (same : Part.incidents.same s w) : w.incident? = s.incident? := by
    funext i
    rw [State.incident?, State.incident?, same.1]
  have named : t.incident? = s.incident? :=
    incident? t (Part.same_trans (fire.same .incidents (by decide)) (toT.same .incidents (by decide)))
  have perf (i : Fin 3) : t.perfs[i] = if has (s0.haltsOf ids) i = true ∧ (s.phase i).haltable = true
      then { s.perfs[i] with phase := .halted } else s.perfs[i] := by
    have perfs0 : s0.perfs = s.perfs := fire.same .perfs (by decide)
    rw [hears.same .perfs (by decide), releases.same .perfs (by decide), halted.perf, State.phase, State.phase, perfs0]
  have told (i : Fin 3) : has (s0.haltsOf ids) i = true ↔
      ∃ x ∈ ids.filterMap t.incident?, x.stage = .general ∧ has x.auds i = true := by
    rw [State.haltsOf_has, named, incident? s0 (fire.same .incidents (by decide))]
  refine ⟨fun i => ⟨fun ⟨general, haltable⟩ => ?_, fun spared => ?_⟩, fun ch => ⟨?_, ?_⟩, ⟨?_, lit⟩, silences, ?_⟩
  · rw [perf, if_pos ⟨(told i).2 general, haltable⟩]
  · rw [perf, if_neg]
    rintro ⟨halts, haltable⟩
    obtain ⟨x, mem, general, concerned⟩ := (told i).1 halts
    rcases spared with none | still
    · rw [none x mem general] at concerned; cases concerned
    · rw [haltable] at still; cases still
  · rintro ⟨x, mem, burns⟩
    have same : u.irons = s.irons := toU.same .irons (by decide)
    have alike := State.burns_congr (s := s) (t := u) (ch := ch) (toU.same .settings (by decide)) (by rw [same]) x
    rw [hears.same .irons (by decide),
      (irons ch).1 ⟨x, by rw [incident? u (toU.same .incidents (by decide)), ← named]; exact mem, alike.2 burns⟩, same]
    exact State.burns_falls burns
  · intro spared
    have same : u.irons = s.irons := toU.same .irons (by decide)
    have alike := State.burns_congr (s := s) (t := u) (ch := ch) (toU.same .settings (by decide)) (by rw [same])
    rw [hears.same .irons (by decide), (irons ch).2, same]
    intro x mem burns
    rw [incident? u (toU.same .incidents (by decide)), ← named] at mem
    exact spared x mem ((alike x).1 burns)
  · refine (halted.causes.keep (releases.same .settings (by decide)) releases.generalSet ?_ ?_ ?_ ?_).sounded hears
      sounded
    · rw [show v.supply = u.supply from releases.same .supply (by decide)]
    · intro i
      rw [State.phase, State.phase, show v.perfs = u.perfs from releases.same .perfs (by decide)]
    · intro i
      rw [show v.perfs = u.perfs from releases.same .perfs (by decide)]
    · intro g
      rw [show v.groups = u.groups from releases.same .groups (by decide)]
  · intro i light
    have dark : t.phase i = .dark ↔ s0.phase i = .dark := by
      rw [← halted.dark i, State.phase, State.phase, hears.same .perfs (by decide), releases.same .perfs (by decide)]
    have slots : t.holds = s0.holds := (toT.same .holds (by decide)).1
    have reason : t.fireReason i = s0.fireReason i := by
      obtain ⟨incidents, order⟩ : t.incidents = s0.incidents ∧ t.incidentList = s0.incidentList :=
        toT.same .incidents (by decide)
      simp only [State.fireReason, State.openIncidents, incidents, order]
    rw [State.hold?, slots, reason]
    exact holds i fun d => light (dark.2 d)

end Sys2Proof.Machine
end

section
/-!
PROOFS. The incident list (R81..R101): what filling, changing and emptying a slot does, and that the list stays lawful.
-/

namespace Sys2Proof.Machine

/-! ## Slots of the incident list (R81) -/

section

variable (s : State) (i j : Fin 25) (x : Incident)

theorem State.fillIncident_incident? :
    (s.fillIncident i x).incident? j = if j = i then some x else s.incident? j := by
  change (put s.incidents i _)[j].incident = _
  rw [put_get]
  split
  · rfl
  · rfl

theorem State.emptyIncident_incident? :
    (s.emptyIncident i).incident? j = if j = i then none else s.incident? j := by
  change (put s.incidents i _)[j].incident = _
  rw [put_get]
  split
  · rfl
  · rfl

theorem State.writeIncident_incident? :
    (s.writeIncident i x).incident? j = if j = i then some x else s.incident? j := by
  rw [State.incident?, State.writeIncident_incidents, put_get]
  split
  · rfl
  · rfl

/-- A change of an open incident changes it alone, and none where the slot is empty. -/
theorem State.editIncident_incident? (f : Incident → Incident) :
    (s.editIncident i f).incident? j = if j = i then (s.incident? i).map f else s.incident? j := by
  unfold State.editIncident
  cases slot : s.incident? i with
  | none =>
    dsimp only
    split
    next e => rw [e, slot]; rfl
    · rfl
  | some x => exact State.writeIncident_incident? ..

theorem State.editIncident_list (f : Incident → Incident) : (s.editIncident i f).incidentList = s.incidentList := by
  unfold State.editIncident
  split
  · rfl
  · rw [State.writeIncident_incidentList]

theorem State.fillIncident_list : (s.fillIncident i x).incidentList = s.incidentList.erase i ++ [i] := rfl

theorem State.emptyIncident_list : (s.emptyIncident i).incidentList = s.incidentList.erase i := rfl

end

theorem mem_openIncidents {s : State} {x : Incident} :
    x ∈ s.openIncidents ↔ ∃ i ∈ s.incidentList, s.incident? i = some x := by
  simp [State.openIncidents, State.incident?]

theorem ChangesOnly.incident? {ps : List Part} {s t : State} (h : ChangesOnly ps s t) (i : Fin 25)
    (out : ps.contains .incidents = false := by rfl) : t.incident? i = s.incident? i := by
  obtain ⟨slots, -⟩ : t.incidents = s.incidents ∧ t.incidentList = s.incidentList := h.same .incidents (by simpa using out)
  rw [State.incident?, State.incident?, slots]

theorem ChangesOnly.openIncidents {ps : List Part} {s t : State} (h : ChangesOnly ps s t)
    (out : ps.contains .incidents = false := by rfl) : t.openIncidents = s.openIncidents := by
  obtain ⟨slots, order⟩ : t.incidents = s.incidents ∧ t.incidentList = s.incidentList :=
    h.same .incidents (by simpa using out)
  simp only [State.openIncidents, slots, order]

/-! ## Lawful lists -/

theorem IncidentsLawful.keep {s t : State} (h : IncidentsLawful s) (slots : ∀ i, t.incident? i = s.incident? i)
    (list : t.incidentList = s.incidentList) (zones : ∀ z : Fin 24, t.zones[z].incident = s.zones[z].incident) :
    IncidentsLawful t := by
  unfold IncidentsLawful at *
  simp only [slots, list, zones]
  exact h

theorem IncidentsLawful.of_changes {ps : List Part} {s t : State} (h : IncidentsLawful s) (frame : ChangesOnly ps s t)
    (hi : ps.contains .incidents = false := by rfl) (hz : ps.contains .zones = false := by rfl) : IncidentsLawful t := by
  have zones : t.zones = s.zones := frame.same .zones (by simpa using hz)
  exact h.keep (fun i => frame.incident? i hi) (frame.same .incidents (by simpa using hi)).2 fun z => by rw [zones]

/-- An open incident may change in all but its source, so long as its own fields agree. -/
theorem IncidentsLawful.edit {s : State} (h : IncidentsLawful s) (i : Fin 25) (f : Incident → Incident)
    (source : ∀ x, s.incident? i = some x → (f x).source = x.source)
    (lawful : ∀ x, s.incident? i = some x → x.lawful → (f x).lawful) : IncidentsLawful (s.editIncident i f) := by
  obtain ⟨once, filled, zones, station, own⟩ := h
  have any (p : Incident → Bool) (same : ∀ x, s.incident? i = some x → p (f x) = p x) (j : Fin 25) :
      ((s.editIncident i f).incident? j).any p = (s.incident? j).any p := by
    rw [State.editIncident_incident?]
    split
    next e =>
      subst e
      cases slot : s.incident? j with
      | none => rfl
      | some x => exact same x slot
    · rfl
  have ofZone (z : Fin 24) := any (Incident.ofZone z) fun x slot => by
    rw [Incident.ofZone, Incident.ofZone, source x slot]
  have ofStation := any Incident.ofStation fun x slot => by
    rw [Incident.ofStation, Incident.ofStation, source x slot]
  have kept : (s.editIncident i f).zones = s.zones := (State.editIncident_changes ..).same .zones (by decide)
  refine ⟨by rw [State.editIncident_list]; exact once, fun j => ?_, fun j z => ?_, fun j k => ?_, fun j x mem => ?_⟩
  · rw [State.editIncident_list, ← filled, State.editIncident_incident?]
    split
    next e => rw [e, Option.isSome_map]
    · rfl
  · rw [kept, ofZone, zones]
  · rw [ofStation, ofStation]
    exact station j k
  · rw [State.editIncident_incident?] at mem
    split at mem
    next e =>
      obtain ⟨y, slot, rfl⟩ := Option.map_eq_some_iff.1 mem
      exact lawful y slot (own i y slot)
    · exact own j x mem

theorem Incident.escalate_lawful {x : Incident} (why : EscalationCause) (h : x.lawful) : (x.escalate why).lawful := by
  unfold Incident.escalate
  split
  · simp [Incident.lawful]
  · exact h

theorem Incident.escalate_source (x : Incident) (why : EscalationCause) : (x.escalate why).source = x.source := by
  unfold Incident.escalate
  split
  · rfl
  · rfl

theorem IncidentsLawful.escalate {s : State} (h : IncidentsLawful s) (i : Fin 25) (why : EscalationCause) :
    IncidentsLawful (s.editIncident i (Incident.escalate why)) :=
  h.edit i _ (fun x _ => x.escalate_source why) fun _ _ => Incident.escalate_lawful why

theorem IncidentsLawful.escalateIncident {s : State} (h : IncidentsLawful s) (i : Fin 25) (why : EscalationCause) :
    IncidentsLawful (s.escalateIncident i why) :=
  ((h.escalate i why).of_changes (State.demandAll_changes _)).of_changes (State.announceIncidents_changes ..)

/-- A new incident in an empty slot, of a zone that has none open or of a station where no other station has, named by
its zone (R81, R85, R87). -/
theorem IncidentsLawful.fill {s t : State} (h : IncidentsLawful s) {i : Fin 25} {x : Incident}
    (empty : s.incident? i = none) (lawful : x.lawful)
    (alone : ∀ z, x.ofZone z = true → s.zones[z].incident = none)
    (single : x.ofStation = true → ∀ j, (s.incident? j).any Incident.ofStation = false)
    (slots : ∀ j, t.incident? j = if j = i then some x else s.incident? j)
    (list : t.incidentList = s.incidentList.erase i ++ [i])
    (names : ∀ z : Fin 24, t.zones[z].incident = if x.ofZone z then some i else s.zones[z].incident) :
    IncidentsLawful t := by
  obtain ⟨once, filled, zones, station, own⟩ := h
  have fresh : i ∉ s.incidentList := fun mem => by
    have := filled i
    rw [empty, List.contains_iff_mem.2 mem] at this
    cases this
  refine ⟨?_, fun j => ?_, fun j z => ?_, fun j k => ?_, fun j y mem => ?_⟩
  · rw [list, List.erase_of_not_mem fresh, List.nodup_append]
    exact ⟨once, by simp, fun u hu v hv e => fresh (by rw [List.mem_singleton.1 hv] at e; exact e ▸ hu)⟩
  · rw [list, List.erase_of_not_mem fresh, slots]
    by_cases e : j = i
    · simp [e]
    · simpa [e] using filled j
  · rw [names, slots]
    by_cases own : x.ofZone z = true
    · rw [if_pos own]
      have none' := alone z own
      by_cases e : j = i
      · simp [e, own]
      · rw [if_neg e, ← zones, none']
        simp [Ne.symm e]
    · rw [if_neg own]
      by_cases e : j = i
      · subst e
        have other : s.zones[z].incident ≠ some j := fun named => by
          rw [zones, empty] at named
          cases named
        simp [own, other, -Fin.getElem_fin]
      · rw [if_neg e, zones]
  · rw [slots, slots]
    intro hj hk
    by_cases e : j = i <;> by_cases e' : k = i
    · rw [e, e']
    · rw [if_pos e] at hj
      rw [if_neg e', single hj] at hk
      cases hk
    · rw [if_pos e'] at hk
      rw [if_neg e, single hk] at hj
      cases hj
    · rw [if_neg e] at hj
      rw [if_neg e'] at hk
      exact station j k hj hk
  · rw [slots] at mem
    split at mem
    · obtain rfl := Option.some.inj mem
      exact lawful
    · exact own j y mem

/-- A retired incident leaves its slot and the list, and its zone names none (R78, R101). -/
theorem IncidentsLawful.retire {s t : State} (h : IncidentsLawful s) {i : Fin 25} {x : Incident}
    (slot : s.incident? i = some x) (slots : ∀ j, t.incident? j = if j = i then none else s.incident? j)
    (list : t.incidentList = s.incidentList.erase i)
    (names : ∀ z : Fin 24, t.zones[z].incident = if x.ofZone z then none else s.zones[z].incident) :
    IncidentsLawful t := by
  obtain ⟨once, filled, zones, station, own⟩ := h
  have gone : ∀ j, j ∈ s.incidentList.erase i ↔ j ≠ i ∧ j ∈ s.incidentList := fun j => once.mem_erase_iff
  refine ⟨by rw [list]; exact once.erase i, fun j => ?_, fun j z => ?_, fun j k => ?_, fun j y mem => ?_⟩
  · rw [list, slots]
    by_cases e : j = i
    · subst e
      rw [if_pos rfl]
      exact (Bool.eq_false_iff.2 fun mem => ((gone j).1 (List.contains_iff_mem.1 mem)).1 rfl).symm
    · rw [if_neg e, filled, Bool.eq_iff_iff, List.contains_iff_mem, List.contains_iff_mem, gone]
      simp [e]
  · rw [names, slots]
    by_cases of : x.ofZone z = true
    · rw [if_pos of]
      have named : s.zones[z].incident = some i := (zones i z).2 (by rw [slot]; exact of)
      by_cases e : j = i
      · simp [e]
      · rw [if_neg e, ← zones, named]
        simp [Ne.symm e]
    · rw [if_neg of]
      by_cases e : j = i
      · subst e
        rw [if_pos rfl, zones, slot]
        simp [of]
      · rw [if_neg e, zones]
  · rw [slots, slots]
    intro hj hk
    split at hj
    · cases hj
    · split at hk
      · cases hk
      · exact station j k hj hk
  · rw [slots] at mem
    split at mem
    · cases mem
    · exact own j y mem

/-- The zone that raised an incident, or `z` for one a station raised. -/
def Incident.zoneOr (z : Fin 24) (x : Incident) : Fin 24 :=
  match x.source with
  | .zone w => w
  | .station _ => z

theorem Incident.zoneOr_cases (z : Fin 24) (x : Incident) :
    x.ofZone (x.zoneOr z) = true ∨ x.ofStation = true ∧ x.zoneOr z = z := by
  unfold Incident.zoneOr Incident.ofZone Incident.ofStation
  cases x.source <;> simp

/-- While a zone has no open incident the list is not full: the other zones and the stations can have 24 (R81). -/
theorem IncidentsLawful.not_full {s : State} (h : IncidentsLawful s) {z : Fin 24} (free : s.zones[z].incident = none) :
    ∃ i, s.freeIncidentSlot = some i := by
  obtain ⟨-, -, zones, station, -⟩ := h
  by_contra full
  have filled (i : Fin 25) : ∃ x, s.incident? i = some x := by
    have none := List.find?_eq_none.1 (Option.eq_none_iff_forall_ne_some.2 fun i e => full ⟨i, e⟩ :
      s.freeIncidentSlot = none) i (List.mem_finRange i)
    exact Option.ne_none_iff_exists'.1 (by simpa using none)
  choose x slot using filled
  have named {i : Fin 25} {w : Fin 24} (of : (x i).ofZone w = true) : s.zones[w].incident = some i :=
    (zones i w).2 (by rw [slot]; exact of)
  have apart {i : Fin 25} (of : (x i).ofZone z = true) : False := by
    have open? := named of
    rw [free] at open?
    cases open?
  have inj : Function.Injective fun i => (x i).zoneOr z := by
    intro i j (same : (x i).zoneOr z = (x j).zoneOr z)
    rcases (x i).zoneOr_cases z with hi | ⟨hi, at_i⟩ <;> rcases (x j).zoneOr_cases z with hj | ⟨hj, at_j⟩
    · have e := named hi
      rw [same, named hj] at e
      exact (Option.some.inj e).symm
    · rw [same, at_j] at hi
      exact (apart hi).elim
    · rw [← same, at_i] at hj
      exact (apart hj).elim
    · exact station i j (by rw [slot]; exact hi) (by rw [slot]; exact hj)
  have := Fintype.card_le_of_injective _ inj
  simp at this

end Sys2Proof.Machine
end

section
/-!
PROOFS. The incident list stays lawful, so no confirmation meets a full list, and no step is refused (R81, R82, R87).
-/

namespace Sys2Proof.Machine

-- One declaration at a time: side conditions closed by tactics wait for what stands before them.
set_option Elab.async false

/-! ## Zones and the incident they name -/

theorem State.writeZone_incident (s : State) (z : Fin 24) (x : Zone) (w : Fin 24) :
    (s.writeZone z x).zones[w].incident = if w = z then x.incident else s.zones[w].incident := by
  rw [State.writeZone_zones, put_get]
  split
  · rfl
  · rfl

theorem Zone.startConfirm_incident (x : Zone) (now time : Nat) : (x.startConfirm now time).incident = x.incident := rfl

theorem Zone.confirmation_incident (x : Zone) (now : Nat) (cfg : ZoneSettings) (b : Band) :
    (x.confirmation now cfg b).incident = x.incident := by
  unfold Zone.confirmation Zone.transient
  split <;> split <;> rfl

theorem Zone.loopTimer_incident (x : Zone) (now : Nat) (b : Band) : (x.loopTimer now b).incident = x.incident := by
  unfold Zone.loopTimer
  split
  · rfl
  · split
    · split <;> rfl
    · rfl

theorem Zone.setIsolated_incident (x : Zone) (now time : Nat) (on : Bool) :
    (x.setIsolated now time on).incident = x.incident := by
  unfold Zone.setIsolated Zone.isolate Zone.restore
  split
  · rfl
  · split
    · rfl
    · dsimp only
      split <;> rfl

theorem Zone.acted_incident (x : Zone) (now time : Nat) (fs : List FieldVal) : (x.acted now time fs).incident = x.incident := by
  have reset : (if carries fs 128 then x.resetNoise else x).incident = x.incident := by
    split <;> rfl
  unfold Zone.acted
  dsimp only
  split
  · exact reset
  · exact (Zone.setIsolated_incident ..).trans reset

theorem Zone.readBand_incident (x : Zone) (now time : Nat) (b : Band) : (x.readBand now time b).incident = x.incident := by
  unfold Zone.readBand
  dsimp only
  split <;> rfl

theorem Zone.atStart_incident (now : Nat) (cfg : ZoneSettings) (b : Band) : (Zone.atStart now cfg b).incident = none := by
  unfold Zone.atStart
  split
  · exact Zone.readBand_incident ..
  · rfl

theorem Zone.softRestart_incident (x : Zone) (now : Nat) (cfg : ZoneSettings) (b : Band) :
    (x.softRestart now cfg b).incident = x.incident := by
  unfold Zone.softRestart
  split
  · exact Zone.readBand_incident ..
  · rfl

/-! ## The operations of the detection and alarm units -/

theorem IncidentsLawful.writeZone {s : State} (h : IncidentsLawful s) (z : Fin 24) (x : Zone)
    (same : x.incident = s.zones[z].incident) : IncidentsLawful (s.writeZone z x) := by
  have frame := State.writeZone_changes s z x
  refine h.keep (fun i => frame.incident? i) (frame.same .incidents (by decide)).2 fun w => ?_
  rw [State.writeZone_incident]
  split
  next e => rw [e, same]
  · rfl

theorem IncidentsLawful.deriveCondition {s : State} (h : IncidentsLawful s) (z : Fin 24) :
    IncidentsLawful (s.deriveCondition z) := by
  unfold State.deriveCondition
  dsimp only
  split
  · exact h
  · refine IncidentsLawful.of_changes (h.writeZone z _ ?_) (State.evalHolds_changes ..)
    rfl

theorem IncidentsLawful.reach {s : State} (h : IncidentsLawful s) (t : Nat) : IncidentsLawful (s.reach t) :=
  h.of_changes (s.reach_changes t)

theorem IncidentsLawful.bandChanges {s : State} (h : IncidentsLawful s) (z : Fin 24) (b : Band) :
    IncidentsLawful (s.bandChanges z b) := by
  have read : IncidentsLawful { s with lines := { s.lines with bands := put s.lines.bands z b } } := h
  unfold State.bandChanges
  dsimp only
  split
  · exact read
  · refine (read.writeZone z _ ?_).deriveCondition z
    exact (Zone.loopTimer_incident ..).trans (Zone.confirmation_incident ..)

theorem IncidentsLawful.quietRuns {s : State} (h : IncidentsLawful s) (z : Fin 24) : IncidentsLawful (s.quietRuns z) := by
  unfold State.quietRuns
  dsimp only
  split
  · exact h
  · refine ((h.reach _).writeZone z _ ?_).deriveCondition z
    rfl

theorem IncidentsLawful.loopRuns {s : State} (h : IncidentsLawful s) (z : Fin 24) : IncidentsLawful (s.loopRuns z) := by
  unfold State.loopRuns
  dsimp only
  split
  · exact h
  · refine ((h.reach _).writeZone z _ ?_).deriveCondition z
    rfl

/-- A zone that names no incident is set up anew without one (R66, R79). -/
theorem IncidentsLawful.zonePresence {s : State} (h : IncidentsLawful s) {z : Fin 24}
    (free : s.zones[z].incident = none) : IncidentsLawful (s.zonePresence z) := by
  have set := (h.writeZone z (Zone.atStart s.now s.settings.zones[z] s.lines.bands[z])
    ((Zone.atStart_incident ..).trans free.symm)).of_changes (State.mark_changes _ .zone)
  unfold State.zonePresence
  dsimp only
  split
  · exact set
  · exact set.of_changes (State.evalHolds_changes ..)

theorem IncidentsLawful.applyZone {s : State} (h : IncidentsLawful s) {z : Fin 24} {fs : List FieldVal}
    {new : ZoneSettings} (bar : s.zoneBar z fs new = false) : IncidentsLawful (s.applyZone z fs new) := by
  rw [State.applyZone_settled]
  have noted := h.of_changes (State.settled_changes s (s.settings.withZone z new) (s.settings.zones[z] != new))
  have zones : (s.settled (s.settings.withZone z new) (s.settings.zones[z] != new)).zones = s.zones :=
    (State.settled_changes ..).same .zones (by decide)
  refine IncidentsLawful.of_changes ?_ (State.serveZone_changes ..)
  unfold State.actZone
  split
  next moved =>
    refine noted.zonePresence ?_
    rw [zones]
    unfold State.zoneBar at bar
    simp only [Bool.or_eq_false_iff, Bool.and_eq_false_iff] at bar
    obtain ⟨⟨same, -⟩ | ⟨-, none⟩, -⟩ := bar
    · rw [bne_comm, same] at moved
      cases moved
    · simpa using none
  · split
    · exact (noted.writeZone z _ (Zone.acted_incident ..)).deriveCondition z
    · exact noted

theorem IncidentsLawful.restartZones {s : State} (h : IncidentsLawful s) : IncidentsLawful s.restartZones := by
  unfold State.restartZones
  refine forAll_keeps IncidentsLawful _ (fun z s h => ?_) s h
  have set := h.writeZone z (s.zones[z].softRestart s.now s.settings.zones[z] s.lines.bands[z])
    (Zone.softRestart_incident ..)
  dsimp only
  split
  · exact set
  · exact set.of_changes (State.evalHolds_changes ..)

theorem IncidentsLawful.softRestart {s : State} (h : IncidentsLawful s) (loads : BitVec 16) :
    IncidentsLawful (s.softRestart loads) := by
  have idle := (h.of_changes s.dropCalls_changes).of_changes (State.restartLights_changes _)
  have set := (idle.of_changes (State.restartCircuits_changes _ loads)).restartZones
  unfold State.softRestart
  dsimp only
  refine IncidentsLawful.of_changes (IncidentsLawful.of_changes ?_ (State.restartLink_changes _)) (State.flagAll_changes _)
  exact (set.of_changes (State.restartIrons_changes _)).of_changes (State.writeSupply_changes ..)

/-- A start leaves no incident, and no zone names one (R79, R102). -/
theorem incidentsLawful_of_none {s : State} (list : s.incidentList = []) (slots : ∀ i, s.incident? i = none)
    (zones : ∀ z : Fin 24, s.zones[z].incident = none) : IncidentsLawful s := by
  unfold IncidentsLawful
  simp [list, slots, zones, -Fin.getElem_fin]

theorem IncidentsLawful.start (p : Plant) (fromPin : Bool) (s : State) : IncidentsLawful (s.start p fromPin) := by
  have set : IncidentsLawful (s.loadSettings.setUp p fromPin) := by
    refine incidentsLawful_of_none rfl (fun i => ?_) fun z => ?_
    · change (tab _ : Vector IncidentSlot 25)[i].incident = none
      rw [tab_get]
    · change (tab _ : Vector Zone 24)[z].incident = none
      rw [tab_get]
      exact Zone.atStart_incident ..
  unfold State.start
  refine IncidentsLawful.of_changes ?_ (State.flagAll_changes _)
  have lights : IncidentsLawful (s.loadSettings.setUp p fromPin).writeRetained.startLights := set
  exact forAll_keeps IncidentsLawful _ (fun a t h => h.of_changes (State.evalAllHolds_changes a t)) _ lights

/-! ### Raising and retiring -/

theorem State.startStage_cause (s : State) (z : Fin 24) :
    (s.startStage z).1 = .general ∧ (s.startStage z).2.isSome = true ∨ s.startStage z = (.staff, none) := by
  unfold State.startStage
  dsimp only
  split
  · exact .inl ⟨rfl, rfl⟩
  · split
    · exact .inl ⟨rfl, rfl⟩
    · split
      · exact .inl ⟨rfl, rfl⟩
      · exact .inr rfl

theorem State.newZoneIncident_lawful (s : State) (z : Fin 24) : (s.newZoneIncident z).lawful := by
  unfold State.newZoneIncident Incident.lawful
  dsimp only
  obtain ⟨stage, cause⟩ | start := s.startStage_cause z
  · simp [stage, cause]
  · simp [start]

theorem State.newZoneIncident_source (s : State) (z : Fin 24) : (s.newZoneIncident z).source = .zone z := rfl

theorem State.freeIncidentSlot_empty {s : State} {i : Fin 25} (free : s.freeIncidentSlot = some i) :
    s.incident? i = none := by
  simpa using firstIx_some _ _ free

theorem State.stationIncident_none {s : State} (h : IncidentsLawful s) (none : s.stationIncident = none) (j : Fin 25) :
    (s.incident? j).any Incident.ofStation = false := by
  obtain ⟨-, filled, -⟩ := h
  cases slot : s.incident? j with
  | none => rfl
  | some x =>
    have listed : j ∈ s.incidentList := List.contains_iff_mem.1 ((filled j).symm.trans (by rw [slot]; rfl))
    have other := List.find?_eq_none.1 none j listed
    rw [slot] at other
    dsimp only at other
    unfold Incident.ofStation
    cases source : x.source <;> simp_all

/-- A zone that names no incident raises one in a free slot; those that share its auditoriums escalate (R85, R86). -/
theorem IncidentsLawful.raiseZoneIncident {s : State} (h : IncidentsLawful s) {z : Fin 24} {i : Fin 25}
    (none : s.zones[z].incident = none) (free : s.freeIncidentSlot = some i) :
    IncidentsLawful (s.raiseZoneIncident z i) := by
  have empty := State.freeIncidentSlot_empty free
  have raised : IncidentsLawful ((s.fillIncident i (s.newZoneIncident z)).writeZone z
      { (s.fillIncident i (s.newZoneIncident z)).zones[z] with incident := some i }) := by
    have frame := State.writeZone_changes (s.fillIncident i (s.newZoneIncident z)) z
      { (s.fillIncident i (s.newZoneIncident z)).zones[z] with incident := some i }
    refine h.fill empty (s.newZoneIncident_lawful z) (fun w of => ?_) (fun of => ?_) (fun j => ?_) ?_ fun w => ?_
    · rw [Incident.ofZone, s.newZoneIncident_source] at of
      obtain rfl : z = w := by simpa using of
      exact none
    · rw [Incident.ofStation, s.newZoneIncident_source] at of
      cases of
    · rw [frame.incident?, State.fillIncident_incident?]
    · exact (frame.same .incidents (by decide)).2
    · rw [State.writeZone_incident, Incident.ofZone, s.newZoneIncident_source]
      by_cases e : w = z
      · simp [e]
      · rw [if_neg e, if_neg (by simpa using Ne.symm e)]
        rfl
  unfold State.raiseZoneIncident
  dsimp only
  refine IncidentsLawful.of_changes (IncidentsLawful.of_changes ?_ (State.demandAll_changes _))
    (State.announceIncidents_changes ..)
  exact foldl_keeps IncidentsLawful _ (fun t j h => h.escalate j .secondZone) _ _ raised

theorem IncidentsLawful.reactivate {s : State} (h : IncidentsLawful s) (i : Fin 25) : IncidentsLawful (s.reactivate i) := by
  unfold State.reactivate
  refine IncidentsLawful.of_changes (IncidentsLawful.of_changes ?_ (State.demandAll_changes _)) (State.mark_changes ..)
  exact h.edit i _ (fun _ _ => rfl) fun _ _ => id

theorem IncidentsLawful.raiseStationIncident {s : State} (h : IncidentsLawful s) (st : Fin 8) (set : AudSet) {i : Fin 25}
    (none : s.stationIncident = none) (free : s.freeIncidentSlot = some i) :
    IncidentsLawful (s.raiseStationIncident st set i) := by
  unfold State.raiseStationIncident
  refine IncidentsLawful.of_changes (IncidentsLawful.of_changes ?_ (State.demandAll_changes _))
    (State.announceIncidents_changes ..)
  refine h.fill (State.freeIncidentSlot_empty free) (by simp [Incident.lawful]) (fun z of => ?_)
    (fun _ => State.stationIncident_none h none) (fun j => State.fillIncident_incident? ..) rfl fun z => ?_
  · cases of
  · rfl

theorem IncidentsLawful.widenIncident {s : State} (h : IncidentsLawful s) (i : Fin 25) (set : AudSet) :
    IncidentsLawful (s.widenIncident i set) := by
  have widened := h.edit i (fun x => { x with auds := x.auds ||| set, silenced := false }) (fun _ _ => rfl) fun _ _ => id
  unfold State.editIncident at widened
  unfold State.widenIncident
  split
  · exact h
  next x slot =>
    rw [slot] at widened
    have demanded := widened.of_changes (State.demandAll_changes _)
    dsimp only
    split
    · exact demanded
    · exact demanded.of_changes (State.announceIncidents_changes ..)

theorem IncidentsLawful.acknowledge {s : State} (h : IncidentsLawful s) {i : Fin 25} {x : Incident} (st : Fin 8)
    (slot : s.incident? i = some x) (staff : x.stage = .staff) : IncidentsLawful (s.acknowledgeIncident i st) := by
  unfold State.acknowledgeIncident
  refine IncidentsLawful.of_changes (h.edit i _ ?_ ?_) (State.demandAlert_changes _)
  · exact fun _ _ => rfl
  · intro y open? lawful
    obtain rfl : x = y := Option.some.inj (slot.symm.trans open?)
    exact ⟨by simp [staff], lawful.2⟩

theorem IncidentsLawful.silenceIncident {s : State} (h : IncidentsLawful s) (i : Fin 25) :
    IncidentsLawful (s.silenceIncident i) := by
  unfold State.silenceIncident
  refine IncidentsLawful.of_changes (h.edit i _ ?_ ?_) (State.demandSounders_changes _)
  · exact fun _ _ => rfl
  · exact fun _ _ => id

theorem IncidentsLawful.actIncident {s : State} (h : IncidentsLawful s) {i : Fin 25} {x : Incident} (st : Fin 8)
    {fs : List FieldVal} (slot : s.incident? i = some x) (stage : wrongStage x fs = false) :
    IncidentsLawful (s.actIncident i x st fs) := by
  unfold State.actIncident
  split
  next ack =>
    split
    · refine h.acknowledge st slot ?_
      cases staff : x.stage with
      | staff => rfl
      | general => simp [wrongStage, ack, staff] at stage
    · exact h
  · split
    · split
      · exact h.escalateIncident i .manual
      · exact h
    · split
      · split
        · exact h
        · exact h.silenceIncident i
      · exact h

theorem IncidentsLawful.retireIncidentAt {s : State} (h : IncidentsLawful s) (i : Fin 25) :
    IncidentsLawful (s.retireIncidentAt i) := by
  unfold State.retireIncidentAt
  split
  · exact h
  next x slot =>
    dsimp only
    refine IncidentsLawful.of_changes (IncidentsLawful.of_changes (IncidentsLawful.of_changes ?_
      (State.evalHolds_changes ..)) (State.refreshLights_changes _)) (State.deriveSilences_changes _)
    have demanded := State.demandAll_changes (s.emptyIncident i)
    have slots (j : Fin 25) : (s.emptyIncident i).demandAll.incident? j = if j = i then none else s.incident? j :=
      (demanded.incident? j).trans (State.emptyIncident_incident? ..)
    have list : (s.emptyIncident i).demandAll.incidentList = s.incidentList.erase i :=
      (demanded.same .incidents (by decide)).2
    have zones : (s.emptyIncident i).demandAll.zones = s.zones := demanded.same .zones (by decide)
    generalize (s.emptyIncident i).demandAll = u at *
    split
    next z source =>
      have frame : ChangesOnly [.zones, .stations] u (u.zoneRetired z) := State.zoneRetired_changes ..
      refine h.retire slot (fun j => (frame.incident? j).trans (slots j))
        ((frame.same .incidents (by decide)).2.trans list) fun w => ?_
      unfold State.zoneRetired
      dsimp only
      rw [State.mark_zones, State.writeZone_incident, zones, Incident.ofZone, source]
      by_cases e : w = z
      · simp [e]
      · rw [if_neg e, if_neg (by simpa using Ne.symm e)]
    next st source =>
      refine h.retire slot slots list fun w => ?_
      rw [zones, Incident.ofZone, source]
      rfl

/-! ## Decisions and events -/

theorem State.namedIncident_slot {s : State} {r : Req} {i : Fin 25} {x : Incident} (h : s.namedIncident r = some (i, x)) :
    s.incident? i = some x := by
  obtain ⟨j, -, named⟩ := Option.bind_eq_some_iff.1 h
  split at named
  · obtain ⟨y, slot, e⟩ := Option.map_eq_some_iff.1 named
    cases e
    exact slot
  · cases named

/-- Every decision keeps the incident list lawful: those about incidents and zones by their operations, the others leave
both alone. -/
theorem IncidentsLawful.decided {code : ReqCode} {q : Ask} {s : State} {v : Verdict} (h : IncidentsLawful s)
    (d : Decides code q s v) : IncidentsLawful v.2 := by
  cases d with
  | restarts => exact h.softRestart _
  | amendsZone _ z new _ _ _ _ _ _ _ bar => exact h.applyZone bar
  | widens _ i set => exact h.widenIncident i set
  | raisesIncident _ i set _ _ none free => exact h.raiseStationIncident q.st set none free
  | actsIncident _ i x _ _ named _ stage => exact h.actIncident q.st (State.namedIncident_slot named) stage
  | retiresIncident _ i => exact h.retireIncidentAt i
  | stays => exact h
  | looks => exact h.of_changes (State.lookClears_changes ..)
  | arms => exact h.of_changes (State.arm_changes ..)
  | stores => exact h.of_changes (State.beginStore_changes s)
  | blocks => exact h.of_changes (State.mark_changes ..)
  | enters => exact h.of_changes (State.enter_changes ..)
  | amendsPerf => exact h.of_changes (State.applyPerf_changes ..)
  | amendsIron => exact h.of_changes (State.applyIron_changes ..)
  | targets => exact h.of_changes (State.applyTarget_changes ..)
  | amendsGroup => exact h.of_changes (State.applyGroup_changes ..)
  | amendsCZone a z new =>
    exact h.of_changes ((State.settle_changes ..).andThen (ps := [.settings, .store, .stations])
      (rs := [.settings, .store] ++ lightParts) (State.czoneAmended_changes ..))
  | amendsCircuit => exact h.of_changes (State.applyCircuit_changes ..)
  | amendsStatus => exact h.of_changes (State.applyStatus_changes ..)
  | amendsStation => exact h.of_changes (State.applyStation_changes ..)
  | raisesHold => exact h.of_changes (State.fillHold_changes ..)
  | retiresHold => exact h.of_changes (State.emptyHold_changes ..)
  | raisesCall _ _ _ c room _ _ _ _ found =>
    exact (h.of_changes (State.roomForCall_changes found)).of_changes (State.fillCall_changes ..)
  | amendsCall => exact h.of_changes (State.amendCallAt_changes ..)
  | retiresCall => exact h.of_changes (State.retireCallAt_changes ..)

theorem IncidentsLawful.confirms {s t : State} (h : IncidentsLawful s) {z : Fin 24} (run : s.confirms z = .next t) :
    IncidentsLawful t := by
  obtain rfl | ⟨time, u, -, -, hu, ends⟩ := State.confirms_cases run
  · exact h
  have alarm : IncidentsLawful u := hu ▸ (h.reach time).writeZone z _ rfl
  have named : u.zones[z].incident = s.zones[z].incident := by
    rw [hu, State.writeZone_incident, if_pos rfl]
  obtain ⟨i, none, free, rfl⟩ | ⟨i, -, -, rfl⟩ | ⟨-, -, rfl⟩ := ends
  · exact alarm.raiseZoneIncident (named.trans none) free
  · exact alarm.reactivate i
  · exact alarm

theorem IncidentsLawful.takes {s t : State} {f : State → State} (run : s.takes f = .next t) (h : IncidentsLawful s)
    (taken : IncidentsLawful (f s)) : IncidentsLawful t := by
  unfold State.takes at run
  obtain rfl := Host.Outcome.next.inj run
  split
  · exact taken
  · exact h

theorem IncidentsLawful.ackRunsOut {s : State} (h : IncidentsLawful s) (i : Fin 25) : IncidentsLawful (s.ackRunsOut i) := by
  unfold State.ackRunsOut
  split
  · exact h
  · split
    · exact (h.reach _).escalateIncident i _
    · exact h

theorem IncidentsLawful.investigationRunsOut {s : State} (h : IncidentsLawful s) (i : Fin 25) :
    IncidentsLawful (s.investigationRunsOut i) := by
  unfold State.investigationRunsOut
  split
  · exact h
  · split
    · exact (h.reach _).escalateIncident i _
    · exact h

theorem IncidentsLawful.event {i : Instr} {s t : State} (run : exec i s = .next t) (event : requestOf i = none)
    (known : ∀ code kind r, i ≠ .unknownRequest code kind r) (h : IncidentsLawful s) : IncidentsLawful t := by
  have frame := commandsTouchOnlyTheirParts i s t run
  cases i with
  | bandEvent z b => exact .takes run h (h.bandChanges z b)
  | confirmTimerExpiry z =>
    simp only [exec, execConfirmTimerExpiry] at run
    split at run
    · exact h.confirms run
    · cases run; exact h
  | quietTimerExpiry z => exact .takes run h (h.quietRuns z)
  | loopTimerExpiry z => exact .takes run h (h.loopRuns z)
  | acknowledgeTimerExpiry i => exact .takes run h (h.ackRunsOut i)
  | investigationTimerExpiry i => exact .takes run h (h.investigationRunsOut i)
  | coldStart p =>
    obtain rfl : s.start p false = t := Host.Outcome.next.inj run
    exact .start ..
  | resetPin p => exact .takes run h (.start p true s)
  | _ => first
    | exact h.of_changes frame
    | cases event

theorem IncidentsLawful.exec {i : Instr} {s t : State} (h : IncidentsLawful s) (run : exec i s = .next t) :
    IncidentsLawful t :=
  exec_keeps (fun u h => h.of_changes u.frameGood_changes) (fun u h => h.of_changes u.frameFails_changes)
    (fun u n b a h => h.of_changes (u.reply_changes n b a)) (fun _ _ _ _ h decided => h.decided decided)
    (fun none known h => h.event run none known) h run

/-- A confirmation is taken in every state but where it finds the list full, and a lawful list is not (log entry 15). -/
theorem State.confirms_next {s : State} (h : IncidentsLawful s) (z : Fin 24) : ∃ t, s.confirms z = .next t := by
  unfold State.confirms
  dsimp only
  split
  next time pending running =>
    have alarm := (h.reach time).writeZone z
      { s.zones[z] with detection := .alarm, confirmAt := none } rfl
    have named := State.writeZone_incident (s.reach time) z
      { s.zones[z] with detection := .alarm, confirmAt := none } z
    rw [if_pos rfl] at named
    generalize (s.reach time).writeZone z _ = u at *
    split
    next none =>
      obtain ⟨i, free⟩ := alarm.not_full (named.trans none)
      rw [free]
      exact ⟨_, rfl⟩
    all_goals exact ⟨_, rfl⟩
  · exact ⟨s, rfl⟩

/-- What a command comes to: a next state, or a confirmation's. -/
theorem exec_next_or_confirms (i : Instr) (s : State) : (∃ t, exec i s = .next t) ∨ ∃ z, exec i s = s.confirms z := by
  cases named : requestOf i with
  | some request =>
    obtain ⟨code, kind, r⟩ := request
    obtain ⟨t, ran, -⟩ := exec_served named s
    exact .inl ⟨t, ran⟩
  | none =>
    cases i with
    | confirmTimerExpiry z =>
      simp only [Machine.exec, execConfirmTimerExpiry]
      split
      · exact .inr ⟨z, rfl⟩
      · exact .inl ⟨s, rfl⟩
    | _ => first
      | exact .inl ⟨_, rfl⟩
      | cases named

theorem State.confirms_not_refused (s : State) (z : Fin 24) (r : Refusal) : s.confirms z ≠ .refused r := by
  unfold State.confirms
  dsimp only
  split
  · split
    · split <;> exact nofun
    all_goals exact nofun
  · exact nofun

theorem exec_takes {s : State} (h : IncidentsLawful s) (i : Instr) : ∃ t, Machine.exec i s = .next t := by
  obtain next | ⟨z, ran⟩ := exec_next_or_confirms i s
  · exact next
  · rw [ran]
    exact State.confirms_next h z

theorem exec_not_refused (i : Instr) (s : State) (r : Refusal) : Machine.exec i s ≠ .refused r := by
  obtain ⟨t, ran⟩ | ⟨z, ran⟩ := exec_next_or_confirms i s
  · rw [ran]
    exact nofun
  · rw [ran]
    exact s.confirms_not_refused z r

/-- A step runs the front command, or answers a next state. -/
theorem step_cases (s : State) : (∃ t, step s = .next t) ∨ ∃ i rest, step s = exec i { s with pending := rest } := by
  obtain ⟨front, idle, off⟩ := stepRunsFrontCommand
  cases pending : s.pending with
  | cons i rest => exact .inr ⟨i, rest, front s i rest pending⟩
  | nil =>
    cases powered : s.powered
    · exact .inl ⟨_, off s pending powered⟩
    · exact .inl ⟨_, idle s pending powered⟩

/-- Settles O12: every operation keeps the list lawful, and a lawful list is never full when a zone confirms. -/
theorem incidentsStayLawful : Obligations.IncidentsStayLawful := by
  unfold Obligations.IncidentsStayLawful
  refine ⟨fun s t h run => ?_, fun s f h fault => ?_, fun s r refused => ?_⟩
  · exact step_keeps (fun u n h => h) (fun u rest h => h) (fun i u w h ran => h.exec ran) h run
  · obtain ⟨t, ran⟩ | ⟨i, rest, ran⟩ := step_cases s
    · rw [ran] at fault
      cases fault
    · have queued : IncidentsLawful { s with pending := rest } := h
      obtain ⟨t, next⟩ := exec_takes queued i
      rw [ran, next] at fault
      cases fault
  · obtain ⟨t, ran⟩ | ⟨i, rest, ran⟩ := step_cases s
    · rw [ran] at refused
      cases refused
    · exact exec_not_refused i _ r (ran.symm.trans refused)

end Sys2Proof.Machine
end

section
/-!
PROOFS. The automatic holds stand while their conditions do, through every operation (R20..R28): an operation leaves
what a condition is read from, or has the holds of its cause evaluated.
-/

namespace Sys2Proof.Machine

-- One declaration at a time: side conditions closed by tactics wait for what stands before them.
set_option Elab.async false

/-- Whatever holds are lawful in `s` are lawful in `t`. -/
structure HoldsKept (s t : State) : Prop where
  keep : ∀ ok, HoldsLawfulFor ok s → HoldsLawfulFor ok t

/-- Whatever holds are lawful in `s` are lawful in `t`, but for those of cause `c`. -/
structure HoldsBut (c : HoldCause) (s t : State) : Prop where
  keep : ∀ ok, HoldsLawfulFor ok s → HoldsLawfulFor (fun d b => ok d b ∧ d ≠ c) t

/-- What the hold lists and the conditions of the automatic holds are read from. -/
def holdsRead : List Part := [.settings, .holds, .perfs, .irons, .zones, .incidents, .circuits, .supply, .link]

theorem holdReason_out {ps : List Part} {c : HoldCause} (out : ∀ p ∈ holdsRead, ps.contains p = false) :
    ∀ p ∈ reasonParts c, ps.contains p = false :=
  fun p mem => out p (by revert mem; cases c <;> cases p <;> simp [reasonParts, holdsRead])

namespace HoldsKept

variable {s t u : State}

theorem refl (s : State) : HoldsKept s s := ⟨fun _ h => h⟩

theorem trans (h : HoldsKept s t) (k : HoldsKept t u) : HoldsKept s u := ⟨fun ok lawful => k.keep ok (h.keep ok lawful)⟩

/-- What leaves the lists, the DARK performances and every condition. -/
theorem of_reasons (holds : t.holds = s.holds ∧ t.holdLists = s.holdLists)
    (dark : ∀ a, t.phase a = .dark ↔ s.phase a = .dark)
    (reasons : ∀ c a, (t.holdReason a c).isSome = (s.holdReason a c).isSome) : HoldsKept s t :=
  ⟨fun _ h => h.keep holds dark (fun _ _ => id) fun c a _ _ => reasons c a⟩

theorem of_changes {ps : List Part} (h : ChangesOnly ps s t)
    (out : ∀ p ∈ holdsRead, ps.contains p = false := by decide) : HoldsKept s t := by
  have perfs : t.perfs = s.perfs := h.same .perfs (by simpa using out .perfs (by decide))
  refine of_reasons (h.same .holds (by simpa using out .holds (by decide))) (fun a => ?_) fun c a => ?_
  · simp only [State.phase, perfs]
  · rw [h.holdReason_of a (holdReason_out out)]

/-- A condition is left, but that of cause `c`. -/
theorem but_of_reasons {c : HoldCause} (holds : t.holds = s.holds ∧ t.holdLists = s.holdLists)
    (dark : ∀ a, t.phase a = .dark ↔ s.phase a = .dark)
    (reasons : ∀ d a, d ≠ c → (t.holdReason a d).isSome = (s.holdReason a d).isSome) : HoldsBut c s t :=
  ⟨fun _ h => h.keep holds dark (fun _ _ => And.left) fun d a _ mem => reasons d a mem.2⟩

theorem but (h : HoldsKept s t) (c : HoldCause) : HoldsBut c s t :=
  ⟨fun ok lawful => (h.keep ok lawful).mono fun _ _ => And.left⟩

theorem evalHolds {c : HoldCause} (s : State) (auto : c.automatic) : HoldsKept s (s.evalHolds c) :=
  ⟨fun _ h => HoldsLawfulFor.evalHolds (h.mono fun _ _ => And.left) auto⟩

end HoldsKept

namespace HoldsBut

variable {s t u : State} {c : HoldCause}

theorem trans (h : HoldsBut c s t) (k : HoldsKept t u) : HoldsBut c s u := ⟨fun ok lawful => k.keep _ (h.keep ok lawful)⟩

theorem after (h : HoldsKept s t) (k : HoldsBut c t u) : HoldsBut c s u := ⟨fun ok lawful => k.keep ok (h.keep ok lawful)⟩

/-- The announcement that follows a change makes the holds of its cause due again (R23). -/
theorem evalHolds (h : HoldsBut c s t) (auto : c.automatic) : HoldsKept s (t.evalHolds c) :=
  ⟨fun ok lawful => HoldsLawfulFor.evalHolds (h.keep ok lawful) auto⟩

/-- What changes only parts that cause `c` alone is read from. -/
theorem of_changes {ps : List Part} (h : ChangesOnly ps s t)
    (holds : ps.contains .holds = false := by decide) (perfs : ps.contains .perfs = false := by decide)
    (out : ([HoldCause.station, .iron, .fire, .supply, .system].all fun d =>
      d == c || (reasonParts d).all fun p => !ps.contains p) = true := by rfl) : HoldsBut c s t := by
  have out (d : HoldCause) (ne : d ≠ c) (p : Part) (mem : p ∈ reasonParts d) : ps.contains p = false := by
    have either := List.all_eq_true.1 out d (by cases d <;> decide)
    rw [Bool.or_eq_true, beq_iff_eq] at either
    simpa using List.all_eq_true.1 (either.resolve_left ne) p mem
  have perfs : t.perfs = s.perfs := h.same .perfs (by simpa using perfs)
  refine HoldsKept.but_of_reasons (h.same .holds (by simpa using holds)) (fun a => ?_) fun d a ne => ?_
  · simp only [State.phase, perfs]
  · rw [h.holdReason_of a (out d ne)]

end HoldsBut

namespace HoldsKept

/-! ## Lights, calls and circuits -/

theorem mark (s : State) (k : Kind) : HoldsKept s (s.mark k) := of_changes (s.mark_changes k)

theorem markIf (s : State) (b : Bool) (k : Kind) : HoldsKept s (s.markIf b k) := of_changes (s.markIf_changes b k)

theorem forAll {n : Nat} {f : Fin n → State → State} (turn : ∀ i s, HoldsKept s (f i s)) (s : State) :
    HoldsKept s (forAll n f s) := forAll_keeps (HoldsKept s) f (fun i t ht => ht.trans (turn i t)) s (refl s)

theorem foldl {α : Type} {f : State → α → State} (turn : ∀ s a, HoldsKept s (f s a)) (l : List α) (s : State) :
    HoldsKept s (l.foldl f s) := foldl_keeps (HoldsKept s) f (fun t a ht => ht.trans (turn t a)) l s (refl s)

/-- Circuits may change so long as the alarm circuits keep their conditions (R27). -/
theorem of_conditions {ps : List Part} {s t : State} (h : ChangesOnly ps s t)
    (conditions : ∀ c : Fin 16, c.1 < 6 → t.circuits[c].condition = s.circuits[c].condition)
    (out : ∀ p ∈ holdsRead, p ≠ .circuits → ps.contains p = false := by decide) : HoldsKept s t := by
  have same (p : Part) (mem : p ∈ holdsRead) (ne : p ≠ .circuits) : p.same s t :=
    h.same p (by simpa using out p mem ne)
  have settings : t.settings = s.settings := same .settings (by decide) (by decide)
  have perfs : t.perfs = s.perfs := same .perfs (by decide) (by decide)
  have zones : t.zones = s.zones := same .zones (by decide) (by decide)
  have link : t.link = s.link := same .link (by decide) (by decide)
  refine of_reasons (same .holds (by decide) (by decide)) (fun a => ?_) fun c a => ?_
  · simp only [State.phase, perfs]
  · cases c with
    | system =>
      have zoneHolds : t.zoneHolds a = s.zoneHolds a := by funext z; simp only [State.zoneHolds, settings, zones]
      have circuitHolds : t.circuitHolds a = s.circuitHolds a := by
        funext i
        unfold State.circuitHolds
        by_cases alarm : i.1 < 6
        · rw [conditions i alarm]; simp only [settings]
        · simp [alarm]
      simp only [State.holdReason_system, zoneHolds, circuitHolds, link]
    | _ =>
      rw [h.holdReason_of a]
      intro p mem
      obtain ⟨read, ne⟩ : p ∈ holdsRead ∧ p ≠ .circuits := by
        revert mem
        cases p <;> simp [reasonParts, holdsRead]
      exact out p read ne

theorem demand (s : State) (c : Fin 16) (on : Bool) (p : Pattern) : HoldsKept s (s.demand c on p) :=
  of_conditions (s.demand_changes c on p) fun i _ => State.demand_condition ..

theorem lights (s : State) : LightClosed (HoldsKept s) where
  clock t h := h.trans (of_changes (State.reach_changes _ t))
  mark k h := h.trans (mark _ k)
  table calls list h := h.trans (of_reasons ⟨rfl, rfl⟩ (fun _ => .rfl) fun _ _ => rfl)
  czone z x _ _ h := h.trans (of_reasons ⟨rfl, rfl⟩ (fun _ => .rfl) fun _ _ => rfl)
  chime z on h := h.trans (demand ..)
  flicker z code h := h.trans (of_changes (State.flickerRequest_changes ..))
  lit v h := h.trans (of_reasons ⟨rfl, rfl⟩ (fun _ => .rfl) fun _ _ => rfl)

theorem silences (s : State) : SilenceClosed (HoldsKept s) where
  toBurstClosed := (lights s).toBurstClosed
  silence z x h := h.trans (of_reasons ⟨rfl, rfl⟩ (fun _ => .rfl) fun _ _ => rfl)

theorem announceLit (s : State) : HoldsKept s s.announceLit := (lights s).announceLit (refl s)

theorem refreshGroups (s : State) : HoldsKept s s.refreshGroups := of_changes s.refreshGroups_changes

theorem refreshLights (s : State) : HoldsKept s s.refreshLights := (refreshGroups s).trans (announceLit _)

theorem deriveSilence (s : State) (z : Fin 8) : HoldsKept s (s.deriveSilence z) :=
  (silences s).deriveSilence z (refl s)

theorem deriveSilences (s : State) : HoldsKept s s.deriveSilences := (silences s).deriveSilences (refl s)

theorem callNotice (s : State) (a : Fin 3) (st : DeliveryState) : HoldsKept s (s.callNotice a st) :=
  (lights s).callNotice a st (refl s)

theorem respond (s : State) (a : Fin 3) (t d : Nat) : HoldsKept s (s.respond a t d) :=
  of_changes (s.respond_changes a t d)

theorem demandAlert (s : State) : HoldsKept s s.demandAlert := by
  unfold State.demandAlert
  split
  · exact demand ..
  · exact demand ..

theorem demandSounders (s : State) : HoldsKept s s.demandSounders := by
  unfold State.demandSounders
  exact forAll (fun c t => demand ..) s

theorem demandBrigade (s : State) : HoldsKept s s.demandBrigade := demand ..

theorem demandAll (s : State) : HoldsKept s s.demandAll :=
  ((demandAlert s).trans (demandSounders _)).trans (demandBrigade _)

/-- A change of an alarm circuit's condition is announced, and a chime's is read by no hold (R27, R164). -/
theorem changeCircuit (s : State) (c : Fin 16) (x : Circuit) : HoldsKept s (s.changeCircuit c x) := by
  have frame := s.writeCircuit_changes c x
  have others (i : Fin 16) (ne : i ≠ c) : (s.writeCircuit c x).circuits[i] = s.circuits[i] := by
    rw [State.writeCircuit_circuits, put_other _ _ _ _ ne]
  unfold State.changeCircuit State.announceCondition
  dsimp only
  split
  next same =>
    refine of_conditions frame fun i _ => ?_
    by_cases e : i = c
    · rw [e, same]
    · rw [others i e]
  next moved =>
    split
    · exact HoldsBut.evalHolds (.of_changes frame) HoldCause.automatic_system
    next chime =>
      have kept : HoldsKept s (s.writeCircuit c x) := of_conditions frame fun i alarm => by
        rw [others i fun e => chime (e ▸ alarm)]
      split
      · split
        · exact (lights s).chimeLost _ kept
        · exact kept
      · exact kept

end HoldsKept

end Sys2Proof.Machine
end

section
/-!
PROOFS. The automatic holds through the operations of the performance, curtain, alarm, detection, supply and link units.
-/

namespace Sys2Proof.Machine

-- One declaration at a time: side conditions closed by tactics wait for what stands before them.
set_option Elab.async false

/-! ## Performances -/

theorem State.writePerf_perf (s : State) (a b : Fin 3) (p : Perf) :
    (s.writePerf a p).perfs[b] = if b = a then p else s.perfs[b] := by
  rw [State.writePerf_perfs, put_get]

theorem State.writePerf_phase (s : State) (a b : Fin 3) (p : Perf) :
    (s.writePerf a p).phase b = if b = a then p.phase else s.phase b := by
  unfold State.phase
  rw [State.writePerf_perf]
  split <;> rfl

/-- A PERF record written leaves the conditions of the other performances, and, with its proof, its own (R24). -/
theorem State.writePerf_reason (s : State) (a b : Fin 3) (p : Perf) (c : HoldCause)
    (same : b ≠ a ∨ c ≠ .iron ∨ p.ironProved = s.perfs[a].ironProved) :
    ((s.writePerf a p).holdReason b c).isSome = (s.holdReason b c).isSome := by
  have frame := s.writePerf_changes a p
  by_cases iron : c = .iron
  · subst iron
    have settings : (s.writePerf a p).settings = s.settings := frame.same .settings (by decide)
    have irons : (s.writePerf a p).irons = s.irons := frame.same .irons (by decide)
    have proof : (s.writePerf a p).perfs[b].ironProved = s.perfs[b].ironProved := by
      rw [State.writePerf_perf]
      split
      next e =>
        subst e
        simpa using same
      · rfl
    simp only [State.holdReason_iron, settings, irons, proof]
  · rw [frame.holdReason_of b]
    intro q mem
    revert mem
    cases c <;> cases q <;> simp [reasonParts] at iron ⊢

/-- A PERF record written leaves the holds that `ok'` names due, where a performance it takes into DARK has none. -/
theorem HoldsLawfulFor.writePerf {ok ok' : HoldCause → Fin 3 → Prop} {s : State} (h : HoldsLawfulFor ok s) (a : Fin 3)
    (p : Perf) (empty : p.phase = .dark → s.holdLists[a] = [])
    (sub : ∀ c b, c.automatic → ok' c b → ok c b ∧ (b = a → p.phase ≠ .dark →
      s.phase a ≠ .dark ∧ (c ≠ .iron ∨ p.ironProved = s.perfs[a].ironProved))) :
    HoldsLawfulFor ok' (s.writePerf a p) := by
  obtain ⟨holds, lists⟩ : (s.writePerf a p).holds = s.holds ∧ (s.writePerf a p).holdLists = s.holdLists :=
    (s.writePerf_changes a p).same .holds (by decide)
  have hold? : ∀ b k, (s.writePerf a p).hold? b k = s.hold? b k := fun b k => by simp only [State.hold?, holds]
  refine ⟨fun b => ?_, fun b dark => ?_, fun c b auto mem light => ?_⟩
  · unfold HoldListLawful
    simp only [hold?, lists]
    exact h.lists b
  · rw [State.writePerf_phase] at dark
    rw [lists]
    split at dark
    next e => rw [e]; exact empty dark
    · exact h.dark b dark
  · obtain ⟨named, here⟩ := sub c b auto mem
    rw [State.writePerf_phase] at light
    by_cases e : b = a
    · rw [if_pos e] at light
      obtain ⟨was, reason⟩ := here e light
      rw [hold?, State.writePerf_reason s a b p c (.inr reason)]
      exact h.due c b auto named (e ▸ was)
    · rw [if_neg e] at light
      rw [hold?, State.writePerf_reason s a b p c (.inl e)]
      exact h.due c b auto named light

namespace HoldsKept

/-- A PERF record written with its proof as it was, in or out of DARK as it was. -/
theorem writePerf {s : State} (a : Fin 3) (p : Perf) (dark : p.phase = .dark ↔ s.phase a = .dark)
    (proof : p.ironProved = s.perfs[a].ironProved) : HoldsKept s (s.writePerf a p) :=
  ⟨fun _ h => h.writePerf a p (fun e => h.dark a (dark.1 e)) fun _ _ _ mem =>
    ⟨mem, fun _ light => ⟨fun e => light (dark.2 e), .inr proof⟩⟩⟩

theorem setProved (s : State) (a : Fin 3) (p : IronProved) : HoldsKept s (s.setProved a p) := by
  unfold State.setProved
  dsimp only
  split
  · exact refl s
  · refine ⟨fun ok h => HoldsLawfulFor.evalHold ?_ HoldCause.automatic_iron⟩
    refine h.writePerf a _ (fun e => h.dark a e) fun c b _ ⟨mem, other⟩ => ⟨mem, fun e light => ⟨light, .inl fun iron => ?_⟩⟩
    exact other ⟨e, iron⟩

theorem takeJudgement (s : State) (a : Fin 3) (k : DescentKind) (b : Bool) : HoldsKept s (s.takeJudgement a k b) := by
  unfold State.takeJudgement
  split
  · exact refl s
  · split
    · exact setProved ..
    · exact refl s

/-- What a phase change does once its record is written (R6). -/
theorem enterPhase (s : State) (a : Fin 3) (p : Perf) (r : Option Response) (notice : Option DeliveryState) :
    HoldsKept (s.writePerf a p) (s.enterPhase a p r notice) := by
  have answered : HoldsKept (s.writePerf a p) ((s.writePerf a p).respondWith a r) := by
    cases r
    · exact refl _
    · exact respond ..
  have lit := answered.trans (refreshLights _)
  unfold State.enterPhase
  dsimp only
  split
  · exact lit
  · exact lit.trans (callNotice ..)

theorem halt (s : State) (a : Fin 3) (light : s.phase a ≠ .dark) : HoldsKept s (s.halt a) := by
  have written : HoldsKept s (s.writePerf a { s.perfs[a] with phase := .halted }) := by
    refine writePerf a _ ⟨nofun, fun dark => absurd dark light⟩ ?_
    rfl
  unfold State.halt
  exact (written.trans (respond ..)).trans (callNotice ..)

theorem haltSet (set : AudSet) (s : State) : HoldsKept s (s.haltSet set) := by
  rw [State.haltSet_eq]
  refine forAll (fun a t => ?_) s
  unfold State.haltTurn
  split
  next halts =>
    rw [Bool.and_eq_true] at halts
    exact halt t a (haltable_light halts.2)
  · exact refl t

end HoldsKept

/-- Entry to DARK empties the slots, and so the list (R17). -/
theorem State.clearHolds_empty {s : State} {a : Fin 3} (lawful : HoldListLawful s a) :
    (s.clearHolds a).holdLists[a] = [] ∧ HoldListLawful (s.clearHolds a) a := by
  have kept : HoldListLawful (s.clearHolds a) a := by
    refine forAll_keeps (fun t => HoldListLawful t a) _ (fun k t h => ?_) s lawful
    split
    · exact h.empty k
    · exact h
  have gone (k : Fin 8) : (s.clearHolds a).hold? a k = none := by
    refine forAll_turn (P := fun _ => True) (Q := fun t => t.hold? a k = none) k (fun _ _ _ _ => trivial)
      (fun t _ => ?_) (fun i t ne none => ?_) s trivial
    · split
      · rw [State.emptyHold_hold?, if_pos ⟨rfl, rfl⟩]
      next filled => simpa using filled
    · split
      · rw [State.emptyHold_hold?]
        split
        · rfl
        · exact none
      · exact none
  refine ⟨List.eq_nil_iff_forall_not_mem.2 fun k mem => ?_, kept⟩
  have filled := (kept.2 k).1
  rw [gone, List.contains_iff_mem.2 mem] at filled
  cases filled

/-- The holds and the list of performance `b` are the same. -/
def SameHolds (b : Fin 3) (s t : State) : Prop := t.holds[b] = s.holds[b] ∧ t.holdLists[b] = s.holdLists[b]

theorem State.clearHolds_others (s : State) {a b : Fin 3} (ne : b ≠ a) : SameHolds b s (s.clearHolds a) := by
  unfold State.clearHolds
  refine forAll_keeps (SameHolds b s) _ (fun k t ⟨holds, lists⟩ => ?_) s ⟨rfl, rfl⟩
  split
  · obtain ⟨same, -, order⟩ := t.emptyHold_onlyAt a k
    exact ⟨(same b ne).trans holds, (order b ne).trans lists⟩
  · exact ⟨holds, lists⟩

theorem HoldsLawfulFor.clearHolds {ok : HoldCause → Fin 3 → Prop} {s : State} (h : HoldsLawfulFor ok s) (a : Fin 3) :
    HoldsLawfulFor (fun c b => ok c b ∧ b ≠ a) (s.clearHolds a) := by
  have frame := s.clearHolds_changes a
  have perfs : (s.clearHolds a).perfs = s.perfs := frame.same .perfs (by decide)
  have others (b : Fin 3) (ne : b ≠ a) := s.clearHolds_others ne
  refine ⟨fun b => ?_, fun b dark => ?_, fun c b auto ⟨mem, ne⟩ light => ?_⟩
  · by_cases e : b = a
    · rw [e]
      exact (State.clearHolds_empty (h.lists a)).2
    · unfold HoldListLawful State.hold?
      rw [(others b e).1, (others b e).2]
      exact h.lists b
  · simp only [State.phase, perfs] at dark
    by_cases e : b = a
    · rw [e]
      exact (State.clearHolds_empty (h.lists a)).1
    · rw [(others b e).2]
      exact h.dark b dark
  · simp only [State.phase, perfs] at light
    have due := h.due c b auto mem light
    rw [frame.holdReason, State.hold?, (others b ne).1]
    exact due

/-- In DARK no hold is due. -/
theorem HoldsLawfulFor.of_dark {ok : HoldCause → Fin 3 → Prop} {s : State} {a : Fin 3}
    (h : HoldsLawfulFor (fun c b => ok c b ∧ b ≠ a) s) (dark : s.phase a = .dark) : HoldsLawfulFor ok s := by
  refine ⟨h.lists, h.dark, fun c b auto mem light => ?_⟩
  by_cases e : b = a
  · exact absurd (e ▸ dark) light
  · exact h.due c b auto ⟨mem, e⟩ light

namespace HoldsKept

/-- A transition of a station (R7..R18). -/
theorem enter (s : State) (a : Fin 3) (st : Fin 8) {p : Phase} {adm : Admission}
    (change : transition (s.phase a) p = some adm) : HoldsKept s (s.enter a st p) := by
  have plain (q : Perf) (r : Option Response) (n : Option DeliveryState) (light : q.phase ≠ .dark)
      (was : s.phase a ≠ .dark) (proof : q.ironProved = s.perfs[a].ironProved) : HoldsKept s (s.enterPhase a q r n) :=
    (writePerf a q ⟨fun e => absurd e light, fun e => absurd e was⟩ proof).trans (enterPhase ..)
  have was (ne : p ≠ .prepare) : s.phase a ≠ .dark := fun dark => by
    rw [dark] at change
    cases p <;> simp [transition] at change ne
  unfold State.enter
  cases p with
  | dark =>
    dsimp only
    unfold State.enterDark
    refine ⟨fun ok h => (enterPhase ..).keep ok (HoldsLawfulFor.of_dark (a := a) ?_ ?_)⟩
    · exact (h.clearHolds a).writePerf a _ (fun _ => (State.clearHolds_empty (h.lists a)).1) fun c b _ mem =>
        ⟨mem, fun _ light => absurd rfl light⟩
    · rw [State.writePerf_phase, if_pos rfl]
  | prepare =>
    dsimp only
    unfold State.enterPrepare
    refine ⟨fun ok h => HoldsLawfulFor.evalAllHolds ((enterPhase ..).keep _ ?_)⟩
    refine h.writePerf a _ nofun fun c b _ ⟨mem, ne⟩ => ⟨mem, fun e => absurd e ne⟩
  | houseOpen =>
    dsimp only
    unfold State.enterHouseOpen
    refine plain _ _ _ nofun (was nofun) ?_
    rfl
  | beginners =>
    dsimp only
    unfold State.enterBeginners
    refine plain _ _ _ nofun (was nofun) ?_
    rfl
  | running =>
    dsimp only
    unfold State.enterRunning
    refine plain _ _ _ nofun (was nofun) ?_
    rfl
  | interval =>
    dsimp only
    unfold State.enterInterval
    refine plain _ _ _ nofun (was nofun) ?_
    rfl
  | closing =>
    dsimp only
    unfold State.enterClosing
    refine plain _ _ _ nofun (was nofun) ?_
    rfl
  | halted => exact halt s a (was nofun)

/-! ## Curtains -/

/-- A channel written with a fault where it had one (R24). -/
theorem writeIron (s : State) (ch : Fin 3) (x : Iron)
    (fault : x.fault.isSome = s.irons[ch].fault.isSome := by rfl) :
    HoldsKept s (s.writeIron ch x) := by
  have frame := s.writeIron_changes ch x
  have settings : (s.writeIron ch x).settings = s.settings := frame.same .settings (by decide)
  have perfs : (s.writeIron ch x).perfs = s.perfs := frame.same .perfs (by decide)
  refine of_reasons (frame.same .holds (by decide)) (fun a => by simp only [State.phase, perfs]) fun c a => ?_
  cases c with
  | iron =>
    have faults : (s.writeIron ch x).irons[a].fault.isSome = s.irons[a].fault.isSome := by
      rw [State.writeIron_irons, put_get]
      split
      next e => rw [e, fault]
      · rfl
    simp only [State.holdReason_iron, settings, perfs, faults]
  | _ => rw [frame.holdReason_of a (by decide)]

/-- A channel written and its faults announced (R23, R36). -/
theorem writeIron_announced (s : State) (ch : Fin 3) (x : Iron) : HoldsKept s ((s.writeIron ch x).evalHolds .iron) :=
  HoldsBut.evalHolds (.of_changes (s.writeIron_changes ch x)) HoldCause.automatic_iron

theorem recordFault (s : State) (ch : Fin 3) (f : IronFault) : HoldsKept s (s.recordFault ch f) := by
  unfold State.recordFault
  dsimp only
  split
  next had => exact writeIron s ch _ (by rw [had]; rfl)
  · exact writeIron_announced ..

theorem faultInMotion (s : State) (ch : Fin 3) (f : IronFault) : HoldsKept s (s.faultInMotion ch f) := by
  have recorded := recordFault s ch f
  unfold State.faultInMotion
  dsimp only
  split
  · exact recorded.trans (writeIron _ ch _)
  · exact recorded


theorem reload (s : State) (ch : Fin 3) (at_ : Nat) (stops : Bool) : HoldsKept s (s.reload ch at_ stops) := by
  unfold State.reload
  dsimp only
  refine trans (t := if s.irons[ch].drifted s.settings.irons[ch].driftTol at_ then
    (if stops then s.faultInMotion ch .drift else s.recordFault ch .drift) else s) ?_ (writeIron _ _ _)
  split
  · split
    · exact faultInMotion ..
    · exact recordFault ..
  · exact refl s

end HoldsKept

theorem Iron.release_fault (x : Iron) (why : ReleaseReason) : (x.release why).fault = x.fault := by
  unfold Iron.release
  cases x.motion <;> rfl

namespace HoldsKept

theorem release (s : State) (ch : Fin 3) (why : ReleaseReason) : HoldsKept s (s.release ch why) :=
  writeIron s ch _ (by rw [Iron.release_fault])

theorem countEncoder (s : State) (ch : Fin 3) (up : Bool) : HoldsKept s (s.countEncoder ch up) := by
  unfold State.countEncoder
  split
  · exact refl s
  extract_lets x tol s1 s2 y
  have counted : HoldsKept s s1 := writeIron s ch _
  have saturated : HoldsKept s s2 := by
    unfold s2
    split
    · exact counted.trans (faultInMotion ..)
    · exact counted
  split
  · exact saturated.trans (faultInMotion ..)
  · split
    · exact (saturated.trans (writeIron s2 ch _)).trans (recordFault ..)
    · exact saturated

theorem indexSeen (s : State) (ch : Fin 3) : HoldsKept s (s.indexSeen ch) := by
  unfold State.indexSeen
  split
  · exact refl s
  · exact reload ..

theorem arrive (s : State) (ch : Fin 3) : HoldsKept s (s.arrive ch) := by
  unfold State.arrive
  extract_lets x v s1 s2 result s3
  have landed : HoldsKept s s1 := writeIron s ch _
  have checked : HoldsKept s s2 := by
    unfold s2
    split
    · exact landed.trans (recordFault ..)
    · exact landed
  exact (checked.trans (writeIron s2 ch _)).trans (takeJudgement ..)

theorem limitInMade (s : State) (ch : Fin 3) : HoldsKept s (s.limitInMade ch) := by
  unfold State.limitInMade
  split
  · exact refl s
  extract_lets x s1 s2 uncommanded
  have loaded : HoldsKept s s1 := reload ..
  have fallen : HoldsKept s uncommanded := by
    have recorded : HoldsKept s s2 := by
      unfold s2
      split
      · exact loaded
      · exact loaded.trans (recordFault ..)
    exact recorded.trans (writeIron s2 ch _)
  split
  · exact loaded.trans (arrive ..)
  · exact fallen
  · exact fallen
  · exact loaded
  · exact loaded

theorem limitOutMade (s : State) (ch : Fin 3) : HoldsKept s (s.limitOutMade ch) := by
  have loaded := reload s ch s.settings.irons[ch].travel false
  unfold State.limitOutMade
  dsimp only
  split
  · exact refl s
  · split
    · exact loaded.trans (writeIron _ ch _)
    · exact loaded

/-- The lines are read by no hold. -/
theorem lines (s : State) (x : Lines) : HoldsKept s { s with lines := x } :=
  of_reasons ⟨rfl, rfl⟩ (fun _ => .rfl) fun _ _ => rfl

theorem clock (s : State) (t : Nat) : HoldsKept s { s with now := t } :=
  of_reasons ⟨rfl, rfl⟩ (fun _ => .rfl) fun _ _ => rfl

theorem pressRelease (s : State) (ch : Fin 3) : HoldsKept s (s.pressRelease ch) := by
  unfold State.pressRelease
  dsimp only
  split
  · exact lines ..
  · refine (lines s _).trans (writeIron _ ch _ ?_)
    exact congrArg Option.isSome (Iron.release_fault ..)

theorem letGoRelease (s : State) (ch : Fin 3) : HoldsKept s (s.letGoRelease ch) := by
  unfold State.letGoRelease
  dsimp only
  split
  · exact lines ..
  · exact (lines s _).trans (writeIron _ ch _)

theorem superviseDescent (s : State) (ch : Fin 3) : HoldsKept s (s.superviseDescent ch) := by
  unfold State.superviseDescent
  extract_lets cfg x crossed s1 x2 s2 x3 s3
  have advanced : HoldsKept s s1 := writeIron s ch _ (by split <;> rfl)
  have overspeed : HoldsKept s s2 := by
    unfold s2
    split
    · exact (advanced.trans (writeIron s1 ch _)).trans (recordFault ..)
    · exact advanced
  have stall : HoldsKept s s3 := by
    unfold s3
    split
    · exact (overspeed.trans (writeIron s2 ch _)).trans (recordFault ..)
    · exact overspeed
  split
  · exact (stall.trans (writeIron s3 ch _)).trans (recordFault ..)
  · exact stall

theorem sample (s : State) (ch : Fin 3) : HoldsKept s (s.sample ch) := by
  unfold State.sample
  split
  · exact refl s
  extract_lets x t s1 s2 y
  have timed : HoldsKept s s1 := clock s t
  have supervised : HoldsKept s s2 := by
    unfold s2
    split
    · exact timed.trans (superviseDescent ..)
    · exact timed
  exact (supervised.trans (writeIron s2 ch _)).trans (markIf ..)

theorem stallSample (s : State) (ch : Fin 3) : HoldsKept s (s.stallSample ch) := by
  unfold State.stallSample
  dsimp only
  split
  · exact sample ..
  · exact refl s

theorem slowSample (s : State) (ch : Fin 3) : HoldsKept s (s.slowSample ch) := by
  unfold State.slowSample
  dsimp only
  split
  · exact sample ..
  · exact refl s

theorem reach (s : State) (t : Nat) : HoldsKept s (s.reach t) := of_changes (s.reach_changes t)

theorem raiseTimesOut (s : State) (ch : Fin 3) : HoldsKept s (s.raiseTimesOut ch) := by
  unfold State.raiseTimesOut
  dsimp only
  split
  · exact (reach ..).trans (faultInMotion ..)
  · exact refl s

theorem clearIronFault (s : State) (ch : Fin 3) : HoldsKept s (s.clearIronFault ch) := by
  unfold State.clearIronFault
  dsimp only
  split
  · exact writeIron_announced ..
  · exact refl s

theorem ironPresence (s : State) (ch : Fin 3) (limitIn : Bool) : HoldsKept s (s.ironPresence ch limitIn) := by
  unfold State.ironPresence
  dsimp only
  refine HoldsBut.evalHolds (.of_changes (ps := [.irons, .stations]) ?_) HoldCause.automatic_iron
  exact (s.writeIron_changes ch _).andThen (State.markIf_changes ..)

theorem demandOut (s : State) (ch : Fin 3) : HoldsKept s (s.demandOut ch) := by
  unfold State.demandOut
  split
  · exact writeIron s ch _
  · exact writeIron s ch _
  · exact refl s
  · exact refl s
  · exact refl s

theorem actIron (s : State) (ch : Fin 3) (fs : List FieldVal) : HoldsKept s (s.actIron ch fs) := by
  unfold State.actIron
  extract_lets s2
  have demanded : HoldsKept s s2 := by
    unfold s2
    split
    · exact refl s
    · exact demandOut ..
    · exact release ..
  split
  · exact demanded.trans (clearIronFault ..)
  · exact demanded

theorem stopRaises (s : State) : HoldsKept s s.stopRaises := by
  refine forAll (fun ch t => ?_) s
  split
  · exact writeIron t ch _
  · exact refl t

/-! ## Incidents -/

theorem drawn (s : State) : HoldsKept s s.drawn := of_reasons ⟨rfl, rfl⟩ (fun _ => .rfl) fun _ _ => rfl

theorem lightsAndCalls (s : State) : HoldsKept s s.lightsAndCalls := by
  unfold State.lightsAndCalls
  split
  · exact ((drawn s).trans (deriveSilences _)).trans (announceLit _)
  · exact ((drawn s).trans (announceLit _)).trans (deriveSilences _)

theorem maybe {f : State → State} (hf : ∀ s, HoldsKept s (f s)) (s : State) : HoldsKept s (s.maybe f) := by
  unfold State.maybe
  split
  · exact (drawn s).trans (hf _)
  · exact drawn s

theorem fireRelease (inc : Incident) (s : State) : HoldsKept s (s.fireRelease inc) := by
  rw [State.fireRelease_eq]
  refine forAll (fun ch t => ?_) s
  obtain ⟨-, e⟩ | ⟨-, e⟩ := t.fireTurn_cases inc ch
  · rw [e]; exact release ..
  · rw [e]; exact refl t

/-- An announcement has the FIRE holds evaluated first; what follows leaves every condition (R23, R25). -/
theorem announceIncidents (ids : List (Fin 25)) {s t : State} (h : HoldsBut .fire s t) :
    HoldsKept s (t.announceIncidents ids) := by
  have evaluated := h.evalHolds HoldCause.automatic_fire
  unfold State.announceIncidents
  extract_lets set s1 s2 s3
  have heard : HoldsKept s s1 := evaluated.trans (maybe deriveSilences _)
  have lights (u : State) : HoldsKept u u.maybeLightsAndCalls :=
    ((maybe announceLit u).trans (maybe deriveSilences _)).trans (maybe announceLit _)
  have halted : HoldsKept s s2 := by
    unfold s2
    split
    · exact ((heard.trans (drawn _)).trans (refreshGroups _)).trans ((lights _).trans (haltSet ..))
    · exact (((heard.trans (drawn _)).trans (haltSet ..)).trans (maybe deriveSilences _)).trans (refreshGroups _)
  have released : HoldsKept s s3 := by
    refine halted.trans (foldl (fun t i => ?_) ids s2)
    split
    · exact fireRelease ..
    · exact refl t
  exact released.trans (lightsAndCalls _)

end HoldsKept

end Sys2Proof.Machine
end

section
/-!
PROOFS. The automatic holds through incidents, zones, supply, circuits, link, settings and starts, and so through every
step (R20..R29).
-/

namespace Sys2Proof.Machine

-- One declaration at a time: side conditions closed by tactics wait for what stands before them.
set_option Elab.async false

/-! ## Incidents (R25) -/

/-- A change of an open incident that keeps whom it concerns leaves the FIRE holds' conditions. -/
theorem State.editIncident_concerns (s : State) (i : Fin 25) (f : Incident → Incident)
    (auds : ∀ x, s.incident? i = some x → (f x).auds = x.auds) (a : Fin 3) :
    ((s.editIncident i f).openIncidents.any fun x => has x.auds a) = s.openIncidents.any fun x => has x.auds a := by
  rw [Bool.eq_iff_iff]
  simp only [List.any_eq_true, mem_openIncidents, State.editIncident_list]
  constructor
  · rintro ⟨y, ⟨j, listed, slot⟩, concerned⟩
    rw [State.editIncident_incident?] at slot
    split at slot
    next e =>
      obtain ⟨x, open?, rfl⟩ := Option.map_eq_some_iff.1 slot
      exact ⟨x, ⟨j, listed, e ▸ open?⟩, auds x open? ▸ concerned⟩
    · exact ⟨y, ⟨j, listed, slot⟩, concerned⟩
  · rintro ⟨x, ⟨j, listed, open?⟩, concerned⟩
    by_cases e : j = i
    · subst e
      refine ⟨f x, ⟨j, listed, ?_⟩, (auds x open?).symm ▸ concerned⟩
      rw [State.editIncident_incident?, if_pos rfl, open?]
      rfl
    · refine ⟨x, ⟨j, listed, ?_⟩, concerned⟩
      rw [State.editIncident_incident?, if_neg e, open?]

namespace HoldsKept

theorem editIncident (s : State) (i : Fin 25) (f : Incident → Incident)
    (auds : ∀ x, s.incident? i = some x → (f x).auds = x.auds) : HoldsKept s (s.editIncident i f) := by
  have frame := State.editIncident_changes s i f
  have perfs : (s.editIncident i f).perfs = s.perfs := frame.same .perfs (by decide)
  refine of_reasons (frame.same .holds (by decide)) (fun a => by simp only [State.phase, perfs]) fun c a => ?_
  cases c with
  | fire => rw [State.holdReason_fire, State.holdReason_fire, State.editIncident_concerns s i f auds]
  | _ => rw [frame.holdReason_of a (by decide)]

theorem escalateIncident (s : State) (i : Fin 25) (why : EscalationCause) : HoldsKept s (s.escalateIncident i why) := by
  unfold State.escalateIncident
  refine announceIncidents _ (HoldsBut.trans (.of_changes (State.editIncident_changes ..)) (demandAll _))

theorem writeZone (s : State) (z : Fin 24) (x : Zone) (condition : x.condition = s.zones[z].condition := by rfl) :
    HoldsKept s (s.writeZone z x) := by
  have frame := s.writeZone_changes z x
  have settings : (s.writeZone z x).settings = s.settings := frame.same .settings (by decide)
  have circuits : (s.writeZone z x).circuits = s.circuits := frame.same .circuits (by decide)
  have link : (s.writeZone z x).link = s.link := frame.same .link (by decide)
  have perfs : (s.writeZone z x).perfs = s.perfs := frame.same .perfs (by decide)
  refine of_reasons (frame.same .holds (by decide)) (fun a => by simp only [State.phase, perfs]) fun c a => ?_
  cases c with
  | system =>
    have conditions (w : Fin 24) : (s.writeZone z x).zones[w].condition = s.zones[w].condition := by
      rw [State.writeZone_zones, put_get]
      split
      next e => rw [e, condition]
      · rfl
    have zoneHolds : (s.writeZone z x).zoneHolds a = s.zoneHolds a := by
      funext w
      simp only [State.zoneHolds, settings, conditions]
    have circuitHolds : (s.writeZone z x).circuitHolds a = s.circuitHolds a := by
      funext i
      simp only [State.circuitHolds, settings, circuits]
    simp only [State.holdReason_system, zoneHolds, circuitHolds, link]
  | _ => rw [frame.holdReason_of a (by decide)]

theorem raiseZoneIncident (s : State) (z : Fin 24) (i : Fin 25) : HoldsKept s (s.raiseZoneIncident z i) := by
  unfold State.raiseZoneIncident
  extract_lets x shared s1 x2 s2 s3
  have filled : HoldsBut .fire s s1 := .of_changes (s.fillIncident_changes i x)
  have named : HoldsBut .fire s s2 := filled.trans (writeZone s1 z _)
  have escalated : HoldsBut .fire s s3 := named.trans (foldl (fun t j => editIncident t j _ fun y _ => by
    unfold Incident.escalate
    split <;> rfl) shared s2)
  exact announceIncidents _ (escalated.trans (demandAll _))

theorem reactivate (s : State) (i : Fin 25) : HoldsKept s (s.reactivate i) := by
  unfold State.reactivate
  refine ((editIncident s i _ ?_).trans (demandAll _)).trans (mark ..)
  exact fun _ _ => rfl

theorem raiseStationIncident (s : State) (st : Fin 8) (set : AudSet) (i : Fin 25) :
    HoldsKept s (s.raiseStationIncident st set i) := by
  unfold State.raiseStationIncident
  exact announceIncidents _ (HoldsBut.trans (.of_changes (s.fillIncident_changes i _)) (demandAll _))

theorem widenIncident (s : State) (i : Fin 25) (set : AudSet) : HoldsKept s (s.widenIncident i set) := by
  unfold State.widenIncident
  split
  · exact refl s
  next x slot =>
    extract_lets s1
    split
    next same =>
      have edited := editIncident s i (fun x => { x with auds := x.auds ||| set, silenced := false }) fun y open? => by
        obtain rfl := Option.some.inj (slot.symm.trans open?)
        exact same
      unfold State.editIncident at edited
      rw [slot] at edited
      exact edited.trans (demandAll _)
    · exact announceIncidents _ (HoldsBut.trans (.of_changes (s.writeIncident_changes i _)) (demandAll _))

theorem zoneRetired (s : State) (z : Fin 24) : HoldsKept s (s.zoneRetired z) := by
  unfold State.zoneRetired
  dsimp only
  refine (writeZone s z _ ?_).trans (mark ..)
  rfl

theorem retireIncidentAt (s : State) (i : Fin 25) : HoldsKept s (s.retireIncidentAt i) := by
  unfold State.retireIncidentAt
  split
  · exact refl s
  · extract_lets s1 s2
    have emptied : HoldsBut .fire s s1 := HoldsBut.trans (.of_changes (s.emptyIncident_changes i)) (demandAll _)
    have told : HoldsBut .fire s s2 := by
      unfold s2
      split
      · exact emptied.trans (zoneRetired ..)
      · exact emptied
    exact ((told.evalHolds HoldCause.automatic_fire).trans (refreshLights _)).trans (deriveSilences _)

theorem actIncident (s : State) (i : Fin 25) (x : Incident) (st : Fin 8) (fs : List FieldVal) :
    HoldsKept s (s.actIncident i x st fs) := by
  unfold State.actIncident State.acknowledgeIncident State.silenceIncident
  split
  · split
    · refine (editIncident s i _ ?_).trans (demandAlert _)
      exact fun _ _ => rfl
    · exact refl s
  · split
    · split
      · exact escalateIncident ..
      · exact refl s
    · split
      · split
        · exact refl s
        · refine (editIncident s i _ ?_).trans (demandSounders _)
          exact fun _ _ => rfl
      · exact refl s

theorem ackRunsOut (s : State) (i : Fin 25) : HoldsKept s (s.ackRunsOut i) := by
  unfold State.ackRunsOut
  split
  · exact refl s
  · split
    · exact (reach ..).trans (escalateIncident ..)
    · exact refl s

theorem investigationRunsOut (s : State) (i : Fin 25) : HoldsKept s (s.investigationRunsOut i) := by
  unfold State.investigationRunsOut
  split
  · exact refl s
  · split
    · exact (reach ..).trans (escalateIncident ..)
    · exact refl s

/-! ## Zones (R27) -/

/-- A zone written and a change of its condition announced. -/
theorem writeZone_announced (s : State) (z : Fin 24) (x : Zone) : HoldsKept s ((s.writeZone z x).evalHolds .system) :=
  HoldsBut.evalHolds (.of_changes (s.writeZone_changes z x)) HoldCause.automatic_system

theorem deriveCondition (s : State) (z : Fin 24) : HoldsKept s (s.deriveCondition z) := by
  unfold State.deriveCondition
  dsimp only
  split
  · exact refl s
  · exact writeZone_announced ..

end HoldsKept

theorem Zone.confirmation_condition (x : Zone) (now : Nat) (cfg : ZoneSettings) (b : Band) :
    (x.confirmation now cfg b).condition = x.condition := by
  unfold Zone.confirmation Zone.transient
  split <;> split <;> rfl

theorem Zone.loopTimer_condition (x : Zone) (now : Nat) (b : Band) : (x.loopTimer now b).condition = x.condition := by
  unfold Zone.loopTimer
  split
  · rfl
  · split
    · split <;> rfl
    · rfl

theorem Zone.acted_condition (x : Zone) (now time : Nat) (fs : List FieldVal) :
    (x.acted now time fs).condition = x.condition := by
  have reset : (if carries fs 128 then x.resetNoise else x).condition = x.condition := by
    split <;> rfl
  have isolated (y : Zone) (on : Bool) : (y.setIsolated now time on).condition = y.condition := by
    unfold Zone.setIsolated Zone.isolate Zone.restore
    split
    · rfl
    · split
      · rfl
      · dsimp only
        split <;> rfl
  unfold Zone.acted
  dsimp only
  split
  · exact reset
  · exact (isolated ..).trans reset

namespace HoldsKept

theorem bandChanges (s : State) (z : Fin 24) (b : Band) : HoldsKept s (s.bandChanges z b) := by
  unfold State.bandChanges
  dsimp only
  split
  · exact lines ..
  · refine ((lines s _).trans (writeZone _ z _ ?_)).trans (deriveCondition ..)
    exact (Zone.loopTimer_condition ..).trans (Zone.confirmation_condition ..)

theorem quietRuns (s : State) (z : Fin 24) : HoldsKept s (s.quietRuns z) := by
  unfold State.quietRuns
  dsimp only
  split
  · exact refl s
  · exact ((reach ..).trans (writeZone _ z _)).trans (deriveCondition ..)

theorem loopRuns (s : State) (z : Fin 24) : HoldsKept s (s.loopRuns z) := by
  unfold State.loopRuns
  dsimp only
  split
  · exact refl s
  · exact ((reach ..).trans (writeZone _ z _)).trans (deriveCondition ..)

theorem confirms {s t : State} {z : Fin 24} (run : s.confirms z = .next t) : HoldsKept s t := by
  obtain rfl | ⟨time, u, -, -, hu, ends⟩ := State.confirms_cases run
  · exact refl _
  have alarm : HoldsKept s u := by
    rw [hu]
    exact (reach ..).trans (writeZone _ z _)
  obtain ⟨i, -, -, rfl⟩ | ⟨i, -, -, rfl⟩ | ⟨-, -, rfl⟩ := ends
  · exact alarm.trans (raiseZoneIncident ..)
  · exact alarm.trans (reactivate ..)
  · exact alarm

theorem zonePresence (s : State) (z : Fin 24) : HoldsKept s (s.zonePresence z) := by
  unfold State.zonePresence
  dsimp only
  split
  next same => exact (writeZone s z _ same.symm).trans (mark ..)
  · exact HoldsBut.evalHolds (HoldsBut.trans (.of_changes (s.writeZone_changes z _)) (mark ..)) HoldCause.automatic_system

theorem actZone (s : State) (z : Fin 24) (fs : List FieldVal) (old new : ZoneSettings) :
    HoldsKept s (s.actZone z fs old new) := by
  unfold State.actZone
  split
  · exact zonePresence ..
  · split
    · exact (writeZone s z _ (Zone.acted_condition ..)).trans (deriveCondition ..)
    · exact refl s

theorem serveZone (s : State) (old new : ZoneSettings) : HoldsKept s (s.serveZone old new) := by
  unfold State.serveZone
  extract_lets t
  have sounders : HoldsKept s t := by
    unfold t
    split
    · exact demandSounders s
    · exact refl s
  split
  · exact sounders.trans (deriveSilences _)
  · exact sounders

theorem restartZones (s : State) : HoldsKept s s.restartZones := by
  unfold State.restartZones
  refine forAll (fun z t => ?_) s
  dsimp only
  split
  next same => exact writeZone t z _ same.symm
  · exact writeZone_announced ..

/-! ## Supply and circuits (R26, R27) -/

theorem writeSupply (s : State) (x : Supply) (mains : x.mains = s.supply.mains := by rfl)
    (safety : x.safetyLow = s.supply.safetyLow := by rfl) : HoldsKept s (s.writeSupply x) := by
  have frame := s.writeSupply_changes x
  have perfs : (s.writeSupply x).perfs = s.perfs := frame.same .perfs (by decide)
  refine of_reasons (frame.same .holds (by decide)) (fun a => by simp only [State.phase, perfs]) fun c a => ?_
  cases c with
  | supply => simp only [State.holdReason, State.writeSupply_supply, mains, safety]
  | _ => rw [frame.holdReason_of a (by decide)]

theorem setMains (s : State) (x : Supply) : HoldsKept s (s.setMains x) := by
  have written : HoldsBut .supply s (s.writeSupply x) := .of_changes (s.writeSupply_changes x)
  unfold State.setMains State.announceMains
  dsimp only
  refine HoldsBut.evalHolds (written.trans ?_) HoldCause.automatic_supply
  split
  · exact (refreshLights _).trans (stopRaises _)
  · exact refreshLights _

theorem mainsLine (s : State) (on : Bool) : HoldsKept s (s.mainsLine on) := by
  unfold State.mainsLine
  split
  · exact refl s
  · have seen := lines s { s.lines with mainsPresent := on }
    have supply : ({ s with lines := { s.lines with mainsPresent := on } } : State).supply = s.supply := rfl
    generalize { s with lines := { s.lines with mainsPresent := on } } = u at *
    dsimp only
    split
    · refine seen.trans (writeSupply u _ ?_ ?_) <;> rw [supply]
    · refine seen.trans (writeSupply u _ ?_ ?_) <;> rw [supply]
    · exact seen.trans (setMains ..)
    · exact seen.trans (setMains ..)
    · exact seen
    · exact seen

theorem lossRuns (s : State) : HoldsKept s s.lossRuns := by
  unfold State.lossRuns
  split
  · exact refl s
  · exact (reach ..).trans (setMains ..)

theorem settlingRuns (s : State) : HoldsKept s s.settlingRuns := by
  unfold State.settlingRuns
  split
  · exact refl s
  · exact (reach ..).trans (setMains ..)

theorem supplyLine (s : State) (on : Bool) : HoldsKept s (s.supplyLine on) := by
  unfold State.supplyLine
  split
  · exact refl s
  · exact (lines s _).trans (writeSupply ..)

theorem safetyRuns (s : State) : HoldsKept s s.safetyRuns := by
  unfold State.safetyRuns
  split
  · exact refl s
  · exact HoldsBut.evalHolds (HoldsBut.after (reach ..) (.of_changes (State.writeSupply_changes ..)))
      HoldCause.automatic_supply

theorem cellLine (s : State) (good : Bool) : HoldsKept s (s.cellLine good) := by
  unfold State.cellLine
  split
  · exact refl s
  · exact (lines s _).trans (writeSupply ..)

theorem cellRuns (s : State) : HoldsKept s s.cellRuns := by
  unfold State.cellRuns
  have written (u : State) : HoldsKept u u.writeRetained := of_reasons ⟨rfl, rfl⟩ (fun _ => .rfl) fun _ _ => rfl
  split
  · exact refl s
  · split
    · exact ((reach ..).trans (written _)).trans (writeSupply ..)
    · exact (reach ..).trans (writeSupply ..)

end HoldsKept

end Sys2Proof.Machine
end

section
/-!
PROOFS. The automatic holds through circuits, link, settings and starts, and so through every step (R20..R29).
-/

namespace Sys2Proof.Machine

-- One declaration at a time: side conditions closed by tactics wait for what stands before them.
set_option Elab.async false

theorem Circuit.partEnds_condition (x : Circuit) (now : Nat) : (x.partEnds now).condition = x.condition := by
  unfold Circuit.partEnds
  split
  · rfl
  · split <;> rfl

namespace HoldsKept

/-! ## Circuits and the link (R27) -/

theorem patternRuns (s : State) (c : Fin 16) : HoldsKept s (s.patternRuns c) := by
  have same (u : State) (x : Circuit) (same : x.condition = u.circuits[c].condition) (i : Fin 16) :
      (u.writeCircuit c x).circuits[i].condition = u.circuits[i].condition := by
    rw [State.writeCircuit_circuits, put_get]
    split
    next e => rw [e, same]
    · rfl
  have conditions (i : Fin 16) : (s.patternRuns c).circuits[i].condition = s.circuits[i].condition := by
    unfold State.patternRuns
    dsimp only
    split
    · rfl
    · split
      · exact same (s.reach _) _ (Circuit.partEnds_condition ..) i
      · rfl
  exact of_conditions (s.patternRuns_changes c) fun i _ => conditions i

theorem testRuns (s : State) (c : Fin 16) (seen : Bool) : HoldsKept s (s.testRuns c seen) :=
  (reach ..).trans (changeCircuit ..)

theorem overloads (s : State) (c : Fin 16) : HoldsKept s (s.overloads c) := by
  unfold State.overloads
  dsimp only
  split
  · exact changeCircuit ..
  · exact refl s

theorem retryRuns (s : State) (c : Fin 16) : HoldsKept s (s.retryRuns c) := by
  unfold State.retryRuns
  dsimp only
  split
  · exact refl s
  · exact (reach ..).trans (changeCircuit ..)

theorem cleanRuns (s : State) (c : Fin 16) : HoldsKept s (s.cleanRuns c) := by
  unfold State.cleanRuns
  dsimp only
  split
  · exact refl s
  · exact (reach ..).trans (changeCircuit ..)

theorem offRuns (s : State) (c : Fin 16) : HoldsKept s (s.offRuns c) := by
  unfold State.offRuns
  dsimp only
  split
  · exact refl s
  · exact (reach ..).trans (changeCircuit ..)

theorem resetCircuit (s : State) (c : Fin 16) (fs : List FieldVal) : HoldsKept s (s.resetCircuit c fs) := by
  unfold State.resetCircuit
  split
  · exact changeCircuit ..
  · exact refl s

theorem serveBrigade (s : State) (old new : PartSettings) : HoldsKept s (s.serveBrigade old new) := by
  unfold State.serveBrigade
  split
  · exact demandBrigade s
  · exact refl s

theorem restartCircuits (loads : BitVec 16) (s : State) : HoldsKept s (s.restartCircuits loads) := by
  unfold State.restartCircuits
  exact forAll (fun c t => (changeCircuit t c _).trans (changeCircuit ..)) s

/-- The link's fields are written with degraded as it was (R27). -/
theorem link (s : State) (x : Link) (degraded : x.degraded = s.link.degraded := by rfl) :
    HoldsKept s { s with link := x } := by
  refine of_reasons ⟨rfl, rfl⟩ (fun _ => .rfl) fun c a => ?_
  cases c with
  | system =>
    have zoneHolds : ({ s with link := x } : State).zoneHolds a = s.zoneHolds a := rfl
    have circuitHolds : ({ s with link := x } : State).circuitHolds a = s.circuitHolds a := rfl
    rw [State.holdReason_system, State.holdReason_system, zoneHolds, circuitHolds, degraded]
  | _ => rfl

theorem setDegraded (s : State) (b : Bool) : HoldsKept s (s.setDegraded b) := by
  unfold State.setDegraded
  split
  · exact refl s
  · have written : HoldsBut .system s { s with link := { s.link with degraded := b } } := by
      refine HoldsBut.of_changes (ps := [.link]) ⟨fun p out => ?_⟩
      cases p <;> simp_all [Part.same]
    exact HoldsBut.evalHolds (written.trans (mark ..)) HoldCause.automatic_system

theorem frameFails (s : State) : HoldsKept s s.frameFails := by
  unfold State.frameFails
  dsimp only
  split
  · exact (link s _).trans (setDegraded ..)
  · exact link s _

theorem frameGood (s : State) : HoldsKept s s.frameGood := by
  unfold State.frameGood
  dsimp only
  split
  · exact (link s _).trans (setDegraded ..)
  · exact link s _

theorem reply (s : State) (n : Nat) (b : Byte) (a : Answer) : HoldsKept s (s.reply n b a) := link s _

theorem frameJudged (s : State) (chars : List Byte) : HoldsKept s (s.frameJudged chars) := by
  unfold State.frameJudged
  split
  · exact frameFails s
  · exact refl s

theorem frameDropped (s : State) (chars : List Byte) : HoldsKept s (s.frameDropped chars) := by
  unfold State.frameDropped
  split
  · exact frameFails s
  · exact refl s

theorem restartLink (s : State) : HoldsKept s s.restartLink := by
  unfold State.restartLink
  exact (link s _).trans (setDegraded ..)

/-! ## Settings and starts -/

/-- Settings are written as they were, or while every performance is DARK and so holds nothing (R193). -/
theorem settled {s t : State} {x : Settings} {b : Bool} {ps : List Part} {st : Fin 8} (guard : SettingsGuarded st s t)
    (after : ChangesOnly ps (s.settled x b) t) (out : ps.contains .settings = false := by decide) :
    HoldsKept s (s.settled x b) := by
  have frame := s.settled_changes x b
  have perfs : (s.settled x b).perfs = s.perfs := frame.same .perfs (by decide)
  have dark (a : Fin 3) : (s.settled x b).phase a = s.phase a := by simp only [State.phase, perfs]
  have holds : (s.settled x b).holds = s.holds ∧ (s.settled x b).holdLists = s.holdLists := frame.same .holds (by decide)
  have settings : t.settings = x := (after.same .settings (by simpa using out)).trans (s.settled_settings x b)
  obtain same | ⟨-, -, allDark, -⟩ := guard.settings
  · rw [settings] at same
    subst same
    have kept : ChangesOnly [.store, .stations] s (s.settled s.settings b) := s.noteChange_changes b
    exact of_changes kept
  · refine ⟨fun ok h => ⟨fun a => ?_, fun a => ?_, fun c a _ _ light => ?_⟩⟩
    · unfold HoldListLawful State.hold?
      rw [holds.1, holds.2]
      exact h.lists a
    · rw [dark, holds.2]
      exact h.dark a
    · rw [dark] at light
      exact absurd (s.allDark_iff.1 allDark a) light

theorem softRestart (s : State) (loads : BitVec 16) : HoldsKept s (s.softRestart loads) := by
  have lights (u : State) : HoldsKept u u.restartLights := of_changes u.restartLights_changes
  have irons (u : State) : HoldsKept u u.restartIrons := forAll (fun ch t => writeIron t ch _) u
  have dropped : HoldsKept s s.dropCalls := (silences s).dropCalls (refl s)
  have set := (((dropped.trans (lights _)).trans (restartCircuits loads _)).trans (restartZones _)).trans (irons _)
  unfold State.softRestart
  dsimp only
  generalize (((s.dropCalls.restartLights).restartCircuits loads).restartZones).restartIrons = u at *
  exact ((set.trans (writeSupply u _)).trans (restartLink _)).trans (of_changes (State.flagAll_changes _))

theorem serveCircuit (s : State) (old new : CircuitSettings) : HoldsKept s (s.serveCircuit old new) := by
  unfold State.serveCircuit
  split
  · exact (mark ..).trans (evalHolds _ HoldCause.automatic_system)
  · exact refl s

theorem czoneAmended (s : State) (z : Fin 8) (old : CZoneSettings) : HoldsKept s (s.czoneAmended z old) := by
  unfold State.czoneAmended
  extract_lets cfg s1 s2
  have marked : HoldsKept s s1 := markIf ..
  have present : HoldsKept s s2 := by
    unfold s2
    split
    · exact (silences s).setCZone _ _ ((lights s).dropZone _ _ marked)
    · split
      · exact (lights s).arbitrate _ ((silences s).deriveSilence _ ((silences s).setCZone _ _ marked))
      · exact marked
  split
  · exact present
  · exact ((present.trans (deriveSilence ..)).trans (refreshLights _)).trans (markIf ..)

/-- What a station listens for is read by no hold. -/
theorem applyStation (s : State) (n : Fin 8) (new : StationSettings) : HoldsKept s (s.applyStation n new) := by
  have written (x : Vector StationSettings 8) (y : Vector StationLive 8) :
      HoldsKept s { s with settings := { s.settings with stations := x }, stations := y } :=
    of_reasons ⟨rfl, rfl⟩ (fun _ => .rfl) fun c a => by cases c <;> rfl
  unfold State.applyStation
  exact ((written ..).trans (of_changes (State.noteChange_changes ..))).trans (markIf ..)

end HoldsKept

theorem State.setLock_changes (s : State) (fs : List FieldVal) : ChangesOnly [.store, .stations] s (s.setLock fs) := by
  unfold State.setLock
  split
  · exact State.writeStore_changes ..
  · exact .refl _ _

/-- After a start the automatic holds stand, and no other (R29). -/
theorem HoldsLawfulFor.start (s : State) (p : Plant) (fromPin : Bool) :
    HoldsLawfulFor (fun _ _ => True) (s.start p fromPin) := by
  have empty : HoldsLawfulFor (fun _ _ => False) (s.loadSettings.setUp p fromPin).writeRetained.startLights := by
    have lists (a : Fin 3) : (s.loadSettings.setUp p fromPin).writeRetained.startLights.holdLists[a] = [] := tab_get ..
    have slots (a : Fin 3) (k : Fin 8) :
        (s.loadSettings.setUp p fromPin).writeRetained.startLights.hold? a k = none := by
      change ((tab fun _ => tab fun _ => _ : Vector (Vector HoldSlot 8) 3)[a][k]).hold = none
      simp only [tab_get]
    refine ⟨fun a => ?_, fun a _ => lists a, nofun⟩
    unfold HoldListLawful
    simp only [lists, slots]
    exact ⟨List.nodup_nil, fun _ => ⟨rfl, rfl⟩⟩
  have turn (a : Fin 3) : HoldsLawfulFor (fun _ b => b = a)
      (s.loadSettings.setUp p fromPin).writeRetained.startLights.startHolds := by
    refine forAll_turn (P := HoldsLawfulFor fun _ _ => False) (Q := HoldsLawfulFor fun _ b => b = a) a ?_ ?_ ?_ _ empty
    · exact fun i t _ h => HoldsLawfulFor.evalAllHolds (h.mono fun _ _ => And.left)
    · exact fun t h => HoldsLawfulFor.evalAllHolds (h.mono fun _ _ ⟨same, other⟩ => other same)
    · exact fun i t _ h => HoldsLawfulFor.evalAllHolds (h.mono fun _ _ => And.left)
  have set : HoldsLawfulFor (fun _ _ => True) (s.loadSettings.setUp p fromPin).writeRetained.startLights.startHolds :=
    ⟨(turn 0).lists, (turn 0).dark, fun c a auto _ => (turn a).due c a auto rfl⟩
  exact (HoldsKept.of_changes (State.flagAll_changes _)).keep _ set

/-! ## Station holds (R21, R22) -/

theorem State.namedHold_slot {s : State} {r : Req} {a : Fin 3} {k : Fin 8} {x : Hold}
    (h : s.namedHold r = some (a, k, x)) : s.hold? a k = some x := by
  obtain ⟨i, -, named⟩ := Option.bind_eq_some_iff.1 h
  dsimp only at named
  split at named
  · obtain ⟨y, slot, e⟩ := Option.map_eq_some_iff.1 named
    cases e
    exact slot
  · cases named

/-- A slot of a station's is no automatic one. -/
theorem holdSlot_ne {k : Fin 8} (station : k.1 < 4) {c : HoldCause} (auto : c.automatic) : holdSlot c ≠ k := fun e => by
  have := holdSlot_automatic auto
  omega

theorem State.freeStationSlot_empty {s : State} {a : Fin 3} {k : Fin 8} (free : s.freeStationSlot a = some k) :
    k.1 < 4 ∧ s.hold? a k = none := by
  simpa using firstIx_some _ _ free

namespace HoldsKept

theorem raisesHold {s : State} {a : Fin 3} {k : Fin 8} {x : Hold} (light : s.phase a ≠ .dark)
    (free : s.freeStationSlot a = some k) (origin : x.origin.isNone = false) : HoldsKept s (s.fillHold a k x) := by
  obtain ⟨station, empty⟩ := State.freeStationSlot_empty free
  have frame := s.fillHold_changes a k x
  have phase (b : Fin 3) : (s.fillHold a k x).phase b = s.phase b := rfl
  refine ⟨fun ok h => ⟨fun b => ?_, fun b dark => ?_, fun c b auto mem light' => ?_⟩⟩
  · refine (h.lists b).fill empty ?_
    rw [origin]
    simp [station]
  · rw [(s.fillHold_onlyAt a k x).2.2 b fun e => light (e ▸ dark)]
    exact h.dark b dark
  · rw [State.fillHold_hold?, if_neg fun both => holdSlot_ne station auto both.2, frame.holdReason]
    exact h.due c b auto mem light'

theorem retiresHold {s : State} {a : Fin 3} {k : Fin 8} {x : Hold} {o : Fin 8} (slot : s.hold? a k = some x)
    (origin : x.origin = some o) : HoldsKept s (s.emptyHold a k) := by
  have frame := s.emptyHold_changes a k
  refine ⟨fun ok h => ⟨fun b => (h.lists b).empty k, fun b dark => ?_, fun c b auto mem light => ?_⟩⟩
  · have none := h.dark b dark
    by_cases e : b = a
    · subst e
      rw [State.emptyHold_list, none]
      rfl
    · rw [(s.emptyHold_onlyAt a k).2.2 b e, none]
  · have station : k.1 < 4 := by
      have half := ((h.lists a).2 k).2
      rw [slot] at half
      simpa [origin] using half
    rw [State.emptyHold_hold?, if_neg fun both => holdSlot_ne station auto both.2, frame.holdReason]
    exact h.due c b auto mem light

end HoldsKept

/-! ## Decisions and events -/

theorem Decides.holdsKept {code : ReqCode} {q : Ask} {s : State} {v : Verdict} (h : Decides code q s v) :
    HoldsKept s v.2 := by
  have guard := h.guarded
  have lights := HoldsKept.lights s
  have here := HoldsKept.refl s
  cases h with
  | stays => exact here
  | looks => exact .of_changes (State.lookClears_changes ..)
  | arms => exact .of_changes (State.arm_changes ..)
  | stores => exact .of_changes s.beginStore_changes
  | restarts => exact .softRestart ..
  | blocks => exact .mark ..
  | enters _ aud p adm _ _ _ _ _ _ _ change => exact .enter s aud q.st change
  | amendsPerf aud =>
    obtain ⟨new, written⟩ := s.applyPerf_settled q aud
    rw [written] at guard ⊢
    exact .settled guard (.refl [] _)
  | amendsIron a ch limitIn new =>
    rw [State.applyIron_settled] at guard ⊢
    dsimp only at guard ⊢
    have acted := State.actIron_changes (s.settled (s.settings.withIron ch new) (s.settings.irons[ch] != new)) ch q.req.fields
    split at guard
    next moved =>
      rw [if_pos moved]
      have noted := HoldsKept.settled guard (acted.andThen (rs := [.irons, .holds, .stations])
        (State.ironPresence_changes ..))
      exact (noted.trans (.actIron ..)).trans (.ironPresence ..)
    next still =>
      rw [if_neg still]
      exact (HoldsKept.settled guard acted).trans (.actIron ..)
  | amendsZone a z new =>
    rw [State.applyZone_settled] at guard ⊢
    have noted := HoldsKept.settled guard ((State.actZone_changes ..).andThen (rs := .zones :: .holds :: burstParts)
      (State.serveZone_changes ..))
    exact (noted.trans (.actZone ..)).trans (.serveZone ..)
  | targets => exact .of_changes (State.applyTarget_changes ..)
  | amendsGroup g =>
    obtain ⟨new, written⟩ := s.applyGroup_settled q g
    rw [written] at guard ⊢
    have noted := HoldsKept.settled guard ((State.groupAmended_changes ..).andThen (rs := lightParts)
      (State.announceLit_changes _))
    exact (noted.trans (.of_changes (State.groupAmended_changes ..))).trans (.announceLit _)
  | amendsCZone a z new =>
    have noted : HoldsKept s (s.settled (s.settings.withCZone z new) (s.settings.czones[z] != new)) :=
      .settled guard (State.czoneAmended_changes ..)
    exact noted.trans (.czoneAmended ..)
  | amendsCircuit a c =>
    rw [State.applyCircuit_settled] at guard ⊢
    have noted := HoldsKept.settled guard ((State.serveCircuit_changes ..).andThen (rs := .holds :: burstParts)
      (State.resetCircuit_changes ..))
    exact (noted.trans (.serveCircuit ..)).trans (.resetCircuit ..)
  | amendsStatus a new =>
    rw [State.applyStatus_settled] at guard ⊢
    have noted := HoldsKept.settled guard ((State.serveBrigade_changes ..).andThen (rs := [.store, .circuits, .stations])
      (State.setLock_changes ..))
    exact (noted.trans (.serveBrigade ..)).trans (.of_changes (State.setLock_changes ..))
  | amendsStation => exact .applyStation ..
  | raisesHold a aud k n _ _ light free => exact .raisesHold light free rfl
  | retiresHold a aud k x o _ _ named origin => exact .retiresHold (State.namedHold_slot named) origin
  | widens => exact .widenIncident ..
  | raisesIncident => exact .raiseStationIncident ..
  | actsIncident => exact .actIncident ..
  | retiresIncident => exact .retireIncidentAt ..
  | raisesCall _ x b c room _ _ _ _ found => exact lights.fillCall c x (lights.roomForCall found here)
  | amendsCall => exact lights.amendCallAt _ _ _ here
  | retiresCall => exact lights.retireCallAt _ here

theorem HoldsKept.takes {s t : State} {f : State → State} (run : s.takes f = .next t) (h : HoldsKept s (f s)) :
    HoldsKept s t := by
  unfold State.takes at run
  obtain rfl := Host.Outcome.next.inj run
  split
  · exact h
  · exact .refl s

/-- An event that starts nothing keeps the lawful holds lawful. -/
theorem event_holdsKept {i : Instr} {s t : State} (run : exec i s = .next t) (event : requestOf i = none)
    (known : ∀ code kind r, i ≠ .unknownRequest code kind r) (later : ∀ p, i ≠ .coldStart p ∧ i ≠ .resetPin p) :
    HoldsKept s t := by
  have lights := HoldsKept.lights s
  have here := HoldsKept.refl s
  cases i with
  | unknownRequest code kind r => exact absurd rfl (known code kind r)
  | coldStart p => exact absurd rfl (later p).1
  | resetPin p => exact absurd rfl (later p).2
  | frameError chars => cases run; exact HoldsKept.frameJudged ..
  | frameDiscarded chars => cases run; exact HoldsKept.frameDropped ..
  | frameGapTimeout chars => cases run; exact HoldsKept.frameDropped ..
  | frameForOtherAddress chars => cases run; exact here
  | storeComplete => exact .takes run (.of_changes s.storeCompletes_changes)
  | encoderCount ch up => exact .takes run (.countEncoder s ch up)
  | indexEvent ch => exact .takes run (.indexSeen s ch)
  | limitInEvent ch => exact .takes run (.limitInMade s ch)
  | limitOutEvent ch => exact .takes run (.limitOutMade s ch)
  | localReleasePress ch => exact .takes run (.pressRelease s ch)
  | localReleaseLetGo ch => exact .takes run (.letGoRelease s ch)
  | descentSample ch => exact .takes run (.sample s ch)
  | stall ch => exact .takes run (.stallSample s ch)
  | tooSlow ch => exact .takes run (.slowSample s ch)
  | raiseTimeout ch => exact .takes run (.raiseTimesOut s ch)
  | bandEvent z b => exact .takes run (.bandChanges s z b)
  | confirmTimerExpiry z =>
    simp only [exec, execConfirmTimerExpiry] at run
    split at run
    · exact .confirms run
    · cases run; exact here
  | quietTimerExpiry z => exact .takes run (.quietRuns s z)
  | loopTimerExpiry z => exact .takes run (.loopRuns s z)
  | acknowledgeTimerExpiry i => exact .takes run (.ackRunsOut s i)
  | investigationTimerExpiry i => exact .takes run (.investigationRunsOut s i)
  | fadeStep => exact .of_changes (commandsTouchOnlyTheirParts .fadeStep s t run)
  | fadeComplete g => exact .takes run (.of_changes (State.fadeEnds_changes s g))
  | notBeforeDue c z => exact .takes run (lights.notBeforePasses c z here)
  | strokeOnElapsed z => exact .takes run (lights.strokeOnRuns z here)
  | strokeGapElapsed z => exact .takes run (lights.strokeGapRuns z here)
  | burstEnd z => exact .takes run (lights.burstRuns z here)
  | patternPartEnd c => exact .takes run (.patternRuns s c)
  | testTimerExpiry c seen => exact .takes run (.testRuns s c seen)
  | overloadEvent c => exact .takes run (.overloads s c)
  | retryTimerExpiry c => exact .takes run (.retryRuns s c)
  | cleanTimerExpiry c => exact .takes run (.cleanRuns s c)
  | offTimerExpiry c => exact .takes run (.offRuns s c)
  | mainsSenseChange on => exact .takes run (.mainsLine s on)
  | lossTimerExpiry => exact .takes run (.lossRuns s)
  | settlingTimerExpiry => exact .takes run (.settlingRuns s)
  | supplyLowLineChange on => exact .takes run (.supplyLine s on)
  | safetySupplyTimerExpiry => exact .takes run (.safetyRuns s)
  | cellSenseChange good => exact .takes run (.cellLine s good)
  | cellTimerExpiry => exact .takes run (.cellRuns s)
  | powerFail =>
    refine .takes run ?_
    refine (HoldsKept.link s { s.link with reply := none }).trans ?_
    exact .of_reasons ⟨rfl, rfl⟩ (fun _ => .rfl) fun _ _ => rfl
  | replyEnd => exact .takes run (.link s _)
  | _ => cases event

/-- A command keeps the lawful holds lawful, or is a start, after which they are. -/
theorem exec_holdsLawful {i : Instr} {s t : State} (h : HoldsLawfulFor (fun _ _ => True) s) (run : exec i s = .next t) :
    HoldsLawfulFor (fun _ _ => True) t := by
  refine exec_keeps (P := HoldsLawfulFor fun _ _ => True) (fun u h => (HoldsKept.frameGood u).keep _ h)
    (fun u h => (HoldsKept.frameFails u).keep _ h) (fun u n b a h => (HoldsKept.reply u n b a).keep _ h)
    (fun _ _ _ _ h decided => decided.holdsKept.keep _ h) (fun event known h => ?_) h run
  by_cases later : ∀ p, i ≠ .coldStart p ∧ i ≠ .resetPin p
  · exact (event_holdsKept run event known later).keep _ h
  · have starts : ∃ p, i = .coldStart p ∨ i = .resetPin p := by
      by_contra none
      exact later fun p => ⟨fun e => none ⟨p, .inl e⟩, fun e => none ⟨p, .inr e⟩⟩
    obtain ⟨p, rfl | rfl⟩ := starts
    · obtain rfl : s.start p false = t := Host.Outcome.next.inj run
      exact .start ..
    · unfold exec execResetPin State.takes at run
      obtain rfl := Host.Outcome.next.inj run
      split
      · exact .start ..
      · exact h

/-- Settles O10. -/
theorem holdsStayLawful : Obligations.HoldsStayLawful := by
  unfold Obligations.HoldsStayLawful
  intro s t h run
  rw [holdsLawful_iff] at h ⊢
  exact step_keeps (P := HoldsLawfulFor fun _ _ => True) (fun u n h => (HoldsKept.clock u n).keep _ h)
    (fun u rest h => (HoldsKept.of_reasons (s := u) (t := { u with pending := rest }) ⟨rfl, rfl⟩ (fun _ => .rfl)
      fun _ _ => rfl).keep _ h)
    (fun i u w h ran => exec_holdsLawful h ran) h run

end Sys2Proof.Machine
end

section
/-!
PROOFS. What each operation of the curtain unit makes of its channel, and that it leaves the others (R36..R58).
-/

namespace Sys2Proof.Machine

-- One declaration at a time: side conditions closed by tactics wait for what stands before them.
set_option Elab.async false

theorem put_put {α : Type} {n : Nat} (v : Vector α n) (i : Fin n) (x y : α) : put (put v i x) i y = put v i y := by
  ext j hj
  have all := put_get (put v i x) i ⟨j, hj⟩ y
  have one := put_get v i ⟨j, hj⟩ y
  have other := put_get v i ⟨j, hj⟩ x
  by_cases e : (⟨j, hj⟩ : Fin n) = i
  · rw [if_pos e] at all one
    exact all.trans one.symm
  · rw [if_neg e] at all one other
    exact all.trans (other.trans one.symm)

/-- A fault found during a raise stops it (R47). -/
def Iron.faulted (f : IronFault) (x : Iron) : Iron :=
  if x.motion = .raising then (x.noteFault f).stopRaise (if f = .raiseTimeout then some .timeout else none)
  else x.noteFault f

/-- A position loaded after its drift check (R50, R51). -/
def Iron.reloaded (tol at_ : Nat) (stops : Bool) (x : Iron) : Iron :=
  (if x.drifted tol at_ then (if stops then x.faulted .drift else x.noteFault .drift) else x).load at_

/-- One count of the encoder: position and totals, then saturation, direction and creep (R46, R49, R52). -/
def Iron.counted (tol : Int) (up : Bool) (x : Iron) : Iron :=
  let y := if x.saturates up then ((x.tally up).count up).faulted .drift else (x.tally up).count up
  if y.motion = .raising ∧ y.raiseTravel + tol < y.raiseTop then y.faulted .direction
  else if (x.motion = .atOut ∨ x.motion = .stopped) ∧ y.restTravel + tol < 0 ∧ y.sawCreep = false then
    { y with sawCreep := true }.noteFault .drift
  else y

/-- A descent that has arrived is judged (R58, R59). -/
def Iron.arrived (cfg : IronSettings) (proof : Bool) (x : Iron) : Iron :=
  let v := x.landed.judge cfg
  (if v.2 then x.landed.noteFault .checkFailure else x.landed).judged
    (if v.1 = .pass ∧ proof = true then .proofPass else v.1) v.2

/-- A fall that nothing commanded has reached IN (R51). -/
def Iron.fallen (tol : Nat) (x : Iron) : Iron :=
  (if x.drifted tol 0 then x.reloaded tol 0 true else (x.reloaded tol 0 true).noteFault .drift).enterIn

/-- What limit IN makes of a channel (R51). -/
def Iron.landedBy (cfg : IronSettings) (proof : Bool) (x : Iron) : Iron :=
  match x.motion with
  | .descending => (x.reloaded cfg.driftTol 0 true).arrived cfg proof
  | .atOut => x.fallen cfg.driftTol
  | .stopped => x.fallen cfg.driftTol
  | .raising => x.reloaded cfg.driftTol 0 true
  | .atIn => x.reloaded cfg.driftTol 0 true

/-- What limit OUT makes of a channel (R44, R51). -/
def Iron.raisedTo (cfg : IronSettings) (x : Iron) : Iron :=
  let y := x.reloaded cfg.driftTol cfg.travel false
  if y.motion = .raising then { y with motion := .atOut, restTravel := 0, sawCreep := false } else y

/-- The checks of one sample of a descent (R54..R57). -/
def Iron.supervised (cfg : IronSettings) (x : Iron) : Iron :=
  let a := x.advance
  let y1 := if a.crosses cfg then a.cross else a
  let y2 := if !a.crosses cfg && a.overspeeds cfg then { y1 with sawOverspeed := true }.noteFault .overspeed else y1
  let y3 := if a.stalls cfg then { y2 with sawStall := true }.noteFault .stall else y2
  if a.tooLate cfg then { y3 with sawTooSlow := true }.noteFault .tooSlow else y3

/-- What a sample makes of a channel (R53). -/
def Iron.sampled (cfg : IronSettings) (t : Nat) (x : Iron) : Iron :=
  let y := if x.motion = .descending then x.supervised cfg else x
  { y with sampleMove := 0, samplePos := y.position, sampleAt := t }

variable (s : State) (ch : Fin 3)

theorem State.writeIron_iron (x : Iron) : (s.writeIron ch x).irons[ch] = x := by
  rw [State.writeIron_irons, put_same]

theorem State.recordFault_irons (f : IronFault) :
    (s.recordFault ch f).irons = put s.irons ch (s.irons[ch].noteFault f) := by
  unfold State.recordFault
  dsimp only
  split
  · exact State.writeIron_irons ..
  · exact ((State.evalHolds_changes ..).same .irons (by decide)).trans (State.writeIron_irons ..)

theorem State.recordFault_iron (f : IronFault) : (s.recordFault ch f).irons[ch] = s.irons[ch].noteFault f := by
  rw [State.recordFault_irons, put_same]

theorem State.faultInMotion_irons (f : IronFault) :
    (s.faultInMotion ch f).irons = put s.irons ch (s.irons[ch].faulted f) := by
  have motion : (s.irons[ch].noteFault f).motion = s.irons[ch].motion := rfl
  unfold State.faultInMotion Iron.faulted
  dsimp only
  rw [State.recordFault_iron, motion]
  split
  · rw [State.writeIron_irons, State.recordFault_irons, put_put]
  · exact State.recordFault_irons ..

theorem State.reload_irons (at_ : Nat) (stops : Bool) : (s.reload ch at_ stops).irons =
    put s.irons ch (s.irons[ch].reloaded s.settings.irons[ch].driftTol at_ stops) := by
  unfold State.reload Iron.reloaded
  extract_lets x s1
  have checked : s1.irons = put s.irons ch (if x.drifted s.settings.irons[ch].driftTol at_ then
      (if stops then x.faulted .drift else x.noteFault .drift) else x) := by
    unfold s1
    split
    · split
      · exact State.faultInMotion_irons ..
      · exact State.recordFault_irons ..
    · exact (put_self ..).symm
  rw [State.writeIron_irons, checked, put_put, put_same]

theorem State.countEncoder_irons (up : Bool) (present : s.settings.irons[ch].present = true) :
    (s.countEncoder ch up).irons = put s.irons ch (s.irons[ch].counted s.settings.irons[ch].driftTol up) := by
  unfold State.countEncoder
  rw [if_neg (by rw [present]; decide)]
  extract_lets x tol s1 s2 y
  have counted : s2.irons = put s.irons ch (if x.saturates up then ((x.tally up).count up).faulted .drift
      else (x.tally up).count up) := by
    unfold s2
    split
    · rw [State.faultInMotion_irons, State.writeIron_irons, put_put, put_same]
    · exact State.writeIron_irons ..
  have here : y = if x.saturates up then ((x.tally up).count up).faulted .drift else (x.tally up).count up := by
    unfold y
    rw [counted, put_same]
  unfold Iron.counted
  dsimp only
  rw [← here]
  split
  · rw [State.faultInMotion_irons, counted, put_put, put_same, here]
  · split
    · rw [State.recordFault_irons, State.writeIron_irons, counted, put_put, put_put, put_same]
    · rw [counted, here]

theorem State.indexSeen_irons (present : s.settings.irons[ch].present = true) : (s.indexSeen ch).irons =
    put s.irons ch (s.irons[ch].reloaded s.settings.irons[ch].driftTol s.settings.irons[ch].indexPos true) := by
  unfold State.indexSeen
  rw [if_neg (by rw [present]; decide), State.reload_irons]

theorem State.takeJudgement_irons (a : Fin 3) (k : DescentKind) (b : Bool) : (s.takeJudgement a k b).irons = s.irons :=
  (State.takeJudgement_changes ..).same .irons (by decide)

theorem State.arrive_irons : (s.arrive ch).irons =
    put s.irons ch (s.irons[ch].arrived s.settings.irons[ch] s.perfs[ch].proofDrop) := by
  unfold State.arrive
  extract_lets x v s1 s2 result s3
  have frame : ChangesOnly [.irons, .holds, .stations] s s2 := by
    unfold s2
    split
    · exact (State.writeIron_changes ..).andThen (State.recordFault_changes ..)
    · exact (State.writeIron_changes ..).mono
  have perfs : s2.perfs = s.perfs := frame.same .perfs (by decide)
  have checked : s2.irons = put s.irons ch (if v.2 then x.landed.noteFault .checkFailure else x.landed) := by
    unfold s2
    split
    · rw [State.recordFault_irons, State.writeIron_irons, put_put, put_same]
    · exact State.writeIron_irons ..
  have proof : result = if v.1 = .pass ∧ s.perfs[ch].proofDrop = true then .proofPass else v.1 := by
    unfold result
    simp only [perfs]
  rw [State.takeJudgement_irons, State.writeIron_irons, checked, put_put, put_same, proof]
  rfl

theorem State.limitInMade_irons (present : s.settings.irons[ch].present = true) : (s.limitInMade ch).irons =
    put s.irons ch (s.irons[ch].landedBy s.settings.irons[ch] s.perfs[ch].proofDrop) := by
  unfold State.limitInMade
  rw [if_neg (by rw [present]; decide)]
  extract_lets x s1 s2 uncommanded
  have loaded : s1.irons = put s.irons ch (x.reloaded s.settings.irons[ch].driftTol 0 true) := State.reload_irons ..
  have frame : ChangesOnly [.irons, .holds, .stations] s s1 := State.reload_changes ..
  have settings : s1.settings = s.settings := frame.same .settings (by decide)
  have perfs : s1.perfs = s.perfs := frame.same .perfs (by decide)
  have fell : uncommanded.irons = put s.irons ch (x.fallen s.settings.irons[ch].driftTol) := by
    unfold uncommanded Iron.fallen
    have told : s2.irons = put s.irons ch (if x.drifted s.settings.irons[ch].driftTol 0 then
        x.reloaded s.settings.irons[ch].driftTol 0 true
        else (x.reloaded s.settings.irons[ch].driftTol 0 true).noteFault .drift) := by
      unfold s2
      split
      · exact loaded
      · rw [State.recordFault_irons, loaded, put_put, put_same]
    rw [State.writeIron_irons, told, put_put, put_same]
  unfold Iron.landedBy
  split
  next motion =>
    rw [motion, State.arrive_irons, loaded, put_put, put_same]
    simp only [settings, perfs]
    rfl
  next motion => rw [motion, fell]
  next motion => rw [motion, fell]
  next motion => rw [motion, loaded]
  next motion => rw [motion, loaded]

theorem State.limitOutMade_irons (present : s.settings.irons[ch].present = true) : (s.limitOutMade ch).irons =
    put s.irons ch (s.irons[ch].raisedTo s.settings.irons[ch]) := by
  have loaded := s.reload_irons ch s.settings.irons[ch].travel false
  unfold State.limitOutMade Iron.raisedTo
  rw [if_neg (by rw [present]; decide)]
  dsimp only
  rw [loaded, put_same]
  split
  · rw [State.writeIron_irons, loaded, put_put]
  · exact loaded

theorem State.superviseDescent_irons : (s.superviseDescent ch).irons =
    put s.irons ch (s.irons[ch].supervised s.settings.irons[ch]) := by
  unfold State.superviseDescent Iron.supervised
  extract_lets cfg x crossed s1 x2 s2 x3 s3 x4 a y1 y2 y3
  have one : s1.irons = put s.irons ch y1 := State.writeIron_irons ..
  have two : s2.irons = put s.irons ch y2 := by
    unfold s2 y2 x2
    split
    · rw [State.recordFault_irons, State.writeIron_irons, one, put_put, put_put, put_same, put_same]
    · exact one
  have three : s3.irons = put s.irons ch y3 := by
    unfold s3 y3 x3
    split
    · rw [State.recordFault_irons, State.writeIron_irons, two, put_put, put_put, put_same, put_same]
    · exact two
  split
  · unfold x4
    rw [State.recordFault_irons, State.writeIron_irons, three, put_put, put_put, put_same, put_same]
  · exact three

theorem State.sample_irons (present : s.settings.irons[ch].present = true) : (s.sample ch).irons =
    put s.irons ch (s.irons[ch].sampled s.settings.irons[ch] (max s.now (s.irons[ch].sampleAt + Config.sampleMs))) := by
  unfold State.sample Iron.sampled
  rw [if_neg (by rw [present]; decide)]
  extract_lets x t s1 s2 y z
  have timed : s2.irons = put s.irons ch z := by
    unfold s2 z
    split
    · exact State.superviseDescent_irons s1 ch
    · exact (put_self ..).symm
  rw [State.markIf_irons, State.writeIron_irons, timed, put_put]
  unfold y
  rw [timed, put_same]

end Sys2Proof.Machine
end

section
/-!
PROOFS. A channel raises only while nothing forbids it: only a demand OUT that nothing bars begins a raise, and whatever
would forbid one that runs ends it (R43..R48).
-/

namespace Sys2Proof.Machine

-- One declaration at a time: side conditions closed by tactics wait for what stands before them.
set_option Elab.async false

/-! ## What an event makes of a raise -/

/-- A channel that is RAISING in `y` was so in `x`, with the same release, and no fault that was not there. -/
structure StillRaising (x y : Iron) : Prop where
  was : y.motion = .raising →
    x.motion = .raising ∧ (x.pressed = false → y.pressed = false) ∧ (x.fault = none → y.fault = none)

namespace StillRaising

theorem refl (x : Iron) : StillRaising x x := ⟨fun h => ⟨h, id, id⟩⟩

/-- What leaves motion, release and fault. -/
theorem of_same {x y : Iron} (motion : y.motion = x.motion) (pressed : y.pressed = x.pressed)
    (fault : y.fault = x.fault) : StillRaising x y :=
  ⟨fun h => ⟨motion ▸ h, pressed.trans, fault.trans⟩⟩

theorem of_ends {x y : Iron} (ends : y.motion ≠ .raising) : StillRaising x y := ⟨fun h => absurd h ends⟩

end StillRaising

namespace Iron

variable (x : Iron)

theorem faulted_ends (f : IronFault) : (x.faulted f).motion ≠ .raising := by
  unfold Iron.faulted
  split
  · exact nofun
  next other => exact other

theorem reloaded_still (tol at_ : Nat) : StillRaising x (x.reloaded tol at_ true) := by
  unfold Iron.reloaded
  split
  · exact .of_ends (x.faulted_ends .drift)
  · exact .of_same rfl rfl rfl

theorem counted_still (tol : Int) (up : Bool) : StillRaising x (x.counted tol up) := by
  unfold Iron.counted
  extract_lets y
  have counted : StillRaising x y := by
    unfold y
    split
    · exact .of_ends (Iron.faulted_ends _ .drift)
    · exact .of_same rfl rfl rfl
  split
  · exact .of_ends (Iron.faulted_ends _ .direction)
  · split
    next rests =>
      refine .of_ends fun (raising : y.motion = .raising) => ?_
      have was := (counted.was raising).1
      rw [was] at rests
      simp at rests
    · exact counted

theorem release_ends (why : ReleaseReason) : (x.release why).motion ≠ .raising := by
  unfold Iron.release
  cases motion : x.motion with
  | atIn => rw [motion]; exact nofun
  | descending => rw [motion]; exact nofun
  | _ => exact nofun

theorem landed_motion (result : DescentResult) (failed checked : Bool) :
    ((if checked then x.landed.noteFault .checkFailure else x.landed).judged result failed).motion = .atIn := by
  split <;> rfl

theorem landedBy_still (cfg : IronSettings) (proof : Bool) : StillRaising x (x.landedBy cfg proof) := by
  unfold Iron.landedBy
  split
  · refine .of_ends ?_
    unfold Iron.arrived
    dsimp only
    rw [landed_motion]
    exact nofun
  · exact .of_ends (by unfold Iron.fallen; exact nofun)
  · exact .of_ends (by unfold Iron.fallen; exact nofun)
  · exact x.reloaded_still ..
  · exact x.reloaded_still ..

theorem raisedTo_still (cfg : IronSettings) : StillRaising x (x.raisedTo cfg) := by
  unfold Iron.raisedTo
  dsimp only
  split
  · exact .of_ends nofun
  next other => exact .of_ends other

theorem supervised_motion (cfg : IronSettings) : (x.supervised cfg).motion = x.motion := by
  unfold Iron.supervised
  extract_lets a y1 y2 y3
  have one : y1.motion = x.motion := by unfold y1; split <;> rfl
  have two : y2.motion = x.motion := by unfold y2; split <;> exact one
  have three : y3.motion = x.motion := by unfold y3; split <;> exact two
  split <;> exact three

theorem sampled_still (cfg : IronSettings) (t : Nat) : StillRaising x (x.sampled cfg t) := by
  unfold Iron.sampled
  dsimp only
  split
  next falls =>
    refine .of_ends fun raising => ?_
    have : (x.supervised cfg).motion = .raising := raising
    rw [supervised_motion, falls] at this
    cases this
  · exact .of_same rfl rfl rfl

end Iron

/-! ## What keeps raises safe -/

/-- Between `s` and `t` no raise has begun or lost what it needs. -/
structure RaisesKept (s t : State) : Prop where
  keep : RaisesAreSafe s → RaisesAreSafe t

namespace RaisesKept

variable {s t u : State}

theorem refl (s : State) : RaisesKept s s := ⟨id⟩

theorem trans (h : RaisesKept s t) (k : RaisesKept t u) : RaisesKept s u := ⟨fun safe => k.keep (h.keep safe)⟩

/-- No raise has begun, and the presence of the channels, the incidents' sets and mains stand. -/
theorem of_irons (irons : ∀ ch : Fin 3, StillRaising s.irons[ch] t.irons[ch])
    (present : ∀ ch : Fin 3, t.settings.irons[ch].present = s.settings.irons[ch].present)
    (incidents : ∀ (ch : Fin 3) (x : Incident), x ∈ t.openIncidents → has x.auds ch = true →
      ∃ y ∈ s.openIncidents, has y.auds ch = true)
    (mains : s.supply.mains = .present → t.supply.mains = .present) : RaisesKept s t := by
  refine ⟨fun safe ch raising => ?_⟩
  obtain ⟨was, pressed, fault⟩ := (irons ch).was raising
  obtain ⟨there, quiet, free, sound, on⟩ := safe ch was
  refine ⟨(present ch).trans there, fun x mem => ?_, pressed free, fault sound, mains on⟩
  by_contra concerned
  obtain ⟨y, open?, also⟩ := incidents ch x mem (by simpa using concerned)
  rw [quiet y open?] at also
  cases also

theorem of_changes {ps : List Part} (h : ChangesOnly ps s t)
    (out : ([Part.settings, .irons, .incidents, .supply].all fun p => !ps.contains p) = true := by rfl) :
    RaisesKept s t := by
  have same (p : Part) (mem : p ∈ [Part.settings, .irons, .incidents, .supply]) : p.same s t :=
    h.same p (by simpa using List.all_eq_true.1 out p mem)
  have settings : t.settings = s.settings := same .settings (by decide)
  have irons : t.irons = s.irons := same .irons (by decide)
  obtain ⟨slots, list⟩ : t.incidents = s.incidents ∧ t.incidentList = s.incidentList := same .incidents (by decide)
  have supply : t.supply = s.supply := same .supply (by decide)
  refine of_irons (fun ch => ?_) (fun ch => ?_) (fun ch x mem concerned => ?_) ?_
  · rw [irons]; exact .refl _
  · rw [settings]
  · simp only [State.openIncidents, slots, list] at mem
    exact ⟨x, mem, concerned⟩
  · rw [supply]; exact id

/-- A channel's event, by what it makes of the channel. -/
theorem of_iron {ps : List Part} (h : ChangesOnly ps s t) {ch : Fin 3} {x : Iron} (irons : t.irons = put s.irons ch x)
    (still : StillRaising s.irons[ch] x)
    (out : ([Part.settings, .incidents, .supply].all fun p => !ps.contains p) = true := by rfl) : RaisesKept s t := by
  have same (p : Part) (mem : p ∈ [Part.settings, .incidents, .supply]) : p.same s t :=
    h.same p (by simpa using List.all_eq_true.1 out p mem)
  have settings : t.settings = s.settings := same .settings (by decide)
  obtain ⟨slots, list⟩ : t.incidents = s.incidents ∧ t.incidentList = s.incidentList := same .incidents (by decide)
  have supply : t.supply = s.supply := same .supply (by decide)
  refine of_irons (fun i => ?_) (fun i => ?_) (fun i x mem concerned => ?_) ?_
  · rw [irons, put_get]
    split
    next e => rw [e]; exact still
    · exact .refl _
  · rw [settings]
  · simp only [State.openIncidents, slots, list] at mem
    exact ⟨x, mem, concerned⟩
  · rw [supply]; exact id

theorem writeIron (s : State) (ch : Fin 3) (x : Iron) (still : StillRaising s.irons[ch] x) :
    RaisesKept s (s.writeIron ch x) := of_iron (s.writeIron_changes ch x) (State.writeIron_irons ..) still

theorem release (s : State) (ch : Fin 3) (why : ReleaseReason) : RaisesKept s (s.release ch why) :=
  writeIron s ch _ (.of_ends (Iron.release_ends _ _))

/-- An event of a present channel; an absent one takes none. -/
theorem of_present {f : State → State} {x : Iron} {ch : Fin 3} {ps : List Part}
    (absent : s.settings.irons[ch].present = false → f s = s) (frame : ChangesOnly ps s (f s))
    (irons : s.settings.irons[ch].present = true → (f s).irons = put s.irons ch x) (still : StillRaising s.irons[ch] x)
    (out : ([Part.settings, .incidents, .supply].all fun p => !ps.contains p) = true := by rfl) : RaisesKept s (f s) := by
  cases present : s.settings.irons[ch].present with
  | false => rw [absent present]; exact .refl s
  | true => exact of_iron frame (irons present) still out

end RaisesKept

theorem State.countEncoder_absent {s : State} {ch : Fin 3} (up : Bool) (absent : s.settings.irons[ch].present = false) :
    s.countEncoder ch up = s := by
  unfold State.countEncoder
  rw [if_pos (by rw [absent]; decide)]

theorem State.indexSeen_absent {s : State} {ch : Fin 3} (absent : s.settings.irons[ch].present = false) :
    s.indexSeen ch = s := by
  unfold State.indexSeen
  rw [if_pos (by rw [absent]; decide)]

theorem State.limitInMade_absent {s : State} {ch : Fin 3} (absent : s.settings.irons[ch].present = false) :
    s.limitInMade ch = s := by
  unfold State.limitInMade
  rw [if_pos (by rw [absent]; decide)]

theorem State.limitOutMade_absent {s : State} {ch : Fin 3} (absent : s.settings.irons[ch].present = false) :
    s.limitOutMade ch = s := by
  unfold State.limitOutMade
  rw [if_pos (by rw [absent]; decide)]

theorem State.sample_absent {s : State} {ch : Fin 3} (absent : s.settings.irons[ch].present = false) :
    s.sample ch = s := by
  unfold State.sample
  rw [if_pos (by rw [absent]; decide)]

namespace RaisesKept

variable (s : State) (ch : Fin 3)

theorem countEncoder (up : Bool) : RaisesKept s (s.countEncoder ch up) :=
  of_present (f := State.countEncoder ch up) (State.countEncoder_absent up) (s.countEncoder_changes ch up)
    (s.countEncoder_irons ch up) (Iron.counted_still ..)

theorem indexSeen : RaisesKept s (s.indexSeen ch) :=
  of_present State.indexSeen_absent (s.indexSeen_changes ch) (s.indexSeen_irons ch) (Iron.reloaded_still ..)

theorem limitInMade : RaisesKept s (s.limitInMade ch) :=
  of_present State.limitInMade_absent (s.limitInMade_changes ch) (s.limitInMade_irons ch) (Iron.landedBy_still ..)

theorem limitOutMade : RaisesKept s (s.limitOutMade ch) :=
  of_present State.limitOutMade_absent (s.limitOutMade_changes ch) (s.limitOutMade_irons ch) (Iron.raisedTo_still ..)

theorem sample : RaisesKept s (s.sample ch) :=
  of_present State.sample_absent (s.sample_changes ch) (s.sample_irons ch) (Iron.sampled_still ..)

theorem stallSample : RaisesKept s (s.stallSample ch) := by
  unfold State.stallSample
  dsimp only
  split
  · exact sample s ch
  · exact refl s

theorem slowSample : RaisesKept s (s.slowSample ch) := by
  unfold State.slowSample
  dsimp only
  split
  · exact sample s ch
  · exact refl s

theorem reach (t : Nat) : RaisesKept s (s.reach t) := of_changes (s.reach_changes t)

theorem raiseTimesOut : RaisesKept s (s.raiseTimesOut ch) := by
  unfold State.raiseTimesOut
  dsimp only
  split
  · refine (reach s _).trans (of_iron (State.faultInMotion_changes ..) (State.faultInMotion_irons ..) ?_)
    exact .of_ends (Iron.faulted_ends _ _)
  · exact refl s

theorem lines (l : Lines) : RaisesKept s { s with lines := l } := of_changes (s.lines_changes l)

theorem pressRelease : RaisesKept s (s.pressRelease ch) := by
  unfold State.pressRelease
  dsimp only
  split
  · exact lines ..
  · refine (lines s _).trans (writeIron _ ch _ (.of_ends ?_))
    exact Iron.release_ends _ .localRelease

theorem letGoRelease : RaisesKept s (s.letGoRelease ch) := by
  unfold State.letGoRelease
  dsimp only
  split
  · exact lines ..
  · refine (lines s _).trans (writeIron _ ch _ ?_)
    exact ⟨fun raising => ⟨raising, fun _ => rfl, id⟩⟩

/-! ## Incidents (R42, R47) -/

/-- What leaves channels, presence and mains, and every open incident the auditoria of one that was. -/
theorem of_incidents {s t : State} {ps : List Part} (h : ChangesOnly ps s t)
    (incidents : ∀ (ch : Fin 3) (x : Incident), x ∈ t.openIncidents → has x.auds ch = true →
      ∃ y ∈ s.openIncidents, has y.auds ch = true)
    (out : ([Part.settings, .irons, .supply].all fun p => !ps.contains p) = true := by rfl) : RaisesKept s t := by
  have same (p : Part) (mem : p ∈ [Part.settings, .irons, .supply]) : p.same s t :=
    h.same p (by simpa using List.all_eq_true.1 out p mem)
  have settings : t.settings = s.settings := same .settings (by decide)
  have irons : t.irons = s.irons := same .irons (by decide)
  have supply : t.supply = s.supply := same .supply (by decide)
  refine of_irons (fun ch => ?_) (fun ch => ?_) incidents ?_
  · rw [irons]; exact .refl _
  · rw [settings]
  · rw [supply]; exact id

theorem editIncident (s : State) (i : Fin 25) (f : Incident → Incident)
    (auds : ∀ x, s.incident? i = some x → (f x).auds = x.auds) : RaisesKept s (s.editIncident i f) := by
  refine of_incidents (State.editIncident_changes ..) fun ch x mem concerned => ?_
  have one : ((s.editIncident i f).openIncidents.any fun x => has x.auds ch) = true :=
    List.any_eq_true.2 ⟨x, mem, concerned⟩
  rw [State.editIncident_concerns s i f auds] at one
  exact List.any_eq_true.1 one

theorem emptyIncident (s : State) (i : Fin 25) : RaisesKept s (s.emptyIncident i) := by
  refine of_incidents (State.emptyIncident_changes ..) fun ch x mem concerned => ?_
  obtain ⟨j, listed, slot⟩ := mem_openIncidents.1 mem
  rw [State.emptyIncident_incident?] at slot
  split at slot
  · cases slot
  · exact ⟨x, mem_openIncidents.2 ⟨j, List.mem_of_mem_erase listed, slot⟩, concerned⟩

end RaisesKept

/-- Nothing forbids a raise that runs but the incidents `ids`, of which the curtain unit is yet to be told. -/
def RaisesBut (ids : List (Fin 25)) (s : State) : Prop :=
  ∀ ch : Fin 3, s.irons[ch].motion = .raising →
    s.settings.irons[ch].present = true ∧
      (∀ i ∈ s.incidentList, ∀ x, s.incident? i = some x → has x.auds ch = true → i ∈ ids) ∧
      s.irons[ch].pressed = false ∧ s.irons[ch].fault = none ∧ s.supply.mains = .present

theorem RaisesAreSafe.but {s : State} (h : RaisesAreSafe s) (ids : List (Fin 25)) : RaisesBut ids s := by
  intro ch raising
  obtain ⟨present, quiet, rest⟩ := h ch raising
  refine ⟨present, fun i listed x slot concerned => ?_, rest⟩
  rw [quiet x (mem_openIncidents.2 ⟨i, listed, slot⟩)] at concerned
  cases concerned

/-- Once the curtain unit has been told, the channels that the incidents concern are released (R42). -/
theorem RaisesBut.announced {ids : List (Fin 25)} {s : State} (h : RaisesBut ids s) :
    RaisesAreSafe (s.announceIncidents ids) := by
  obtain ⟨-, irons, -⟩ := s.announceIncidents_announced ids
  have frame := s.announceIncidents_changes ids
  have settings : (s.announceIncidents ids).settings = s.settings := frame.same .settings (by decide)
  have supply : (s.announceIncidents ids).supply = s.supply := frame.same .supply (by decide)
  have slots (i : Fin 25) : (s.announceIncidents ids).incident? i = s.incident? i := frame.incident? i
  have incidents : (s.announceIncidents ids).openIncidents = s.openIncidents := frame.openIncidents
  generalize s.announceIncidents ids = t at *
  intro ch raising
  have spared (x : Incident) (told : x ∈ ids.filterMap t.incident?) : ¬s.burns x ch := fun burns => by
    obtain ⟨falls, -⟩ := (irons ch).1 ⟨x, told, burns⟩
    rw [falls] at raising
    cases raising
  have still := (irons ch).2 spared
  rw [still] at raising
  obtain ⟨present, but_told, free, sound, on⟩ := h ch raising
  rw [settings, supply, still, incidents]
  refine ⟨present, fun x mem => ?_, free, sound, on⟩
  by_contra concerned
  rw [Bool.not_eq_false] at concerned
  obtain ⟨i, listed, slot⟩ := mem_openIncidents.1 mem
  have told := but_told i listed x slot concerned
  exact spared x (List.mem_filterMap.2 ⟨i, told, (slots i).trans slot⟩) ⟨present, concerned, .inl raising⟩

theorem RaisesBut.of_changes {ps : List Part} {ids : List (Fin 25)} {s t : State} (h : RaisesBut ids s)
    (frame : ChangesOnly ps s t)
    (out : ([Part.settings, .irons, .incidents, .supply].all fun p => !ps.contains p) = true := by rfl) :
    RaisesBut ids t := by
  have same (p : Part) (mem : p ∈ [Part.settings, .irons, .incidents, .supply]) : p.same s t :=
    frame.same p (by simpa using List.all_eq_true.1 out p mem)
  have settings : t.settings = s.settings := same .settings (by decide)
  have irons : t.irons = s.irons := same .irons (by decide)
  obtain ⟨slots, list⟩ : t.incidents = s.incidents ∧ t.incidentList = s.incidentList := same .incidents (by decide)
  have supply : t.supply = s.supply := same .supply (by decide)
  unfold RaisesBut State.incident?
  rw [settings, irons, slots, list, supply]
  exact h

/-- An incident put in a slot is told of, whatever the slot held (R85, R88). -/
theorem RaisesAreSafe.raise {s t : State} (h : RaisesAreSafe s) {i : Fin 25} {x : Incident} {ids : List (Fin 25)}
    (told : i ∈ ids) (frame : ChangesOnly [.incidents, .stations] s t)
    (slots : ∀ j, t.incident? j = if j = i then some x else s.incident? j)
    (list : ∀ j, j ∈ t.incidentList → j = i ∨ j ∈ s.incidentList) : RaisesBut ids t := by
  have settings : t.settings = s.settings := frame.same .settings (by decide)
  have irons : t.irons = s.irons := frame.same .irons (by decide)
  have supply : t.supply = s.supply := frame.same .supply (by decide)
  intro ch raising
  rw [irons] at raising ⊢
  obtain ⟨present, quiet, rest⟩ := h ch raising
  rw [settings, supply]
  refine ⟨present, fun j listed y slot concerned => ?_, rest⟩
  by_cases e : j = i
  · exact e ▸ told
  · rw [slots, if_neg e] at slot
    rw [quiet y (mem_openIncidents.2 ⟨j, (list j listed).resolve_left e, slot⟩)] at concerned
    cases concerned

/-- Escalations that go with it leave what is yet to be told of. -/
theorem RaisesBut.escalate {ids : List (Fin 25)} {s : State} (h : RaisesBut ids s) {j : Fin 25} (why : EscalationCause)
    (told : j ∈ ids) : RaisesBut ids (s.editIncident j (Incident.escalate why)) := by
  have frame := State.editIncident_changes s j (Incident.escalate why)
  have settings : (s.editIncident j (Incident.escalate why)).settings = s.settings := frame.same .settings (by decide)
  have irons : (s.editIncident j (Incident.escalate why)).irons = s.irons := frame.same .irons (by decide)
  have supply : (s.editIncident j (Incident.escalate why)).supply = s.supply := frame.same .supply (by decide)
  intro ch raising
  rw [irons] at raising ⊢
  obtain ⟨present, quiet, rest⟩ := h ch raising
  rw [settings, supply]
  refine ⟨present, fun k listed y slot concerned => ?_, rest⟩
  rw [State.editIncident_list] at listed
  rw [State.editIncident_incident?] at slot
  split at slot
  next e => exact e ▸ told
  · exact quiet k listed y slot concerned

namespace RaisesKept

variable (s : State)

theorem demandAll : RaisesKept s s.demandAll := of_changes s.demandAll_changes

/-- What `ids` are told of, a change of theirs included (R86, R92, R98). -/
theorem announceIncidents {s t : State} {ids : List (Fin 25)} (h : RaisesAreSafe s → RaisesBut ids t) :
    RaisesKept s (t.demandAll.announceIncidents ids) :=
  ⟨fun safe => ((h safe).of_changes t.demandAll_changes).announced⟩

theorem escalateIncident (i : Fin 25) (why : EscalationCause) : RaisesKept s (s.escalateIncident i why) := by
  unfold State.escalateIncident
  exact announceIncidents fun safe => (safe.but [i]).escalate why (List.mem_singleton.2 rfl)

theorem raiseZoneIncident (z : Fin 24) (i : Fin 25) : RaisesKept s (s.raiseZoneIncident z i) := by
  unfold State.raiseZoneIncident
  extract_lets x shared s1 x2 s2 s3
  refine announceIncidents fun safe => ?_
  have raised : RaisesBut (i :: shared) s1 := safe.raise (List.mem_cons_self ..) (State.fillIncident_changes ..)
    (fun j => State.fillIncident_incident? ..) fun j listed => by
      rw [State.fillIncident_list, List.mem_append, List.mem_singleton] at listed
      exact (listed.imp List.mem_of_mem_erase id).symm
  have named : RaisesBut (i :: shared) s2 := raised.of_changes (State.writeZone_changes ..)
  have all (l : List (Fin 25)) (sub : ∀ j ∈ l, j ∈ i :: shared) (t : State) (h : RaisesBut (i :: shared) t) :
      RaisesBut (i :: shared) (l.foldl (fun s j => s.editIncident j (Incident.escalate .secondZone)) t) := by
    induction l generalizing t with
    | nil => exact h
    | cons j l ih =>
      exact ih (fun k mem => sub k (List.mem_cons_of_mem _ mem)) _ (h.escalate _ (sub j (List.mem_cons_self ..)))
  exact all shared (fun j mem => List.mem_cons_of_mem _ mem) s2 named

theorem raiseStationIncident (st : Fin 8) (set : AudSet) (i : Fin 25) :
    RaisesKept s (s.raiseStationIncident st set i) := by
  unfold State.raiseStationIncident
  refine announceIncidents fun safe => ?_
  refine safe.raise (List.mem_singleton.2 rfl) (State.fillIncident_changes ..)
    (fun j => State.fillIncident_incident? ..) fun j listed => ?_
  rw [State.fillIncident_list, List.mem_append, List.mem_singleton] at listed
  exact (listed.imp List.mem_of_mem_erase id).symm

theorem reactivate (i : Fin 25) : RaisesKept s (s.reactivate i) := by
  unfold State.reactivate
  refine ((editIncident s i _ ?_).trans (demandAll _)).trans (of_changes (State.mark_changes ..))
  exact fun _ _ => rfl

theorem widenIncident (i : Fin 25) (set : AudSet) : RaisesKept s (s.widenIncident i set) := by
  unfold State.widenIncident
  split
  · exact refl s
  next x slot =>
    dsimp only
    split
    next same =>
      have edited := editIncident s i (fun x => { x with auds := x.auds ||| set, silenced := false }) fun y open? => by
        obtain rfl := Option.some.inj (slot.symm.trans open?)
        exact same
      unfold State.editIncident at edited
      rw [slot] at edited
      exact edited.trans (demandAll _)
    · exact announceIncidents fun safe => safe.raise (List.mem_singleton.2 rfl) (State.writeIncident_changes ..)
        (fun j => State.writeIncident_incident? ..) fun j listed => by
          rw [State.writeIncident_incidentList] at listed
          exact .inr listed

theorem retireIncidentAt (i : Fin 25) : RaisesKept s (s.retireIncidentAt i) := by
  unfold State.retireIncidentAt
  split
  · exact refl s
  · extract_lets s1 s2
    have emptied : RaisesKept s s1 := (emptyIncident s i).trans (demandAll _)
    have told : RaisesKept s s2 := by
      unfold s2
      split
      · exact emptied.trans (of_changes (State.zoneRetired_changes ..))
      · exact emptied
    exact ((told.trans (of_changes (State.evalHolds_changes ..))).trans (of_changes (State.refreshLights_changes _))).trans
      (of_changes (State.deriveSilences_changes _))

theorem actIncident (i : Fin 25) (x : Incident) (st : Fin 8) (fs : List FieldVal) :
    RaisesKept s (s.actIncident i x st fs) := by
  unfold State.actIncident State.acknowledgeIncident State.silenceIncident
  split
  · split
    · refine (editIncident s i _ ?_).trans (of_changes (State.demandAlert_changes _))
      exact fun _ _ => rfl
    · exact refl s
  · split
    · split
      · exact escalateIncident ..
      · exact refl s
    · split
      · split
        · exact refl s
        · refine (editIncident s i _ ?_).trans (of_changes (State.demandSounders_changes _))
          exact fun _ _ => rfl
      · exact refl s

theorem ackRunsOut (i : Fin 25) : RaisesKept s (s.ackRunsOut i) := by
  unfold State.ackRunsOut
  split
  · exact refl s
  · split
    · exact (reach s _).trans (escalateIncident ..)
    · exact refl s

theorem investigationRunsOut (i : Fin 25) : RaisesKept s (s.investigationRunsOut i) := by
  unfold State.investigationRunsOut
  split
  · exact refl s
  · split
    · exact (reach s _).trans (escalateIncident ..)
    · exact refl s

theorem confirms {s t : State} {z : Fin 24} (run : s.confirms z = .next t) : RaisesKept s t := by
  obtain rfl | ⟨time, u, -, -, hu, ends⟩ := State.confirms_cases run
  · exact refl _
  have alarm : RaisesKept s u := by
    rw [hu]
    exact (reach s _).trans (of_changes (State.writeZone_changes ..))
  obtain ⟨i, -, -, rfl⟩ | ⟨i, -, -, rfl⟩ | ⟨-, -, rfl⟩ := ends
  · exact alarm.trans (raiseZoneIncident ..)
  · exact alarm.trans (reactivate ..)
  · exact alarm

/-! ## Mains (R48) -/

end RaisesKept

theorem State.stopRaises_ends (s : State) (ch : Fin 3) : s.stopRaises.irons[ch].motion ≠ .raising := by
  have turn (i : Fin 3) (t : State) (h : i = ch ∨ t.irons[ch].motion ≠ .raising) :
      (if t.irons[i].motion = .raising then t.writeIron i (t.irons[i].stopRaise (some .supply)) else t).irons[ch].motion
        ≠ .raising := by
    by_cases e : i = ch
    · subst e
      by_cases raising : t.irons[i].motion = .raising
      · simp only [if_pos raising, State.writeIron_irons, put_same]
        exact nofun
      · simp only [if_neg raising]
        exact raising
    · by_cases raising : t.irons[i].motion = .raising
      · simp only [if_pos raising, State.writeIron_irons, put_other _ _ _ _ (Ne.symm e)]
        exact h.resolve_left e
      · simp only [if_neg raising]
        exact h.resolve_left e
  exact forAll_turn (P := fun _ => True) (Q := fun t => t.irons[ch].motion ≠ .raising) ch (fun _ _ _ _ => trivial)
    (fun t _ => turn ch t (.inl rfl)) (fun i t _ ends => turn i t (.inr ends)) s trivial

namespace RaisesKept

variable (s : State)

theorem of_none {t : State} (none : ∀ ch : Fin 3, t.irons[ch].motion ≠ .raising) : RaisesKept s t :=
  ⟨fun _ ch raising => absurd raising (none ch)⟩

/-- Supply fields other than mains are read by no raise; where mains is not PRESENT nothing raises. -/
theorem writeSupply (x : Supply) (mains : s.supply.mains = .present → x.mains = .present) :
    RaisesKept s (s.writeSupply x) := by
  have frame := s.writeSupply_changes x
  have settings : (s.writeSupply x).settings = s.settings := frame.same .settings (by decide)
  have irons : (s.writeSupply x).irons = s.irons := frame.same .irons (by decide)
  refine of_irons (fun ch => ?_) (fun ch => by rw [settings]) (fun ch y mem concerned => ?_) ?_
  · rw [irons]; exact .refl _
  · rw [frame.openIncidents] at mem
    exact ⟨y, mem, concerned⟩
  · rw [State.writeSupply_supply]; exact mains

theorem announceMains (gone : s.supply.mains ≠ .lost) : RaisesKept s s.announceMains := by
  unfold State.announceMains
  dsimp only
  rw [if_neg gone]
  exact (of_changes (State.refreshLights_changes _)).trans (of_changes (State.evalHolds_changes ..))

/-- Mains changes to LOST, which stops every raise, or from not PRESENT, where none ran (R48). -/
theorem setMains (x : Supply) (moved : x.mains = .lost ∨ s.supply.mains ≠ .present) : RaisesKept s (s.setMains x) := by
  unfold State.setMains
  by_cases lost : x.mains = .lost
  · refine of_none s fun ch => ?_
    unfold State.announceMains
    dsimp only
    rw [State.writeSupply_supply, if_pos lost, show (State.evalHolds _ _).irons = _ from
      (State.evalHolds_changes ..).same .irons (by decide)]
    exact State.stopRaises_ends _ ch
  · have absent := moved.resolve_left lost
    refine (writeSupply s x fun present => absurd present absent).trans (announceMains _ ?_)
    rw [State.writeSupply_supply]
    exact lost

theorem mainsLine (on : Bool) : RaisesKept s (s.mainsLine on) := by
  unfold State.mainsLine
  split
  · exact refl s
  · have seen := lines s { s.lines with mainsPresent := on }
    have supply : ({ s with lines := { s.lines with mainsPresent := on } } : State).supply = s.supply := rfl
    generalize { s with lines := { s.lines with mainsPresent := on } } = u at *
    dsimp only
    rw [← supply]
    split
    · exact seen.trans (writeSupply u _ id)
    · exact seen.trans (writeSupply u _ id)
    next lost _ => exact seen.trans (setMains u _ (.inr (by rw [lost]; exact nofun)))
    · exact seen.trans (setMains u _ (.inl rfl))
    · exact seen
    · exact seen

theorem lossRuns : RaisesKept s s.lossRuns := by
  unfold State.lossRuns
  split
  · exact refl s
  · exact (reach s _).trans (setMains _ _ (.inl rfl))

/-- Where mains settles it is PRESENT in the end, and no raise begins. -/
theorem settlingRuns : RaisesKept s s.settlingRuns := by
  unfold State.settlingRuns
  split
  · exact refl s
  next t _ =>
    unfold State.setMains
    refine (reach s t).trans ((writeSupply _ _ fun _ => rfl).trans (announceMains _ ?_))
    rw [State.writeSupply_supply]
    exact nofun

/-! ## Starts and settings -/

theorem restartIrons : RaisesKept s s.restartIrons := by
  refine ⟨fun safe => forAll_keeps RaisesAreSafe _ (fun ch t h => (writeIron t ch _ ?_).keep h) s safe⟩
  exact .of_same rfl rfl rfl

theorem softRestart (loads : BitVec 16) : RaisesKept s (s.softRestart loads) := by
  have idle : RaisesKept s (((s.dropCalls.restartLights).restartCircuits loads).restartZones) :=
    (((of_changes s.dropCalls_changes).trans (of_changes (State.restartLights_changes _))).trans
      (of_changes (State.restartCircuits_changes _ loads))).trans (of_changes (State.restartZones_changes _))
  unfold State.softRestart
  dsimp only
  generalize ((s.dropCalls.restartLights).restartCircuits loads).restartZones = u at *
  refine (((idle.trans (restartIrons u)).trans (writeSupply _ _ ?_)).trans
    (of_changes (State.restartLink_changes _))).trans (of_changes (State.flagAll_changes _))
  exact id

end RaisesKept

theorem Iron.atStart_ends (cfg : IronSettings) (limitIn pressed : Bool) (now : Nat) :
    (Iron.atStart cfg limitIn pressed now).motion ≠ .raising := by
  unfold Iron.atStart
  dsimp only
  split
  · exact nofun
  · exact nofun

namespace RaisesKept

variable (s : State)

theorem start (p : Plant) (fromPin : Bool) : RaisesKept s (s.start p fromPin) := by
  refine of_none s fun ch => ?_
  have holds (u : State) : u.startHolds.irons = u.irons :=
    (forAll_keeps (ChangesOnly [.holds, .stations] u) _ (fun a t h => h.andThen (State.evalAllHolds_changes a t)) u
      (.refl _ _)).same .irons (by decide)
  have set : (s.start p fromPin).irons = (s.loadSettings.setUp p fromPin).irons := by
    unfold State.start
    rw [show (State.flagAll _).irons = _ from (State.flagAll_changes _).same .irons (by decide), holds]
    rfl
  have at_ : (s.start p fromPin).irons[ch] = startIron s.loadSettings.settings.irons[ch] (p.limitIn.getLsbD ch.1)
      (p.pressed.getLsbD ch.1) := by
    rw [set]
    exact tab_get _ ch
  rw [at_]
  unfold startIron
  split
  · exact Iron.atStart_ends _ _ _ _
  · exact nofun

/-- Settings are written with the presence of every RAISING channel as it was. -/
theorem settled (x : Settings) (b : Bool)
    (present : ∀ ch : Fin 3, s.irons[ch].motion = .raising → x.irons[ch].present = s.settings.irons[ch].present) :
    RaisesKept s (s.settled x b) := by
  have frame := s.settled_changes x b
  have irons : (s.settled x b).irons = s.irons := frame.same .irons (by decide)
  have supply : (s.settled x b).supply = s.supply := frame.same .supply (by decide)
  refine ⟨fun safe ch raising => ?_⟩
  rw [irons] at raising ⊢
  obtain ⟨there, rest⟩ := safe ch raising
  rw [State.settled_settings, supply, frame.openIncidents]
  exact ⟨(present ch raising).trans there, rest⟩

/-- A demand OUT that nothing bars begins a raise that nothing forbids (R38, R43). -/
theorem demandOut (ch : Fin 3) (present : s.settings.irons[ch].present = true) (bar : s.outBar ch = none) :
    RaisesKept s (s.demandOut ch) := by
  have begins (rests : s.raiseBar ch = none) :
      RaisesKept s (s.writeIron ch (s.irons[ch].beginRaise s.now)) := by
    have frame := s.writeIron_changes ch (s.irons[ch].beginRaise s.now)
    have settings : (s.writeIron ch (s.irons[ch].beginRaise s.now)).settings = s.settings :=
      frame.same .settings (by decide)
    have supply : (s.writeIron ch (s.irons[ch].beginRaise s.now)).supply = s.supply := frame.same .supply (by decide)
    refine ⟨fun safe i raising => ?_⟩
    rw [settings, supply, frame.openIncidents, State.writeIron_irons, put_get] at *
    split at raising
    next e =>
      subst e
      rw [if_pos rfl]
      unfold State.raiseBar at rests
      dsimp only at rests
      split at rests
      · cases rests
      next quiet =>
        split at rests
        · cases rests
        next free =>
          split at rests
          · cases rests
          next sound =>
            split at rests
            · cases rests
            next on =>
              refine ⟨present, fun x mem => ?_, by simpa [Iron.beginRaise] using free,
                by simpa [Iron.beginRaise] using sound, by simpa using on⟩
              by_contra concerned
              exact quiet (List.any_eq_true.2 ⟨x, mem, by simpa using concerned⟩)
    next ne =>
      rw [if_neg ne]
      exact safe i raising
  unfold State.outBar at bar
  unfold State.demandOut
  split
  next motion => rw [motion] at bar; exact begins bar
  next motion => rw [motion] at bar; exact begins bar
  · exact refl s
  · exact refl s
  · exact refl s

theorem clearIronFault (ch : Fin 3) : RaisesKept s (s.clearIronFault ch) := by
  unfold State.clearIronFault
  dsimp only
  split
  · refine (writeIron s ch _ ?_).trans (of_changes (State.evalHolds_changes ..))
    exact ⟨fun raising => ⟨raising, id, fun _ => rfl⟩⟩
  · exact refl s

theorem ironPresence (ch : Fin 3) (limitIn : Bool) : RaisesKept s (s.ironPresence ch limitIn) := by
  unfold State.ironPresence
  dsimp only
  refine (writeIron s ch _ (.of_ends ?_)).trans ((of_changes (State.markIf_changes ..)).trans
    (of_changes (State.evalHolds_changes ..)))
  split
  · exact Iron.atStart_ends _ _ _ _
  · exact nofun

/-- The actions of a request on a channel (R37, R61). -/
theorem actIron (ch : Fin 3) (fs : List FieldVal)
    (out : askedFor fs 37 = some 1 → s.settings.irons[ch].present = true ∧ s.outBar ch = none) :
    RaisesKept s (s.actIron ch fs) := by
  unfold State.actIron
  extract_lets s2
  have demanded : RaisesKept s s2 := by
    unfold s2
    split
    · exact refl s
    next asked => exact demandOut s ch (out asked).1 (out asked).2
    · exact release ..
  split
  · exact demanded.trans (clearIronFault ..)
  · exact demanded

end RaisesKept

/-! ## Decisions and events -/

/-- A demand OUT that is accepted carries no setting: who may raise a curtain may not write settings (R33, R37). -/
theorem State.demandsOut_alone {s : State} {q : Ask} {ch : Fin 3} (kind : q.kind = .iron)
    (admitted : s.admitsIron q.st ch q.req.fields = true) (stop : s.settingsStop q = none)
    (out : askedFor q.req.fields 37 = some 1) : amendsSettings .iron q.req.fields = false := by
  obtain plain | ⟨engineer, -⟩ := State.settingsStop_eq_none stop
  · rw [kind] at plain
    exact plain
  · unfold State.admitsIron at admitted
    simp [out, engineer, State.isStageOf] at admitted

/-- Nothing bars the demand OUT of an accepted request, and the presence of a channel that is not IN stands (R34, R38). -/
theorem State.ironBar_none {s : State} {ch : Fin 3} {fs : List FieldVal} {present : Bool}
    (bar : s.ironBar ch fs present = none) : (askedFor fs 37 = some 1 → s.outBar ch = none) ∧
      (s.irons[ch].motion = .raising → present = s.settings.irons[ch].present) := by
  unfold State.ironBar at bar
  dsimp only at bar
  split at bar
  · cases bar
  next moves =>
    constructor
    · intro out
      rw [if_pos out] at bar
      exact bar
    · intro raising
      rw [raising] at moves
      by_contra moved
      exact moves (by rw [Bool.and_eq_true]; exact ⟨rfl, by rw [bne_iff_ne.2 moved]; rfl⟩)

/-- What bars a demand OUT is read from the curtains, the supply and the open incidents. -/
theorem State.outBar_of_same {s t : State} (irons : t.irons = s.irons) (supply : t.supply = s.supply)
    (incidents : t.openIncidents = s.openIncidents) (ch : Fin 3) : t.outBar ch = s.outBar ch := by
  unfold State.outBar State.raiseBar
  rw [irons, supply, incidents]

theorem IronSettings.inRange_present (x : IronSettings) : x.inRange.present = x.present := rfl

theorem Decides.raisesKept {code : ReqCode} {q : Ask} {s : State} {v : Verdict} (h : Decides code q s v) :
    RaisesKept s v.2 := by
  cases h with
  | stays => exact .refl s
  | looks => exact .of_changes (State.lookClears_changes ..)
  | arms => exact .of_changes (State.arm_changes ..)
  | stores => exact .of_changes s.beginStore_changes
  | restarts => exact .softRestart ..
  | blocks => exact .of_changes (State.mark_changes ..)
  | enters => exact .of_changes (State.enter_changes ..)
  | amendsPerf aud =>
    obtain ⟨new, written⟩ := s.applyPerf_settled q aud
    rw [written]
    exact .settled s _ _ fun _ _ => rfl
  | amendsIron a ch limitIn new _ kind _ _ present admitted stop written bar =>
    obtain ⟨free, stands⟩ := State.ironBar_none bar
    have same (i : Fin 3) (raising : s.irons[i].motion = .raising) :
        (s.settings.withIron ch new).irons[i].present = s.settings.irons[i].present := by
      rw [Settings.withIron, put_get]
      split
      next e =>
        subst e
        rw [written]
        split
        · exact stands raising
        · rfl
      · rfl
    have noted : RaisesKept s (s.settled (s.settings.withIron ch new) (s.settings.irons[ch] != new)) :=
      .settled s _ _ same
    have frame := s.settled_changes (s.settings.withIron ch new) (s.settings.irons[ch] != new)
    have out (asked : askedFor q.req.fields 37 = some 1) :
        (s.settled (s.settings.withIron ch new) (s.settings.irons[ch] != new)).settings.irons[ch].present = true ∧
          (s.settled (s.settings.withIron ch new) (s.settings.irons[ch] != new)).outBar ch = none := by
      have plain := State.demandsOut_alone kind admitted stop asked
      rw [if_neg (by rw [plain]; decide)] at written
      refine ⟨?_, ?_⟩
      · rw [State.settled_settings, Settings.withIron, put_same, written]
        exact present (by rw [carries_of_askedFor asked]; rfl)
      · exact (State.outBar_of_same (frame.same .irons (by decide)) (frame.same .supply (by decide))
          (frame.openIncidents (by decide)) ch).trans (free asked)
    rw [State.applyIron_settled]
    dsimp only
    split
    · exact (noted.trans (.actIron _ ch q.req.fields out)).trans (.ironPresence ..)
    · exact noted.trans (.actIron _ ch q.req.fields out)
  | amendsZone a z new =>
    rw [State.applyZone_settled]
    have noted : RaisesKept s (s.settled (s.settings.withZone z new) (s.settings.zones[z] != new)) :=
      .settled s _ _ fun _ _ => rfl
    exact (noted.trans (.of_changes (State.actZone_changes ..))).trans (.of_changes (State.serveZone_changes ..))
  | targets => exact .of_changes (State.applyTarget_changes ..)
  | amendsGroup g =>
    obtain ⟨new, written⟩ := s.applyGroup_settled q g
    rw [written]
    have noted : RaisesKept s (s.settled (s.settings.withGroup g new) (s.settings.groups[g] != new)) :=
      .settled s _ _ fun _ _ => rfl
    exact (noted.trans (.of_changes (State.groupAmended_changes ..))).trans (.of_changes (State.announceLit_changes _))
  | amendsCZone a z new =>
    have noted : RaisesKept s (s.settled (s.settings.withCZone z new) (s.settings.czones[z] != new)) :=
      .settled s _ _ fun _ _ => rfl
    exact noted.trans (.of_changes (State.czoneAmended_changes ..))
  | amendsCircuit a c =>
    rw [State.applyCircuit_settled]
    have noted (new : CircuitSettings) :
        RaisesKept s (s.settled (s.settings.withCircuit c new) (s.settings.circuits[c] != new)) :=
      .settled s _ _ fun _ _ => rfl
    exact ((noted _).trans (.of_changes (State.serveCircuit_changes ..))).trans
      (.of_changes (State.resetCircuit_changes ..))
  | amendsStatus a new =>
    rw [State.applyStatus_settled]
    have noted : RaisesKept s (s.settled { s.settings with part := new } (s.settings.part != new)) :=
      .settled s _ _ fun _ _ => rfl
    exact (noted.trans (.of_changes (State.serveBrigade_changes ..))).trans
      (.of_changes (State.setLock_changes ..))
  | amendsStation a n new =>
    unfold State.applyStation
    refine RaisesKept.trans (t := { s with
      settings := { s.settings with stations := put s.settings.stations n new }
      stations := put s.stations n (s.stations[n].amended s.settings.stations[n] new) }) ⟨id⟩ ?_
    exact (RaisesKept.of_changes (State.noteChange_changes ..)).trans (.of_changes (State.markIf_changes ..))
  | raisesHold => exact .of_changes (State.fillHold_changes ..)
  | retiresHold => exact .of_changes (State.emptyHold_changes ..)
  | widens => exact .widenIncident ..
  | raisesIncident => exact .raiseStationIncident ..
  | actsIncident => exact .actIncident ..
  | retiresIncident => exact .retireIncidentAt ..
  | raisesCall _ x b c room _ _ _ _ found =>
    exact (RaisesKept.of_changes (State.roomForCall_changes found)).trans (.of_changes (State.fillCall_changes ..))
  | amendsCall => exact .of_changes (State.amendCallAt_changes ..)
  | retiresCall => exact .of_changes (State.retireCallAt_changes ..)

theorem RaisesKept.takes {s t : State} {f : State → State} (run : s.takes f = .next t) (h : RaisesKept s (f s)) :
    RaisesKept s t := by
  unfold State.takes at run
  obtain rfl := Host.Outcome.next.inj run
  split
  · exact h
  · exact .refl s

theorem event_raisesKept {i : Instr} {s t : State} (run : exec i s = .next t) (event : requestOf i = none)
    (known : ∀ code kind r, i ≠ .unknownRequest code kind r) : RaisesKept s t := by
  have frame := commandsTouchOnlyTheirParts i s t run
  cases i with
  | unknownRequest code kind r => exact absurd rfl (known code kind r)
  | encoderCount ch up => exact .takes run (.countEncoder s ch up)
  | indexEvent ch => exact .takes run (.indexSeen s ch)
  | limitInEvent ch => exact .takes run (.limitInMade s ch)
  | limitOutEvent ch => exact .takes run (.limitOutMade s ch)
  | localReleasePress ch => exact .takes run (.pressRelease s ch)
  | localReleaseLetGo ch => exact .takes run (.letGoRelease s ch)
  | descentSample ch => exact .takes run (.sample s ch)
  | stall ch => exact .takes run (.stallSample s ch)
  | tooSlow ch => exact .takes run (.slowSample s ch)
  | raiseTimeout ch => exact .takes run (.raiseTimesOut s ch)
  | confirmTimerExpiry z =>
    simp only [exec, execConfirmTimerExpiry] at run
    split at run
    · exact .confirms run
    · cases run; exact .refl s
  | acknowledgeTimerExpiry i => exact .takes run (.ackRunsOut s i)
  | investigationTimerExpiry i => exact .takes run (.investigationRunsOut s i)
  | mainsSenseChange on => exact .takes run (.mainsLine s on)
  | lossTimerExpiry => exact .takes run (.lossRuns s)
  | settlingTimerExpiry => exact .takes run (.settlingRuns s)
  | supplyLowLineChange on =>
    refine .takes run ?_
    unfold State.supplyLine
    split
    · exact .refl s
    · refine (RaisesKept.lines s _).trans (.writeSupply _ _ ?_)
      exact id
  | safetySupplyTimerExpiry =>
    refine .takes run ?_
    unfold State.safetyRuns
    split
    · exact .refl s
    · refine ((RaisesKept.reach s _).trans (.writeSupply _ _ ?_)).trans (.of_changes (State.evalHolds_changes ..))
      exact id
  | cellSenseChange good =>
    refine .takes run ?_
    unfold State.cellLine
    split
    · exact .refl s
    · refine (RaisesKept.lines s _).trans (.writeSupply _ _ ?_)
      exact id
  | cellTimerExpiry =>
    have written (u : State) : RaisesKept u u.writeRetained := ⟨id⟩
    refine .takes run ?_
    unfold State.cellRuns
    split
    · exact .refl s
    · split
      · refine ((RaisesKept.reach s _).trans (written _)).trans (.writeSupply _ _ ?_)
        exact id
      · refine (RaisesKept.reach s _).trans (.writeSupply _ _ ?_)
        exact id
  | coldStart p =>
    obtain rfl : s.start p false = t := Host.Outcome.next.inj run
    exact .start ..
  | resetPin p => exact .takes run (.start s p true)
  | _ => first
    | exact .of_changes frame
    | cases event

/-- Settles O4. -/
theorem raisesStaySafe : Obligations.RaisesStaySafe := by
  unfold Obligations.RaisesStaySafe
  intro s t h run
  refine step_keeps (P := RaisesAreSafe) (fun u n h => h) (fun u rest h => h) (fun i u w h ran => ?_) h run
  exact exec_keeps (P := RaisesAreSafe) (fun u h => (RaisesKept.of_changes u.frameGood_changes).keep h)
    (fun u h => (RaisesKept.of_changes u.frameFails_changes).keep h)
    (fun u n b a h => (RaisesKept.of_changes (u.reply_changes n b a)).keep h)
    (fun _ _ _ _ h decided => decided.raisesKept.keep h)
    (fun event known h => (event_raisesKept ran event known).keep h) h ran

end Sys2Proof.Machine
end

section
/-!
PROOFS. The alarm demands and the silences of the call zones follow the open incidents (R94..R96, R146, R149): every
change of an incident has them evaluated again, and nothing else touches them.
-/

namespace Sys2Proof.Machine

-- One declaration at a time: side conditions closed by tactics wait for what stands before them.
set_option Elab.async false

/-! ## The demand of one circuit -/

/-- The demand of a circuit and its pattern are as they were. -/
structure SameDemand (x y : Circuit) : Prop where
  demand : y.demand = x.demand
  pattern : y.pattern = x.pattern

namespace SameDemand

variable {x y z : Circuit}

theorem refl (x : Circuit) : SameDemand x x := ⟨rfl, rfl⟩

theorem trans (h : SameDemand x y) (k : SameDemand y z) : SameDemand x z :=
  ⟨k.demand.trans h.demand, k.pattern.trans h.pattern⟩

theorem setDrive (now : Nat) (x : Circuit) : SameDemand x (x.setDrive now) := by
  unfold Circuit.setDrive
  split
  · split
    · exact refl x
    · exact ⟨rfl, rfl⟩
  · split
    · exact ⟨rfl, rfl⟩
    · exact refl x

theorem partEnds (t : Nat) (x : Circuit) : SameDemand x (x.partEnds t) := by
  unfold Circuit.partEnds
  split
  · exact refl x
  · split
    · exact ⟨rfl, rfl⟩
    · exact ⟨rfl, rfl⟩

theorem tested (seen : Bool) (x : Circuit) : SameDemand x (x.tested seen) := by
  unfold Circuit.tested
  split
  · exact refl x
  · split
    · split
      · exact refl x
      · exact ⟨rfl, rfl⟩
    · split
      · exact ⟨rfl, rfl⟩
      · exact refl x
    · exact refl x
    · exact refl x

theorem trip (now : Nat) (retry : Bool) (x : Circuit) : SameDemand x (x.trip now retry) := by
  unfold Circuit.trip
  dsimp only
  split
  · exact ⟨rfl, rfl⟩
  · exact ⟨rfl, rfl⟩

theorem retryRun (now : Nat) (x : Circuit) : SameDemand x (x.retryRun now) := by
  have driven := setDrive now { x with retryAt := none }
  exact ⟨driven.demand, driven.pattern⟩

theorem resetByStation (now : Nat) (x : Circuit) : SameDemand x (x.resetByStation now) := by
  have driven := setDrive now x.judgedClean
  have clean : SameDemand x (x.judgedClean.setDrive now) := ⟨driven.demand, driven.pattern⟩
  unfold Circuit.resetByStation
  split
  · exact refl x
  · exact refl x
  · exact clean
  · exact clean

end SameDemand

/-- What an owner demands of a circuit is demanded of it (R156). -/
theorem Circuit.demandEvent_demand (now : Nat) (on : Bool) (p : Pattern) (x : Circuit) :
    (x.demandEvent now on p).demand = on ∧ (x.demandEvent now on p).pattern = p := by
  unfold Circuit.demandEvent
  split
  next same => exact same
  · extract_lets y w
    have driven : SameDemand y w := SameDemand.setDrive now y
    split
    · exact ⟨driven.demand, driven.pattern⟩
    · exact ⟨driven.demand, driven.pattern⟩

/-! ## What leaves the alarm demands and the silences -/

/-- No demand of a circuit but the chimes has changed. -/
structure AlarmsKept (s t : State) : Prop where
  same : ∀ c : Fin 16, isChime c = false → SameDemand s.circuits[c] t.circuits[c]

namespace AlarmsKept

variable {s t u : State}

theorem refl (s : State) : AlarmsKept s s := ⟨fun _ _ => .refl _⟩

theorem trans (h : AlarmsKept s t) (k : AlarmsKept t u) : AlarmsKept s u :=
  ⟨fun c other => (h.same c other).trans (k.same c other)⟩

theorem of_sounded (h : Sounded s t) : AlarmsKept s t :=
  ⟨fun c other => by rw [h.alarms c other]; exact .refl _⟩

theorem of_changes {ps : List Part} (h : ChangesOnly ps s t) (out : ps.contains .circuits = false := by rfl) :
    AlarmsKept s t := by
  have circuits : t.circuits = s.circuits := h.same .circuits (by simpa using out)
  exact ⟨fun c _ => by rw [circuits]; exact .refl _⟩

theorem writeCircuit (s : State) (c : Fin 16) (x : Circuit) (same : SameDemand s.circuits[c] x) :
    AlarmsKept s (s.writeCircuit c x) := by
  refine ⟨fun i _ => ?_⟩
  rw [State.writeCircuit_circuits, put_get]
  split
  next e => subst e; exact same
  · exact .refl _

end AlarmsKept

/-- Nothing has touched an alarm demand or the silence of a call zone. -/
structure AlarmsStand (s t : State) : Prop where
  alarms : AlarmsKept s t
  silences : SilencesKept s t

namespace AlarmsStand

variable {s t u : State}

theorem refl (s : State) : AlarmsStand s s := ⟨.refl s, .refl s⟩

theorem trans (h : AlarmsStand s t) (k : AlarmsStand t u) : AlarmsStand s u :=
  ⟨h.alarms.trans k.alarms, h.silences.trans k.silences⟩

theorem of_changes {ps : List Part} (h : ChangesOnly ps s t) (hc : ps.contains .circuits = false := by rfl)
    (hz : ps.contains .czones = false := by rfl) : AlarmsStand s t :=
  ⟨.of_changes h hc, .of_changes h hz⟩

theorem lights (s : State) : LightClosed (AlarmsStand s) where
  clock t h := ⟨.trans h.alarms (.of_sounded ((Sounded.lights _).clock t (.refl _))), (SilencesKept.lights _).clock t h.silences⟩
  mark k h := ⟨.trans h.alarms (.of_sounded ((Sounded.lights _).mark k (.refl _))), (SilencesKept.lights _).mark k h.silences⟩
  table calls list h :=
    ⟨.trans h.alarms (.of_sounded ((Sounded.lights _).table calls list (.refl _))), (SilencesKept.lights _).table calls list h.silences⟩
  czone z x barred suppressed h :=
    ⟨.trans h.alarms (.of_sounded ((Sounded.lights _).czone z x barred suppressed (.refl _))),
      (SilencesKept.lights _).czone z x barred suppressed h.silences⟩
  chime z on h :=
    ⟨.trans h.alarms (.of_sounded ((Sounded.lights _).chime z on (.refl _))), (SilencesKept.lights _).chime z on h.silences⟩
  flicker z code h :=
    ⟨.trans h.alarms (.of_sounded ((Sounded.lights _).flicker z code (.refl _))), (SilencesKept.lights _).flicker z code h.silences⟩
  lit v h := ⟨.trans h.alarms (.of_sounded ((Sounded.lights _).lit v (.refl _))), (SilencesKept.lights _).lit v h.silences⟩

theorem announceLit (s : State) : AlarmsStand s s.announceLit := (lights s).announceLit (refl s)

theorem refreshLights (s : State) : AlarmsStand s s.refreshLights :=
  (of_changes s.refreshGroups_changes).trans (announceLit _)

theorem callNotice (s : State) (a : Fin 3) (st : DeliveryState) : AlarmsStand s (s.callNotice a st) :=
  (lights s).callNotice a st (refl s)

theorem announceCondition (s : State) (c : Fin 16) (old : CircuitCondition) : AlarmsStand s (s.announceCondition c old) := by
  unfold State.announceCondition
  dsimp only
  split
  · exact refl s
  · split
    · exact of_changes (State.evalHolds_changes ..)
    · split
      · split
        · exact (lights s).chimeLost _ (refl s)
        · exact refl s
      · exact refl s

theorem writeCircuit (s : State) (c : Fin 16) (x : Circuit) (same : SameDemand s.circuits[c] x) :
    AlarmsStand s (s.writeCircuit c x) :=
  ⟨.writeCircuit s c x same, .of_changes (State.writeCircuit_changes ..)⟩

theorem changeCircuit (s : State) (c : Fin 16) (x : Circuit) (same : SameDemand s.circuits[c] x) :
    AlarmsStand s (s.changeCircuit c x) := (writeCircuit s c x same).trans (announceCondition ..)

theorem reach (s : State) (t : Nat) : AlarmsStand s (s.reach t) := of_changes (s.reach_changes t)

theorem patternRuns (s : State) (c : Fin 16) : AlarmsStand s (s.patternRuns c) := by
  unfold State.patternRuns
  dsimp only
  split
  · exact refl s
  · split
    · exact (reach ..).trans (writeCircuit _ c _ (.partEnds ..))
    · exact refl s

theorem testRuns (s : State) (c : Fin 16) (seen : Bool) : AlarmsStand s (s.testRuns c seen) := by
  refine (reach ..).trans (changeCircuit _ c _ ?_)
  exact .trans (.tested seen _) ⟨rfl, rfl⟩

theorem overloads (s : State) (c : Fin 16) : AlarmsStand s (s.overloads c) := by
  unfold State.overloads
  dsimp only
  split
  · exact changeCircuit s c _ (.trip ..)
  · exact refl s

theorem retryRuns (s : State) (c : Fin 16) : AlarmsStand s (s.retryRuns c) := by
  unfold State.retryRuns
  dsimp only
  split
  · exact refl s
  · exact (reach ..).trans (changeCircuit _ c _ (.retryRun ..))

theorem cleanRuns (s : State) (c : Fin 16) : AlarmsStand s (s.cleanRuns c) := by
  unfold State.cleanRuns
  dsimp only
  split
  · exact refl s
  · refine (reach ..).trans (changeCircuit _ c _ ?_)
    exact ⟨rfl, rfl⟩

theorem offRuns (s : State) (c : Fin 16) : AlarmsStand s (s.offRuns c) := by
  unfold State.offRuns
  dsimp only
  split
  · exact refl s
  · refine (reach ..).trans (changeCircuit _ c _ ?_)
    exact ⟨rfl, rfl⟩

theorem resetCircuit (s : State) (c : Fin 16) (fs : List FieldVal) : AlarmsStand s (s.resetCircuit c fs) := by
  unfold State.resetCircuit
  split
  · exact changeCircuit s c _ (.resetByStation ..)
  · exact refl s

theorem announceMains (s : State) : AlarmsStand s s.announceMains := by
  have lit := refreshLights s
  unfold State.announceMains
  dsimp only
  refine trans ?_ (of_changes (State.evalHolds_changes ..))
  split
  · exact lit.trans (of_changes (State.stopRaises_changes _))
  · exact lit

theorem setMains (s : State) (x : Supply) : AlarmsStand s (s.setMains x) :=
  (of_changes (State.writeSupply_changes ..)).trans (announceMains _)

theorem mainsLine (s : State) (on : Bool) : AlarmsStand s (s.mainsLine on) := by
  unfold State.mainsLine
  split
  · exact refl s
  · have seen : AlarmsStand s { s with lines := { s.lines with mainsPresent := on } } := of_changes (s.lines_changes _)
    generalize { s with lines := { s.lines with mainsPresent := on } } = u at *
    dsimp only
    split
    · exact seen.trans (of_changes (State.writeSupply_changes ..))
    · exact seen.trans (of_changes (State.writeSupply_changes ..))
    · exact seen.trans (setMains ..)
    · exact seen.trans (setMains ..)
    · exact seen
    · exact seen

theorem lossRuns (s : State) : AlarmsStand s s.lossRuns := by
  unfold State.lossRuns
  split
  · exact refl s
  · exact (reach ..).trans (setMains ..)

theorem settlingRuns (s : State) : AlarmsStand s s.settlingRuns := by
  unfold State.settlingRuns
  split
  · exact refl s
  · exact (reach ..).trans (setMains ..)

end AlarmsStand

namespace AlarmsKept

variable {s t : State}

theorem deriveSilences (s : State) : AlarmsKept s s.deriveSilences := of_sounded (Sounded.deriveSilences s)

theorem drawn (s : State) : AlarmsKept s s.drawn := of_sounded (Sounded.drawn s)

theorem announceLit (s : State) : AlarmsKept s s.announceLit := of_sounded (Sounded.announceLit s)

theorem lightsAndCalls (s : State) : AlarmsKept s s.lightsAndCalls := by
  unfold State.lightsAndCalls
  split
  · exact ((drawn s).trans (deriveSilences _)).trans (announceLit _)
  · exact ((drawn s).trans (announceLit _)).trans (deriveSilences _)

theorem maybe {f : State → State} (hf : ∀ s, AlarmsKept s (f s)) (s : State) : AlarmsKept s (s.maybe f) := by
  unfold State.maybe
  split
  · exact (drawn s).trans (hf _)
  · exact drawn s

theorem haltSet (set : AudSet) (s : State) : AlarmsKept s (s.haltSet set) := by
  unfold State.haltSet
  refine forAll_keeps (AlarmsKept s) _ (fun a t h => ?_) _ (refl s)
  split
  · have respond := State.respond_changes (t.writePerf a { t.perfs[a] with phase := .halted }) a 1000 0
    exact h.trans (((of_changes (State.writePerf_changes ..)).trans (of_changes respond)).trans
      (AlarmsStand.callNotice ..).alarms)
  · exact h

/-- An announcement of incidents touches no demand but the chimes'. -/
theorem announceIncidents (ids : List (Fin 25)) (s : State) : AlarmsKept s (s.announceIncidents ids) := by
  unfold State.announceIncidents
  extract_lets set s1 s2 s3
  have heard : AlarmsKept s s1 := (of_changes (State.evalHolds_changes ..)).trans (maybe deriveSilences _)
  have lights (u : State) : AlarmsKept u u.maybeLightsAndCalls :=
    ((maybe announceLit u).trans (maybe deriveSilences _)).trans (maybe announceLit _)
  have forces (u : State) : AlarmsKept u u.refreshGroups := of_changes u.refreshGroups_changes
  have halted : AlarmsKept s s2 := by
    unfold s2
    split
    · exact ((heard.trans (drawn _)).trans (forces _)).trans ((lights _).trans (haltSet ..))
    · exact (((heard.trans (drawn _)).trans (haltSet ..)).trans (maybe deriveSilences _)).trans (forces _)
  have released : AlarmsKept s s3 := by
    refine halted.trans (foldl_keeps (AlarmsKept s2) _ (fun t i h => ?_) ids s2 (refl s2))
    split
    · exact h.trans (of_changes (State.fireRelease_changes ..))
    · exact h
  exact released.trans (lightsAndCalls _)

end AlarmsKept

end Sys2Proof.Machine
end

section
/-!
PROOFS. The alarm demands and the silences are derived of the open incidents whenever these change (R94..R96, R146,
R149), so that every command keeps them derived.
-/

namespace Sys2Proof.Machine

-- One declaration at a time: side conditions closed by tactics wait for what stands before them.
set_option Elab.async false

/-! ## What the open incidents ask for -/

/-- A member of a union over a list is a member of one of its sets. -/
theorem getLsbD_union {α : Type} {n : Nat} (f : α → BitVec n) (l : List α) (set : BitVec n) (i : Nat) :
    (l.foldl (fun set x => set ||| f x) set).getLsbD i = true ↔
      set.getLsbD i = true ∨ ∃ x ∈ l, (f x).getLsbD i = true := by
  induction l generalizing set with
  | nil => simp
  | cons x l ih => rw [List.foldl_cons, ih]; simp [or_assoc]

/-- The GENERAL set is the union of what the open GENERAL incidents concern (R2). -/
theorem State.generalSet_has (s : State) (a : Fin 3) :
    has s.generalSet a = true ↔ ∃ x ∈ s.openIncidents, x.stage = .general ∧ has x.auds a = true := by
  unfold State.generalSet has
  rw [getLsbD_union]
  simp [and_assoc]

theorem State.sounderSet_has (s : State) (c : Nat) : s.sounderSet.getLsbD c = true ↔
    ∃ x ∈ s.openIncidents, x.stage = .general ∧ x.silenced = false ∧ (s.sounders x).getLsbD c = true := by
  unfold State.sounderSet
  rw [getLsbD_union]
  simp [and_assoc]

/-- A GENERAL set is settled by the auditoria it has. -/
theorem AudSet.ext_has {x y : AudSet} (h : ∀ a : Fin 3, has x a = true ↔ has y a = true) : x = y := by
  refine BitVec.eq_of_getLsbD_eq fun i lt => ?_
  exact Bool.eq_iff_iff.2 (h ⟨i, lt⟩)

/-- An edit changes nothing that it keeps of the incident it edits. -/
theorem State.editIncident_exists {s : State} {i : Fin 25} {f : Incident → Incident} {p : Incident → Prop}
    (same : ∀ x, s.incident? i = some x → (p (f x) ↔ p x)) :
    (∃ x ∈ (s.editIncident i f).openIncidents, p x) ↔ ∃ x ∈ s.openIncidents, p x := by
  have slots (t : State) : (∃ x ∈ t.openIncidents, p x) ↔ ∃ j ∈ t.incidentList, ∃ x, t.incident? j = some x ∧ p x := by
    simp only [mem_openIncidents]
    exact ⟨fun ⟨x, ⟨j, mem, slot⟩, holds⟩ => ⟨j, mem, x, slot, holds⟩,
      fun ⟨j, mem, x, slot, holds⟩ => ⟨x, ⟨j, mem, slot⟩, holds⟩⟩
  rw [slots, slots, State.editIncident_list]
  refine exists_congr fun j => and_congr_right fun _ => ?_
  rw [State.editIncident_incident?]
  split
  next e =>
    subst e
    cases slot : s.incident? j with
    | none => simp
    | some x => simpa using same x slot
  · rfl

/-! ## The demands -/

/-- The staff alert line is demanded as the STAFF incidents ask (R94). -/
def AlertDerived (s : State) : Prop :=
  (s.circuits[staffAlert].demand = true ↔ ∃ x ∈ s.openIncidents, x.stage = .staff) ∧
  (s.circuits[staffAlert].demand = true →
    s.circuits[staffAlert].pattern =
      if ∃ x ∈ s.openIncidents, x.stage = .staff ∧ x.ackBy = none then .fast else .slow)

/-- The brigade relay is demanded as the GENERAL incidents ask (R96). -/
def BrigadeDerived (s : State) : Prop :=
  s.circuits[brigadeRelay].demand = true ↔
    s.settings.part.brigadeLink = true ∧ ∃ x ∈ s.openIncidents, x.stage = .general

theorem demandsDerived_iff {s : State} : DemandsDerived s ↔ SoundersDerived s ∧ AlertDerived s ∧ BrigadeDerived s := by
  unfold DemandsDerived AlertDerived BrigadeDerived
  rw [and_assoc]

theorem isChime_sounder (c : Fin 6) : isChime (c.castLE (by decide : 6 ≤ 16)) = false := by
  have := c.2
  unfold isChime
  rw [Bool.and_eq_false_iff]
  exact .inl (decide_eq_false (by rw [Fin.val_castLE]; omega))

theorem SoundersDerived.keep {s t : State} (h : SoundersDerived s) (alarms : AlarmsKept s t)
    (asked : ∀ c : Nat, t.sounderSet.getLsbD c = s.sounderSet.getLsbD c) : SoundersDerived t := by
  intro c
  rw [(alarms.same _ (isChime_sounder c)).demand, h c, ← State.sounderSet_has, ← State.sounderSet_has, asked]

theorem AlertDerived.keep {s t : State} (h : AlertDerived s) (alarms : AlarmsKept s t)
    (staff : (∃ x ∈ t.openIncidents, x.stage = .staff) ↔ ∃ x ∈ s.openIncidents, x.stage = .staff)
    (waiting : (∃ x ∈ t.openIncidents, x.stage = .staff ∧ x.ackBy = none) ↔
      ∃ x ∈ s.openIncidents, x.stage = .staff ∧ x.ackBy = none) : AlertDerived t := by
  obtain ⟨demand, pattern⟩ := alarms.same staffAlert (by decide)
  unfold AlertDerived
  rw [demand, pattern]
  simp only [staff, waiting]
  exact h

theorem BrigadeDerived.keep {s t : State} (h : BrigadeDerived s) (alarms : AlarmsKept s t)
    (linked : t.settings.part.brigadeLink = s.settings.part.brigadeLink)
    (general : (∃ x ∈ t.openIncidents, x.stage = .general) ↔ ∃ x ∈ s.openIncidents, x.stage = .general) :
    BrigadeDerived t := by
  unfold BrigadeDerived
  rw [(alarms.same brigadeRelay (by decide)).demand, linked, general]
  exact h

/-- The sounders an incident asks for are those of its auditoria and of its zone (R95). -/
theorem State.sounderSet_congr {s t : State} (incidents : t.openIncidents = s.openIncidents)
    (alarms : ∀ z : Fin 24, t.settings.zones[z].alarms = s.settings.zones[z].alarms) : t.sounderSet = s.sounderSet := by
  unfold State.sounderSet State.sounders
  simp only [incidents, alarms]

/-- The demands stand where circuits, incidents and what the zones and the part say of alarms do. -/
theorem DemandsDerived.keep {s t : State} (h : DemandsDerived s) (alarms : AlarmsKept s t)
    (incidents : t.openIncidents = s.openIncidents)
    (zones : ∀ z : Fin 24, t.settings.zones[z].alarms = s.settings.zones[z].alarms)
    (linked : t.settings.part.brigadeLink = s.settings.part.brigadeLink) : DemandsDerived t := by
  obtain ⟨sounders, alert, brigade⟩ := demandsDerived_iff.1 h
  refine demandsDerived_iff.2 ⟨sounders.keep alarms fun c => ?_, alert.keep alarms ?_ ?_, brigade.keep alarms linked ?_⟩
  · rw [State.sounderSet_congr incidents zones]
  · rw [incidents]
  · rw [incidents]
  · rw [incidents]

/-! ## Evaluating the demands -/

theorem State.demand_demand (s : State) (c : Fin 16) (on : Bool) (p : Pattern) :
    (s.demand c on p).circuits[c].demand = on ∧ (s.demand c on p).circuits[c].pattern = p := by
  rw [State.demand_circuit, if_pos rfl]
  exact Circuit.demandEvent_demand ..

theorem State.demand_other (s : State) (c : Fin 16) (on : Bool) (p : Pattern) {i : Fin 16} (ne : i ≠ c) :
    (s.demand c on p).circuits[i] = s.circuits[i] := by
  rw [State.demand_circuit, if_neg ne]

theorem State.demandSounders_other (s : State) {i : Fin 16} (other : 6 ≤ i.1) :
    s.demandSounders.circuits[i] = s.circuits[i] := by
  unfold State.demandSounders
  refine forAll_keeps (fun t : State => t.circuits[i] = s.circuits[i]) _ (fun c t h => ?_) s rfl
  rw [State.demand_other, h]
  intro e
  rw [e, Fin.val_castLE] at other
  omega

/-- Evaluating the sounders makes them what the incidents ask for, whatever they were (R95). -/
theorem State.demandSounders_derived (s : State) : SoundersDerived s.demandSounders := by
  have frame := s.demandSounders_changes
  have settings : s.demandSounders.settings = s.settings := frame.same .settings (by decide)
  intro c
  rw [← State.sounderSet_has, State.sounderSet_congr frame.openIncidents fun z => by rw [settings]]
  unfold State.demandSounders
  refine Bool.eq_iff_iff.1 (forAll_turn (P := fun _ => True)
    (Q := fun t : State => t.circuits[c.castLE (by decide : 6 ≤ 16)].demand = s.sounderSet.getLsbD c.1) c
    (fun _ _ _ h => h) (fun t _ => (State.demand_demand ..).1) (fun i t ne h => ?_) s trivial)
  rw [State.demand_other _ _ _ _ (by
    intro e
    exact ne (Fin.castLE_inj.1 e).symm)]
  exact h

theorem State.alertPattern_none {s : State} : s.alertPattern = none ↔ ¬∃ x ∈ s.openIncidents, x.stage = .staff := by
  unfold State.alertPattern
  dsimp only
  split
  next none =>
    simp only [true_iff]
    rintro ⟨x, mem, staff⟩
    exact List.filter_eq_nil_iff.1 none x mem (beq_iff_eq.2 staff)
  next some =>
    have found : ∃ x ∈ s.openIncidents, x.stage = .staff := by
      by_contra absent
      exact some (List.filter_eq_nil_iff.2 fun x mem staff => absent ⟨x, mem, beq_iff_eq.1 staff⟩)
    split
    · simpa using found
    · simpa using found

theorem State.alertPattern_some {s : State} {p : Pattern} (h : s.alertPattern = some p) :
    p = if ∃ x ∈ s.openIncidents, x.stage = .staff ∧ x.ackBy = none then .fast else .slow := by
  unfold State.alertPattern at h
  dsimp only at h
  have any : (s.openIncidents.filter (·.stage == .staff)).any (·.ackBy.isNone) = true ↔
      ∃ x ∈ s.openIncidents, x.stage = .staff ∧ x.ackBy = none := by
    simp [List.any_eq_true, and_assoc]
  split at h
  · cases h
  · split at h
    next waiting => rw [if_pos (any.1 waiting)]; exact (Option.some.inj h).symm
    next none => rw [if_neg fun waiting => none (any.2 waiting)]; exact (Option.some.inj h).symm

/-- Evaluating the staff alert makes it what the incidents ask for, whatever it was (R94). -/
theorem State.demandAlert_derived (s : State) : AlertDerived s.demandAlert := by
  have open? : s.demandAlert.openIncidents = s.openIncidents := s.demandAlert_changes.openIncidents
  unfold AlertDerived
  rw [open?]
  unfold State.demandAlert
  split
  next p asked =>
    obtain ⟨demand, pattern⟩ := s.demand_demand staffAlert true p
    rw [demand, pattern]
    have staff : ∃ x ∈ s.openIncidents, x.stage = .staff := by
      by_contra none
      rw [State.alertPattern_none.2 none] at asked
      cases asked
    exact ⟨iff_of_true rfl staff, fun _ => State.alertPattern_some asked⟩
  next none =>
    obtain ⟨demand, -⟩ := s.demand_demand staffAlert false .continuous
    rw [demand]
    exact ⟨iff_of_false nofun (State.alertPattern_none.1 none), nofun⟩

theorem State.demandAlert_other (s : State) {i : Fin 16} (ne : i ≠ staffAlert) :
    s.demandAlert.circuits[i] = s.circuits[i] := by
  unfold State.demandAlert
  split
  · exact State.demand_other _ _ _ _ ne
  · exact State.demand_other _ _ _ _ ne

/-- Evaluating the brigade relay makes it what the incidents ask for, whatever it was (R96). -/
theorem State.demandBrigade_derived (s : State) : BrigadeDerived s.demandBrigade := by
  have frame := s.demandBrigade_changes
  have settings : s.demandBrigade.settings = s.settings := frame.same .settings (by decide)
  unfold BrigadeDerived
  rw [frame.openIncidents, settings]
  unfold State.demandBrigade
  rw [(State.demand_demand ..).1]
  simp

/-- What changes one of the three kinds of demand leaves the other two. -/
theorem SoundersDerived.of_same {s t : State} {ps : List Part} (h : SoundersDerived s) (frame : ChangesOnly ps s t)
    (same : ∀ i : Fin 16, i.1 < 6 → t.circuits[i] = s.circuits[i])
    (hs : ps.contains .settings = false := by rfl) (hi : ps.contains .incidents = false := by rfl) : SoundersDerived t := by
  have settings : t.settings = s.settings := frame.same .settings (by simpa using hs)
  intro c
  rw [same _ (by rw [Fin.val_castLE]; exact c.2), h c, ← State.sounderSet_has, ← State.sounderSet_has,
    State.sounderSet_congr (frame.openIncidents hi) fun z => by rw [settings]]

theorem AlertDerived.of_same {s t : State} {ps : List Part} (h : AlertDerived s) (frame : ChangesOnly ps s t)
    (same : t.circuits[staffAlert] = s.circuits[staffAlert]) (hi : ps.contains .incidents = false := by rfl) :
    AlertDerived t := by
  unfold AlertDerived
  rw [same, frame.openIncidents hi]
  exact h

theorem BrigadeDerived.of_same {s t : State} {ps : List Part} (h : BrigadeDerived s) (frame : ChangesOnly ps s t)
    (same : t.circuits[brigadeRelay] = s.circuits[brigadeRelay])
    (hs : ps.contains .settings = false := by rfl) (hi : ps.contains .incidents = false := by rfl) : BrigadeDerived t := by
  have settings : t.settings = s.settings := frame.same .settings (by simpa using hs)
  unfold BrigadeDerived
  rw [same, frame.openIncidents hi, settings]
  exact h

theorem DemandsDerived.demandSounders {s : State} (alert : AlertDerived s) (brigade : BrigadeDerived s) :
    DemandsDerived s.demandSounders :=
  demandsDerived_iff.2 ⟨s.demandSounders_derived, alert.of_same s.demandSounders_changes (s.demandSounders_other (by decide)),
    brigade.of_same s.demandSounders_changes (s.demandSounders_other (by decide))⟩

theorem DemandsDerived.demandAlert {s : State} (sounders : SoundersDerived s) (brigade : BrigadeDerived s) :
    DemandsDerived s.demandAlert := by
  refine demandsDerived_iff.2 ⟨sounders.of_same s.demandAlert_changes fun i lt => s.demandAlert_other ?_,
    s.demandAlert_derived, brigade.of_same s.demandAlert_changes (s.demandAlert_other (by decide))⟩
  rintro rfl
  exact absurd lt (by decide)

theorem DemandsDerived.demandBrigade {s : State} (sounders : SoundersDerived s) (alert : AlertDerived s) :
    DemandsDerived s.demandBrigade := by
  refine demandsDerived_iff.2 ⟨sounders.of_same s.demandBrigade_changes fun i lt => State.demand_other _ _ _ _ ?_,
    alert.of_same s.demandBrigade_changes (State.demand_other _ _ _ _ (by decide)), s.demandBrigade_derived⟩
  rintro rfl
  exact absurd lt (by decide)

/-- Evaluating all the demands makes them what the incidents ask for, whatever they were. -/
theorem State.demandAll_derived (s : State) : DemandsDerived s.demandAll := by
  have alert := s.demandAlert_derived
  have alerted := alert.of_same s.demandAlert.demandSounders_changes (s.demandAlert.demandSounders_other (by decide))
  exact DemandsDerived.demandBrigade s.demandAlert.demandSounders_derived alerted

end Sys2Proof.Machine
end

section
/-!
PROOFS. Every command keeps the alarm demands and the silences what the open incidents ask for (R94..R96, R146, R149).
-/

namespace Sys2Proof.Machine

-- One declaration at a time: side conditions closed by tactics wait for what stands before them.
set_option Elab.async false

/-! ## What the silences are read from -/

theorem SilencesDerived.of_asked {s t : State} (h : SilencesDerived s) (kept : SilencesKept s t)
    (present : ∀ z : Fin 8, t.settings.czones[z].present = true → s.settings.czones[z].present = true)
    (barred : ∀ z, t.barredNow z = s.barredNow z) (suppressed : ∀ z, t.suppressedNow z = s.suppressedNow z) :
    SilencesDerived t := by
  intro z here
  obtain ⟨b, p⟩ := h z (present z here)
  exact ⟨((kept z).1.trans b).trans (barred z).symm, ((kept z).2.trans p).trans (suppressed z).symm⟩

/-- An open STAFF incident of a zone that lists the call zone suppresses it (R146). -/
theorem State.suppressedNow_iff {s : State} {z : Fin 8} : s.suppressedNow z = true ↔
    ∃ x ∈ s.openIncidents, x.stage = .staff ∧
      ∃ w, x.source = .zone w ∧ s.settings.zones[w].callZones.getLsbD z.1 = true := by
  unfold State.suppressedNow
  rw [List.any_eq_true]
  refine exists_congr fun x => and_congr_right fun _ => ?_
  rw [Bool.and_eq_true, beq_iff_eq]
  refine and_congr_right fun _ => ?_
  cases x.source with
  | zone w => simp
  | station n => simp

/-- A change of an incident that keeps its stage and auditoria keeps the GENERAL set. -/
theorem State.editIncident_generalSet {s : State} {i : Fin 25} {f : Incident → Incident}
    (same : ∀ x, s.incident? i = some x → (f x).stage = x.stage ∧ (f x).source = x.source ∧ (f x).auds = x.auds) :
    (s.editIncident i f).generalSet = s.generalSet := by
  refine AudSet.ext_has fun a => ?_
  rw [State.generalSet_has, State.generalSet_has]
  refine State.editIncident_exists fun x slot => ?_
  obtain ⟨stage, -, auds⟩ := same x slot
  rw [stage, auds]

/-- A change of an incident that keeps its stage, source and auditoria keeps the silences asked for. -/
theorem State.editIncident_silences {s : State} {i : Fin 25} {f : Incident → Incident}
    (same : ∀ x, s.incident? i = some x → (f x).stage = x.stage ∧ (f x).source = x.source ∧ (f x).auds = x.auds)
    (z : Fin 8) : (s.editIncident i f).barredNow z = s.barredNow z ∧
      (s.editIncident i f).suppressedNow z = s.suppressedNow z := by
  have settings : (s.editIncident i f).settings = s.settings := (State.editIncident_changes ..).same .settings (by decide)
  constructor
  · unfold State.barredNow
    rw [settings, State.editIncident_generalSet same]
  · rw [Bool.eq_iff_iff, State.suppressedNow_iff, State.suppressedNow_iff, settings]
    refine State.editIncident_exists fun x slot => ?_
    obtain ⟨stage, source, -⟩ := same x slot
    rw [stage, source]

theorem SilencesDerived.edit {s : State} (h : SilencesDerived s) (i : Fin 25) (f : Incident → Incident)
    (same : ∀ x, s.incident? i = some x → (f x).stage = x.stage ∧ (f x).source = x.source ∧ (f x).auds = x.auds) :
    SilencesDerived (s.editIncident i f) := by
  have frame := State.editIncident_changes s i f
  have settings : (s.editIncident i f).settings = s.settings := frame.same .settings (by decide)
  exact h.of_asked (.of_changes frame) (fun z here => by rwa [settings] at here)
    (fun z => (State.editIncident_silences same z).1) fun z => (State.editIncident_silences same z).2

/-- Deriving the silence of one zone keeps those of all zones derived. -/
theorem SilencesDerived.deriveSilence {s : State} (h : SilencesDerived s) (z : Fin 8) :
    SilencesDerived (s.deriveSilence z) := by
  have frame := State.deriveSilence_changes z s
  have settings : (s.deriveSilence z).settings = s.settings := frame.same .settings (by decide)
  intro j present
  rw [settings] at present
  obtain ⟨barred, suppressed⟩ := frame.barredNow j
  rw [barred, suppressed]
  by_cases e : j = z
  · subst e
    have here := SilencedAs.deriveSilence s j present
    exact ⟨here.barred, here.suppressed⟩
  · rw [(s.deriveSilence_other e).1, (s.deriveSilence_other e).2]
    exact h j present

/-- The silences of all call zones but `z` are derived. -/
structure SilencedBut (z : Fin 8) (s : State) : Prop where
  others : ∀ j : Fin 8, j ≠ z → s.settings.czones[j].present = true →
    s.czones[j].barred = s.barredNow j ∧ s.czones[j].suppressed = s.suppressedNow j

namespace SilencedBut

variable {z : Fin 8} {s t : State}

theorem keep {ps : List Part} (h : SilencedBut z s) (frame : ChangesOnly ps s t)
    (kept : ∀ j : Fin 8, j ≠ z → t.czones[j].barred = s.czones[j].barred ∧ t.czones[j].suppressed = s.czones[j].suppressed)
    (hs : ps.contains .settings = false := by rfl) (hi : ps.contains .incidents = false := by rfl) : SilencedBut z t := by
  refine ⟨fun j ne present => ?_⟩
  rw [frame.same .settings (by simpa using hs)] at present
  obtain ⟨barred, suppressed⟩ := frame.barredNow j hs hi
  obtain ⟨b, p⟩ := h.others j ne present
  exact ⟨((kept j ne).1.trans b).trans barred.symm, ((kept j ne).2.trans p).trans suppressed.symm⟩

theorem writeCZone (h : SilencedBut z s) (x : CallZone) : SilencedBut z (s.writeCZone z x) :=
  h.keep (State.writeCZone_changes ..) fun j ne => by rw [State.writeCZone_czone, if_neg ne]; exact ⟨rfl, rfl⟩

theorem of_derived (h : SilencesDerived s) : SilencedBut z s := ⟨fun j _ => h j⟩

theorem derived (h : SilencedBut z s) (here : s.settings.czones[z].present = true →
    s.czones[z].barred = s.barredNow z ∧ s.czones[z].suppressed = s.suppressedNow z) : SilencesDerived s := by
  intro j present
  by_cases e : j = z
  · subst e; exact here present
  · exact h.others j e present

theorem deriveSilence (h : SilencedBut z s) : SilencesDerived (s.deriveSilence z) := by
  have frame := State.deriveSilence_changes z s
  have settings : (s.deriveSilence z).settings = s.settings := frame.same .settings (by decide)
  refine (h.keep frame fun j ne => s.deriveSilence_other ne).derived fun present => ?_
  rw [settings] at present
  obtain ⟨barred, suppressed⟩ := frame.barredNow z
  rw [barred, suppressed]
  have here := SilencedAs.deriveSilence s z present
  exact ⟨here.barred, here.suppressed⟩

/-- A zone whose settings have changed has its silence derived where it needs to be (R129). -/
theorem czoneAmended {old : CZoneSettings} (h : SilencedBut z s)
    (stays : old.present = s.settings.czones[z].present → old.serves = s.settings.czones[z].serves →
      s.settings.czones[z].present = true →
      s.czones[z].barred = s.barredNow z ∧ s.czones[z].suppressed = s.suppressedNow z) :
    SilencesDerived (s.czoneAmended z old) := by
  unfold State.czoneAmended
  extract_lets cfg s1 s2
  have quiet : SilencesKept s s1 := .of_changes (State.markIf_changes ..)
  have marked : SilencedBut z s1 := h.keep (State.markIf_changes ..) fun j _ => quiet j
  have settings : s1.settings = s.settings := (State.markIf_changes s (old != cfg) .czone).same .settings (by decide)
  have present : SilencedBut z s2 ∧ (old.serves = cfg.serves → SilencesDerived s2) := by
    unfold s2
    split
    next gone =>
      have dropped := State.dropZone_changes s1 z .undelivered
      have gone : cfg.present = false := by simp only [Bool.and_eq_true, Bool.not_eq_true'] at gone; exact gone.2
      have idle := (marked.keep dropped fun j _ => (SilencesKept.lights s1).dropZone z .undelivered (.refl s1) j).writeCZone
        CallZone.idle
      refine ⟨idle, fun _ => idle.derived fun present => ?_⟩
      rw [(State.writeCZone_changes ..).same .settings (by decide), dropped.same .settings (by decide), settings] at present
      rw [show s.settings.czones[z].present = false from gone] at present
      cases present
    · split
      · have come := (marked.writeCZone CallZone.idle).deriveSilence
        generalize (s1.writeCZone z CallZone.idle).deriveSilence z = u at *
        have looked : SilencesDerived (u.arbitrate z) := come.keep (State.arbitrate_changes u z)
          ((SilencesKept.lights u).arbitrate z (.refl u))
        exact ⟨of_derived looked, fun _ => looked⟩
      next left come =>
        refine ⟨marked, fun serves => marked.derived fun present => ?_⟩
        have kept := quiet z
        have now := (State.markIf_changes s (old != cfg) .czone).barredNow z
        rw [settings] at present
        have same : old.present = cfg.present := by
          have here : cfg.present = true := present
          rw [here] at come ⊢
          simpa using come
        obtain ⟨barred, suppressed⟩ := stays same serves present
        exact ⟨(kept.1.trans barred).trans now.1.symm, (kept.2.trans suppressed).trans now.2.symm⟩
  split
  next same => exact present.2 same
  · have derived := present.1.deriveSilence
    generalize s2.deriveSilence z = u at *
    have lit := derived.keep (State.refreshLights_changes u) (AlarmsStand.refreshLights u).silences
    exact lit.keep (State.markIf_changes ..) (.of_changes (State.markIf_changes ..))

end SilencedBut

theorem AlarmsKept.czoneAmended (s : State) (z : Fin 8) (old : CZoneSettings) : AlarmsKept s (s.czoneAmended z old) := by
  have silences := Sounded.silences s
  unfold State.czoneAmended
  extract_lets cfg s1 s2
  have marked : Sounded s s1 := silences.markIf _ _ (.refl s)
  have present : Sounded s s2 := by
    unfold s2
    split
    · exact silences.setCZone _ _ (silences.dropZone _ _ marked)
    · split
      · exact silences.arbitrate _ (silences.deriveSilence _ (silences.setCZone _ _ marked))
      · exact marked
  split
  · exact of_sounded present
  · exact ((of_sounded (silences.deriveSilence z present)).trans (AlarmsStand.refreshLights _).alarms).trans
      (of_changes (State.markIf_changes ..))

/-! ## What keeps demands and silences -/

/-- Between `s` and `t` alarm demands and silences that were derived have stayed so. -/
structure AlarmsFollow (s t : State) : Prop where
  demands : DemandsDerived s → DemandsDerived t
  silences : SilencesDerived s → SilencesDerived t

namespace AlarmsFollow

variable {s t u : State}

theorem refl (s : State) : AlarmsFollow s s := ⟨id, id⟩

theorem trans (h : AlarmsFollow s t) (k : AlarmsFollow t u) : AlarmsFollow s u :=
  ⟨fun d => k.demands (h.demands d), fun d => k.silences (h.silences d)⟩

/-- What touches none of them, nor settings, nor incidents. -/
theorem of_stand {ps : List Part} (h : ChangesOnly ps s t) (stand : AlarmsStand s t)
    (hs : ps.contains .settings = false := by rfl) (hi : ps.contains .incidents = false := by rfl) : AlarmsFollow s t := by
  have settings : t.settings = s.settings := h.same .settings (by simpa using hs)
  exact ⟨fun d => d.keep stand.alarms (h.openIncidents hi) (fun z => by rw [settings]) (by rw [settings]),
    fun d => d.keep h stand.silences hs hi⟩

theorem of_changes {ps : List Part} (h : ChangesOnly ps s t)
    (hc : ps.contains .circuits = false := by rfl) (hz : ps.contains .czones = false := by rfl)
    (hs : ps.contains .settings = false := by rfl) (hi : ps.contains .incidents = false := by rfl) : AlarmsFollow s t :=
  of_stand h (.of_changes h hc hz) hs hi

/-- Settings that leave what is asked of alarms and of call zones. -/
theorem of_settings (stand : AlarmsStand s t) (incidents : t.openIncidents = s.openIncidents)
    (zones : ∀ z : Fin 24, t.settings.zones[z].alarms = s.settings.zones[z].alarms ∧
      t.settings.zones[z].callZones = s.settings.zones[z].callZones)
    (czones : t.settings.czones = s.settings.czones)
    (linked : t.settings.part.brigadeLink = s.settings.part.brigadeLink) : AlarmsFollow s t := by
  refine ⟨fun d => d.keep stand.alarms incidents (fun z => (zones z).1) linked,
    fun d => d.of_asked stand.silences (fun z here => by rwa [czones] at here) (fun z => ?_) fun z => ?_⟩
  · simp only [State.barredNow, State.generalSet, incidents, czones]
  · rw [Bool.eq_iff_iff, State.suppressedNow_iff, State.suppressedNow_iff, incidents]
    simp only [(zones _).2]

theorem settled (s : State) (x : Settings) (b : Bool)
    (zones : ∀ z : Fin 24, x.zones[z].alarms = s.settings.zones[z].alarms ∧
      x.zones[z].callZones = s.settings.zones[z].callZones)
    (czones : x.czones = s.settings.czones) (linked : x.part.brigadeLink = s.settings.part.brigadeLink) :
    AlarmsFollow s (s.settled x b) := by
  have frame := s.settled_changes x b
  have settings := s.settled_settings x b
  have stand : AlarmsStand s (s.settled x b) := .of_changes frame
  have incidents : (s.settled x b).openIncidents = s.openIncidents := frame.openIncidents
  generalize s.settled x b = t at *
  subst settings
  exact of_settings stand incidents zones czones linked

theorem deriveSilences (s : State) : AlarmsFollow s s.deriveSilences where
  demands d := by
    have frame := s.deriveSilences_changes
    have settings : s.deriveSilences.settings = s.settings := frame.same .settings (by decide)
    exact d.keep (.deriveSilences s) frame.openIncidents (fun z => by rw [settings]) (by rw [settings])
  silences _ := s.deriveSilences_derived

theorem deriveSilence (s : State) (z : Fin 8) : AlarmsFollow s (s.deriveSilence z) where
  demands d := by
    have frame := State.deriveSilence_changes z s
    have settings : (s.deriveSilence z).settings = s.settings := frame.same .settings (by decide)
    exact d.keep (.of_sounded (.deriveSilence s z)) frame.openIncidents (fun z => by rw [settings]) (by rw [settings])
  silences d := d.deriveSilence z

/-- An announcement of incidents leaves the demands, and has every silence derived. -/
theorem announceIncidents (ids : List (Fin 25)) (s : State) : AlarmsFollow s (s.announceIncidents ids) where
  demands d := by
    have frame := s.announceIncidents_changes ids
    have settings : (s.announceIncidents ids).settings = s.settings := frame.same .settings (by decide)
    exact d.keep (.announceIncidents ids s) frame.openIncidents (fun z => by rw [settings]) (by rw [settings])
  silences _ := (State.announceIncidents_announced ids s).2.2.2.1

/-- Evaluating all the demands and announcing: whatever had changed of the incidents, both follow them. -/
theorem demanded_announced (ids : List (Fin 25)) (s t : State) : AlarmsFollow s (t.demandAll.announceIncidents ids) where
  demands _ := (announceIncidents ids t.demandAll).demands t.demandAll_derived
  silences _ := (State.announceIncidents_announced ids t.demandAll).2.2.2.1

theorem demandAll_silences (d : SilencesDerived s) : SilencesDerived s.demandAll :=
  d.keep s.demandAll_changes (.of_changes s.demandAll_changes)

theorem evalHolds (c : HoldCause) (s : State) : AlarmsFollow s (s.evalHolds c) := of_changes (State.evalHolds_changes ..)

/-! ### Incidents -/

theorem raiseZoneIncident (s : State) (z : Fin 24) (i : Fin 25) : AlarmsFollow s (s.raiseZoneIncident z i) :=
  demanded_announced ..

theorem raiseStationIncident (s : State) (st : Fin 8) (set : AudSet) (i : Fin 25) :
    AlarmsFollow s (s.raiseStationIncident st set i) := demanded_announced ..

theorem escalateIncident (s : State) (i : Fin 25) (why : EscalationCause) : AlarmsFollow s (s.escalateIncident i why) :=
  demanded_announced ..

theorem reactivate (s : State) (i : Fin 25) : AlarmsFollow s (s.reactivate i) := by
  unfold State.reactivate
  refine trans ⟨fun _ => State.demandAll_derived _, fun d => demandAll_silences (d.edit i _ fun x _ => ?_)⟩
    (of_changes (State.mark_changes ..))
  exact ⟨rfl, rfl, rfl⟩

theorem widenIncident (s : State) (i : Fin 25) (set : AudSet) : AlarmsFollow s (s.widenIncident i set) := by
  unfold State.widenIncident
  split
  · exact refl s
  next x slot =>
    dsimp only
    split
    next same =>
      refine ⟨fun _ => State.demandAll_derived _, fun d => demandAll_silences ?_⟩
      have edited := d.edit i (fun _ => { x with auds := x.auds ||| set, silenced := false }) fun y open? => by
        obtain rfl : x = y := Option.some.inj (slot.symm.trans open?)
        exact ⟨rfl, rfl, same⟩
      unfold State.editIncident at edited
      rw [slot] at edited
      exact edited
    · exact demanded_announced ..

theorem retireIncidentAt (s : State) (i : Fin 25) : AlarmsFollow s (s.retireIncidentAt i) := by
  unfold State.retireIncidentAt
  split
  · exact refl s
  · extract_lets s1 s2
    have demanded : DemandsDerived s2 := by
      have told : AlarmsFollow s1 s2 := by
        unfold s2
        split
        · exact of_changes (State.zoneRetired_changes ..)
        · exact refl s1
      exact told.demands (State.demandAll_derived _)
    have heard : AlarmsFollow s2 ((s2.evalHolds .fire).refreshLights) :=
      (evalHolds ..).trans (of_stand (State.refreshLights_changes _) (.refreshLights _))
    exact ⟨fun _ => (deriveSilences _).demands (heard.demands demanded), fun _ => State.deriveSilences_derived _⟩

/-- A change of an incident that keeps stage, source, auditoria and silence touches what the staff alert asks for alone
(R91, R94). -/
theorem edited_alert (s : State) (i : Fin 25) (f : Incident → Incident)
    (kept : ∀ x, (f x).stage = x.stage ∧ (f x).source = x.source ∧ (f x).auds = x.auds ∧ (f x).silenced = x.silenced) :
    AlarmsFollow s (s.editIncident i f).demandAlert := by
  have frame := State.editIncident_changes s i f
  have settings : (s.editIncident i f).settings = s.settings := frame.same .settings (by decide)
  have stand : AlarmsStand s (s.editIncident i f) := .of_changes frame
  refine ⟨fun d => ?_, fun d => ?_⟩
  · obtain ⟨sounders, -, brigade⟩ := demandsDerived_iff.1 d
    refine DemandsDerived.demandAlert (sounders.keep stand.alarms fun c => ?_) (brigade.keep stand.alarms (by rw [settings]) ?_)
    · rw [Bool.eq_iff_iff, State.sounderSet_has, State.sounderSet_has]
      simp only [State.sounders, settings]
      refine State.editIncident_exists fun x _ => ?_
      obtain ⟨stage, source, auds, silenced⟩ := kept x
      rw [stage, source, auds, silenced]
    · exact State.editIncident_exists fun x _ => by rw [(kept x).1]
  · have edited := d.edit i f fun x _ => ⟨(kept x).1, (kept x).2.1, (kept x).2.2.1⟩
    exact edited.keep (State.demandAlert_changes _) (.of_changes (State.demandAlert_changes _))

/-- A change of an incident that keeps stage, source, auditoria and acknowledgement touches what the sounders are asked
for alone (R97). -/
theorem edited_sounders (s : State) (i : Fin 25) (f : Incident → Incident)
    (kept : ∀ x, (f x).stage = x.stage ∧ (f x).source = x.source ∧ (f x).auds = x.auds ∧ (f x).ackBy = x.ackBy) :
    AlarmsFollow s (s.editIncident i f).demandSounders := by
  have frame := State.editIncident_changes s i f
  have settings : (s.editIncident i f).settings = s.settings := frame.same .settings (by decide)
  have stand : AlarmsStand s (s.editIncident i f) := .of_changes frame
  refine ⟨fun d => ?_, fun d => ?_⟩
  · obtain ⟨-, alert, brigade⟩ := demandsDerived_iff.1 d
    refine DemandsDerived.demandSounders (alert.keep stand.alarms ?_ ?_) (brigade.keep stand.alarms (by rw [settings]) ?_)
    · exact State.editIncident_exists fun x _ => by rw [(kept x).1]
    · exact State.editIncident_exists fun x _ => by rw [(kept x).1, (kept x).2.2.2]
    · exact State.editIncident_exists fun x _ => by rw [(kept x).1]
  · have edited := d.edit i f fun x _ => ⟨(kept x).1, (kept x).2.1, (kept x).2.2.1⟩
    exact edited.keep (State.demandSounders_changes _) (.of_changes (State.demandSounders_changes _))

theorem acknowledgeIncident (s : State) (i : Fin 25) (st : Fin 8) : AlarmsFollow s (s.acknowledgeIncident i st) := by
  refine edited_alert s i _ fun x => ?_
  exact ⟨rfl, rfl, rfl, rfl⟩

theorem silenceIncident (s : State) (i : Fin 25) : AlarmsFollow s (s.silenceIncident i) := by
  refine edited_sounders s i _ fun x => ?_
  exact ⟨rfl, rfl, rfl, rfl⟩

theorem actIncident (s : State) (i : Fin 25) (x : Incident) (st : Fin 8) (fs : List FieldVal) :
    AlarmsFollow s (s.actIncident i x st fs) := by
  unfold State.actIncident
  split
  · split
    · exact acknowledgeIncident ..
    · exact refl s
  · split
    · split
      · exact escalateIncident ..
      · exact refl s
    · split
      · split
        · exact refl s
        · exact silenceIncident ..
      · exact refl s

/-! ### Settings -/

/-- Sounders and silences follow the sets of a zone whose settings are written (R66, R95, R146). -/
theorem zoneSettled (s : State) (z : Fin 24) (new : ZoneSettings) (b : Bool) {t : State}
    (acted : AlarmsFollow (s.settled (s.settings.withZone z new) b) t)
    (frame : ChangesOnly [.zones, .holds, .stations] (s.settled (s.settings.withZone z new) b) t) :
    AlarmsFollow s (t.serveZone s.settings.zones[z] new) := by
  have noted := s.settled_changes (s.settings.withZone z new) b
  have whole := noted.andThen (rs := [.settings, .store, .zones, .holds, .stations]) frame
  have settings : t.settings = s.settings.withZone z new :=
    (frame.same .settings (by decide)).trans (s.settled_settings ..)
  have stand : AlarmsStand s t := .of_changes whole
  have incidents : t.openIncidents = s.openIncidents := whole.openIncidents
  have zones (w : Fin 24) : t.settings.zones[w] = if w = z then new else s.settings.zones[w] := by
    rw [settings, Settings.withZone, put_get]
  have czones : t.settings.czones = s.settings.czones := by rw [settings]; rfl
  have linked : t.settings.part.brigadeLink = s.settings.part.brigadeLink := by rw [settings]; rfl
  clear acted frame noted whole settings
  unfold State.serveZone
  extract_lets u
  have demands (d : DemandsDerived s) : DemandsDerived u := by
    unfold u
    split
    · obtain ⟨-, alert, brigade⟩ := demandsDerived_iff.1 d
      exact .demandSounders (alert.keep stand.alarms (by rw [incidents]) (by rw [incidents]))
        (brigade.keep stand.alarms linked (by rw [incidents]))
    next same =>
      refine d.keep stand.alarms incidents (fun w => ?_) linked
      rw [zones]
      split
      next e => subst e; simpa using (Eq.symm (by simpa using same))
      · rfl
  have told : ChangesOnly [.circuits, .stations] t u := by
    unfold u
    split
    · exact t.demandSounders_changes
    · exact .refl _ t
  split
  · exact ⟨fun d => (deriveSilences u).demands (demands d), fun _ => u.deriveSilences_derived⟩
  next same =>
    refine ⟨demands, fun d => SilencesDerived.keep ?_ told (.of_changes told)⟩
    refine d.of_asked stand.silences (fun w here => by rwa [czones] at here) (fun w => ?_) fun w => ?_
    · simp only [State.barredNow, State.generalSet, incidents, czones]
    · have callZones (w : Fin 24) : t.settings.zones[w].callZones = s.settings.zones[w].callZones := by
        rw [zones]
        split
        next e => subst e; exact Eq.symm (by simpa using same)
        · rfl
      rw [Bool.eq_iff_iff, State.suppressedNow_iff, State.suppressedNow_iff, incidents]
      simp only [callZones]

/-- The relay follows the brigade link where the settings of the part are written (R84, R96). -/
theorem partSettled (s : State) (new : PartSettings) (b : Bool) :
    AlarmsFollow s ((s.settled { s.settings with part := new } b).serveBrigade s.settings.part new) := by
  have frame := s.settled_changes { s.settings with part := new } b
  have settings := s.settled_settings { s.settings with part := new } b
  have stand : AlarmsStand s (s.settled { s.settings with part := new } b) := .of_changes frame
  have incidents : (s.settled { s.settings with part := new } b).openIncidents = s.openIncidents := frame.openIncidents
  have silent (d : SilencesDerived s) : SilencesDerived (s.settled { s.settings with part := new } b) := by
    refine d.of_asked stand.silences (fun z here => by rw [settings] at here; exact here) (fun z => ?_) fun z => ?_
    · simp only [State.barredNow, State.generalSet, incidents, settings]
    · simp only [State.suppressedNow, incidents, settings]
  generalize s.settled { s.settings with part := new } b = t at *
  unfold State.serveBrigade
  split
  · refine ⟨fun d => ?_, fun d => (silent d).keep t.demandBrigade_changes (.of_changes t.demandBrigade_changes)⟩
    obtain ⟨sounders, alert, -⟩ := demandsDerived_iff.1 d
    exact .demandBrigade
      (sounders.keep stand.alarms fun c => by rw [State.sounderSet_congr incidents fun z => by rw [settings]])
      (alert.keep stand.alarms (by rw [incidents]) (by rw [incidents]))
  next same =>
    refine ⟨fun d => d.keep stand.alarms incidents (fun z => by rw [settings]) ?_, silent⟩
    rw [settings]
    exact Eq.symm (by simpa using same)

/-- A call zone whose settings are written has its silence derived where it has come or serves others (R129). -/
theorem czoneSettled (s : State) (z : Fin 8) (new : CZoneSettings) (b : Bool) :
    AlarmsFollow s ((s.settled (s.settings.withCZone z new) b).czoneAmended z s.settings.czones[z]) := by
  have frame := s.settled_changes (s.settings.withCZone z new) b
  have settings := s.settled_settings (s.settings.withCZone z new) b
  have stand : AlarmsStand s (s.settled (s.settings.withCZone z new) b) := .of_changes frame
  have incidents : (s.settled (s.settings.withCZone z new) b).openIncidents = s.openIncidents := frame.openIncidents
  generalize s.settled (s.settings.withCZone z new) b = t at *
  have czones (j : Fin 8) : t.settings.czones[j] = if j = z then new else s.settings.czones[j] := by
    rw [settings, Settings.withCZone, put_get]
  have whole := t.czoneAmended_changes z s.settings.czones[z]
  have kept : (t.czoneAmended z s.settings.czones[z]).settings = t.settings := whole.same .settings (by decide)
  refine ⟨fun d => ?_, fun d => ?_⟩
  · refine d.keep (stand.alarms.trans (AlarmsKept.czoneAmended ..)) (whole.openIncidents.trans incidents) (fun w => ?_) ?_
    · rw [kept, settings]; rfl
    · rw [kept, settings]; rfl
  · have suppressed (j : Fin 8) : t.suppressedNow j = s.suppressedNow j := by
      simp only [State.suppressedNow, incidents, settings]
      rfl
    have barred (j : Fin 8) (serves : t.settings.czones[j].serves = s.settings.czones[j].serves) :
        t.barredNow j = s.barredNow j := by
      simp only [State.barredNow, State.generalSet, incidents, serves]
    refine SilencedBut.czoneAmended (s := t) ⟨fun j ne present => ?_⟩ fun stays serves present => ?_
    · have same : t.settings.czones[j] = s.settings.czones[j] := by rw [czones, if_neg ne]
      rw [same] at present
      rw [barred j (by rw [same]), suppressed, (stand.silences j).1, (stand.silences j).2]
      exact d j present
    · rw [barred z serves.symm, suppressed, (stand.silences z).1, (stand.silences z).2]
      exact d z (stays.trans present)

/-! ### Phases and starts -/

end AlarmsFollow

namespace AlarmsStand

theorem respondWith (s : State) (a : Fin 3) (r : Option Response) : AlarmsStand s (s.respondWith a r) := by
  cases r
  · exact refl s
  · exact of_changes (State.respond_changes ..)

theorem enterPhase (s : State) (a : Fin 3) (p : Perf) (r : Option Response) (notice : Option DeliveryState) :
    AlarmsStand s (s.enterPhase a p r notice) := by
  have written : AlarmsStand s (s.writePerf a p) := of_changes (State.writePerf_changes ..)
  have lit := (written.trans (respondWith _ a r)).trans (refreshLights _)
  unfold State.enterPhase
  dsimp only
  split
  · exact lit
  · exact lit.trans (callNotice ..)

theorem enter (s : State) (a : Fin 3) (st : Fin 8) (p : Phase) : AlarmsStand s (s.enter a st p) := by
  unfold State.enter
  cases p with
  | dark =>
    dsimp only
    unfold State.enterDark
    exact (of_changes (s.clearHolds_changes a)).trans (enterPhase ..)
  | prepare =>
    dsimp only
    unfold State.enterPrepare
    exact (enterPhase ..).trans (of_changes (State.evalAllHolds_changes ..))
  | houseOpen =>
    dsimp only
    unfold State.enterHouseOpen
    exact enterPhase ..
  | beginners =>
    dsimp only
    unfold State.enterBeginners
    exact enterPhase ..
  | running =>
    dsimp only
    unfold State.enterRunning
    exact enterPhase ..
  | interval =>
    dsimp only
    unfold State.enterInterval
    exact enterPhase ..
  | closing =>
    dsimp only
    unfold State.enterClosing
    exact enterPhase ..
  | halted =>
    dsimp only
    unfold State.halt
    have written : AlarmsStand s (s.writePerf a { s.perfs[a] with phase := .halted }) := of_changes (State.writePerf_changes ..)
    exact (written.trans (of_changes (State.respond_changes ..))).trans (callNotice ..)

end AlarmsStand

/-- No incident is open, no alarm is demanded and no call zone is silenced. -/
structure AlarmsBlank (s : State) : Prop where
  incidents : s.openIncidents = []
  demands : ∀ c : Fin 16, isChime c = false → s.circuits[c].demand = false
  silences : ∀ z : Fin 8, s.czones[z].barred = false ∧ s.czones[z].suppressed = false

namespace AlarmsBlank

variable {s t : State}

theorem follow (h : AlarmsBlank t) (s : State) : AlarmsFollow s t := by
  obtain ⟨incidents, demands, silences⟩ := h
  refine ⟨fun _ => demandsDerived_iff.2 ⟨fun c => ?_, ?_, ?_⟩, fun _ z _ => ?_⟩
  · rw [demands _ (isChime_sounder c), incidents]
    simp
  · unfold AlertDerived
    rw [demands _ (by decide), incidents]
    simp
  · unfold BrigadeDerived
    rw [demands _ (by decide), incidents]
    simp
  · rw [(silences z).1, (silences z).2, State.barredNow, State.suppressedNow, State.generalSet, incidents]
    simp [meets]

theorem keep {ps : List Part} (h : AlarmsBlank s) (frame : ChangesOnly ps s t) (stand : AlarmsStand s t)
    (hi : ps.contains .incidents = false := by rfl) : AlarmsBlank t where
  incidents := (frame.openIncidents hi).trans h.incidents
  demands c other := (stand.alarms.same c other).demand.trans (h.demands c other)
  silences z := ⟨(stand.silences z).1.trans (h.silences z).1, (stand.silences z).2.trans (h.silences z).2⟩

theorem of_changes {ps : List Part} (h : AlarmsBlank s) (frame : ChangesOnly ps s t)
    (hi : ps.contains .incidents = false := by rfl) (hc : ps.contains .circuits = false := by rfl)
    (hz : ps.contains .czones = false := by rfl) : AlarmsBlank t := h.keep frame (.of_changes frame hc hz) hi

/-- A start opens nothing, demands nothing and silences nothing (R102, R153, R174). -/
theorem start (s : State) (p : Plant) (fromPin : Bool) : AlarmsBlank (s.start p fromPin) := by
  have set : AlarmsBlank (s.loadSettings.setUp p fromPin) := by
    refine ⟨rfl, fun c _ => ?_, fun z => ?_⟩
    · change (tab _ : Vector Circuit 16)[c].demand = false
      rw [tab_get]
      exact (SameDemand.tested ..).demand
    · change (tab _ : Vector CallZone 8)[z].barred = false ∧ (tab _ : Vector CallZone 8)[z].suppressed = false
      rw [tab_get]
      exact ⟨rfl, rfl⟩
  have lights : AlarmsBlank (s.loadSettings.setUp p fromPin).writeRetained.startLights :=
    ⟨set.incidents, set.demands, set.silences⟩
  unfold State.start
  refine AlarmsBlank.of_changes ?_ (State.flagAll_changes _)
  exact forAll_keeps AlarmsBlank _ (fun a t h => h.of_changes (State.evalAllHolds_changes a t)) _ lights

/-- The call zones at a soft restart (R154). -/
theorem dropCalls_silences (s : State) (z : Fin 8) :
    s.dropCalls.czones[z].barred = false ∧ s.dropCalls.czones[z].suppressed = false := by
  unfold State.dropCalls
  dsimp only
  refine forAll_turn (P := fun _ => True)
    (Q := fun t : State => t.czones[z].barred = false ∧ t.czones[z].suppressed = false) z (fun _ _ _ h => h)
    (fun t _ => ?_) (fun i t ne h => ?_) s trivial
  · rw [State.writeCZone_czone, if_pos rfl]
    exact ⟨rfl, rfl⟩
  · have stopped : SilencesKept t (t.stopBurst i) := (SilencesKept.lights t).stopBurst i (.refl t)
    rw [State.writeCZone_czone, if_neg ne.symm, (stopped z).1, (stopped z).2]
    exact h

theorem restartCircuits_silences (loads : BitVec 16) (s : State) : SilencesKept s (s.restartCircuits loads) := by
  have changed (u : State) (c : Fin 16) (x : Circuit) : SilencesKept u (u.changeCircuit c x) :=
    (SilencesKept.of_changes (State.writeCircuit_changes ..)).trans (AlarmsStand.announceCondition _ c _).silences
  unfold State.restartCircuits
  refine forAll_keeps (SilencesKept s) _ (fun c t h => ?_) _ (.refl s)
  have cleared := h.trans (changed t c (Circuit.cleared t.now))
  dsimp only
  generalize t.changeCircuit c (Circuit.cleared t.now) = u at *
  exact cleared.trans (changed u c _)

/-- Every circuit at a soft restart (R166). -/
theorem restartCircuits_demands (loads : BitVec 16) (s : State) (c : Fin 16) (other : isChime c = false) :
    (s.restartCircuits loads).circuits[c].demand = false := by
  unfold State.restartCircuits
  refine forAll_turn (P := fun _ => True) (Q := fun t : State => t.circuits[c].demand = false) c (fun _ _ _ h => h)
    (fun t _ => ?_) (fun i t ne h => ?_) s trivial
  · dsimp only
    have once := (AlarmsStand.announceCondition ((t.writeCircuit c (Circuit.cleared t.now))) c t.circuits[c].condition).alarms
    have cleared : (t.changeCircuit c (Circuit.cleared t.now)).circuits[c].demand = false := by
      refine ((once.same c other).demand).trans ?_
      rw [State.writeCircuit_circuits, put_same]
      rfl
    generalize t.changeCircuit c (Circuit.cleared t.now) = u at *
    exact (((AlarmsStand.changeCircuit u c _ (.tested ..)).alarms.same c other).demand).trans cleared
  · dsimp only
    have cleared := ((AlarmsStand.announceCondition (t.writeCircuit i (Circuit.cleared t.now)) i
      t.circuits[i].condition).alarms.same c other).demand
    rw [State.writeCircuit_circuits, put_other _ _ _ _ ne.symm, h] at cleared
    have cleared : (t.changeCircuit i (Circuit.cleared t.now)).circuits[c].demand = false := cleared
    generalize t.changeCircuit i (Circuit.cleared t.now) = u at *
    exact (((AlarmsStand.changeCircuit u i _ (.tested ..)).alarms.same c other).demand).trans cleared

/-- A soft restart, which no open incident lets through, leaves no alarm (R166, R177). -/
theorem softRestart (loads : BitVec 16) (none : s.incidentList = []) : AlarmsBlank (s.softRestart loads) := by
  unfold State.softRestart
  extract_lets s1 s2
  have dropped : SilencesKept s.dropCalls s1 := .of_changes (State.restartLights_changes _)
  have first : ChangesOnly lightParts s s1 := (State.dropCalls_changes s).andThen (State.restartLights_changes _)
  have circuits : SilencesKept s1 (s1.restartCircuits loads) := (restartCircuits_silences loads s1)
  have second : ChangesOnly (.holds :: lightParts) s (s1.restartCircuits loads) :=
    first.andThen (State.restartCircuits_changes s1 loads)
  have blank : AlarmsBlank (s1.restartCircuits loads) := by
    refine ⟨?_, restartCircuits_demands loads s1, fun z => ?_⟩
    · rw [second.openIncidents, State.openIncidents, none]
      rfl
    · rw [(circuits z).1, (circuits z).2, (dropped z).1, (dropped z).2]
      exact dropCalls_silences s z
  have last : AlarmsBlank s2 := (blank.of_changes (State.restartZones_changes _)).of_changes (State.restartIrons_changes _)
  exact ((last.of_changes (State.writeSupply_changes ..)).of_changes (State.restartLink_changes _)).of_changes
    (State.flagAll_changes _)

end AlarmsBlank

namespace AlarmsFollow


theorem enter (s : State) (a : Fin 3) (st : Fin 8) (p : Phase) : AlarmsFollow s (s.enter a st p) :=
  of_stand (State.enter_changes ..) (AlarmsStand.enter ..)

theorem softRestart (s : State) (loads : BitVec 16) (none : s.incidentList = []) : AlarmsFollow s (s.softRestart loads) :=
  (AlarmsBlank.softRestart loads none).follow s

theorem start (s : State) (p : Plant) (fromPin : Bool) : AlarmsFollow s (s.start p fromPin) :=
  (AlarmsBlank.start s p fromPin).follow s

end AlarmsFollow

/-! ## Decisions and events -/

theorem Decides.alarmsFollow {code : ReqCode} {q : Ask} {s : State} {v : Verdict} (h : Decides code q s v) :
    AlarmsFollow s v.2 := by
  have lights := AlarmsStand.lights s
  have here := AlarmsStand.refl s
  cases h with
  | stays => exact .refl s
  | looks => exact .of_changes (State.lookClears_changes ..)
  | arms => exact .of_changes (State.arm_changes ..)
  | stores => exact .of_changes s.beginStore_changes
  | restarts _ loads _ _ none => exact .softRestart s loads none
  | blocks => exact .of_changes (State.mark_changes ..)
  | enters => exact .enter ..
  | amendsPerf aud =>
    obtain ⟨new, written⟩ := s.applyPerf_settled q aud
    rw [written]
    exact .settled s _ _ (fun _ => ⟨rfl, rfl⟩) rfl rfl
  | amendsIron a ch limitIn new =>
    have noted : AlarmsFollow s (s.settled (s.settings.withIron ch new) (s.settings.irons[ch] != new)) :=
      .settled s _ _ (fun _ => ⟨rfl, rfl⟩) rfl rfl
    rw [State.applyIron_settled]
    dsimp only
    split
    · exact (noted.trans (.of_changes (State.actIron_changes ..))).trans (.of_changes (State.ironPresence_changes ..))
    · exact noted.trans (.of_changes (State.actIron_changes ..))
  | amendsZone a z new =>
    rw [State.applyZone_settled]
    exact .zoneSettled s z new _ (.of_changes (State.actZone_changes ..)) (State.actZone_changes ..)
  | targets => exact .of_changes (State.applyTarget_changes ..)
  | amendsGroup g =>
    obtain ⟨new, written⟩ := s.applyGroup_settled q g
    have noted : AlarmsFollow s (s.settled (s.settings.withGroup g new) (s.settings.groups[g] != new)) :=
      .settled s _ _ (fun _ => ⟨rfl, rfl⟩) rfl rfl
    rw [written]
    exact (noted.trans (.of_changes (State.groupAmended_changes ..))).trans
      (.of_stand (State.announceLit_changes _) (.announceLit _))
  | amendsCZone a z new => exact .czoneSettled s z new _
  | amendsCircuit a c =>
    have noted (new : CircuitSettings) :
        AlarmsFollow s (s.settled (s.settings.withCircuit c new) (s.settings.circuits[c] != new)) :=
      .settled s _ _ (fun _ => ⟨rfl, rfl⟩) rfl rfl
    rw [State.applyCircuit_settled]
    exact ((noted _).trans (.of_changes (State.serveCircuit_changes ..))).trans
      (.of_stand (State.resetCircuit_changes ..) (.resetCircuit ..))
  | amendsStatus a new =>
    rw [State.applyStatus_settled]
    exact (AlarmsFollow.partSettled s new _).trans (.of_changes (State.setLock_changes ..))
  | amendsStation a n new =>
    unfold State.applyStation
    refine AlarmsFollow.trans (t := { s with
      settings := { s.settings with stations := put s.settings.stations n new }
      stations := put s.stations n (s.stations[n].amended s.settings.stations[n] new) })
      (.of_settings ⟨⟨fun _ _ => .refl _⟩, fun _ => ⟨rfl, rfl⟩⟩ rfl (fun _ => ⟨rfl, rfl⟩) rfl rfl) ?_
    exact (AlarmsFollow.of_changes (State.noteChange_changes ..)).trans (.of_changes (State.markIf_changes ..))
  | raisesHold => exact .of_changes (State.fillHold_changes ..)
  | retiresHold => exact .of_changes (State.emptyHold_changes ..)
  | widens => exact .widenIncident ..
  | raisesIncident => exact .raiseStationIncident ..
  | actsIncident => exact .actIncident ..
  | retiresIncident => exact .retireIncidentAt ..
  | raisesCall _ x b c room _ _ _ _ found =>
    have made : ChangesOnly burstParts s (room.fillCall c x) :=
      (State.roomForCall_changes found).andThen (State.fillCall_changes ..)
    exact .of_stand made (lights.fillCall c x (lights.roomForCall found here))
  | amendsCall => exact .of_stand (State.amendCallAt_changes ..) (lights.amendCallAt _ _ _ here)
  | retiresCall => exact .of_stand (State.retireCallAt_changes ..) (lights.retireCallAt _ here)

theorem AlarmsFollow.confirms {s t : State} {z : Fin 24} (run : s.confirms z = .next t) : AlarmsFollow s t := by
  obtain rfl | ⟨time, u, -, -, alarm, ends⟩ := State.confirms_cases run
  · exact .refl _
  have heard : AlarmsFollow s u := by
    rw [alarm]
    exact (AlarmsFollow.of_changes (s.reach_changes time)).trans (.of_changes (State.writeZone_changes ..))
  obtain ⟨i, -, -, rfl⟩ | ⟨i, -, -, rfl⟩ | ⟨-, -, rfl⟩ := ends
  · exact heard.trans (.raiseZoneIncident ..)
  · exact heard.trans (.reactivate ..)
  · exact heard

theorem AlarmsFollow.takes {s t : State} {f : State → State} (run : s.takes f = .next t) (h : AlarmsFollow s (f s)) :
    AlarmsFollow s t := by
  unfold State.takes at run
  obtain rfl := Host.Outcome.next.inj run
  split
  · exact h
  · exact .refl s

theorem AlarmsStand.takes {s t : State} {f : State → State} (run : s.takes f = .next t) (h : AlarmsStand s (f s)) :
    AlarmsStand s t := by
  unfold State.takes at run
  obtain rfl := Host.Outcome.next.inj run
  split
  · exact h
  · exact .refl s

theorem AlarmsFollow.ackRunsOut (s : State) (i : Fin 25) : AlarmsFollow s (s.ackRunsOut i) := by
  unfold State.ackRunsOut
  split
  · exact .refl s
  · split
    · exact (AlarmsFollow.of_changes (s.reach_changes _)).trans (.escalateIncident ..)
    · exact .refl s

theorem AlarmsFollow.investigationRunsOut (s : State) (i : Fin 25) : AlarmsFollow s (s.investigationRunsOut i) := by
  unfold State.investigationRunsOut
  split
  · exact .refl s
  · split
    · exact (AlarmsFollow.of_changes (s.reach_changes _)).trans (.escalateIncident ..)
    · exact .refl s

theorem event_alarmsFollow {i : Instr} {s t : State} (run : exec i s = .next t) (event : requestOf i = none)
    (known : ∀ code kind r, i ≠ .unknownRequest code kind r) : AlarmsFollow s t := by
  have frame := commandsTouchOnlyTheirParts i s t run
  have lights := AlarmsStand.lights s
  have here := AlarmsStand.refl s
  cases i with
  | unknownRequest code kind r => exact absurd rfl (known code kind r)
  | confirmTimerExpiry z =>
    simp only [exec, execConfirmTimerExpiry] at run
    split at run
    · exact .confirms run
    · cases run; exact .refl s
  | acknowledgeTimerExpiry i => exact .takes run (.ackRunsOut s i)
  | investigationTimerExpiry i => exact .takes run (.investigationRunsOut s i)
  | notBeforeDue c z => exact .of_stand frame (.takes run (lights.notBeforePasses c z here))
  | strokeOnElapsed z => exact .of_stand frame (.takes run (lights.strokeOnRuns z here))
  | strokeGapElapsed z => exact .of_stand frame (.takes run (lights.strokeGapRuns z here))
  | burstEnd z => exact .of_stand frame (.takes run (lights.burstRuns z here))
  | patternPartEnd c => exact .of_stand frame (.takes run (.patternRuns s c))
  | testTimerExpiry c seen => exact .of_stand frame (.takes run (.testRuns s c seen))
  | overloadEvent c => exact .of_stand frame (.takes run (.overloads s c))
  | retryTimerExpiry c => exact .of_stand frame (.takes run (.retryRuns s c))
  | cleanTimerExpiry c => exact .of_stand frame (.takes run (.cleanRuns s c))
  | offTimerExpiry c => exact .of_stand frame (.takes run (.offRuns s c))
  | mainsSenseChange on => exact .of_stand frame (.takes run (.mainsLine s on))
  | lossTimerExpiry => exact .of_stand frame (.takes run (.lossRuns s))
  | settlingTimerExpiry => exact .of_stand frame (.takes run (.settlingRuns s))
  | coldStart p =>
    obtain rfl : s.start p false = t := Host.Outcome.next.inj run
    exact .start ..
  | resetPin p => exact .takes run (.start s p true)
  | _ => first
    | exact .of_changes frame
    | cases event

theorem step_alarmsFollow {s t : State} (run : step s = .next t) : AlarmsFollow s t := by
  refine step_keeps (P := AlarmsFollow s) (fun u n h => h.trans ⟨id, id⟩) (fun u rest h => h.trans ⟨id, id⟩)
    (fun i u w h ran => ?_) (.refl s) run
  exact exec_keeps (P := AlarmsFollow s) (fun u h => h.trans (.of_changes u.frameGood_changes))
    (fun u h => h.trans (.of_changes u.frameFails_changes)) (fun u n b a h => h.trans (.of_changes (u.reply_changes n b a)))
    (fun _ _ _ _ h decided => h.trans decided.alarmsFollow)
    (fun event known h => h.trans (event_alarmsFollow ran event known)) h ran

/-- Settles O8. -/
theorem demandsAndSilencesFollowIncidents : Obligations.DemandsAndSilencesFollowIncidents := by
  unfold Obligations.DemandsAndSilencesFollowIncidents
  exact ⟨fun s t h run => (step_alarmsFollow run).demands h, fun s t h run => (step_alarmsFollow run).silences h⟩

end Sys2Proof.Machine
end

section
/-!
PROOFS. Force causes, lit states and outputs stay what they are derived from (R105, R113..R115, R123, R125): whatever
changes what they are read from has them derived again.
-/

namespace Sys2Proof.Machine

-- One declaration at a time: side conditions closed by tactics wait for what stands before them.
set_option Elab.async false

/-! ## Groups that are absent or written -/

/-- Every absent group is dark (R105). -/
def AbsentDark (s : State) : Prop := ∀ g : Fin 12, s.settings.groups[g].present = false → s.groups[g] = LightGroup.dark

theorem OutputsDerived.absent {s : State} (h : OutputsDerived s) : AbsentDark s := fun g => (h g).2

/-- One group is written as it shows, and outputs that were shown are shown. -/
theorem OutputsDerived.put {s t : State} (h : OutputsDerived s) (g : Fin 12) (x : LightGroup)
    (frame : ChangesOnly [.groups, .stations] s t) (groups : t.groups = put s.groups g x)
    (present : s.settings.groups[g].present = true) (shown : x = s.relit g x) : OutputsDerived t := by
  have settings : t.settings = s.settings := frame.same .settings (by decide)
  have perfs : t.perfs = s.perfs := frame.same .perfs (by decide)
  have flickers : t.flickers = s.flickers := frame.same .flickers (by decide)
  refine outputsDerived_iff.2 fun i => ?_
  by_cases e : i = g
  · subst e
    unfold State.shown
    rw [settings, if_pos present, groups, put_same, frame.relit]
    exact shown
  · refine State.shown_congr (outputsDerived_iff.1 h i) settings (fun a => ?_) (fun _ _ => by rw [flickers]) ?_
    · simp only [State.phase, perfs]
    · rw [groups, put_other _ _ _ _ e]

/-- A lighting response shows the outputs it changes (R113, R122). -/
theorem OutputsDerived.respond {s : State} (h : OutputsDerived s) (a : Fin 3) (t d : Nat) :
    OutputsDerived (s.respond a t d) := by
  rw [State.respond_eq]
  refine forAll_keeps OutputsDerived _ (fun i u hu => ?_) s h
  by_cases follows : u.follows i a
  · refine hu.put i (u.responded t d i) (State.respondTurn_changes ..) (State.respondTurn_groups t d follows) follows.1 ?_
    unfold State.responded
    split
    · rfl
    · have shown := outputsDerived_iff.1 hu i
      unfold State.shown at shown
      rw [if_pos follows.1] at shown
      obtain ⟨driven, drive, flicker⟩ := eq_relit_iff.1 shown
      exact eq_relit_iff.2 ⟨driven, drive, flicker⟩
  · rw [State.respondTurn_unreached t d follows]
    exact hu

/-- A response leaves the absent groups (R122). -/
theorem AbsentDark.respond {s : State} (h : AbsentDark s) (a : Fin 3) (t d : Nat) : AbsentDark (s.respond a t d) := by
  intro g absent
  rw [(State.respond_changes ..).same .settings (by decide)] at absent
  rw [State.respond_other _ _ _ _ _ fun follows => by rw [follows.1] at absent; cases absent]
  exact h g absent

/-! ## What keeps the lights derived -/

/-- Between `s` and `t` causes, lit states and outputs that were derived have stayed so. -/
structure LightsFollow (s t : State) : Prop where
  lights : LightsDerived s → LightsDerived t
  outputs : OutputsDerived s → OutputsDerived t

namespace LightsFollow

variable {s t u : State}

theorem refl (s : State) : LightsFollow s s := ⟨id, id⟩

theorem trans (h : LightsFollow s t) (k : LightsFollow t u) : LightsFollow s u :=
  ⟨fun d => k.lights (h.lights d), fun d => k.outputs (h.outputs d)⟩

/-- What touches no light, nor what the lights are derived from. -/
theorem of_changes {ps : List Part} (h : ChangesOnly ps s t)
    (out : ps.all (fun p => !([.settings, .incidents, .supply, .perfs, .flickers, .groups, .lit] : List Part).contains p) = true
      := by rfl) : LightsFollow s t := by
  have same (p : Part) (mem : p ∈ ([.settings, .incidents, .supply, .perfs, .flickers, .groups, .lit] : List Part)) :
      p.same s t :=
    h.same p fun inside => by
      have := List.all_eq_true.1 out p inside
      simp only [Bool.not_eq_true', List.contains_eq_mem, decide_eq_false_iff_not] at this
      exact this mem
  have settings : t.settings = s.settings := same .settings (by simp)
  have supply : t.supply = s.supply := same .supply (by simp)
  have perfs : t.perfs = s.perfs := same .perfs (by simp)
  have groups : t.groups = s.groups := same .groups (by simp)
  have flickers : t.flickers = s.flickers := same .flickers (by simp)
  have lit : t.lit = s.lit := same .lit (by simp)
  obtain ⟨slots, order⟩ : t.incidents = s.incidents ∧ t.incidentList = s.incidentList := same .incidents (by simp)
  have causes (g : Fin 12) : t.groups[g].causes = s.groups[g].causes := by rw [groups]
  have dark (a : Fin 3) : (t.phase a != .dark) = (s.phase a != .dark) := by simp only [State.phase, perfs]
  refine ⟨fun ⟨derived, announced⟩ => ⟨?_, ?_⟩, fun o => outputsDerived_iff.2 fun g => ?_⟩
  · refine CausesDerived.keep derived settings ?_ (by rw [supply]) dark (fun a => by rw [perfs]) causes
    simp only [State.generalSet, State.openIncidents, slots, order]
  · exact LitDerived.keep announced settings lit causes
  · exact State.shown_congr (outputsDerived_iff.1 o g) settings dark (fun _ _ => by rw [flickers]) (by rw [groups])

theorem foldl {α : Type} {f : State → α → State} (turn : ∀ s a, LightsFollow s (f s a)) (l : List α) (s : State) :
    LightsFollow s (l.foldl f s) := foldl_keeps (LightsFollow s) f (fun t a h => h.trans (turn t a)) l s (refl s)

/-- A flicker request shows the outputs it changes, and forces nothing (R123). -/
theorem flickerRequest (s : State) (z : Fin 8) (code : Nat) : LightsFollow s (s.flickerRequest z code) where
  lights := fun ⟨derived, announced⟩ => by
    have frame := s.flickerRequest_changes z code
    have sounded := Sounded.flicker s z code
    exact ⟨CausesDerived.sounded derived frame sounded, LitDerived.keep announced (frame.same .settings (by decide))
      (frame.same .lit (by decide)) sounded.causes⟩
  outputs o := o.flickerRequest z code

/-- Bursts, notices and silences keep the lights derived. -/
theorem silences (s : State) : SilenceClosed (LightsFollow s) where
  clock t h := h.trans (of_changes (State.reach_changes ..))
  mark k h := h.trans (of_changes (State.mark_changes ..))
  table _ _ h := h.trans ⟨id, id⟩
  czone _ _ _ _ h := h.trans ⟨id, id⟩
  chime z on h := h.trans (of_changes (State.demand_changes ..))
  flicker z code h := h.trans (flickerRequest ..)
  silence _ _ h := h.trans ⟨id, id⟩

theorem deriveSilences (s : State) : LightsFollow s s.deriveSilences := (silences s).deriveSilences (refl s)

theorem deriveSilence (s : State) (z : Fin 8) : LightsFollow s (s.deriveSilence z) := (silences s).deriveSilence z (refl s)

theorem callNotice (s : State) (a : Fin 3) (st : DeliveryState) : LightsFollow s (s.callNotice a st) :=
  (silences s).callNotice a st (refl s)

theorem evalHolds (c : HoldCause) (s : State) : LightsFollow s (s.evalHolds c) := of_changes (State.evalHolds_changes ..)

theorem reach (s : State) (t : Nat) : LightsFollow s (s.reach t) := of_changes (s.reach_changes t)

/-- Announcing the lit states derives them (R125). -/
theorem announceLit (s : State) : LightsFollow s s.announceLit where
  lights := fun ⟨derived, _⟩ =>
    ⟨CausesDerived.sounded derived s.announceLit_changes (.announceLit s), s.announceLit_lit⟩
  outputs := (Sounded.announceLit s).outputs

/-- All the lights derived again, whatever they were (R113, R115, R125). -/
theorem refreshLights_derived (s : State) : LightsDerived s.refreshLights :=
  ⟨CausesDerived.sounded s.refreshGroups_derived s.refreshGroups.announceLit_changes (.announceLit _),
    s.refreshGroups.announceLit_lit⟩

theorem refreshLights_outputs (dark : AbsentDark s) : OutputsDerived s.refreshLights :=
  (announceLit _).outputs (.refreshGroups dark)

theorem refreshLights (s : State) : LightsFollow s s.refreshLights :=
  ⟨fun _ => refreshLights_derived s, fun o => refreshLights_outputs o.absent⟩

/-! ### Performances -/

/-- A write that crosses neither DARK nor interrupted. -/
theorem writePerf (s : State) (a : Fin 3) (p : Perf) (dark : (p.phase != .dark) = (s.phase a != .dark))
    (interrupted : p.interrupted = s.perfs[a].interrupted) : LightsFollow s (s.writePerf a p) := by
  have frame := s.writePerf_changes a p
  have groups : (s.writePerf a p).groups = s.groups := frame.same .groups (by decide)
  have flickers : (s.writePerf a p).flickers = s.flickers := frame.same .flickers (by decide)
  refine ⟨fun d => d.writePerf a p dark interrupted, fun o => outputsDerived_iff.2 fun g => ?_⟩
  refine State.shown_congr (outputsDerived_iff.1 o g) (frame.same .settings (by decide)) (fun b => ?_)
    (fun _ _ => by rw [flickers]) (by rw [groups])
  rw [State.writePerf_phase]
  split
  next e => subst e; exact dark
  · rfl

theorem setProved (s : State) (a : Fin 3) (p : IronProved) : LightsFollow s (s.setProved a p) := by
  unfold State.setProved
  dsimp only
  split
  · exact refl s
  · exact (writePerf s a { s.perfs[a] with ironProved := p } rfl rfl).trans (of_changes (State.evalHold_changes ..))

theorem takeJudgement (s : State) (a : Fin 3) (k : DescentKind) (b : Bool) : LightsFollow s (s.takeJudgement a k b) := by
  unfold State.takeJudgement
  split
  · exact refl s
  · split
    · exact setProved ..
    · exact refl s

theorem arrive (s : State) (ch : Fin 3) : LightsFollow s (s.arrive ch) := by
  unfold State.arrive
  extract_lets x v s1 s2 result s3
  have landed : LightsFollow s s1 := of_changes (State.writeIron_changes ..)
  have checked : LightsFollow s s2 := by
    unfold s2
    split
    · exact landed.trans (of_changes (State.recordFault_changes ..))
    · exact landed
  exact (checked.trans (of_changes (State.writeIron_changes ..))).trans (takeJudgement ..)

theorem limitInMade (s : State) (ch : Fin 3) : LightsFollow s (s.limitInMade ch) := by
  unfold State.limitInMade
  split
  · exact refl s
  · extract_lets x s1 s2 uncommanded
    have loaded : LightsFollow s s1 := of_changes (State.reload_changes ..)
    have recorded : LightsFollow s s2 := by
      unfold s2
      split
      · exact loaded
      · exact loaded.trans (of_changes (State.recordFault_changes ..))
    have fallen : LightsFollow s uncommanded := recorded.trans (of_changes (State.writeIron_changes ..))
    split
    · exact loaded.trans (arrive ..)
    · exact fallen
    · exact fallen
    · exact loaded
    · exact loaded

theorem respond (s : State) (a : Fin 3) (t d : Nat) : LightsFollow s (s.respond a t d) :=
  ⟨fun h => h.keep (State.respond_changes ..) (s.respond_causes a t d), fun o => o.respond a t d⟩

theorem halt (s : State) (a : Fin 3) (light : s.phase a ≠ .dark) : LightsFollow s (s.halt a) := by
  have written : LightsFollow s (s.writePerf a { s.perfs[a] with phase := .halted }) :=
    writePerf s a _ (by rw [(bne_iff_ne (a := s.phase a)).2 light]; rfl) rfl
  unfold State.halt
  exact (written.trans (respond ..)).trans (callNotice ..)

theorem haltSet (set : AudSet) (s : State) : LightsFollow s (s.haltSet set) := by
  rw [State.haltSet_eq]
  refine forAll_keeps (LightsFollow s) _ (fun a t h => h.trans ?_) s (refl s)
  obtain ⟨⟨-, haltable⟩, e⟩ | ⟨-, e⟩ := t.haltTurn_cases set a
  · rw [e]; exact halt t a (haltable_light haltable)
  · rw [e]; exact refl t

/-- A change of phase has all the lights derived again (R121). -/
theorem enterPhase (s : State) (a : Fin 3) (p : Perf) (r : Option Response) (notice : Option DeliveryState) :
    LightsFollow s (s.enterPhase a p r notice) := by
  have lit : LightsFollow s (((s.writePerf a p).respondWith a r).refreshLights) := by
    refine ⟨fun _ => refreshLights_derived _, fun o => refreshLights_outputs ?_⟩
    have written : AbsentDark (s.writePerf a p) := by
      intro g absent
      rw [State.writePerf_settings] at absent
      rw [State.writePerf_groups]
      exact o.absent g absent
    cases r with
    | none => exact written
    | some r => exact AbsentDark.respond written a r.target r.fade
  unfold State.enterPhase
  dsimp only
  split
  · exact lit
  · exact lit.trans (callNotice ..)

theorem enter (s : State) (a : Fin 3) (st : Fin 8) {p : Phase} {adm : Admission}
    (change : transition (s.phase a) p = some adm) : LightsFollow s (s.enter a st p) := by
  unfold State.enter
  cases p with
  | dark =>
    dsimp only
    unfold State.enterDark
    exact (of_changes (s.clearHolds_changes a)).trans (enterPhase ..)
  | prepare =>
    dsimp only
    unfold State.enterPrepare
    exact (enterPhase ..).trans (of_changes (State.evalAllHolds_changes ..))
  | houseOpen =>
    dsimp only
    unfold State.enterHouseOpen
    exact enterPhase ..
  | beginners =>
    dsimp only
    unfold State.enterBeginners
    exact enterPhase ..
  | running =>
    dsimp only
    unfold State.enterRunning
    exact enterPhase ..
  | interval =>
    dsimp only
    unfold State.enterInterval
    exact enterPhase ..
  | closing =>
    dsimp only
    unfold State.enterClosing
    exact enterPhase ..
  | halted =>
    refine halt s a fun dark => ?_
    rw [dark] at change
    cases change

/-! ### Incidents -/

theorem maybe {f : State → State} (hf : ∀ s, LightsFollow s (f s)) (s : State) : LightsFollow s (s.maybe f) := by
  have drawn : LightsFollow s s.drawn := of_changes s.drawn_changes
  unfold State.maybe
  split
  · exact drawn.trans (hf _)
  · exact drawn

theorem lightsAndCalls (s : State) : LightsFollow s s.lightsAndCalls := by
  have drawn : LightsFollow s s.drawn := of_changes s.drawn_changes
  unfold State.lightsAndCalls
  split
  · exact (drawn.trans (deriveSilences _)).trans (announceLit _)
  · exact (drawn.trans (announceLit _)).trans (deriveSilences _)

/-- Outputs stay shown while incidents are announced. -/
theorem announceIncidents_outputs (ids : List (Fin 25)) (s : State) (o : OutputsDerived s) :
    OutputsDerived (s.announceIncidents ids) := by
  have refreshed {t : State} (o : OutputsDerived t) : OutputsDerived t.refreshGroups := .refreshGroups o.absent
  have drawn (t : State) : LightsFollow t t.drawn := of_changes t.drawn_changes
  unfold State.announceIncidents
  extract_lets set s1 s2 s3
  have heard : OutputsDerived s1 := ((evalHolds .fire s).trans (maybe deriveSilences _)).outputs o
  have lights (u : State) : LightsFollow u u.maybeLightsAndCalls :=
    ((maybe announceLit u).trans (maybe deriveSilences _)).trans (maybe announceLit _)
  have halted : OutputsDerived s2 := by
    unfold s2
    split
    · exact ((lights _).trans (haltSet ..)).outputs (refreshed ((drawn _).outputs heard))
    · exact refreshed ((((drawn _).trans (haltSet ..)).trans (maybe deriveSilences _)).outputs heard)
  have released : OutputsDerived s3 := by
    refine (foldl (fun t i => ?_) ids s2).outputs halted
    split
    · exact of_changes (State.fireRelease_changes ..)
    · exact refl t
  exact (lightsAndCalls _).outputs released

/-- Whatever had changed of the incidents, an announcement has the lights derived. -/
theorem announced (ids : List (Fin 25)) {s t : State} (outputs : OutputsDerived s → OutputsDerived t) :
    LightsFollow s (t.announceIncidents ids) :=
  ⟨fun _ => (State.announceIncidents_announced ids t).2.2.1, fun o => announceIncidents_outputs ids t (outputs o)⟩

/-- A change of an incident that keeps stage, source and auditoria keeps the lights derived. -/
theorem editIncident (s : State) (i : Fin 25) (f : Incident → Incident)
    (same : ∀ x, s.incident? i = some x → (f x).stage = x.stage ∧ (f x).source = x.source ∧ (f x).auds = x.auds) :
    LightsFollow s (s.editIncident i f) := by
  have frame := State.editIncident_changes s i f
  have settings : (s.editIncident i f).settings = s.settings := frame.same .settings (by decide)
  have supply : (s.editIncident i f).supply = s.supply := frame.same .supply (by decide)
  have perfs : (s.editIncident i f).perfs = s.perfs := frame.same .perfs (by decide)
  have groups : (s.editIncident i f).groups = s.groups := frame.same .groups (by decide)
  refine ⟨fun ⟨derived, announced⟩ => ⟨?_, ?_⟩, fun o => o.keep frame⟩
  · refine CausesDerived.keep derived settings (State.editIncident_generalSet same) (by rw [supply]) (fun a => ?_)
      (fun a => by rw [perfs]) fun g => by rw [groups]
    simp only [State.phase, perfs]
  · exact LitDerived.keep announced settings (frame.same .lit (by decide)) fun g => by rw [groups]

theorem demandAll (s : State) : LightsFollow s s.demandAll := of_changes s.demandAll_changes

/-- A change of the incidents and of no light, with the demands evaluated and announced. -/
theorem demanded_announced {ps : List Part} (ids : List (Fin 25)) (h : ChangesOnly ps s t)
    (out : ps.all (fun p => !([.settings, .perfs, .flickers, .groups] : List Part).contains p) = true := by rfl) :
    LightsFollow s (t.demandAll.announceIncidents ids) :=
  announced ids fun o => (demandAll t).outputs (o.keep h out)

theorem raiseZoneIncident (s : State) (z : Fin 24) (i : Fin 25) : LightsFollow s (s.raiseZoneIncident z i) := by
  unfold State.raiseZoneIncident
  extract_lets x shared s1 x2 s2 s3
  have raised : ChangesOnly [.zones, .incidents, .stations] s s2 :=
    (State.fillIncident_changes s i x).andThen (State.writeZone_changes ..)
  have escalated : ChangesOnly [.incidents, .stations] s2 s3 :=
    .foldl (fun t j => State.editIncident_changes t j _) _ _
  exact demanded_announced _ (raised.andThen (rs := [.zones, .incidents, .stations]) escalated)

theorem raiseStationIncident (s : State) (st : Fin 8) (set : AudSet) (i : Fin 25) :
    LightsFollow s (s.raiseStationIncident st set i) := demanded_announced _ (State.fillIncident_changes ..)

theorem escalateIncident (s : State) (i : Fin 25) (why : EscalationCause) : LightsFollow s (s.escalateIncident i why) :=
  demanded_announced _ (State.editIncident_changes ..)

theorem reactivate (s : State) (i : Fin 25) : LightsFollow s (s.reactivate i) := by
  unfold State.reactivate
  refine ((editIncident s i _ fun x _ => ?_).trans (demandAll _)).trans (of_changes (State.mark_changes ..))
  exact ⟨rfl, rfl, rfl⟩

theorem widenIncident (s : State) (i : Fin 25) (set : AudSet) : LightsFollow s (s.widenIncident i set) := by
  unfold State.widenIncident
  split
  · exact refl s
  next x slot =>
    dsimp only
    split
    next same =>
      have edited := editIncident s i (fun _ => { x with auds := x.auds ||| set, silenced := false }) fun y open? => by
        obtain rfl : x = y := Option.some.inj (slot.symm.trans open?)
        exact ⟨rfl, rfl, same⟩
      unfold State.editIncident at edited
      rw [slot] at edited
      exact edited.trans (demandAll _)
    · exact demanded_announced _ (State.writeIncident_changes ..)

theorem retireIncidentAt (s : State) (i : Fin 25) : LightsFollow s (s.retireIncidentAt i) := by
  unfold State.retireIncidentAt
  split
  · exact refl s
  · extract_lets s1 s2
    have emptied : ChangesOnly [.incidents, .circuits, .stations] s s1 :=
      (State.emptyIncident_changes s i).andThen (State.demandAll_changes _)
    have told : ChangesOnly [.zones, .incidents, .circuits, .stations] s s2 := by
      unfold s2
      split
      · exact emptied.andThen (State.zoneRetired_changes ..)
      · exact emptied.mono
    have heard : ChangesOnly [.zones, .incidents, .circuits, .holds, .stations] s (s2.evalHolds .fire) :=
      told.andThen (State.evalHolds_changes ..)
    refine trans (t := (s2.evalHolds .fire).refreshLights) ?_ (deriveSilences _)
    exact ⟨fun _ => refreshLights_derived _, fun o => refreshLights_outputs (o.keep heard).absent⟩

theorem actIncident (s : State) (i : Fin 25) (x : Incident) (st : Fin 8) (fs : List FieldVal) :
    LightsFollow s (s.actIncident i x st fs) := by
  unfold State.actIncident
  split
  · split
    · refine (editIncident s i _ fun x _ => ?_).trans (of_changes (State.demandAlert_changes _))
      exact ⟨rfl, rfl, rfl⟩
    · exact refl s
  · split
    · split
      · exact escalateIncident ..
      · exact refl s
    · split
      · split
        · exact refl s
        · refine (editIncident s i _ fun x _ => ?_).trans (of_changes (State.demandSounders_changes _))
          exact ⟨rfl, rfl, rfl⟩
      · exact refl s

/-! ### Supply, circuits and fades -/

theorem announceMains {s : State} (t : State) (o : OutputsDerived s → OutputsDerived t) : LightsFollow s t.announceMains := by
  have lit : LightsFollow s t.refreshLights := ⟨fun _ => refreshLights_derived t, fun h => (refreshLights t).outputs (o h)⟩
  unfold State.announceMains
  dsimp only
  refine trans ?_ (evalHolds ..)
  split
  · exact lit.trans (of_changes (State.stopRaises_changes _))
  · exact lit

theorem setMains (s : State) (x : Supply) : LightsFollow s (s.setMains x) :=
  announceMains _ fun o => o.keep (State.writeSupply_changes ..)

/-- A write of the supply that leaves mains. -/
theorem writeSupply (s : State) (x : Supply) (mains : x.mains = s.supply.mains) : LightsFollow s (s.writeSupply x) := by
  have frame := s.writeSupply_changes x
  have settings : (s.writeSupply x).settings = s.settings := frame.same .settings (by decide)
  have supply : (s.writeSupply x).supply = x := State.writeSupply_supply ..
  have perfs : (s.writeSupply x).perfs = s.perfs := frame.same .perfs (by decide)
  have groups : (s.writeSupply x).groups = s.groups := frame.same .groups (by decide)
  refine ⟨fun ⟨derived, announced⟩ => ⟨?_, ?_⟩, fun o => o.keep frame⟩
  · refine CausesDerived.keep derived settings frame.generalSet (by rw [supply, mains]) (fun a => ?_)
      (fun a => by rw [perfs]) fun g => by rw [groups]
    simp only [State.phase, perfs]
  · exact LitDerived.keep announced settings (frame.same .lit (by decide)) fun g => by rw [groups]

theorem mainsLine (s : State) (on : Bool) : LightsFollow s (s.mainsLine on) := by
  unfold State.mainsLine
  split
  · exact refl s
  · have seen : LightsFollow s { s with lines := { s.lines with mainsPresent := on } } := of_changes (s.lines_changes _)
    have same : ({ s with lines := { s.lines with mainsPresent := on } } : State).supply = s.supply := rfl
    generalize { s with lines := { s.lines with mainsPresent := on } } = u at *
    dsimp only
    split
    · exact seen.trans (writeSupply _ _ (congrArg Supply.mains same).symm)
    · exact seen.trans (writeSupply _ _ (congrArg Supply.mains same).symm)
    · exact seen.trans (setMains ..)
    · exact seen.trans (setMains ..)
    · exact seen
    · exact seen

theorem lossRuns (s : State) : LightsFollow s s.lossRuns := by
  unfold State.lossRuns
  split
  · exact refl s
  · exact (reach ..).trans (setMains ..)

theorem settlingRuns (s : State) : LightsFollow s s.settlingRuns := by
  unfold State.settlingRuns
  split
  · exact refl s
  · exact (reach ..).trans (setMains ..)

theorem supplyLine (s : State) (on : Bool) : LightsFollow s (s.supplyLine on) := by
  unfold State.supplyLine
  split
  · exact refl s
  · refine (of_changes (s.lines_changes _)).trans (writeSupply _ _ ?_)
    rfl

theorem safetyRuns (s : State) : LightsFollow s s.safetyRuns := by
  unfold State.safetyRuns
  split
  · exact refl s
  · refine ((reach ..).trans (writeSupply _ _ ?_)).trans (evalHolds ..)
    rfl

theorem cellLine (s : State) (good : Bool) : LightsFollow s (s.cellLine good) := by
  unfold State.cellLine
  split
  · exact refl s
  · refine (of_changes (s.lines_changes _)).trans (writeSupply _ _ ?_)
    rfl

theorem writeRetained (s : State) : LightsFollow s s.writeRetained := ⟨id, id⟩

theorem cellRuns (s : State) : LightsFollow s s.cellRuns := by
  unfold State.cellRuns
  split
  · exact refl s
  · split
    · refine ((reach ..).trans (writeRetained _)).trans (writeSupply _ _ ?_)
      rfl
    · refine (reach ..).trans (writeSupply _ _ ?_)
      rfl

theorem announceCondition (s : State) (c : Fin 16) (old : CircuitCondition) : LightsFollow s (s.announceCondition c old) := by
  unfold State.announceCondition
  dsimp only
  split
  · exact refl s
  · split
    · exact evalHolds ..
    · split
      · split
        · exact (silences s).chimeLost _ (refl s)
        · exact refl s
      · exact refl s

theorem changeCircuit (s : State) (c : Fin 16) (x : Circuit) : LightsFollow s (s.changeCircuit c x) :=
  (of_changes (State.writeCircuit_changes ..)).trans (announceCondition ..)

theorem testRuns (s : State) (c : Fin 16) (seen : Bool) : LightsFollow s (s.testRuns c seen) :=
  (reach ..).trans (changeCircuit ..)

theorem overloads (s : State) (c : Fin 16) : LightsFollow s (s.overloads c) := by
  unfold State.overloads
  dsimp only
  split
  · exact changeCircuit ..
  · exact refl s

theorem retryRuns (s : State) (c : Fin 16) : LightsFollow s (s.retryRuns c) := by
  unfold State.retryRuns
  dsimp only
  split
  · exact refl s
  · exact (reach ..).trans (changeCircuit ..)

theorem cleanRuns (s : State) (c : Fin 16) : LightsFollow s (s.cleanRuns c) := by
  unfold State.cleanRuns
  dsimp only
  split
  · exact refl s
  · exact (reach ..).trans (changeCircuit ..)

theorem offRuns (s : State) (c : Fin 16) : LightsFollow s (s.offRuns c) := by
  unfold State.offRuns
  dsimp only
  split
  · exact refl s
  · exact (reach ..).trans (changeCircuit ..)

theorem resetCircuit (s : State) (c : Fin 16) (fs : List FieldVal) : LightsFollow s (s.resetCircuit c fs) := by
  unfold State.resetCircuit
  split
  · exact changeCircuit ..
  · exact refl s

end LightsFollow

end Sys2Proof.Machine
end

section
/-!
PROOFS. Every command keeps causes, lit states and outputs what they are derived from: fades, settings and starts, and
the decisions and events one by one (R105, R113..R115, R123, R125).
-/

namespace Sys2Proof.Machine

-- One declaration at a time: side conditions closed by tactics wait for what stands before them.
set_option Elab.async false

/-! ## The step of the fade grid (R110) -/

/-- Group `g` after a step of the grid: its fade has advanced, and its output is computed. -/
def State.stepped (s : State) (g : Fin 12) : LightGroup :=
  if s.settings.groups[g].present then s.relit g s.groups[g].stepFade else s.groups[g]

theorem State.stepGroup_group (s : State) (g i : Fin 12) :
    (s.stepGroup g).groups[i] = if i = g then s.stepped g else s.groups[i] := by
  unfold State.stepGroup State.stepped
  by_cases present : s.settings.groups[g].present = true
  · rw [if_pos present, if_pos present]
    dsimp only
    rw [State.markIf_groups, put_get]
  · rw [if_neg present, if_neg present]
    split
    next e => rw [e]
    · rfl

/-- The state at the next moment of the grid, with the dips judged. -/
def State.onGrid (s : State) : State := ({ s with now := s.fadeDue, fadeAt := s.fadeDue } : State).judgeDips

/-- A step of the grid advances every fade, and computes every output from the dips judged at its moment (R110). -/
theorem State.fadeEngineStep_group (s : State) (g : Fin 12) : s.fadeEngineStep.groups[g] = s.onGrid.stepped g := by
  unfold State.fadeEngineStep
  dsimp only
  refine forAll_groups (s := s.onGrid) (v := s.onGrid.stepped) (fun i t => State.stepGroup_changes i t) (fun i t j ne => ?_)
    (fun i t h same => ?_) g
  · rw [State.stepGroup_group, if_neg ne]
  · have settings : t.settings = s.onGrid.settings := h.same .settings (by decide)
    rw [State.stepGroup_group, if_pos rfl]
    unfold State.stepped
    rw [settings, same, h.relit]

theorem State.fadeEngineStep_flickers (s : State) : s.fadeEngineStep.flickers = s.onGrid.flickers := by
  unfold State.fadeEngineStep
  refine forAll_keeps (fun t : State => t.flickers = s.onGrid.flickers) _ (fun g t h => ?_) _ rfl
  have kept : (t.stepGroup g).flickers = t.flickers := (State.stepGroup_changes g t).same .flickers (by decide)
  exact kept.trans h

theorem LightGroup.stepFade_causes (x : LightGroup) : x.stepFade.causes = x.causes := by
  unfold LightGroup.stepFade
  split
  · rfl
  · rfl

theorem State.stepped_causes (s : State) (g : Fin 12) : (s.stepped g).causes = s.groups[g].causes := by
  unfold State.stepped
  split
  · exact LightGroup.stepFade_causes _
  · rfl

namespace LightsFollow

variable {s t u : State}

theorem fadeEngineStep (s : State) : LightsFollow s s.fadeEngineStep := by
  have frame := s.fadeEngineStep_changes
  have settings : s.fadeEngineStep.settings = s.settings := frame.same .settings (by decide)
  have supply : s.fadeEngineStep.supply = s.supply := frame.same .supply (by decide)
  have perfs : s.fadeEngineStep.perfs = s.perfs := frame.same .perfs (by decide)
  have group := s.fadeEngineStep_group
  have flickers : s.fadeEngineStep.flickers = s.onGrid.flickers := s.fadeEngineStep_flickers
  have judged : s.onGrid.settings = s.settings := rfl
  have phases : s.onGrid.perfs = s.perfs := rfl
  have groups : s.onGrid.groups = s.groups := rfl
  generalize s.onGrid = u at *
  have causes (g : Fin 12) : s.fadeEngineStep.groups[g].causes = s.groups[g].causes := by
    rw [group, State.stepped_causes, groups]
  refine ⟨fun ⟨derived, announced⟩ => ⟨?_, ?_⟩, fun o => outputsDerived_iff.2 fun g => ?_⟩
  · refine CausesDerived.keep derived settings frame.generalSet (by rw [supply]) (fun a => ?_) (fun a => by rw [perfs]) causes
    simp only [State.phase, perfs]
  · exact LitDerived.keep announced settings (frame.same .lit (by decide)) causes
  · unfold State.shown
    rw [settings, group, State.stepped, judged]
    split
    · rw [State.relit_congr (s := u) (settings.trans judged.symm) (fun a => ?_) (fun _ => by rw [flickers]), State.relit_relit]
      simp only [State.phase, perfs, phases]
    next absent =>
      rw [groups]
      exact o.absent g (by simpa using absent)

theorem fadeEnds (s : State) (g : Fin 12) : LightsFollow s (s.fadeEnds g) := by
  unfold State.fadeEnds
  dsimp only
  split
  · exact fadeEngineStep s
  · exact refl s

/-! ## Settings and targets -/

end LightsFollow

/-- A group's causes are derived from its own settings and from what the call zones serve (R115). -/
theorem State.causesOf_of_settings {s t : State} {g : Fin 12} (group : t.settings.groups[g] = s.settings.groups[g])
    (serves : ∀ z : Fin 8, t.settings.czones[z].serves = s.settings.czones[z].serves)
    (general : t.generalSet = s.generalSet) (mains : t.supply.mains = s.supply.mains) (perfs : t.perfs = s.perfs) :
    t.causesOf g = s.causesOf g := by
  simp only [State.causesOf, State.groupServes, State.phase, group, serves, general, mains, perfs]

/-- A group's output is computed from its own settings (R113). -/
theorem State.relit_of_settings {s t : State} {g : Fin 12} (group : t.settings.groups[g] = s.settings.groups[g])
    (perfs : t.perfs = s.perfs) (flickers : t.flickers = s.flickers) (x : LightGroup) : t.relit g x = s.relit g x := by
  have driven : t.drivenOf g x = s.drivenOf g x := by
    simp only [State.drivenOf, State.phase, group]
    cases s.settings.groups[g].kind with
    | house => rfl
    | foyer => simp only [flickers]
    | aisle =>
      simp only [perfs]
      rfl
  have follows : t.flickerFollows g x = s.flickerFollows g x := by
    simp only [State.flickerFollows, group, flickers]
  unfold State.relit
  rw [driven, follows, group]

theorem State.shown_of_settings {s t : State} {g : Fin 12} (h : s.shown g)
    (group : t.settings.groups[g] = s.settings.groups[g]) (perfs : t.perfs = s.perfs)
    (flickers : t.flickers = s.flickers) (same : t.groups[g] = s.groups[g]) : t.shown g := by
  unfold State.shown at *
  rw [group, same, State.relit_of_settings group perfs flickers]
  exact h

/-- All that the lights are read from but the settings is as it was. -/
structure LightsAlike (s t : State) : Prop where
  groups : t.groups = s.groups
  flickers : t.flickers = s.flickers
  perfs : t.perfs = s.perfs
  lit : t.lit = s.lit
  general : t.generalSet = s.generalSet
  mains : t.supply.mains = s.supply.mains

theorem LightsAlike.of_changes {ps : List Part} {s t : State} (h : ChangesOnly ps s t)
    (out : ps.all (fun p => !([.incidents, .supply, .perfs, .flickers, .groups, .lit] : List Part).contains p) = true
      := by rfl) : LightsAlike s t := by
  have same (p : Part) (mem : p ∈ ([.incidents, .supply, .perfs, .flickers, .groups, .lit] : List Part)) : p.same s t :=
    h.same p fun inside => by
      have := List.all_eq_true.1 out p inside
      simp only [Bool.not_eq_true', List.contains_eq_mem, decide_eq_false_iff_not] at this
      exact this mem
  have supply : t.supply = s.supply := same .supply (by simp)
  obtain ⟨slots, order⟩ : t.incidents = s.incidents ∧ t.incidentList = s.incidentList := same .incidents (by simp)
  refine ⟨same .groups (by simp), same .flickers (by simp), same .perfs (by simp), same .lit (by simp), ?_, by rw [supply]⟩
  simp only [State.generalSet, State.openIncidents, slots, order]

namespace LightsAlike

variable {s t : State}

/-- Settings of groups that stand keep their outputs shown. -/
theorem outputs (h : LightsAlike s t) (settings : t.settings.groups = s.settings.groups) (o : OutputsDerived s) :
    OutputsDerived t :=
  outputsDerived_iff.2 fun g => State.shown_of_settings (outputsDerived_iff.1 o g) (by rw [settings]) h.perfs h.flickers
    (by rw [h.groups])

/-- Settings that leave the groups and what the call zones serve. -/
theorem follow (h : LightsAlike s t) (settings : t.settings.groups = s.settings.groups)
    (serves : ∀ z : Fin 8, t.settings.czones[z].serves = s.settings.czones[z].serves) : LightsFollow s t := by
  refine ⟨fun ⟨derived, announced⟩ => ⟨fun g present => ?_, fun z => ?_⟩, h.outputs settings⟩
  · rw [State.causesOf_of_settings (by rw [settings]) serves h.general h.mains h.perfs, h.groups]
    rw [settings] at present
    exact derived g present
  · rw [h.lit, announced z]
    simp only [State.litNow, settings, h.groups]

end LightsAlike

namespace LightsFollow

variable {s t u : State}

theorem settled (s : State) (x : Settings) (b : Bool) (groups : x.groups = s.settings.groups)
    (serves : ∀ z : Fin 8, x.czones[z].serves = s.settings.czones[z].serves) : LightsFollow s (s.settled x b) := by
  have settings := s.settled_settings x b
  have alike : LightsAlike s (s.settled x b) := .of_changes (s.settled_changes x b)
  generalize s.settled x b = t at *
  subst settings
  exact alike.follow groups serves

/-- A target that is taken starts its fade with its output computed (R111). -/
theorem applyTarget (s : State) (q : Ask) (g : Fin 12) (target : Nat) (present : s.settings.groups[g].present = true) :
    LightsFollow s (s.applyTarget q g target).2 := by
  have begun (t d : Nat) : LightsFollow s (s.beginFade g t d) := by
    have frame := State.beginFade_changes s g t d
    have groups : (s.beginFade g t d).groups = put s.groups g (s.relit g (s.groups[g].startFade t d)) := rfl
    refine ⟨fun h => h.keep frame fun i => ?_, fun o => o.put g _ frame groups present rfl⟩
    rw [groups, put_get]
    split
    next e => rw [e]; exact (State.relit_keepsFade ..).causes.trans (LightGroup.startFade_causes ..)
    · rfl
  exact begun _ _

theorem serveZone (s : State) (old new : ZoneSettings) : LightsFollow s (s.serveZone old new) := by
  unfold State.serveZone
  extract_lets t
  have sounders : LightsFollow s t := by
    unfold t
    split
    · exact of_changes s.demandSounders_changes
    · exact refl s
  split
  · exact sounders.trans (deriveSilences _)
  · exact sounders

theorem czoneAmended (s : State) (z : Fin 8) (old : CZoneSettings) : LightsFollow s (s.czoneAmended z old) := by
  have closed := silences s
  unfold State.czoneAmended
  extract_lets cfg s1 s2
  have marked : LightsFollow s s1 := closed.markIf _ _ (.refl s)
  have present : LightsFollow s s2 := by
    unfold s2
    split
    · exact closed.setCZone _ _ (closed.dropZone _ _ marked)
    · split
      · exact closed.arbitrate _ (closed.deriveSilence _ (closed.setCZone _ _ marked))
      · exact marked
  split
  · exact present
  · exact ((present.trans (deriveSilence ..)).trans (refreshLights _)).trans (of_changes (State.markIf_changes ..))

/-- A change of what a call zone serves has the lights derived, whatever they were (R129). -/
theorem czoneAmended_derived {s : State} {z : Fin 8} {old : CZoneSettings} (serves : old.serves ≠ s.settings.czones[z].serves) :
    LightsDerived (s.czoneAmended z old) := by
  unfold State.czoneAmended
  extract_lets cfg s1 s2
  rw [if_neg serves]
  exact (of_changes (State.markIf_changes ..)).lights (refreshLights_derived _)

theorem czoneSettled (s : State) (z : Fin 8) (new : CZoneSettings) (b : Bool) :
    LightsFollow s ((s.settled (s.settings.withCZone z new) b).czoneAmended z s.settings.czones[z]) := by
  have settings := s.settled_settings (s.settings.withCZone z new) b
  have alike : LightsAlike s (s.settled (s.settings.withCZone z new) b) := .of_changes (s.settled_changes ..)
  generalize s.settled (s.settings.withCZone z new) b = t at *
  have czone (j : Fin 8) : t.settings.czones[j] = if j = z then new else s.settings.czones[j] := by
    rw [settings, Settings.withCZone, put_get]
  have groups : t.settings.groups = s.settings.groups := by rw [settings]; rfl
  refine ⟨fun d => ?_, fun o => (czoneAmended ..).outputs (alike.outputs groups o)⟩
  by_cases serves : s.settings.czones[z].serves = t.settings.czones[z].serves
  · refine (czoneAmended ..).lights ((alike.follow groups fun j => ?_).lights d)
    by_cases e : j = z
    · rw [e, serves]
    · rw [czone, if_neg e]
  · exact czoneAmended_derived serves

end LightsFollow

/-- Deriving one group shows its output beside the others that are shown. -/
theorem State.refreshGroup_outputs {s : State} {g : Fin 12} (others : ∀ j : Fin 12, j ≠ g → s.shown j)
    (dark : s.settings.groups[g].present = false → s.groups[g] = LightGroup.dark) : OutputsDerived (s.refreshGroup g) := by
  have frame := State.refreshGroup_changes g s
  have settings : (s.refreshGroup g).settings = s.settings := frame.same .settings (by decide)
  refine outputsDerived_iff.2 fun j => ?_
  by_cases e : j = g
  · subst e
    unfold State.shown
    rw [settings, State.refreshGroup_group, if_pos rfl, State.refreshed]
    split
    · rw [frame.relit, State.relit_relit]
    next absent => exact dark (by simpa using absent)
  · exact State.shown_of_settings (others j e) (by rw [settings]) (frame.same .perfs (by decide))
      (frame.same .flickers (by decide)) (by rw [State.refreshGroup_group, if_neg e])

/-- Deriving one group derives its causes beside the others'. -/
theorem State.refreshGroup_derived {s : State} {g : Fin 12}
    (others : ∀ j : Fin 12, j ≠ g → s.settings.groups[j].present = true → s.groups[j].causes = s.causesOf j) :
    CausesDerived (s.refreshGroup g) := by
  have frame := State.refreshGroup_changes g s
  intro j present
  rw [frame.same .settings (by decide)] at present
  rw [frame.causesOf, State.refreshGroup_group]
  split
  next e => subst e; exact s.refreshed_causes j present
  next ne => exact others j ne present

/-- The state in which a group whose presence has changed is dark (R105). -/
def State.presenceSet (s : State) (g : Fin 12) (old : GroupSettings) : State :=
  if old.present != s.settings.groups[g].present then s.writeGroup g LightGroup.dark else s

theorem State.groupAmended_eq (s : State) (g : Fin 12) (old : GroupSettings) : s.groupAmended g old =
    ((s.presenceSet g old).refreshGroup g).markIf (old != s.settings.groups[g]) .group := rfl

theorem State.presenceSet_spec (s : State) (g : Fin 12) (old : GroupSettings) :
    ChangesOnly [.groups, .stations] s (s.presenceSet g old) ∧
      (∀ j : Fin 12, j ≠ g → (s.presenceSet g old).groups[j] = s.groups[j]) ∧
      (s.settings.groups[g].present = false → (old.present = false → s.groups[g] = LightGroup.dark) →
        (s.presenceSet g old).groups[g] = LightGroup.dark) := by
  unfold State.presenceSet
  split
  · refine ⟨State.writeGroup_changes .., fun j ne => ?_, fun _ _ => ?_⟩
    · rw [State.writeGroup_group, if_neg ne]
    · rw [State.writeGroup_group, if_pos rfl]
  next stays =>
    refine ⟨.refl _ s, fun _ _ => rfl, fun absent dark => dark ?_⟩
    rw [absent] at stays
    simpa using stays

/-- A group whose settings are written is derived again, and the others are as they were (R105, R119, R120). -/
theorem LightsFollow.groupSettled (s : State) (g : Fin 12) (new : GroupSettings) (b : Bool) :
    LightsFollow s (((s.settled (s.settings.withGroup g new) b).groupAmended g s.settings.groups[g]).announceLit) := by
  have settings := s.settled_settings (s.settings.withGroup g new) b
  have alike : LightsAlike s (s.settled (s.settings.withGroup g new) b) := .of_changes (s.settled_changes ..)
  generalize s.settled (s.settings.withGroup g new) b = t at *
  have czones : t.settings.czones = s.settings.czones := by rw [settings]; rfl
  have other {j : Fin 12} (ne : j ≠ g) : t.settings.groups[j] = s.settings.groups[j] := by
    rw [settings, Settings.withGroup, put_other _ _ _ _ ne]
  clear settings
  obtain ⟨frame, kept, dark⟩ := t.presenceSet_spec g s.settings.groups[g]
  rw [State.groupAmended_eq]
  generalize t.presenceSet g s.settings.groups[g] = u at *
  have same : u.settings = t.settings := frame.same .settings (by decide)
  have marked (w : State) (c : Bool) : LightsFollow w (w.markIf c .group) := of_changes (State.markIf_changes ..)
  have finished : LightsFollow (u.refreshGroup g)
      (((u.refreshGroup g).markIf (s.settings.groups[g] != t.settings.groups[g]) .group).announceLit) :=
    (marked ..).trans (announceLit _)
  refine ⟨fun ⟨derived, _⟩ => ?_, fun o => finished.outputs (State.refreshGroup_outputs (fun j ne => ?_) fun absent => ?_)⟩
  · have causes : CausesDerived (u.refreshGroup g) := by
      refine State.refreshGroup_derived fun j ne present => ?_
      rw [same, other ne] at present
      rw [frame.causesOf, kept j ne, alike.groups, derived j present]
      exact (State.causesOf_of_settings (other ne) (fun z => by rw [czones]) alike.general alike.mains alike.perfs).symm
    have noted := State.markIf_changes (u.refreshGroup g) (s.settings.groups[g] != t.settings.groups[g]) .group
    have groups := noted.same .groups (by decide)
    generalize (u.refreshGroup g).markIf (s.settings.groups[g] != t.settings.groups[g]) .group = w at *
    refine ⟨CausesDerived.sounded (causes.sounded noted ?_) w.announceLit_changes (.announceLit w), w.announceLit_lit⟩
    exact .of_same groups (noted.same .circuits (by decide)) (noted.same .settings (by decide))
      (noted.same .perfs (by decide)) (noted.same .flickers (by decide))
  · refine State.shown_of_settings (outputsDerived_iff.1 o j) (by rw [same, other ne]) ?_ ?_ ?_
    · exact (frame.same .perfs (by decide) : u.perfs = t.perfs).trans alike.perfs
    · exact (frame.same .flickers (by decide) : u.flickers = t.flickers).trans alike.flickers
    · rw [kept j ne, alike.groups]
  · rw [same] at absent
    refine dark absent fun was => ?_
    rw [alike.groups]
    exact o.absent g was

/-! ## Starts -/

namespace LightsFollow

/-- The lit states written as they are (R126, R127). -/
theorem litWritten (s : State) : LitDerived { s with lit := tab fun z => s.litNow z } := by
  intro z
  change (tab _ : Vector Bool 8)[z] = s.litNow z
  rw [tab_get]

theorem litWritten_keeps (s : State) (v : Vector Bool 8) :
    (CausesDerived s → CausesDerived { s with lit := v }) ∧ (OutputsDerived s → OutputsDerived { s with lit := v }) :=
  ⟨id, id⟩

/-- A soft restart derives all the lights, with no flicker (R127). -/
theorem restartLights (s : State) : LightsFollow s s.restartLights := by
  unfold State.restartLights
  extract_lets s1 s2
  have dark (o : OutputsDerived s) : AbsentDark s1 := by
    intro g absent
    change (tab _ : Vector LightGroup 12)[g] = _
    have absent : s.settings.groups[g].present = false := absent
    rw [tab_get, if_neg (by rw [absent]; decide)]
    exact o.absent g absent
  have causes : CausesDerived s2 := s1.refreshGroups_derived
  have outputs (o : OutputsDerived s) : OutputsDerived s2 := .refreshGroups (dark o)
  generalize s2 = t at *
  exact ⟨fun _ => ⟨(litWritten_keeps t _).1 causes, litWritten t⟩, fun o => (litWritten_keeps t _).2 (outputs o)⟩

theorem restartCircuits (loads : BitVec 16) (s : State) : LightsFollow s (s.restartCircuits loads) := by
  unfold State.restartCircuits
  exact forAll_keeps (LightsFollow s) _ (fun c t h => (h.trans (changeCircuit ..)).trans (changeCircuit ..)) s (refl s)

theorem softRestart (s : State) (loads : BitVec 16) : LightsFollow s (s.softRestart loads) := by
  have dropped : LightsFollow s s.dropCalls := (silences s).dropCalls (refl s)
  have set : LightsFollow s ((((s.dropCalls.restartLights).restartCircuits loads).restartZones).restartIrons) :=
    (((dropped.trans (restartLights _)).trans (restartCircuits loads _)).trans
      (of_changes (State.restartZones_changes _))).trans (of_changes (State.restartIrons_changes _))
  unfold State.softRestart
  dsimp only
  generalize (((s.dropCalls.restartLights).restartCircuits loads).restartZones).restartIrons = u at *
  have supplied : LightsFollow u (u.writeSupply { u.supply with restartCause := .softRestart }) := writeSupply u _ rfl
  exact ((set.trans supplied).trans (of_changes (State.restartLink_changes _))).trans
    (of_changes (State.flagAll_changes _))

/-- A start derives all the lights, whatever they were (R126). -/
theorem start (s : State) (p : Plant) (fromPin : Bool) : LightsFollow s (s.start p fromPin) := by
  have lights (t : State) : LightsDerived t.startLights ∧ OutputsDerived t.startLights := by
    unfold State.startLights
    extract_lets s1 s2
    have started (g : Fin 12) : s2.groups[g] = s1.startGroup g := tab_get ..
    have causes : CausesDerived s2 := by
      intro g present
      have present : s1.settings.groups[g].present = true := present
      rw [started, State.startGroup, if_pos present]
      rfl
    have outputs : OutputsDerived s2 := by
      refine outputsDerived_iff.2 fun g => ?_
      have same : s2.settings = s1.settings := rfl
      have output : s2.relit g = s1.relit g := rfl
      unfold State.shown
      rw [started, State.startGroup, same, output]
      split
      · rfl
      · rfl
    generalize s2 = u at *
    exact ⟨⟨(litWritten_keeps u _).1 causes, litWritten u⟩, (litWritten_keeps u _).2 outputs⟩
  have rest (t : State) : LightsFollow t t.startHolds.flagAll := by
    refine trans ?_ (of_changes (State.flagAll_changes _))
    exact forAll_keeps (LightsFollow t) _ (fun a u h => h.trans (of_changes (State.evalAllHolds_changes a u))) t (refl t)
  obtain ⟨derived, outputs⟩ := lights (s.loadSettings.setUp p fromPin).writeRetained
  exact ⟨fun _ => (rest _).lights derived, fun _ => (rest _).outputs outputs⟩

end LightsFollow

/-! ## Decisions and events -/

theorem Decides.lightsFollow {code : ReqCode} {q : Ask} {s : State} {v : Verdict} (h : Decides code q s v) :
    LightsFollow s v.2 := by
  have bursts := LightsFollow.silences s
  have here := LightsFollow.refl s
  cases h with
  | stays => exact here
  | looks => exact .of_changes (State.lookClears_changes ..)
  | arms => exact .of_changes (State.arm_changes ..)
  | stores => exact .of_changes s.beginStore_changes
  | restarts => exact .softRestart ..
  | blocks => exact .of_changes (State.mark_changes ..)
  | enters _ aud p adm _ _ _ _ _ _ _ change => exact .enter s aud q.st change
  | amendsPerf aud =>
    obtain ⟨new, written⟩ := s.applyPerf_settled q aud
    rw [written]
    exact .settled s _ _ rfl fun _ => rfl
  | amendsIron a ch limitIn new =>
    have noted : LightsFollow s (s.settled (s.settings.withIron ch new) (s.settings.irons[ch] != new)) :=
      .settled s _ _ rfl fun _ => rfl
    rw [State.applyIron_settled]
    dsimp only
    split
    · exact (noted.trans (.of_changes (State.actIron_changes ..))).trans (.of_changes (State.ironPresence_changes ..))
    · exact noted.trans (.of_changes (State.actIron_changes ..))
  | amendsZone a z new =>
    have noted : LightsFollow s (s.settled (s.settings.withZone z new) (s.settings.zones[z] != new)) :=
      .settled s _ _ rfl fun _ => rfl
    rw [State.applyZone_settled]
    exact (noted.trans (.of_changes (State.actZone_changes ..))).trans (.serveZone ..)
  | targets g target _ _ _ present => exact .applyTarget s q g target present
  | amendsGroup g =>
    obtain ⟨new, written⟩ := s.applyGroup_settled q g
    rw [written]
    exact .groupSettled s g new _
  | amendsCZone a z new => exact .czoneSettled s z new _
  | amendsCircuit a c =>
    have noted (new : CircuitSettings) :
        LightsFollow s (s.settled (s.settings.withCircuit c new) (s.settings.circuits[c] != new)) :=
      .settled s _ _ rfl fun _ => rfl
    rw [State.applyCircuit_settled]
    exact ((noted _).trans (.of_changes (State.serveCircuit_changes ..))).trans (.resetCircuit ..)
  | amendsStatus a new =>
    have noted : LightsFollow s (s.settled { s.settings with part := new } (s.settings.part != new)) :=
      .settled s _ _ rfl fun _ => rfl
    rw [State.applyStatus_settled]
    exact (noted.trans (.of_changes (State.serveBrigade_changes ..))).trans (.of_changes (State.setLock_changes ..))
  | amendsStation a n new =>
    unfold State.applyStation
    refine LightsFollow.trans (t := { s with
      settings := { s.settings with stations := put s.settings.stations n new }
      stations := put s.stations n (s.stations[n].amended s.settings.stations[n] new) })
      (LightsAlike.follow ⟨rfl, rfl, rfl, rfl, rfl, rfl⟩ rfl fun _ => rfl) ?_
    exact (LightsFollow.of_changes (State.noteChange_changes ..)).trans (.of_changes (State.markIf_changes ..))
  | raisesHold => exact .of_changes (State.fillHold_changes ..)
  | retiresHold => exact .of_changes (State.emptyHold_changes ..)
  | widens => exact .widenIncident ..
  | raisesIncident => exact .raiseStationIncident ..
  | actsIncident => exact .actIncident ..
  | retiresIncident => exact .retireIncidentAt ..
  | raisesCall _ x b c room _ _ _ _ found => exact bursts.fillCall c x (bursts.roomForCall found here)
  | amendsCall => exact bursts.amendCallAt _ _ _ here
  | retiresCall => exact bursts.retireCallAt _ here

theorem LightsFollow.confirms {s t : State} {z : Fin 24} (run : s.confirms z = .next t) : LightsFollow s t := by
  obtain rfl | ⟨time, u, -, -, alarm, ends⟩ := State.confirms_cases run
  · exact .refl _
  have heard : LightsFollow s u := by
    rw [alarm]
    exact (LightsFollow.reach s time).trans (.of_changes (State.writeZone_changes ..))
  obtain ⟨i, -, -, rfl⟩ | ⟨i, -, -, rfl⟩ | ⟨-, -, rfl⟩ := ends
  · exact heard.trans (.raiseZoneIncident ..)
  · exact heard.trans (.reactivate ..)
  · exact heard

theorem LightsFollow.takes {s t : State} {f : State → State} (run : s.takes f = .next t) (h : LightsFollow s (f s)) :
    LightsFollow s t := by
  unfold State.takes at run
  obtain rfl := Host.Outcome.next.inj run
  split
  · exact h
  · exact .refl s

theorem LightsFollow.ackRunsOut (s : State) (i : Fin 25) : LightsFollow s (s.ackRunsOut i) := by
  unfold State.ackRunsOut
  split
  · exact .refl s
  · split
    · exact (reach s _).trans (.escalateIncident ..)
    · exact .refl s

theorem LightsFollow.investigationRunsOut (s : State) (i : Fin 25) : LightsFollow s (s.investigationRunsOut i) := by
  unfold State.investigationRunsOut
  split
  · exact .refl s
  · split
    · exact (reach s _).trans (.escalateIncident ..)
    · exact .refl s

theorem event_lightsFollow {i : Instr} {s t : State} (run : exec i s = .next t) (event : requestOf i = none)
    (known : ∀ code kind r, i ≠ .unknownRequest code kind r) : LightsFollow s t := by
  have frame := commandsTouchOnlyTheirParts i s t run
  have bursts := LightsFollow.silences s
  have here := LightsFollow.refl s
  cases i with
  | unknownRequest code kind r => exact absurd rfl (known code kind r)
  | limitInEvent ch => exact .takes run (.limitInMade s ch)
  | confirmTimerExpiry z =>
    simp only [exec, execConfirmTimerExpiry] at run
    split at run
    · exact .confirms run
    · cases run; exact .refl s
  | acknowledgeTimerExpiry i => exact .takes run (.ackRunsOut s i)
  | investigationTimerExpiry i => exact .takes run (.investigationRunsOut s i)
  | fadeStep => exact .takes run (.fadeEngineStep s)
  | fadeComplete g => exact .takes run (.fadeEnds s g)
  | notBeforeDue c z => exact .takes run (bursts.notBeforePasses c z here)
  | strokeOnElapsed z => exact .takes run (bursts.strokeOnRuns z here)
  | strokeGapElapsed z => exact .takes run (bursts.strokeGapRuns z here)
  | burstEnd z => exact .takes run (bursts.burstRuns z here)
  | testTimerExpiry c seen => exact .takes run (.testRuns s c seen)
  | overloadEvent c => exact .takes run (.overloads s c)
  | retryTimerExpiry c => exact .takes run (.retryRuns s c)
  | cleanTimerExpiry c => exact .takes run (.cleanRuns s c)
  | offTimerExpiry c => exact .takes run (.offRuns s c)
  | mainsSenseChange on => exact .takes run (.mainsLine s on)
  | lossTimerExpiry => exact .takes run (.lossRuns s)
  | settlingTimerExpiry => exact .takes run (.settlingRuns s)
  | supplyLowLineChange on => exact .takes run (.supplyLine s on)
  | safetySupplyTimerExpiry => exact .takes run (.safetyRuns s)
  | cellSenseChange good => exact .takes run (.cellLine s good)
  | cellTimerExpiry => exact .takes run (.cellRuns s)
  | coldStart p =>
    obtain rfl : s.start p false = t := Host.Outcome.next.inj run
    exact .start ..
  | resetPin p => exact .takes run (.start s p true)
  | _ => first
    | exact .of_changes frame
    | cases event

theorem step_lightsFollow {s t : State} (run : step s = .next t) : LightsFollow s t := by
  refine step_keeps (P := LightsFollow s) (fun u n h => h.trans ⟨id, id⟩) (fun u rest h => h.trans ⟨id, id⟩)
    (fun i u w h ran => ?_) (.refl s) run
  exact exec_keeps (P := LightsFollow s) (fun u h => h.trans (.of_changes u.frameGood_changes))
    (fun u h => h.trans (.of_changes u.frameFails_changes)) (fun u n b a h => h.trans (.of_changes (u.reply_changes n b a)))
    (fun _ _ _ _ h decided => h.trans decided.lightsFollow)
    (fun event known h => h.trans (event_lightsFollow ran event known)) h ran

/-- Settles O7. -/
theorem lightsStayDerived : Obligations.LightsStayDerived := by
  unfold Obligations.LightsStayDerived
  exact ⟨fun s t h run => (step_lightsFollow run).lights h, fun s t h run => (step_lightsFollow run).outputs h⟩

end Sys2Proof.Machine
end

section
/-!
PROOFS. One call zone at a time (R123, R140..R145): what each operation of the call unit makes of the burst of its zone,
of the chime demanded for it and of the code the lighting unit keeps, and that it leaves the other zones' alone.
-/

namespace Sys2Proof.Machine

-- One declaration at a time: side conditions closed by tactics wait for what stands before them.
set_option Elab.async false

/-! ## What is seen of a zone -/

/-- What a lawful burst is judged by: the zone, the code kept for it, its chime's demand and its presence. -/
structure ZoneView where
  czone : CallZone
  code : Nat
  demand : Bool
  present : Bool

def State.view (s : State) (z : Fin 8) : ZoneView :=
  ⟨s.czones[z], s.flickers[z].code, s.circuits[chimeOf z].demand, s.settings.czones[z].present⟩

namespace ZoneView

variable {v : ZoneView}

/-- No burst, no stroke, no chime demand and no flicker (R143). -/
def Resting (v : ZoneView) : Prop :=
  v.czone.mode = none ∧ v.czone.burstStart = none ∧ v.czone.burstEnd = none ∧ v.czone.strokeEnd = none ∧
    v.czone.gapEnd = none ∧ v.czone.flickerCode = 0 ∧ v.demand = false

/-- The zone may sound (R140). -/
def Open (v : ZoneView) : Prop := v.present = true ∧ v.czone.suppressed = false ∧ v.czone.barred = false

/-- The clauses of `BurstsLawful`, of one zone. -/
def Lawful (v : ZoneView) : Prop :=
  (v.czone.sounding.isSome = true →
    v.present = true ∧ v.czone.suppressed = false ∧ v.czone.barred = false ∧ v.czone.mode.isSome = true) ∧
    (v.czone.sounding = none → v.Resting) ∧ v.code = v.czone.flickerCode ∧
    (v.czone.mode = some .chime → v.czone.flickerCode = 0)

/-- What a zone keeps while it is barred, suppressed or made absent: a free one rests, and its code is the one kept. -/
structure Steady (v : ZoneView) : Prop where
  rests : v.czone.sounding = none → v.Resting
  code : v.code = v.czone.flickerCode

theorem Lawful.steady (h : v.Lawful) : v.Steady := by
  obtain ⟨-, rests, code, -⟩ := h
  exact ⟨rests, code⟩

theorem Steady.lawful (h : v.Steady) (free : v.czone.sounding = none) : v.Lawful := by
  obtain ⟨mode, rest⟩ := h.rests free
  refine ⟨fun sounds => ?_, h.rests, h.code, fun chime => ?_⟩
  · rw [free] at sounds
    cases sounds
  · rw [mode] at chime
    cases chime

/-- A zone that sounds is lawful by what it may and by its code. -/
theorem Lawful.of_sounding {c : Fin 32} (sounds : v.czone.sounding = some c) (may : v.Open)
    (mode : v.czone.mode.isSome = true) (code : v.code = v.czone.flickerCode)
    (chime : v.czone.mode = some .chime → v.czone.flickerCode = 0) : v.Lawful := by
  obtain ⟨present, suppressed, barred⟩ := may
  refine ⟨fun _ => ⟨present, suppressed, barred, mode⟩, fun free => ?_, code, chime⟩
  rw [sounds] at free
  cases free

theorem Lawful.open (h : v.Lawful) {c : Fin 32} (sounds : v.czone.sounding = some c) : v.Open := by
  obtain ⟨may, -⟩ := h
  obtain ⟨present, suppressed, barred, -⟩ := may (by rw [sounds]; rfl)
  exact ⟨present, suppressed, barred⟩

theorem Lawful.mode (h : v.Lawful) {c : Fin 32} (sounds : v.czone.sounding = some c) : v.czone.mode.isSome = true := by
  obtain ⟨may, -⟩ := h
  obtain ⟨-, -, -, mode⟩ := may (by rw [sounds]; rfl)
  exact mode

theorem Lawful.chime (h : v.Lawful) : v.czone.mode = some .chime → v.czone.flickerCode = 0 := by
  obtain ⟨-, -, -, chime⟩ := h
  exact chime

/-- A zone in any burst sounds. -/
theorem Lawful.sounds (h : v.Lawful) (burst : ¬v.Resting) : ∃ c, v.czone.sounding = some c := by
  obtain ⟨-, rests, -⟩ := h
  cases sounding : v.czone.sounding with
  | none => exact absurd (rests sounding) burst
  | some c => exact ⟨c, rfl⟩

/-- The queue has no part in it. -/
def withQueue (v : ZoneView) (q : List (Fin 32)) : ZoneView := { v with czone := { v.czone with queue := q } }

theorem Lawful.withQueue (h : v.Lawful) (q : List (Fin 32)) : (v.withQueue q).Lawful := h

theorem Steady.withQueue (h : v.Steady) (q : List (Fin 32)) : (v.withQueue q).Steady := ⟨h.rests, h.code⟩

end ZoneView

theorem burstsLawful_iff {s : State} : BurstsLawful s ↔ ∀ z, (s.view z).Lawful := .rfl

/-! ## One zone is changed -/

/-- Zone `z` is seen as `v` in `t`, and every other as it was. -/
structure Seen (z : Fin 8) (v : ZoneView) (s t : State) : Prop where
  here : t.view z = v
  others : ∀ j : Fin 8, j ≠ z → t.view j = s.view j

/-- Every zone is seen as it was. -/
structure SeenAlike (s t : State) : Prop where
  same : ∀ j : Fin 8, t.view j = s.view j

namespace SeenAlike

variable {s t u : State}

theorem refl (s : State) : SeenAlike s s := ⟨fun _ => rfl⟩

theorem trans (h : SeenAlike s t) (k : SeenAlike t u) : SeenAlike s u := ⟨fun j => (k.same j).trans (h.same j)⟩

theorem of_changes {ps : List Part} (h : ChangesOnly ps s t)
    (out : ps.all (fun p => !([.settings, .czones, .circuits, .flickers] : List Part).contains p) = true := by rfl) :
    SeenAlike s t := by
  have same (p : Part) (mem : p ∈ ([.settings, .czones, .circuits, .flickers] : List Part)) : p.same s t :=
    h.same p fun inside => by
      have := List.all_eq_true.1 out p inside
      simp only [Bool.not_eq_true', List.contains_eq_mem, decide_eq_false_iff_not] at this
      exact this mem
  have settings : t.settings = s.settings := same .settings (by simp)
  have czones : t.czones = s.czones := same .czones (by simp)
  have circuits : t.circuits = s.circuits := same .circuits (by simp)
  have flickers : t.flickers = s.flickers := same .flickers (by simp)
  exact ⟨fun j => by simp only [State.view, settings, czones, circuits, flickers]⟩

end SeenAlike

namespace Seen

variable {z : Fin 8} {v : ZoneView} {s t u : State}

theorem refl (s : State) (z : Fin 8) : Seen z (s.view z) s s := ⟨rfl, fun _ _ => rfl⟩

theorem alike (h : Seen z v s t) (k : SeenAlike t u) : Seen z v s u :=
  ⟨(k.same z).trans h.here, fun j ne => (k.same j).trans (h.others j ne)⟩

theorem after (k : SeenAlike s t) (h : Seen z v t u) : Seen z v s u :=
  ⟨h.here, fun j ne => (h.others j ne).trans (k.same j)⟩

theorem trans {w : ZoneView} (h : Seen z v s t) (k : Seen z w t u) : Seen z w s u :=
  ⟨k.here, fun j ne => (k.others j ne).trans (h.others j ne)⟩

theorem lawful (h : Seen z v s t) (here : v.Lawful) (others : ∀ j : Fin 8, j ≠ z → (s.view j).Lawful) : BurstsLawful t := by
  refine burstsLawful_iff.2 fun j => ?_
  by_cases e : j = z
  · rw [e, h.here]; exact here
  · rw [h.others j e]; exact others j e

theorem writeCZone (h : Seen z v s t) (x : CallZone) : Seen z { v with czone := x } s (t.writeCZone z x) := by
  refine ⟨?_, fun j ne => ?_⟩
  · rw [← h.here, State.view, State.writeCZone_czone, if_pos rfl, State.writeCZone_flickers, State.writeCZone_circuits,
      State.writeCZone_settings]
    rfl
  · rw [← h.others j ne, State.view, State.writeCZone_czone, if_neg ne, State.writeCZone_flickers,
      State.writeCZone_circuits, State.writeCZone_settings]
    rfl

theorem chime (h : Seen z v s t) (on : Bool) : Seen z { v with demand := on } s (t.demand (chimeOf z) on .continuous) := by
  have frame := State.demand_changes t (chimeOf z) on .continuous
  have czones : (t.demand (chimeOf z) on .continuous).czones = t.czones := frame.same .czones (by decide)
  have settings : (t.demand (chimeOf z) on .continuous).settings = t.settings := frame.same .settings (by decide)
  have flickers : (t.demand (chimeOf z) on .continuous).flickers = t.flickers := frame.same .flickers (by decide)
  refine ⟨?_, fun j ne => ?_⟩
  · rw [← h.here, State.view, (State.demand_demand ..).1, czones, settings, flickers]
    rfl
  · rw [← h.others j ne, State.view, State.demand_other _ _ _ _ (fun e => ne (Fin.ext ?_)), czones, settings, flickers]
    · rfl
    · have : 6 + j.1 = 6 + z.1 := congrArg Fin.val e
      omega

theorem flicker (h : Seen z v s t) (code : Nat) : Seen z { v with code := code } s (t.flickerRequest z code) := by
  have frame := t.flickerRequest_changes z code
  have czones : (t.flickerRequest z code).czones = t.czones := frame.same .czones (by decide)
  have settings : (t.flickerRequest z code).settings = t.settings := frame.same .settings (by decide)
  have circuits : (t.flickerRequest z code).circuits = t.circuits := frame.same .circuits (by decide)
  refine ⟨?_, fun j ne => ?_⟩
  · simp only [← h.here, State.view, State.flickerRequest_flickers, put_same, czones, settings, circuits]
  · rw [← h.others j ne]
    simp only [State.view, State.flickerRequest_flickers, put_other _ _ _ _ ne, czones, settings, circuits]

theorem clock (h : Seen z v s t) (n : Nat) : Seen z v s (t.reach n) := h.alike (.of_changes (t.reach_changes n))

theorem handFlicker (h : Seen z v s t) (code : Nat) :
    Seen z { v with czone := { v.czone with flickerCode := code }, code := code } s (t.handFlicker z code) := by
  have czone : t.czones[z] = v.czone := congrArg ZoneView.czone h.here
  unfold State.handFlicker
  dsimp only
  rw [czone]
  exact (h.writeCZone _).flicker code

end Seen

/-! ## The operations of a burst -/

/-- The zone as a stroke begins (R142). -/
def CallZone.stroke (x : CallZone) (now : Nat) : CallZone :=
  { x with strokesSounded := x.strokesSounded + 1, strokeEnd := some (now + x.strokeOn), gapEnd := none }

namespace Seen

variable {z : Fin 8} {v : ZoneView} {s t : State}

theorem beginStroke (h : Seen z v s t) :
    Seen z { v with czone := v.czone.stroke t.now, demand := true } s (t.beginStroke z) := by
  have czone : t.czones[z] = v.czone := congrArg ZoneView.czone h.here
  unfold State.beginStroke
  dsimp only
  rw [czone]
  exact (h.writeCZone _).chime true

/-- A burst that is stopped leaves the zone free and dark, where the code kept was the zone's (R143). -/
theorem stopBurst (h : Seen z v s t) (code : v.code = v.czone.flickerCode) :
    Seen z { v with czone := v.czone.freed v.czone.queue, code := 0, demand := false } s (t.stopBurst z) := by
  have silent := h.chime false
  have signals : Seen z { v with czone := { v.czone with flickerCode := 0 }, code := 0, demand := false } s
      (t.endSignals z) := by
    unfold State.endSignals
    dsimp only
    have czone : (t.demand (chimeOf z) false .continuous).czones[z] = v.czone := congrArg ZoneView.czone silent.here
    rw [czone]
    split
    next dark =>
      refine ⟨silent.here.trans ?_, silent.others⟩
      rw [dark] at code
      rw [code, ← dark]
    · exact silent.handFlicker 0
  have czone : (t.endSignals z).czones[z] = { v.czone with flickerCode := 0 } := congrArg ZoneView.czone signals.here
  unfold State.stopBurst State.freeZone
  dsimp only
  rw [czone]
  exact signals.writeCZone _

end Seen

namespace ZoneView

variable {v : ZoneView}

/-- A zone left free is lawful, whatever it may. -/
theorem freed_lawful (v : ZoneView) :
    ({ v with czone := v.czone.freed v.czone.queue, code := 0, demand := false } : ZoneView).Lawful :=
  Steady.lawful ⟨fun _ => ⟨rfl, rfl, rfl, rfl, rfl, rfl, rfl⟩, rfl⟩ rfl

end ZoneView

/-! ## What keeps bursts lawful -/

/-- Between `s` and `t` bursts that were lawful have stayed so. -/
structure BurstsKept (s t : State) : Prop where
  keep : BurstsLawful s → BurstsLawful t

namespace BurstsKept

variable {s t u : State}

theorem refl (s : State) : BurstsKept s s := ⟨id⟩

theorem trans (h : BurstsKept s t) (k : BurstsKept t u) : BurstsKept s u := ⟨fun l => k.keep (h.keep l)⟩

theorem of_alike (h : SeenAlike s t) : BurstsKept s t := ⟨fun l z => by
  have lawful := burstsLawful_iff.1 l z
  rw [← h.same z] at lawful
  exact lawful⟩

theorem of_changes {ps : List Part} (h : ChangesOnly ps s t)
    (out : ps.all (fun p => !([.settings, .czones, .circuits, .flickers] : List Part).contains p) = true := by rfl) :
    BurstsKept s t := of_alike (.of_changes h out)

theorem foldl {α : Type} {f : State → α → State} (turn : ∀ s a, BurstsKept s (f s a)) (l : List α) (s : State) :
    BurstsKept s (l.foldl f s) := foldl_keeps (BurstsKept s) f (fun t a h => h.trans (turn t a)) l s (refl s)

theorem forAll {n : Nat} {f : Fin n → State → State} (turn : ∀ i s, BurstsKept s (f i s)) (s : State) :
    BurstsKept s (forAll n f s) := forAll_keeps (BurstsKept s) f (fun i t h => h.trans (turn i t)) s (refl s)

/-- One zone has changed, and is lawful as it was lawful. -/
theorem of_seen {z : Fin 8} {v : ZoneView} (h : Seen z v s t) (here : (s.view z).Lawful → v.Lawful) : BurstsKept s t :=
  ⟨fun l => h.lawful (here (burstsLawful_iff.1 l z)) fun j _ => burstsLawful_iff.1 l j⟩

theorem reach (s : State) (n : Nat) : BurstsKept s (s.reach n) := of_changes (s.reach_changes n)

theorem editDelivery (s : State) (c : Fin 32) (z : Fin 8) (f : Delivery → Delivery) : BurstsKept s (s.editDelivery c z f) :=
  of_changes (State.editDelivery_changes ..)

theorem finishCall (s : State) (c : Fin 32) : BurstsKept s (s.finishCall c) := of_changes (State.finishCall_changes ..)

theorem endDelivery (s : State) (c : Fin 32) (z : Fin 8) (st : DeliveryState) : BurstsKept s (s.endDelivery c z st) :=
  (editDelivery ..).trans (finishCall ..)

theorem joinQueue (s : State) (z : Fin 8) (c : Fin 32) : BurstsKept s (s.joinQueue z c) :=
  of_seen ((Seen.refl s z).writeCZone _) fun l => l.withQueue _

theorem leaveQueue (s : State) (z : Fin 8) (c : Fin 32) : BurstsKept s (s.leaveQueue z c) :=
  of_seen ((Seen.refl s z).writeCZone _) fun l => l.withQueue _

theorem stopBurst (s : State) (z : Fin 8) : BurstsKept s (s.stopBurst z) :=
  ⟨fun l => ((Seen.refl s z).stopBurst (burstsLawful_iff.1 l z).steady.code).lawful (ZoneView.freed_lawful _)
    fun j _ => burstsLawful_iff.1 l j⟩

end BurstsKept

/-- The zone in a new burst (R141, R142). -/
def CallZone.begun (x : CallZone) (c : Fin 32) (mode : BurstMode) (now strokes on gap : Nat) : CallZone :=
  { x with
    queue := x.queue.erase c, sounding := some c, mode := some mode, burstStart := some now,
    strokesSounded := 0, burstEnd := some (now + strokes * (on + gap)),
    strokeOn := on, strokeGap := gap, strokes := strokes, strokeEnd := none,
    gapEnd := none }

namespace BurstsKept

variable {s t u : State}

/-- A burst that starts in a free zone that may sound is lawful (R141, R142). -/
theorem startBurst (s : State) (z : Fin 8) (c : Fin 32) (mode : BurstMode) (code : Nat) (may : (s.view z).Open)
    (free : s.czones[z].sounding = none) : BurstsKept s (s.startBurst z c mode code) := by
  refine ⟨fun l => ?_⟩
  obtain ⟨-, rests, kept, -⟩ := burstsLawful_iff.1 l z
  have dark : s.czones[z].flickerCode = 0 := by
    obtain ⟨-, -, -, -, -, dark, -⟩ := rests free
    exact dark
  have others (j : Fin 8) (_ : j ≠ z) := burstsLawful_iff.1 l j
  have edited : Seen z (s.view z) s (s.editDelivery c z fun d => { d with state := .sounding, resumes := false }) :=
    (Seen.refl s z).alike (.of_changes (State.editDelivery_changes ..))
  unfold State.startBurst
  extract_lets cfg strokes s1 cz s2
  have czone : cz = s.czones[z] := congrArg ZoneView.czone edited.here
  have begun : Seen z { s.view z with czone := cz.begun c mode s.now strokes cfg.strokeOn cfg.strokeGap } s s2 :=
    edited.writeCZone (cz.begun c mode s.now strokes cfg.strokeOn cfg.strokeGap)
  rw [czone] at begun
  clear_value s2
  cases mode with
  | chime =>
    exact begun.beginStroke.lawful (.of_sounding (c := c) rfl may rfl kept fun _ => dark) others
  | chimeFlicker =>
    exact (begun.handFlicker code).beginStroke.lawful (.of_sounding (c := c) rfl may rfl rfl nofun) others
  | flicker =>
    exact (begun.handFlicker code).lawful (.of_sounding (c := c) rfl may rfl rfl nofun) others

/-- The arbiter starts a burst in a zone that may sound and is free, or ends deliveries (R140, R141). -/
theorem lookFor (s : State) (z : Fin 8) (fuel : Nat) : BurstsKept s (s.lookFor z fuel) := by
  induction fuel generalizing s with
  | zero => exact refl s
  | succ n ih =>
    unfold State.lookFor
    dsimp only
    split
    · exact refl s
    next free =>
      split
      · exact refl s
      · split
        · simp only [Bool.or_eq_true, Bool.not_eq_true', not_or, Bool.not_eq_true, Option.isSome_eq_false_iff,
            Option.isNone_iff_eq_none, Bool.not_eq_false] at free
          obtain ⟨⟨⟨present, silent⟩, suppressed⟩, barred⟩ := free
          exact startBurst s z _ _ _ ⟨present, suppressed, barred⟩ silent
        · exact ((leaveQueue ..).trans (endDelivery ..)).trans (ih _)

theorem arbitrate (s : State) (z : Fin 8) : BurstsKept s (s.arbitrate z) := lookFor ..

theorem countBurst (s : State) (z : Fin 8) : BurstsKept s (s.countBurst z) := by
  unfold State.countBurst
  dsimp only
  split
  · exact refl s
  · refine trans ?_ (arbitrate ..)
    have stopped (f : Delivery → Delivery) (c : Fin 32) : BurstsKept s ((s.stopBurst z).editDelivery c z f) :=
      (stopBurst ..).trans (editDelivery ..)
    split
    · exact (stopped ..).trans (joinQueue ..)
    · exact (stopped ..).trans (finishCall ..)

theorem chimeLost (s : State) (z : Fin 8) : BurstsKept s (s.chimeLost z) := by
  have silent : Seen z { s.view z with
      czone := { s.czones[z] with mode := some .flicker, strokeEnd := none, gapEnd := none }, demand := false } s
      ((s.writeCZone z { s.czones[z] with mode := some .flicker, strokeEnd := none, gapEnd := none }).demand
        (chimeOf z) false .continuous) := ((Seen.refl s z).writeCZone _).chime false
  have kept (burst : s.czones[z].mode ≠ none) : BurstsKept s
      ((s.writeCZone z { s.czones[z] with mode := some .flicker, strokeEnd := none, gapEnd := none }).demand
        (chimeOf z) false .continuous) := of_seen silent fun l => by
    obtain ⟨c, sounds⟩ := l.sounds fun rests => burst rests.1
    exact .of_sounding sounds (l.open sounds) rfl l.steady.code nofun
  unfold State.chimeLost
  dsimp only
  split
  next mode => exact kept (by rw [mode]; exact nofun)
  next mode =>
    split
    · refine of_seen (silent.handFlicker _) fun l => ?_
      obtain ⟨c, sounds⟩ := l.sounds fun rests => by
        have still : s.czones[z].mode = none := rests.1
        rw [mode] at still
        cases still
      exact .of_sounding sounds (l.open sounds) rfl rfl nofun
    · exact (kept (by rw [mode]; exact nofun)).trans (countBurst ..)
  · exact refl s
  · exact refl s

theorem litLost (s : State) (z : Fin 8) : BurstsKept s (s.litLost z) := by
  unfold State.litLost
  dsimp only
  split
  next mode =>
    refine of_seen (((Seen.refl s z).writeCZone _).handFlicker 0) fun l => ?_
    obtain ⟨c, sounds⟩ := l.sounds fun rests => by
      have still : s.czones[z].mode = none := rests.1
      rw [mode] at still
      cases still
    exact .of_sounding sounds (l.open sounds) rfl rfl fun _ => rfl
  · exact countBurst ..
  · exact refl s
  · exact refl s

theorem announceLit (s : State) : BurstsKept s s.announceLit := by
  have set (t : State) (z : Fin 8) (v : Vector Bool 8) : BurstsKept t { t with lit := v } := ⟨id⟩
  refine forAll (fun z t => ?_) s
  dsimp only
  split
  · exact (set t z _).trans (litLost ..)
  · exact set t z _

theorem withdraw (s : State) (c : Fin 32) (z : Fin 8) : BurstsKept s (s.withdraw c z) := by
  unfold State.withdraw
  split
  · exact stopBurst ..
  · exact leaveQueue ..

theorem callNotice (s : State) (a : Fin 3) (st : DeliveryState) : BurstsKept s (s.callNotice a st) := by
  unfold State.callNotice
  refine (foldl (fun t c => foldl (fun u d => ?_) _ t) _ s).trans (foldl (fun t z => arbitrate ..) _ _)
  split
  · exact (withdraw ..).trans (endDelivery ..)
  · exact refl u

theorem emptyCall (s : State) (c : Fin 32) : BurstsKept s (s.emptyCall c) := of_changes (State.emptyCall_changes ..)

theorem retireCallAt (s : State) (c : Fin 32) : BurstsKept s (s.retireCallAt c) := by
  unfold State.retireCallAt
  refine ((foldl (fun t d => ?_) _ s).trans (emptyCall ..)).trans (foldl (fun t z => arbitrate ..) _ _)
  split
  · exact withdraw ..
  · exact refl t

theorem fillCall (s : State) (c : Fin 32) (x : Call) : BurstsKept s (s.fillCall c x) := by
  have filled (v : Vector CallSlot 32) (l : List (Fin 32)) :
      BurstsKept s (({ s with calls := v, callList := l } : State).mark .call) := ⟨id⟩
  unfold State.fillCall
  dsimp only
  exact ((filled ..).trans (foldl (fun t z => joinQueue ..) _ _)).trans (foldl (fun t z => arbitrate ..) _ _)

theorem roomForCall {s room : State} {c : Fin 32} (found : s.roomForCall = some (c, room)) : BurstsKept s room :=
  of_changes (State.roomForCall_changes found)

theorem amendCallAt (s : State) (c : Fin 32) (p iv : Option Nat) : BurstsKept s (s.amendCallAt c p iv) := by
  unfold State.amendCallAt
  split
  · exact refl s
  · extract_lets y waiting s1 s2
    have written : BurstsKept s s1 := (of_changes (State.writeCall_changes ..)).trans (of_changes (State.markIf_changes ..))
    have placed : BurstsKept s s2 := by
      unfold s2
      split
      · exact written.trans (foldl (fun t d => joinQueue ..) _ _)
      · exact written
    exact placed.trans (foldl (fun t d => arbitrate ..) _ _)

theorem notBeforePasses (s : State) (c : Fin 32) (z : Fin 8) : BurstsKept s (s.notBeforePasses c z) := by
  unfold State.notBeforePasses
  split
  · exact refl s
  · split
    · exact (reach ..).trans (arbitrate ..)
    · exact refl s

theorem strokeOnRuns (s : State) (z : Fin 8) : BurstsKept s (s.strokeOnRuns z) := by
  unfold State.strokeOnRuns
  dsimp only
  split
  · exact refl s
  next stroke =>
    refine of_seen ((((Seen.refl s z).clock _).writeCZone _).chime false) fun l => ?_
    obtain ⟨c, sounds⟩ := l.sounds fun rests => by
      obtain ⟨-, -, -, still, -⟩ := rests
      have still : s.czones[z].strokeEnd = none := still
      rw [stroke] at still
      cases still
    exact .of_sounding sounds (l.open sounds) (l.mode sounds) l.steady.code l.chime

theorem strokeGapRuns (s : State) (z : Fin 8) : BurstsKept s (s.strokeGapRuns z) := by
  unfold State.strokeGapRuns
  dsimp only
  split
  · exact refl s
  next gap =>
    split
    · refine of_seen ((Seen.refl s z).clock _).beginStroke fun l => ?_
      obtain ⟨c, sounds⟩ := l.sounds fun rests => by
        obtain ⟨-, -, -, -, still, -⟩ := rests
        have still : s.czones[z].gapEnd = none := still
        rw [gap] at still
        cases still
      exact .of_sounding sounds (l.open sounds) (l.mode sounds) l.steady.code l.chime
    · exact refl s

theorem burstRuns (s : State) (z : Fin 8) : BurstsKept s (s.burstRuns z) := by
  unfold State.burstRuns
  split
  · exact refl s
  · exact (reach ..).trans (countBurst ..)

end BurstsKept

end Sys2Proof.Machine
end

section
/-!
PROOFS. Every command keeps bursts lawful (R123, R140..R145): suppressions, bars and settings stop what may not sound,
and nothing else of the part touches a burst but through the call unit.
-/

namespace Sys2Proof.Machine

-- One declaration at a time: side conditions closed by tactics wait for what stands before them.
set_option Elab.async false

/-! ## A zone that may no longer sound -/

/-- Zone `z` is steady, whatever it may, and the others are lawful. -/
structure SteadyAt (z : Fin 8) (s : State) : Prop where
  here : (s.view z).Steady
  others : ∀ j : Fin 8, j ≠ z → (s.view j).Lawful

namespace SteadyAt

variable {z : Fin 8} {s t : State}

theorem of_lawful (h : BurstsLawful s) (z : Fin 8) : SteadyAt z s :=
  ⟨(burstsLawful_iff.1 h z).steady, fun j _ => burstsLawful_iff.1 h j⟩

theorem lawful (h : SteadyAt z s) (free : s.czones[z].sounding = none) : BurstsLawful s := by
  refine burstsLawful_iff.2 fun j => ?_
  by_cases e : j = z
  · subst e; exact h.here.lawful free
  · exact h.others j e

theorem of_seen {v : ZoneView} (h : SteadyAt z s) (seen : Seen z v s t) (here : (s.view z).Steady → v.Steady) : SteadyAt z t :=
  ⟨by rw [seen.here]; exact here h.here, fun j ne => by rw [seen.others j ne]; exact h.others j ne⟩

/-- A write that silences the zone. -/
theorem silenced (h : SteadyAt z s) (x : CallZone) (same : ({ s.view z with czone := x } : ZoneView).Steady) :
    SteadyAt z (s.writeCZone z x) := h.of_seen ((Seen.refl s z).writeCZone x) fun _ => same

/-- Stopping its burst makes it lawful (R143). -/
theorem stopBurst (h : SteadyAt z s) : BurstsLawful (s.stopBurst z) :=
  ((Seen.refl s z).stopBurst h.here.code).lawful (ZoneView.freed_lawful _) h.others

/-- Dropping its deliveries makes it lawful (R129, R149). -/
theorem dropZone (h : SteadyAt z s) (st : DeliveryState) : BurstsLawful (s.dropZone z st) := by
  unfold State.dropZone
  dsimp only
  refine (BurstsKept.foldl (fun t c => (BurstsKept.leaveQueue ..).trans (.endDelivery ..)) _ _).keep ?_
  split
  · exact (BurstsKept.endDelivery ..).keep h.stopBurst
  next free => exact h.lawful free

end SteadyAt

namespace BurstsKept

variable {s t u : State}

theorem suppress (s : State) (z : Fin 8) : BurstsKept s (s.suppress z) := by
  refine ⟨fun l => ?_⟩
  have steady : SteadyAt z (s.writeCZone z { s.czones[z] with suppressed := true }) :=
    (SteadyAt.of_lawful l z).silenced _ ⟨(SteadyAt.of_lawful l z).here.rests, (SteadyAt.of_lawful l z).here.code⟩
  unfold State.suppress
  dsimp only
  split
  next free =>
    refine steady.lawful ?_
    rw [State.writeCZone_czone, if_pos rfl]
    exact free
  · exact ((editDelivery ..).trans (joinQueue ..)).keep steady.stopBurst

theorem bar (s : State) (z : Fin 8) : BurstsKept s (s.bar z) := by
  refine ⟨fun l => ?_⟩
  have steady : SteadyAt z (s.writeCZone z { s.czones[z] with barred := true }) :=
    (SteadyAt.of_lawful l z).silenced _ ⟨(SteadyAt.of_lawful l z).here.rests, (SteadyAt.of_lawful l z).here.code⟩
  exact steady.dropZone _

/-- A zone that is let sound again. -/
theorem freed (s : State) (z : Fin 8) (b p : Bool) (barred : b = true → s.czones[z].barred = true)
    (suppressed : p = true → s.czones[z].suppressed = true) :
    BurstsKept s (s.writeCZone z { s.czones[z] with barred := b, suppressed := p }) := by
  refine of_seen ((Seen.refl s z).writeCZone _) fun l => ?_
  refine ⟨fun sounds => ?_, l.2.1, l.2.2⟩
  obtain ⟨present, quiet, open_, mode⟩ := l.1 sounds
  refine ⟨present, ?_, ?_, mode⟩
  · cases p
    · rfl
    · exact absurd (suppressed rfl) (by rw [show s.czones[z].suppressed = false from quiet]; decide)
  · cases b
    · rfl
    · exact absurd (barred rfl) (by rw [show s.czones[z].barred = false from open_]; decide)

theorem deriveSilence (s : State) (z : Fin 8) : BurstsKept s (s.deriveSilence z) := by
  unfold State.deriveSilence
  split
  · exact refl s
  · extract_lets cz b p s1 cz1 s2
    have barred : BurstsKept s s1 := by
      unfold s1
      split
      · exact bar ..
      · split
        · exact freed s z false s.czones[z].suppressed nofun id
        · exact refl s
    have suppressed : BurstsKept s s2 := by
      unfold s2
      split
      · exact barred.trans (suppress ..)
      · split
        · exact barred.trans (freed s1 z s1.czones[z].barred false id nofun)
        · exact barred
    split
    · exact suppressed.trans (arbitrate ..)
    · exact suppressed

theorem deriveSilences (s : State) : BurstsKept s s.deriveSilences := forAll (fun z t => deriveSilence t z) s

theorem refreshLights (s : State) : BurstsKept s s.refreshLights := (of_changes s.refreshGroups_changes).trans (announceLit _)

theorem evalHolds (c : HoldCause) (s : State) : BurstsKept s (s.evalHolds c) := of_changes (State.evalHolds_changes ..)

/-! ## Circuits and demands -/

/-- A circuit that is no chime. -/
theorem demand_alarm (s : State) (c : Fin 16) (on : Bool) (p : Pattern) (other : isChime c = false) :
    BurstsKept s (s.demand c on p) := by
  have frame := State.demand_changes s c on p
  have czones : (s.demand c on p).czones = s.czones := frame.same .czones (by decide)
  have settings : (s.demand c on p).settings = s.settings := frame.same .settings (by decide)
  have flickers : (s.demand c on p).flickers = s.flickers := frame.same .flickers (by decide)
  refine of_alike ⟨fun z => ?_⟩
  have ne : chimeOf z ≠ c := fun e => by rw [← e, isChime_chimeOf] at other; cases other
  rw [State.view, State.demand_other _ _ _ _ ne, czones, settings, flickers]
  rfl

theorem demandSounders (s : State) : BurstsKept s s.demandSounders :=
  forAll (fun c t => demand_alarm t _ _ _ (isChime_sounder c)) s

theorem demandAlert (s : State) : BurstsKept s s.demandAlert := by
  unfold State.demandAlert
  split
  · exact demand_alarm _ _ _ _ (by decide)
  · exact demand_alarm _ _ _ _ (by decide)

theorem demandBrigade (s : State) : BurstsKept s s.demandBrigade := demand_alarm _ _ _ _ (by decide)

theorem demandAll (s : State) : BurstsKept s s.demandAll :=
  ((demandAlert s).trans (demandSounders _)).trans (demandBrigade _)

theorem writeCircuit (s : State) (c : Fin 16) (x : Circuit) (same : SameDemand s.circuits[c] x) :
    BurstsKept s (s.writeCircuit c x) := by
  refine of_alike ⟨fun z => ?_⟩
  have demand : (s.writeCircuit c x).circuits[chimeOf z].demand = s.circuits[chimeOf z].demand := by
    rw [State.writeCircuit_circuits, put_get]
    split
    next e => subst e; exact same.demand
    · rfl
  rw [State.view, demand, State.writeCircuit_czones, State.writeCircuit_flickers, State.writeCircuit_settings]
  rfl

theorem announceCondition (s : State) (c : Fin 16) (old : CircuitCondition) : BurstsKept s (s.announceCondition c old) := by
  unfold State.announceCondition
  dsimp only
  split
  · exact refl s
  · split
    · exact evalHolds ..
    · split
      · split
        · exact chimeLost ..
        · exact refl s
      · exact refl s

theorem changeCircuit (s : State) (c : Fin 16) (x : Circuit) (same : SameDemand s.circuits[c] x) :
    BurstsKept s (s.changeCircuit c x) := (writeCircuit s c x same).trans (announceCondition ..)

theorem patternRuns (s : State) (c : Fin 16) : BurstsKept s (s.patternRuns c) := by
  unfold State.patternRuns
  dsimp only
  split
  · exact refl s
  · split
    · exact (reach ..).trans (writeCircuit _ c _ (.partEnds ..))
    · exact refl s

theorem testRuns (s : State) (c : Fin 16) (seen : Bool) : BurstsKept s (s.testRuns c seen) := by
  refine (reach ..).trans (changeCircuit _ c _ ?_)
  exact .trans (.tested seen _) ⟨rfl, rfl⟩

theorem overloads (s : State) (c : Fin 16) : BurstsKept s (s.overloads c) := by
  unfold State.overloads
  dsimp only
  split
  · exact changeCircuit s c _ (.trip ..)
  · exact refl s

theorem retryRuns (s : State) (c : Fin 16) : BurstsKept s (s.retryRuns c) := by
  unfold State.retryRuns
  dsimp only
  split
  · exact refl s
  · exact (reach ..).trans (changeCircuit _ c _ (.retryRun ..))

theorem cleanRuns (s : State) (c : Fin 16) : BurstsKept s (s.cleanRuns c) := by
  unfold State.cleanRuns
  dsimp only
  split
  · exact refl s
  · refine (reach ..).trans (changeCircuit _ c _ ?_)
    exact ⟨rfl, rfl⟩

theorem offRuns (s : State) (c : Fin 16) : BurstsKept s (s.offRuns c) := by
  unfold State.offRuns
  dsimp only
  split
  · exact refl s
  · refine (reach ..).trans (changeCircuit _ c _ ?_)
    exact ⟨rfl, rfl⟩

theorem resetCircuit (s : State) (c : Fin 16) (fs : List FieldVal) : BurstsKept s (s.resetCircuit c fs) := by
  unfold State.resetCircuit
  split
  · exact changeCircuit s c _ (.resetByStation ..)
  · exact refl s

/-! ## Supply, fades and performances -/

theorem announceMains (s : State) : BurstsKept s s.announceMains := by
  have lit := refreshLights s
  unfold State.announceMains
  dsimp only
  refine trans ?_ (evalHolds ..)
  split
  · exact lit.trans (of_changes (State.stopRaises_changes _))
  · exact lit

theorem setMains (s : State) (x : Supply) : BurstsKept s (s.setMains x) :=
  (of_changes (State.writeSupply_changes ..)).trans (announceMains _)

theorem mainsLine (s : State) (on : Bool) : BurstsKept s (s.mainsLine on) := by
  unfold State.mainsLine
  split
  · exact refl s
  · have seen : BurstsKept s { s with lines := { s.lines with mainsPresent := on } } := of_changes (s.lines_changes _)
    generalize { s with lines := { s.lines with mainsPresent := on } } = u at *
    dsimp only
    split
    · exact seen.trans (of_changes (State.writeSupply_changes ..))
    · exact seen.trans (of_changes (State.writeSupply_changes ..))
    · exact seen.trans (setMains ..)
    · exact seen.trans (setMains ..)
    · exact seen
    · exact seen

theorem lossRuns (s : State) : BurstsKept s s.lossRuns := by
  unfold State.lossRuns
  split
  · exact refl s
  · exact (reach ..).trans (setMains ..)

theorem settlingRuns (s : State) : BurstsKept s s.settlingRuns := by
  unfold State.settlingRuns
  split
  · exact refl s
  · exact (reach ..).trans (setMains ..)

/-- A step of the grid judges dips and keeps every code (R124). -/
theorem fadeEngineStep (s : State) : BurstsKept s s.fadeEngineStep := by
  have frame := s.fadeEngineStep_changes
  have czones : s.fadeEngineStep.czones = s.czones := frame.same .czones (by decide)
  have settings : s.fadeEngineStep.settings = s.settings := frame.same .settings (by decide)
  have circuits : s.fadeEngineStep.circuits = s.circuits := frame.same .circuits (by decide)
  refine of_alike ⟨fun z => ?_⟩
  have code : s.fadeEngineStep.flickers[z].code = s.flickers[z].code := by
    rw [State.fadeEngineStep_flickers]
    change (tab _ : Vector Flicker 8)[z].code = _
    rw [tab_get]
  rw [State.view, code, czones, settings, circuits]
  rfl

theorem fadeEnds (s : State) (g : Fin 12) : BurstsKept s (s.fadeEnds g) := by
  unfold State.fadeEnds
  dsimp only
  split
  · exact fadeEngineStep s
  · exact refl s

theorem respondWith (s : State) (a : Fin 3) (r : Option Response) : BurstsKept s (s.respondWith a r) :=
  of_changes (State.respondWith_changes ..)

theorem enterPhase (s : State) (a : Fin 3) (p : Perf) (r : Option Response) (notice : Option DeliveryState) :
    BurstsKept s (s.enterPhase a p r notice) := by
  have written : BurstsKept s (s.writePerf a p) := of_changes (State.writePerf_changes ..)
  have lit := (written.trans (respondWith _ a r)).trans (refreshLights _)
  unfold State.enterPhase
  dsimp only
  split
  · exact lit
  · exact lit.trans (callNotice ..)

theorem halt (s : State) (a : Fin 3) : BurstsKept s (s.halt a) := by
  have written : BurstsKept s (s.writePerf a { s.perfs[a] with phase := .halted }) := of_changes (State.writePerf_changes ..)
  unfold State.halt
  exact (written.trans (of_changes (State.respond_changes ..))).trans (callNotice ..)

theorem enter (s : State) (a : Fin 3) (st : Fin 8) (p : Phase) : BurstsKept s (s.enter a st p) := by
  unfold State.enter
  cases p with
  | dark =>
    dsimp only
    unfold State.enterDark
    exact (of_changes (s.clearHolds_changes a)).trans (enterPhase ..)
  | prepare =>
    dsimp only
    unfold State.enterPrepare
    exact (enterPhase ..).trans (of_changes (State.evalAllHolds_changes ..))
  | houseOpen =>
    dsimp only
    unfold State.enterHouseOpen
    exact enterPhase ..
  | beginners =>
    dsimp only
    unfold State.enterBeginners
    exact enterPhase ..
  | running =>
    dsimp only
    unfold State.enterRunning
    exact enterPhase ..
  | interval =>
    dsimp only
    unfold State.enterInterval
    exact enterPhase ..
  | closing =>
    dsimp only
    unfold State.enterClosing
    exact enterPhase ..
  | halted => exact halt s a

/-! ## Incidents -/

theorem haltSet (set : AudSet) (s : State) : BurstsKept s (s.haltSet set) := by
  unfold State.haltSet
  refine forAll (fun a t => ?_) s
  split
  · exact halt ..
  · exact refl t

theorem maybe {f : State → State} (hf : ∀ s, BurstsKept s (f s)) (s : State) : BurstsKept s (s.maybe f) := by
  have drawn : BurstsKept s s.drawn := of_changes s.drawn_changes
  unfold State.maybe
  split
  · exact drawn.trans (hf _)
  · exact drawn

theorem lightsAndCalls (s : State) : BurstsKept s s.lightsAndCalls := by
  have drawn : BurstsKept s s.drawn := of_changes s.drawn_changes
  unfold State.lightsAndCalls
  split
  · exact (drawn.trans (deriveSilences _)).trans (announceLit _)
  · exact (drawn.trans (announceLit _)).trans (deriveSilences _)

theorem announceIncidents (ids : List (Fin 25)) (s : State) : BurstsKept s (s.announceIncidents ids) := by
  have drawn (t : State) : BurstsKept t t.drawn := of_changes t.drawn_changes
  have forces (t : State) : BurstsKept t t.refreshGroups := of_changes t.refreshGroups_changes
  unfold State.announceIncidents
  extract_lets set s1 s2 s3
  have heard : BurstsKept s s1 := (evalHolds ..).trans (maybe deriveSilences _)
  have lights (u : State) : BurstsKept u u.maybeLightsAndCalls :=
    ((maybe announceLit u).trans (maybe deriveSilences _)).trans (maybe announceLit _)
  have halted : BurstsKept s s2 := by
    unfold s2
    split
    · exact ((heard.trans (drawn _)).trans (forces _)).trans ((lights _).trans (haltSet ..))
    · exact (((heard.trans (drawn _)).trans (haltSet ..)).trans (maybe deriveSilences _)).trans (forces _)
  have released : BurstsKept s s3 := by
    refine halted.trans (foldl (fun t i => ?_) ids s2)
    split
    · exact of_changes (State.fireRelease_changes ..)
    · exact refl t
  exact released.trans (lightsAndCalls _)

theorem editIncident (s : State) (i : Fin 25) (f : Incident → Incident) : BurstsKept s (s.editIncident i f) :=
  of_changes (State.editIncident_changes ..)

theorem escalateIncident (s : State) (i : Fin 25) (why : EscalationCause) : BurstsKept s (s.escalateIncident i why) :=
  ((editIncident ..).trans (demandAll _)).trans (announceIncidents ..)

theorem raiseZoneIncident (s : State) (z : Fin 24) (i : Fin 25) : BurstsKept s (s.raiseZoneIncident z i) := by
  unfold State.raiseZoneIncident
  extract_lets x shared s1 x2 s2 s3
  have raised : BurstsKept s s2 :=
    (of_changes (State.fillIncident_changes s i x)).trans (of_changes (State.writeZone_changes ..))
  have escalated : BurstsKept s s3 := raised.trans (foldl (fun t j => editIncident ..) shared s2)
  exact (escalated.trans (demandAll _)).trans (announceIncidents ..)

theorem reactivate (s : State) (i : Fin 25) : BurstsKept s (s.reactivate i) :=
  ((editIncident ..).trans (demandAll _)).trans (of_changes (State.mark_changes ..))

theorem raiseStationIncident (s : State) (st : Fin 8) (set : AudSet) (i : Fin 25) :
    BurstsKept s (s.raiseStationIncident st set i) :=
  ((of_changes (State.fillIncident_changes ..)).trans (demandAll _)).trans (announceIncidents ..)

theorem widenIncident (s : State) (i : Fin 25) (set : AudSet) : BurstsKept s (s.widenIncident i set) := by
  unfold State.widenIncident
  split
  · exact refl s
  · extract_lets s1
    have widened : BurstsKept s s1 := (of_changes (State.writeIncident_changes ..)).trans (demandAll _)
    split
    · exact widened
    · exact widened.trans (announceIncidents ..)

theorem retireIncidentAt (s : State) (i : Fin 25) : BurstsKept s (s.retireIncidentAt i) := by
  unfold State.retireIncidentAt
  split
  · exact refl s
  · extract_lets s1 s2
    have emptied : BurstsKept s s1 := (of_changes (State.emptyIncident_changes ..)).trans (demandAll _)
    have told : BurstsKept s s2 := by
      unfold s2
      split
      · exact emptied.trans (of_changes (State.zoneRetired_changes ..))
      · exact emptied
    exact ((told.trans (evalHolds ..)).trans (refreshLights _)).trans (deriveSilences _)

theorem actIncident (s : State) (i : Fin 25) (x : Incident) (st : Fin 8) (fs : List FieldVal) :
    BurstsKept s (s.actIncident i x st fs) := by
  unfold State.actIncident
  split
  · split
    · exact (editIncident ..).trans (demandAlert _)
    · exact refl s
  · split
    · split
      · exact escalateIncident ..
      · exact refl s
    · split
      · split
        · exact refl s
        · exact (editIncident ..).trans (demandSounders _)
      · exact refl s

theorem ackRunsOut (s : State) (i : Fin 25) : BurstsKept s (s.ackRunsOut i) := by
  unfold State.ackRunsOut
  split
  · exact refl s
  · split
    · exact (reach ..).trans (escalateIncident ..)
    · exact refl s

theorem investigationRunsOut (s : State) (i : Fin 25) : BurstsKept s (s.investigationRunsOut i) := by
  unfold State.investigationRunsOut
  split
  · exact refl s
  · split
    · exact (reach ..).trans (escalateIncident ..)
    · exact refl s

theorem confirms {z : Fin 24} (run : s.confirms z = .next t) : BurstsKept s t := by
  obtain rfl | ⟨time, u, -, -, alarm, ends⟩ := State.confirms_cases run
  · exact refl _
  have heard : BurstsKept s u := by
    rw [alarm]
    exact (reach s time).trans (of_changes (State.writeZone_changes ..))
  obtain ⟨i, -, -, rfl⟩ | ⟨i, -, -, rfl⟩ | ⟨-, -, rfl⟩ := ends
  · exact heard.trans (raiseZoneIncident ..)
  · exact heard.trans (reactivate ..)
  · exact heard

/-! ## Settings -/

theorem serveZone (s : State) (old new : ZoneSettings) : BurstsKept s (s.serveZone old new) := by
  unfold State.serveZone
  extract_lets t
  have sounders : BurstsKept s t := by
    unfold t
    split
    · exact demandSounders s
    · exact refl s
  split
  · exact sounders.trans (deriveSilences _)
  · exact sounders

theorem serveBrigade (s : State) (old new : PartSettings) : BurstsKept s (s.serveBrigade old new) := by
  unfold State.serveBrigade
  split
  · exact demandBrigade s
  · exact refl s

/-- Settings that leave the call zones. -/
theorem settled (s : State) (x : Settings) (b : Bool) (czones : x.czones = s.settings.czones) :
    BurstsKept s (s.settled x b) := by
  have frame := s.settled_changes x b
  have settings := s.settled_settings x b
  have zones : (s.settled x b).czones = s.czones := frame.same .czones (by decide)
  have circuits : (s.settled x b).circuits = s.circuits := frame.same .circuits (by decide)
  have flickers : (s.settled x b).flickers = s.flickers := frame.same .flickers (by decide)
  exact of_alike ⟨fun z => by simp only [State.view, settings, zones, circuits, flickers, czones]⟩

end BurstsKept

/-- A call zone whose settings are written: one made absent is dropped, and one made present begins idle (R129). -/
theorem SteadyAt.czoneAmended {z : Fin 8} {s : State} {old : CZoneSettings} (h : SteadyAt z s)
    (was : old.present = s.settings.czones[z].present → BurstsLawful s)
    (free : old.present = false → s.czones[z].sounding = none) : BurstsLawful (s.czoneAmended z old) := by
  have marked (b : Bool) : SeenAlike s (s.markIf b .czone) := .of_changes (State.markIf_changes ..)
  have idle {t : State} (l : BurstsLawful t) (silent : t.czones[z].sounding = none) :
      BurstsLawful (t.writeCZone z CallZone.idle) := by
    refine (BurstsKept.of_seen ((Seen.refl t z).writeCZone CallZone.idle) fun lawful => ?_).keep l
    obtain ⟨-, -, -, -, -, dark, still⟩ := lawful.steady.rests silent
    refine ZoneView.Steady.lawful ⟨fun _ => ⟨rfl, rfl, rfl, rfl, rfl, rfl, still⟩, ?_⟩ rfl
    exact lawful.steady.code.trans dark
  unfold State.czoneAmended
  extract_lets cfg s1 s2
  have seen : SeenAlike s s1 := marked _
  have steady : SteadyAt z s1 :=
    ⟨by rw [seen.same]; exact h.here, fun j ne => by rw [seen.same]; exact h.others j ne⟩
  have view := seen.same z
  have present : BurstsLawful s2 := by
    unfold s2
    split
    next gone =>
      have dropped := steady.dropZone .undelivered
      refine idle dropped ?_
      have absent : (s1.dropZone z .undelivered).settings.czones[z].present = false := by
        rw [(State.dropZone_changes ..).same .settings (by decide)]
        have gone : cfg.present = false := by simp only [Bool.and_eq_true, Bool.not_eq_true'] at gone; exact gone.2
        exact (congrArg ZoneView.present view).trans gone
      obtain ⟨may, -⟩ := burstsLawful_iff.1 dropped z
      by_contra sounds
      obtain ⟨here, -⟩ := may (Option.isSome_iff_ne_none.2 sounds)
      have here : (s1.dropZone z .undelivered).settings.czones[z].present = true := here
      rw [absent] at here
      cases here
    · split
      next come =>
        have was : old.present = false := by simp only [Bool.and_eq_true, Bool.not_eq_true'] at come; exact come.1
        have silent : s1.czones[z].sounding = none := (congrArg (fun v => v.czone.sounding) view).trans (free was)
        exact ((BurstsKept.deriveSilence ..).trans (.arbitrate ..)).keep (idle (steady.lawful silent) silent)
      next left come =>
        refine (BurstsKept.of_alike seen).keep (was ?_)
        change old.present = cfg.present
        generalize old.present = p at *
        generalize cfg.present = q at *
        revert left come
        cases p <;> cases q <;> decide
  split
  · exact present
  · exact (((BurstsKept.deriveSilence ..).trans (.refreshLights _)).trans (.of_changes (State.markIf_changes ..))).keep present

theorem BurstsKept.czoneSettled (s : State) (z : Fin 8) (new : CZoneSettings) (b : Bool) :
    BurstsKept s ((s.settled (s.settings.withCZone z new) b).czoneAmended z s.settings.czones[z]) := by
  refine ⟨fun l => ?_⟩
  have frame := s.settled_changes (s.settings.withCZone z new) b
  have settings := s.settled_settings (s.settings.withCZone z new) b
  generalize s.settled (s.settings.withCZone z new) b = t at *
  have czones : t.czones = s.czones := frame.same .czones (by decide)
  have circuits : t.circuits = s.circuits := frame.same .circuits (by decide)
  have flickers : t.flickers = s.flickers := frame.same .flickers (by decide)
  have cfg (j : Fin 8) : t.settings.czones[j] = if j = z then new else s.settings.czones[j] := by
    rw [settings, Settings.withCZone, put_get]
  have other {j : Fin 8} (same : t.settings.czones[j].present = s.settings.czones[j].present) : t.view j = s.view j := by
    simp only [State.view, same, czones, circuits, flickers]
  have others (j : Fin 8) (ne : j ≠ z) : t.view j = s.view j := other (by rw [cfg, if_neg ne])
  refine SteadyAt.czoneAmended ⟨?_, fun j ne => ?_⟩ (fun same => burstsLawful_iff.2 fun j => ?_) fun absent => ?_
  · have steady := (burstsLawful_iff.1 l z).steady
    have view : t.view z = { s.view z with present := t.settings.czones[z].present } := by
      simp only [State.view, czones, circuits, flickers]
    rw [view]
    exact ⟨steady.rests, steady.code⟩
  · rw [others j ne]
    exact burstsLawful_iff.1 l j
  · by_cases e : j = z
    · subst e
      rw [other same.symm]
      exact burstsLawful_iff.1 l j
    · rw [others j e]
      exact burstsLawful_iff.1 l j
  · rw [czones]
    obtain ⟨may, -⟩ := burstsLawful_iff.1 l z
    by_contra sounds
    obtain ⟨here, -⟩ := may (Option.isSome_iff_ne_none.2 sounds)
    have here : s.settings.czones[z].present = true := here
    rw [absent] at here
    cases here

/-! ## Starts -/

/-- Every zone is free and rests. -/
structure AllResting (s : State) : Prop where
  free : ∀ z : Fin 8, s.czones[z].sounding = none
  steady : ∀ z : Fin 8, (s.view z).Steady

namespace AllResting

variable {s t : State}

theorem lawful (h : AllResting s) : BurstsLawful s := burstsLawful_iff.2 fun z => (h.steady z).lawful (h.free z)

theorem alike (h : AllResting s) (k : SeenAlike s t) : AllResting t :=
  ⟨fun z => (congrArg (fun v => v.czone.sounding) (k.same z)).trans (h.free z), fun z => by rw [k.same z]; exact h.steady z⟩

theorem mode (h : AllResting s) (z : Fin 8) : s.czones[z].mode = none := ((h.steady z).rests (h.free z)).1

/-- A soft restart stops every burst (R154). -/
theorem dropCalls (l : BurstsLawful s) : AllResting s.dropCalls := by
  have turn (z : Fin 8) (t : State) (l : BurstsLawful t) : BurstsLawful ((t.stopBurst z).writeCZone z
      { (t.stopBurst z).czones[z] with queue := [], suppressed := false, barred := false }) ∧
      ((t.stopBurst z).writeCZone z
        { (t.stopBurst z).czones[z] with queue := [], suppressed := false, barred := false }).czones[z].sounding = none := by
    have stopped := (Seen.refl t z).stopBurst (burstsLawful_iff.1 l z).steady.code
    have lawful := (BurstsKept.stopBurst t z).keep l
    have free : (t.stopBurst z).czones[z].sounding = none := congrArg (fun v => v.czone.sounding) stopped.here
    generalize t.stopBurst z = u at *
    refine ⟨(BurstsKept.of_seen ((Seen.refl u z).writeCZone _) fun h => ?_).keep lawful, ?_⟩
    · exact ZoneView.Steady.lawful ⟨h.steady.rests, h.steady.code⟩ free
    · rw [State.writeCZone_czone, if_pos rfl]
      exact free
  have turned (z : Fin 8) := forAll_turn (P := BurstsLawful) (Q := fun t : State => BurstsLawful t ∧ t.czones[z].sounding = none)
    (f := fun z s =>
      let t := s.stopBurst z
      t.writeCZone z { t.czones[z] with queue := [], suppressed := false, barred := false }) z
    (fun i t _ l => (turn i t l).1) (fun t l => turn z t l) (fun i t ne h => ⟨(turn i t h.1).1, by
      dsimp only
      rw [State.writeCZone_czone, if_neg ne.symm]
      have others := ((Seen.refl t i).stopBurst (burstsLawful_iff.1 h.1 i).steady.code).others z ne.symm
      exact (congrArg (fun v => v.czone.sounding) others).trans h.2⟩) s l
  have emptied (t : State) (v : Vector CallSlot 32) (k : List (Fin 32)) (h : AllResting t) :
      AllResting { t with calls := v, callList := k } := h.alike ⟨fun _ => rfl⟩
  unfold State.dropCalls
  exact emptied _ _ _ ⟨fun z => (turned z).2, fun z => (burstsLawful_iff.1 (turned z).1 z).steady⟩

/-- A circuit whose demand is put off. -/
theorem writeCircuit (h : AllResting s) (c : Fin 16) (x : Circuit) (off : x.demand = false) :
    AllResting (s.writeCircuit c x) := by
  have still (z : Fin 8) : s.circuits[chimeOf z].demand = false := by
    obtain ⟨-, -, -, -, -, -, still⟩ := (h.steady z).rests (h.free z)
    exact still
  refine h.alike ⟨fun z => ?_⟩
  have demand : (s.writeCircuit c x).circuits[chimeOf z].demand = s.circuits[chimeOf z].demand := by
    rw [still, State.writeCircuit_circuits, put_get]
    split
    · exact off
    · exact still z
  rw [State.view, demand, State.writeCircuit_czones, State.writeCircuit_flickers, State.writeCircuit_settings]
  rfl

theorem changeCircuit (h : AllResting s) (c : Fin 16) (x : Circuit) (off : x.demand = false) :
    AllResting (s.changeCircuit c x) ∧ (s.changeCircuit c x).circuits = put s.circuits c x := by
  have written := h.writeCircuit c x off
  have circuits := State.writeCircuit_circuits s c x
  unfold State.changeCircuit State.announceCondition
  dsimp only
  split
  · exact ⟨written, circuits⟩
  · split
    · have frame := State.evalHolds_changes .system (s.writeCircuit c x)
      exact ⟨written.alike (.of_changes frame), (frame.same .circuits (by decide) : _ = (s.writeCircuit c x).circuits).trans circuits⟩
    · split
      next z _ =>
        have quiet : (s.writeCircuit c x).chimeLost z = s.writeCircuit c x := by
          unfold State.chimeLost
          dsimp only
          rw [written.mode z]
        rw [quiet]
        split
        · exact ⟨written, circuits⟩
        · exact ⟨written, circuits⟩
      · exact ⟨written, circuits⟩

theorem restartCircuits (h : AllResting s) (loads : BitVec 16) : AllResting (s.restartCircuits loads) := by
  unfold State.restartCircuits
  refine forAll_keeps AllResting _ (fun c t ht => ?_) s h
  obtain ⟨cleared, circuits⟩ := ht.changeCircuit c (Circuit.cleared t.now) rfl
  dsimp only
  generalize t.changeCircuit c (Circuit.cleared t.now) = u at *
  refine (cleared.changeCircuit c _ ((SameDemand.tested ..).demand.trans ?_)).1
  simp only [circuits, put_same]
  rfl

/-- The lighting unit forgets its codes where every zone rests (R127). -/
theorem restartLights (h : AllResting s) : AllResting s.restartLights := by
  have frame := s.restartLights_changes
  have czones : s.restartLights.czones = s.czones := frame.same .czones (by decide)
  have settings : s.restartLights.settings = s.settings := frame.same .settings (by decide)
  have circuits : s.restartLights.circuits = s.circuits := frame.same .circuits (by decide)
  refine h.alike ⟨fun z => ?_⟩
  obtain ⟨-, -, -, -, -, dark, -⟩ := (h.steady z).rests (h.free z)
  have code : s.restartLights.flickers[z].code = s.flickers[z].code := by
    have kept : s.flickers[z].code = 0 := (h.steady z).code.trans dark
    rw [kept]
    unfold State.restartLights
    dsimp only
    rw [(State.refreshGroups_changes _).same .flickers (by decide), tab_get]
  rw [State.view, code, czones, settings, circuits]
  rfl

end AllResting

namespace BurstsKept

theorem softRestart (s : State) (loads : BitVec 16) : BurstsKept s (s.softRestart loads) := by
  refine ⟨fun l => ?_⟩
  have resting := ((AllResting.dropCalls l).restartLights.restartCircuits loads).lawful
  unfold State.softRestart
  dsimp only
  generalize (s.dropCalls.restartLights).restartCircuits loads = u at *
  have zones := (BurstsKept.of_changes u.restartZones_changes).keep resting
  have irons := (BurstsKept.of_changes u.restartZones.restartIrons_changes).keep zones
  generalize u.restartZones.restartIrons = w at *
  exact ((of_changes (State.writeSupply_changes ..)).trans ((of_changes (State.restartLink_changes _)).trans
    (of_changes (State.flagAll_changes _)))).keep irons

/-- A start leaves every zone idle (R153). -/
theorem start (s : State) (p : Plant) (fromPin : Bool) : BurstsKept s (s.start p fromPin) := by
  have set (t : State) (v : Bool) : AllResting (t.setUp p v).writeRetained.startLights := by
    have view (z : Fin 8) : ((t.setUp p v).writeRetained.startLights).view z =
        ⟨CallZone.idle, 0, false, t.settings.czones[z].present⟩ := by
      have czone : ((t.setUp p v).writeRetained.startLights).czones[z] = CallZone.idle :=
        tab_get (fun _ => CallZone.idle) z
      have code : ((t.setUp p v).writeRetained.startLights).flickers[z].code = 0 := by
        change (tab _ : Vector Flicker 8)[z].code = 0
        rw [tab_get]
      have demand : ((t.setUp p v).writeRetained.startLights).circuits[chimeOf z].demand = false := by
        change (tab _ : Vector Circuit 16)[chimeOf z].demand = false
        rw [tab_get]
        exact (SameDemand.tested ..).demand
      rw [State.view, czone, code, demand]
      rfl
    refine ⟨fun z => congrArg (fun v => v.czone.sounding) (view z), fun z => ?_⟩
    rw [view]
    exact ⟨fun _ => ⟨rfl, rfl, rfl, rfl, rfl, rfl, rfl⟩, rfl⟩
  have rest (t : State) : BurstsKept t t.startHolds.flagAll :=
    (forAll (fun a u => of_changes (State.evalAllHolds_changes a u)) t).trans (of_changes (State.flagAll_changes _))
  exact ⟨fun _ => (rest _).keep (set _ _).lawful⟩

end BurstsKept

/-! ## Decisions and events -/

theorem Decides.burstsKept {code : ReqCode} {q : Ask} {s : State} {v : Verdict} (h : Decides code q s v) :
    BurstsKept s v.2 := by
  cases h with
  | stays => exact .refl s
  | looks => exact .of_changes (State.lookClears_changes ..)
  | arms => exact .of_changes (State.arm_changes ..)
  | stores => exact .of_changes s.beginStore_changes
  | restarts => exact .softRestart ..
  | blocks => exact .of_changes (State.mark_changes ..)
  | enters => exact .enter ..
  | amendsPerf aud =>
    obtain ⟨new, written⟩ := s.applyPerf_settled q aud
    rw [written]
    exact .settled s _ _ rfl
  | amendsIron a ch limitIn new =>
    have noted : BurstsKept s (s.settled (s.settings.withIron ch new) (s.settings.irons[ch] != new)) := .settled s _ _ rfl
    rw [State.applyIron_settled]
    dsimp only
    split
    · exact (noted.trans (.of_changes (State.actIron_changes ..))).trans (.of_changes (State.ironPresence_changes ..))
    · exact noted.trans (.of_changes (State.actIron_changes ..))
  | amendsZone a z new =>
    have noted : BurstsKept s (s.settled (s.settings.withZone z new) (s.settings.zones[z] != new)) := .settled s _ _ rfl
    rw [State.applyZone_settled]
    exact (noted.trans (.of_changes (State.actZone_changes ..))).trans (.serveZone ..)
  | targets => exact .of_changes (State.applyTarget_changes ..)
  | amendsGroup g =>
    obtain ⟨new, written⟩ := s.applyGroup_settled q g
    have noted : BurstsKept s (s.settled (s.settings.withGroup g new) (s.settings.groups[g] != new)) := .settled s _ _ rfl
    rw [written]
    exact (noted.trans (.of_changes (State.groupAmended_changes ..))).trans (.announceLit _)
  | amendsCZone a z new => exact .czoneSettled s z new _
  | amendsCircuit a c =>
    have noted (new : CircuitSettings) :
        BurstsKept s (s.settled (s.settings.withCircuit c new) (s.settings.circuits[c] != new)) := .settled s _ _ rfl
    rw [State.applyCircuit_settled]
    exact ((noted _).trans (.of_changes (State.serveCircuit_changes ..))).trans (.resetCircuit ..)
  | amendsStatus a new =>
    have noted : BurstsKept s (s.settled { s.settings with part := new } (s.settings.part != new)) := .settled s _ _ rfl
    rw [State.applyStatus_settled]
    exact (noted.trans (.serveBrigade ..)).trans (.of_changes (State.setLock_changes ..))
  | amendsStation a n new =>
    unfold State.applyStation
    refine BurstsKept.trans (t := { s with
      settings := { s.settings with stations := put s.settings.stations n new }
      stations := put s.stations n (s.stations[n].amended s.settings.stations[n] new) }) ⟨id⟩ ?_
    exact (BurstsKept.of_changes (State.noteChange_changes ..)).trans (.of_changes (State.markIf_changes ..))
  | raisesHold => exact .of_changes (State.fillHold_changes ..)
  | retiresHold => exact .of_changes (State.emptyHold_changes ..)
  | widens => exact .widenIncident ..
  | raisesIncident => exact .raiseStationIncident ..
  | actsIncident => exact .actIncident ..
  | retiresIncident => exact .retireIncidentAt ..
  | raisesCall _ x b c room _ _ _ _ found => exact (BurstsKept.roomForCall found).trans (.fillCall ..)
  | amendsCall => exact .amendCallAt ..
  | retiresCall => exact .retireCallAt ..

theorem BurstsKept.takes {s t : State} {f : State → State} (run : s.takes f = .next t) (h : BurstsKept s (f s)) :
    BurstsKept s t := by
  unfold State.takes at run
  obtain rfl := Host.Outcome.next.inj run
  split
  · exact h
  · exact .refl s

theorem event_burstsKept {i : Instr} {s t : State} (run : exec i s = .next t) (event : requestOf i = none)
    (known : ∀ code kind r, i ≠ .unknownRequest code kind r) : BurstsKept s t := by
  have frame := commandsTouchOnlyTheirParts i s t run
  cases i with
  | unknownRequest code kind r => exact absurd rfl (known code kind r)
  | confirmTimerExpiry z =>
    simp only [exec, execConfirmTimerExpiry] at run
    split at run
    · exact .confirms run
    · cases run; exact .refl s
  | acknowledgeTimerExpiry i => exact .takes run (.ackRunsOut s i)
  | investigationTimerExpiry i => exact .takes run (.investigationRunsOut s i)
  | fadeStep => exact .takes run (.fadeEngineStep s)
  | fadeComplete g => exact .takes run (.fadeEnds s g)
  | notBeforeDue c z => exact .takes run (.notBeforePasses s c z)
  | strokeOnElapsed z => exact .takes run (.strokeOnRuns s z)
  | strokeGapElapsed z => exact .takes run (.strokeGapRuns s z)
  | burstEnd z => exact .takes run (.burstRuns s z)
  | patternPartEnd c => exact .takes run (.patternRuns s c)
  | testTimerExpiry c seen => exact .takes run (.testRuns s c seen)
  | overloadEvent c => exact .takes run (.overloads s c)
  | retryTimerExpiry c => exact .takes run (.retryRuns s c)
  | cleanTimerExpiry c => exact .takes run (.cleanRuns s c)
  | offTimerExpiry c => exact .takes run (.offRuns s c)
  | mainsSenseChange on => exact .takes run (.mainsLine s on)
  | lossTimerExpiry => exact .takes run (.lossRuns s)
  | settlingTimerExpiry => exact .takes run (.settlingRuns s)
  | coldStart p =>
    obtain rfl : s.start p false = t := Host.Outcome.next.inj run
    exact .start ..
  | resetPin p => exact .takes run (.start s p true)
  | _ => first
    | exact .of_changes frame
    | cases event

theorem step_burstsKept {s t : State} (run : step s = .next t) : BurstsKept s t := by
  refine step_keeps (P := BurstsKept s) (fun u n h => h.trans ⟨id⟩) (fun u rest h => h.trans ⟨id⟩)
    (fun i u w h ran => ?_) (.refl s) run
  exact exec_keeps (P := BurstsKept s) (fun u h => h.trans (.of_changes u.frameGood_changes))
    (fun u h => h.trans (.of_changes u.frameFails_changes)) (fun u n b a h => h.trans (.of_changes (u.reply_changes n b a)))
    (fun _ _ _ _ h decided => h.trans decided.burstsKept)
    (fun event known h => h.trans (event_burstsKept ran event known)) h ran

/-- Settles O9. -/
theorem burstsStayLawful : Obligations.BurstsStayLawful := by
  unfold Obligations.BurstsStayLawful
  exact fun s t h run => (step_burstsKept run).keep h

end Sys2Proof.Machine
end

section
/-!
PROOFS. No performance runs against a GENERAL incident or an unproved curtain (R3, R7, R14, R19, R29): the lawful holds
stop what may not begin, and an announcement halts what may not go on.
-/

namespace Sys2Proof.Machine

-- One declaration at a time: side conditions closed by tactics wait for what stands before them.
set_option Elab.async false

/-! ## One performance -/

/-- What is lawful of one performance: `called`, that an open GENERAL incident concerns it, `present`, and `iron`, that
it has an iron. -/
structure Perf.LawfulFor (called present iron : Bool) (p : Perf) : Prop where
  quiet : called = true → p.phase.haltable = false
  absent : present = false → p.phase = .dark
  required : iron = true → p.phase ≠ .dark → p.ironProved ≠ .notRequired
  proved : iron = true → (p.phase = .running ∨ p.phase = .interval ∨ p.phase = .closing) → p.ironProved = .proved
  interrupted : p.interrupted = true → p.phase = .halted ∨ p.phase = .closing

theorem performancesLawful_iff {s : State} : PerformancesLawful s ↔
    ∀ a : Fin 3, s.perfs[a].LawfulFor (has s.generalSet a) s.settings.perfs[a].present s.settings.irons[a].present := by
  refine forall_congr' fun a => ⟨fun ⟨quiet, absent, iron, interrupted⟩ => ?_, fun h => ?_⟩
  · exact ⟨quiet, absent, fun here => (iron here).1, fun here => (iron here).2, interrupted⟩
  · exact ⟨h.quiet, h.absent, fun here => ⟨h.required here, h.proved here⟩, h.interrupted⟩

namespace Perf.LawfulFor

variable {called present iron called' present' iron' : Bool} {p : Perf}

/-- A DARK performance is lawful whatever is said of it. -/
theorem dark (h : p.LawfulFor called present iron) (dark : p.phase = .dark) : p.LawfulFor called' present' iron' where
  quiet _ := by rw [dark]; rfl
  absent _ := dark
  required _ light := absurd dark light
  proved _ running := by rw [dark] at running; simp at running
  interrupted := h.interrupted

theorem still (h : p.LawfulFor called present iron) (moves : p.phase ≠ .halted) (closes : p.phase ≠ .closing) :
    p.interrupted = false := by
  by_contra interrupted
  exact (h.interrupted (by simpa using interrupted)).elim moves closes

theorem mono (h : p.LawfulFor called present iron) (less : called' = true → called = true) :
    p.LawfulFor called' present iron := ⟨fun c => h.quiet (less c), h.absent, h.required, h.proved, h.interrupted⟩

/-- A halt answers a call (R13, R14). -/
theorem halt (h : p.LawfulFor called present iron) (light : p.phase ≠ .dark) :
    ({ p with phase := .halted } : Perf).LawfulFor called' present iron where
  quiet _ := rfl
  absent gone := absurd (h.absent gone) light
  required here _ := h.required here light
  proved _ running := by simp at running
  interrupted _ := .inl rfl

/-- A judgement in the circumstances of a proof drop (R19). -/
theorem judged (h : p.LawfulFor called present iron) (drop : p.proofDrop = true) (pass : Bool) :
    ({ p with ironProved := if pass then .proved else .failed } : Perf).LawfulFor called present iron where
  quiet := h.quiet
  absent := h.absent
  required _ _ := by cases pass <;> exact nofun
  proved _ running := by
    unfold Perf.proofDrop at drop
    rcases running with e | e | e
    · rw [show p.phase = .running from e] at drop; cases drop
    · rw [show p.phase = .interval from e] at drop; cases drop
    · rw [show p.phase = .closing from e] at drop; cases drop
  interrupted := h.interrupted

end Perf.LawfulFor

/-! ## What keeps performances lawful -/

/-- Between `s` and `t` performances that were lawful have stayed so. -/
structure PerfsKept (s t : State) : Prop where
  keep : PerformancesLawful s → PerformancesLawful t

namespace PerfsKept

variable {s t u : State}

theorem refl (s : State) : PerfsKept s s := ⟨id⟩

theorem trans (h : PerfsKept s t) (k : PerfsKept t u) : PerfsKept s u := ⟨fun l => k.keep (h.keep l)⟩

/-- The performances and the settings stand, and no more auditoria are called for. -/
theorem of_less (perfs : t.perfs = s.perfs) (settings : t.settings = s.settings)
    (less : ∀ a, has t.generalSet a = true → has s.generalSet a = true) : PerfsKept s t := by
  refine ⟨fun l => performancesLawful_iff.2 fun a => ?_⟩
  rw [perfs, settings]
  exact (performancesLawful_iff.1 l a).mono (less a)

theorem of_changes {ps : List Part} (h : ChangesOnly ps s t)
    (out : ps.all (fun p => !([.settings, .incidents, .perfs] : List Part).contains p) = true := by rfl) : PerfsKept s t := by
  have same (p : Part) (mem : p ∈ ([.settings, .incidents, .perfs] : List Part)) : p.same s t :=
    h.same p fun inside => by
      have := List.all_eq_true.1 out p inside
      simp only [Bool.not_eq_true', List.contains_eq_mem, decide_eq_false_iff_not] at this
      exact this mem
  obtain ⟨slots, order⟩ : t.incidents = s.incidents ∧ t.incidentList = s.incidentList := same .incidents (by simp)
  refine of_less (same .perfs (by simp)) (same .settings (by simp)) fun a => ?_
  simp only [State.generalSet, State.openIncidents, slots, order]
  exact id

/-- One performance is written, and is lawful as it was lawful. -/
theorem writePerf (s : State) (a : Fin 3) (p : Perf)
    (lawful : s.perfs[a].LawfulFor (has s.generalSet a) s.settings.perfs[a].present s.settings.irons[a].present →
      p.LawfulFor (has s.generalSet a) s.settings.perfs[a].present s.settings.irons[a].present) :
    PerfsKept s (s.writePerf a p) := by
  refine ⟨fun l => performancesLawful_iff.2 fun b => ?_⟩
  have general : (s.writePerf a p).generalSet = s.generalSet := (State.writePerf_changes ..).generalSet
  rw [general, State.writePerf_perf, State.writePerf_settings]
  split
  next e => subst e; exact lawful (performancesLawful_iff.1 l b)
  · exact performancesLawful_iff.1 l b

theorem setProved (s : State) (a : Fin 3) (proof : IronProved)
    (lawful : s.perfs[a].LawfulFor (has s.generalSet a) s.settings.perfs[a].present s.settings.irons[a].present →
      ({ s.perfs[a] with ironProved := proof } : Perf).LawfulFor (has s.generalSet a) s.settings.perfs[a].present
        s.settings.irons[a].present) : PerfsKept s (s.setProved a proof) := by
  unfold State.setProved
  dsimp only
  split
  · exact refl s
  · exact (writePerf s a _ lawful).trans (of_changes (State.evalHold_changes ..))

theorem takeJudgement (s : State) (a : Fin 3) (k : DescentKind) (b : Bool) : PerfsKept s (s.takeJudgement a k b) := by
  unfold State.takeJudgement
  split
  · exact refl s
  · split
    next drop => exact setProved s a _ fun l => l.judged drop b
    · exact refl s

theorem arrive (s : State) (ch : Fin 3) : PerfsKept s (s.arrive ch) := by
  unfold State.arrive
  extract_lets x v s1 s2 result s3
  have landed : PerfsKept s s1 := of_changes (State.writeIron_changes ..)
  have checked : PerfsKept s s2 := by
    unfold s2
    split
    · exact landed.trans (of_changes (State.recordFault_changes ..))
    · exact landed
  exact (checked.trans (of_changes (State.writeIron_changes ..))).trans (takeJudgement ..)

theorem limitInMade (s : State) (ch : Fin 3) : PerfsKept s (s.limitInMade ch) := by
  unfold State.limitInMade
  split
  · exact refl s
  · extract_lets x s1 s2 uncommanded
    have loaded : PerfsKept s s1 := of_changes (State.reload_changes ..)
    have recorded : PerfsKept s s2 := by
      unfold s2
      split
      · exact loaded
      · exact loaded.trans (of_changes (State.recordFault_changes ..))
    have fallen : PerfsKept s uncommanded := recorded.trans (of_changes (State.writeIron_changes ..))
    split
    · exact loaded.trans (arrive ..)
    · exact fallen
    · exact fallen
    · exact loaded
    · exact loaded

/-! ### Incidents -/

/-- Incidents have changed, and an announcement halts whatever is newly concerned (R14). -/
theorem announced (ids : List (Fin 25)) (perfs : t.perfs = s.perfs) (settings : t.settings = s.settings)
    (named : ∀ x ∈ t.openIncidents, x.stage = .general → x ∈ ids.filterMap t.incident? ∨
      ∀ a, has x.auds a = true → has s.generalSet a = true) : PerfsKept s (t.announceIncidents ids) := by
  refine ⟨fun l => performancesLawful_iff.2 fun a => ?_⟩
  have before := performancesLawful_iff.1 l a
  have frame := t.announceIncidents_changes ids
  obtain ⟨halts, -⟩ := State.announceIncidents_announced ids t
  have incident (i : Fin 25) : (t.announceIncidents ids).incident? i = t.incident? i := frame.incident? i
  have slots : (t.announceIncidents ids).incident? = t.incident? := funext incident
  rw [frame.generalSet, frame.same .settings (by decide), settings]
  obtain ⟨halted, spared⟩ := halts a
  rw [slots, State.phase, perfs] at halted spared
  by_cases moves : (∃ x ∈ ids.filterMap t.incident?, x.stage = .general ∧ has x.auds a = true) ∧
      s.perfs[a].phase.haltable = true
  · rw [halted moves]
    exact before.halt (haltable_light moves.2)
  · have stays : (∀ x ∈ ids.filterMap t.incident?, x.stage = .general → has x.auds a = false) ∨
        s.perfs[a].phase.haltable = false := by
      by_contra both
      obtain ⟨some, haltable⟩ := not_or.1 both
      refine moves ⟨?_, by simpa using haltable⟩
      by_contra none
      refine some fun x mem general => ?_
      by_contra concerned
      exact none ⟨x, mem, general, by simpa using concerned⟩
    rw [spared stays]
    refine ⟨fun called => ?_, before.absent, before.required, before.proved, before.interrupted⟩
    obtain ⟨x, mem, general, concerned⟩ := (State.generalSet_has ..).1 called
    obtain here | was := named x mem general
    · rcases stays with none | still
      · rw [none x here general] at concerned
        cases concerned
      · exact still
    · exact before.quiet (was a concerned)

/-- What an announcement does not name is as it was. -/
theorem announced_others (ids : List (Fin 25)) (perfs : t.perfs = s.perfs) (settings : t.settings = s.settings)
    (others : ∀ j ∈ t.incidentList, j ∉ ids → j ∈ s.incidentList ∧ t.incident? j = s.incident? j) :
    PerfsKept s (t.announceIncidents ids) := by
  refine announced ids perfs settings fun x mem general => ?_
  obtain ⟨j, listed, slot⟩ := mem_openIncidents.1 mem
  by_cases named : j ∈ ids
  · exact .inl (List.mem_filterMap.2 ⟨j, named, slot⟩)
  · obtain ⟨was, same⟩ := others j listed named
    refine .inr fun a concerned => (State.generalSet_has ..).2 ⟨x, ?_, general, concerned⟩
    exact mem_openIncidents.2 ⟨j, was, same.symm.trans slot⟩

/-- Editing keeps the performances where it keeps stage, source and auditoria. -/
theorem edited (s : State) (i : Fin 25) (f : Incident → Incident)
    (kept : ∀ x, s.incident? i = some x → (f x).stage = x.stage ∧ (f x).source = x.source ∧ (f x).auds = x.auds) :
    PerfsKept s (s.editIncident i f) := by
  have frame := State.editIncident_changes s i f
  refine of_less (frame.same .perfs (by decide)) (frame.same .settings (by decide)) fun a => ?_
  rw [State.editIncident_generalSet kept]
  exact id

theorem escalateIncident (s : State) (i : Fin 25) (why : EscalationCause) : PerfsKept s (s.escalateIncident i why) := by
  have frame := (State.editIncident_changes s i (Incident.escalate why)).andThen (rs := [.incidents, .circuits, .stations])
    (State.demandAll_changes _)
  refine announced_others [i] (frame.same .perfs (by decide)) (frame.same .settings (by decide)) fun j listed other => ?_
  have told := State.demandAll_changes (s.editIncident i (Incident.escalate why))
  have list : (s.editIncident i (Incident.escalate why)).demandAll.incidentList = s.incidentList :=
    ((told.same .incidents (by decide)).2).trans (State.editIncident_list ..)
  rw [list] at listed
  rw [told.incident?, State.editIncident_incident?, if_neg (by simpa using other)]
  exact ⟨listed, rfl⟩

theorem fillIncident_others {s : State} {i j : Fin 25} {x : Incident} (listed : j ∈ (s.fillIncident i x).incidentList)
    (other : j ≠ i) : j ∈ s.incidentList ∧ (s.fillIncident i x).incident? j = s.incident? j := by
  rw [State.fillIncident_incident?, if_neg other]
  rw [State.fillIncident_list, List.mem_append] at listed
  obtain old | new := listed
  · exact ⟨List.mem_of_mem_erase old, rfl⟩
  · exact absurd (by simpa using new) other

/-- An incident joins the list and is announced. -/
theorem joins (s : State) (i : Fin 25) (x : Incident) :
    PerfsKept s ((s.fillIncident i x).demandAll.announceIncidents [i]) := by
  have told := State.demandAll_changes (s.fillIncident i x)
  have frame := (State.fillIncident_changes s i x).andThen (rs := [.incidents, .circuits, .stations]) told
  refine announced_others [i] (frame.same .perfs (by decide)) (frame.same .settings (by decide)) fun j listed other => ?_
  rw [(told.same .incidents (by decide)).2] at listed
  rw [told.incident?]
  exact fillIncident_others listed (by simpa using other)

theorem raiseStationIncident (s : State) (st : Fin 8) (set : AudSet) (i : Fin 25) :
    PerfsKept s (s.raiseStationIncident st set i) := joins ..

/-- Escalating some incidents leaves the list and the others. -/
theorem escalations_others (why : EscalationCause) (ids : List (Fin 25)) (s : State) :
    (ids.foldl (fun s j => s.editIncident j (Incident.escalate why)) s).incidentList = s.incidentList ∧
      ∀ j, j ∉ ids → (ids.foldl (fun s j => s.editIncident j (Incident.escalate why)) s).incident? j = s.incident? j := by
  induction ids generalizing s with
  | nil => exact ⟨rfl, fun _ _ => rfl⟩
  | cons i ids ih =>
    obtain ⟨list, others⟩ := ih (s.editIncident i (Incident.escalate why))
    refine ⟨list.trans (State.editIncident_list ..), fun j out => ?_⟩
    obtain ⟨ne, later⟩ := not_or.1 (List.mem_cons.not.1 out)
    rw [List.foldl_cons, others j later, State.editIncident_incident?, if_neg ne]

theorem raiseZoneIncident (s : State) (z : Fin 24) (i : Fin 25) : PerfsKept s (s.raiseZoneIncident z i) := by
  unfold State.raiseZoneIncident
  extract_lets x shared s1 named s2 s3
  have filled : ChangesOnly [.incidents, .zones, .stations] s s2 :=
    (State.fillIncident_changes s i x).andThen (State.writeZone_changes ..)
  have escalated : ChangesOnly [.incidents, .stations] s2 s3 :=
    .foldl (fun t j => State.editIncident_changes t j _) _ _
  have told := State.demandAll_changes s3
  have frame := (filled.andThen (rs := [.incidents, .zones, .stations]) escalated).andThen
    (rs := [.incidents, .zones, .circuits, .stations]) told
  refine announced_others (i :: shared) (frame.same .perfs (by decide)) (frame.same .settings (by decide))
    fun j listed other => ?_
  obtain ⟨ne, out⟩ := not_or.1 (List.mem_cons.not.1 other)
  obtain ⟨list, others⟩ := escalations_others .secondZone shared s2
  have zone : ChangesOnly [.zones, .stations] s1 s2 := State.writeZone_changes ..
  rw [(told.same .incidents (by decide)).2, show s3.incidentList = s2.incidentList from list,
    (zone.same .incidents (by decide)).2] at listed
  rw [told.incident?, show s3.incident? j = s2.incident? j from others j out, zone.incident?]
  exact fillIncident_others listed ne

theorem reactivate (s : State) (i : Fin 25) : PerfsKept s (s.reactivate i) := by
  unfold State.reactivate
  refine ((edited s i _ fun x _ => ?_).trans (of_changes (State.demandAll_changes _))).trans
    (of_changes (State.mark_changes ..))
  exact ⟨rfl, rfl, rfl⟩

theorem widenIncident (s : State) (i : Fin 25) (set : AudSet) : PerfsKept s (s.widenIncident i set) := by
  unfold State.widenIncident
  split
  · exact refl s
  next x slot =>
    dsimp only
    have told := State.demandAll_changes (s.writeIncident i { x with auds := x.auds ||| set, silenced := false })
    have wide := State.writeIncident_changes s i { x with auds := x.auds ||| set, silenced := false }
    split
    next same =>
      refine trans ?_ (of_changes told)
      have widened := edited s i (fun _ => { x with auds := x.auds ||| set, silenced := false }) fun y open? => by
        obtain rfl : x = y := Option.some.inj (slot.symm.trans open?)
        exact ⟨rfl, rfl, same⟩
      unfold State.editIncident at widened
      rw [slot] at widened
      exact widened
    · have frame := wide.andThen (rs := [.incidents, .circuits, .stations]) told
      refine announced_others [i] (frame.same .perfs (by decide)) (frame.same .settings (by decide))
        fun j listed other => ?_
      rw [(told.same .incidents (by decide)).2, State.writeIncident_incidentList] at listed
      rw [told.incident?, State.writeIncident_incident?, if_neg (by simpa using other)]
      exact ⟨listed, rfl⟩

theorem retireIncidentAt (s : State) (i : Fin 25) : PerfsKept s (s.retireIncidentAt i) := by
  unfold State.retireIncidentAt
  split
  · exact refl s
  · extract_lets s1 s2
    have emptied : PerfsKept s s1 := by
      have frame := State.emptyIncident_changes s i
      refine trans (of_less (frame.same .perfs (by decide)) (frame.same .settings (by decide)) fun a concerned => ?_)
        (of_changes (State.demandAll_changes _))
      obtain ⟨y, mem, general, has⟩ := (State.generalSet_has ..).1 concerned
      obtain ⟨j, listed, slot⟩ := mem_openIncidents.1 mem
      rw [State.emptyIncident_incident?] at slot
      split at slot
      · cases slot
      · exact (State.generalSet_has ..).2 ⟨y, mem_openIncidents.2 ⟨j, List.mem_of_mem_erase listed, slot⟩, general, has⟩
    have told : PerfsKept s1 s2 := by
      unfold s2
      split
      · exact of_changes (State.zoneRetired_changes ..)
      · exact refl s1
    exact (((emptied.trans told).trans (of_changes (State.evalHolds_changes ..))).trans
      (of_changes (State.refreshLights_changes _))).trans (of_changes (State.deriveSilences_changes _))

theorem actIncident (s : State) (i : Fin 25) (x : Incident) (st : Fin 8) (fs : List FieldVal) :
    PerfsKept s (s.actIncident i x st fs) := by
  have edits (f : Incident → Incident)
      (kept : ∀ x, (f x).stage = x.stage ∧ (f x).source = x.source ∧ (f x).auds = x.auds) :
      PerfsKept s (s.editIncident i f) := edited s i f fun x _ => kept x
  unfold State.actIncident
  split
  · split
    · refine (edits _ fun _ => ?_).trans (of_changes (State.demandAlert_changes _))
      exact ⟨rfl, rfl, rfl⟩
    · exact refl s
  · split
    · split
      · exact escalateIncident ..
      · exact refl s
    · split
      · split
        · exact refl s
        · refine (edits _ fun _ => ?_).trans (of_changes (State.demandSounders_changes _))
          exact ⟨rfl, rfl, rfl⟩
      · exact refl s

/-! ### Settings -/

/-- Settings change with every performance DARK alone (R194). -/
theorem guarded {ps : List Part} {st : Fin 8} (guard : SettingsGuarded st s t) (frame : ChangesOnly ps s t)
    (hp : ps.contains .perfs = false := by rfl) (hi : ps.contains .incidents = false := by rfl) : PerfsKept s t := by
  have perfs : t.perfs = s.perfs := frame.same .perfs (by simpa using hp)
  have general : t.generalSet = s.generalSet := frame.generalSet hi
  obtain settings | ⟨-, -, dark, -⟩ := guard.settings
  · refine of_less perfs settings fun a => ?_
    rw [general]
    exact id
  · refine ⟨fun l => performancesLawful_iff.2 fun a => ?_⟩
    rw [perfs]
    exact (performancesLawful_iff.1 l a).dark ((State.allDark_iff s).1 dark a)

/-! ### Phases and starts -/

/-- Entering a phase writes the performance and changes nothing else of what is lawful. -/
theorem entersPhase (s : State) (a : Fin 3) (p : Perf) (r : Option Response) (notice : Option DeliveryState)
    (lawful : s.perfs[a].LawfulFor (has s.generalSet a) s.settings.perfs[a].present s.settings.irons[a].present →
      p.LawfulFor (has s.generalSet a) s.settings.perfs[a].present s.settings.irons[a].present) :
    PerfsKept s (s.enterPhase a p r notice) := by
  have written := writePerf s a p lawful
  have lit := (written.trans (of_changes (State.respondWith_changes _ a r))).trans (of_changes (State.refreshLights_changes _))
  unfold State.enterPhase
  dsimp only
  split
  · exact lit
  · exact lit.trans (of_changes (State.callNotice_changes ..))

/-- With no hold in an open performance, no incident concerns it and no proof is owed (R23..R25). -/
theorem free_of_holds {s : State} {a : Fin 3} (holds : HoldsLawfulFor (fun _ _ => True) s) (light : s.phase a ≠ .dark)
    (free : s.blockingHold a = none) :
    has s.generalSet a = false ∧ unproved s.perfs[a].ironProved = false := by
  have empty : s.holdLists[a] = [] := by
    simpa [State.blockingHold, State.oldestHold] using free
  have absent (c : HoldCause) (auto : c.automatic) : (s.holdReason a c).isSome = false := by
    have filled := ((holds.lists a).2 (holdSlot c)).1
    rw [holds.due c a auto trivial light, empty] at filled
    exact filled
  constructor
  · by_contra called
    obtain ⟨x, mem, -, concerned⟩ := (State.generalSet_has ..).1 (by simpa using called)
    have reason := absent .fire HoldCause.automatic_fire
    rw [State.holdReason_fire, List.any_eq_false] at reason
    exact reason x mem concerned
  · have reason := absent .iron HoldCause.automatic_iron
    rw [State.holdReason_iron] at reason
    exact (Bool.or_eq_false_iff.1 reason).2

theorem proved_of {p : IronProved} (owed : unproved p = false) (required : p ≠ .notRequired) : p = .proved := by
  cases p with
  | proved => rfl
  | notRequired => exact absurd rfl required
  | _ => cases owed

/-- An opening or a phase end gives the proof afresh (R7, R17). -/
theorem freshProof_required {s : State} {a : Fin 3} (present : s.settings.irons[a].present = true) :
    s.freshProof a ≠ .notRequired := by
  rw [State.freshProof, if_pos present]
  exact nofun

theorem transition_houseOpen {p : Phase} {adm : Admission} (row : transition p .houseOpen = some adm) : p = .prepare := by
  revert row
  cases p <;> simp [transition]

theorem transition_running {p : Phase} {adm : Admission} (row : transition p .running = some adm) : p = .beginners := by
  revert row
  cases p <;> simp [transition]

theorem transition_interval {p : Phase} {adm : Admission} (row : transition p .interval = some adm) : p = .running := by
  revert row
  cases p <;> simp [transition]

theorem transition_beginners {p : Phase} {adm : Admission} (row : transition p .beginners = some adm) :
    p.haltable = true ∨ p = .halted := by
  revert row
  cases p <;> simp [transition, Phase.haltable]

theorem transition_closing {p : Phase} {adm : Admission} (row : transition p .closing = some adm) :
    p = .running ∨ p = .interval ∨ p = .halted := by
  revert row
  cases p <;> simp [transition]

/-- Every transition that its row, the holds and the conditions allow keeps the performances lawful (R7..R18). -/
theorem enter {s : State} (a : Fin 3) (st : Fin 8) {p : Phase} {adm : Admission}
    (holds : HoldsLawfulFor (fun _ _ => True) s) (row : transition (s.phase a) p = some adm)
    (free : s.obstacle a p = none) : PerfsKept s (s.enter a st p) := by
  unfold State.enter
  cases p with
  | dark =>
    dsimp only
    unfold State.enterDark
    have cleared := State.clearHolds_changes a s
    have perfs : (s.clearHolds a).perfs = s.perfs := cleared.same .perfs (by decide)
    refine (of_changes cleared).trans (entersPhase _ a _ _ _ fun h => ?_)
    exact ⟨fun _ => rfl, fun _ => rfl, fun _ light => absurd rfl light, fun _ running => by simp at running, nofun⟩
  | prepare =>
    dsimp only
    unfold State.enterPrepare
    refine (entersPhase s a _ none none fun h => ?_).trans (of_changes (State.evalAllHolds_changes ..))
    have present : s.settings.perfs[a].present = true := by
      simp only [State.obstacle] at free
      split at free
      · assumption
      · cases free
    refine ⟨fun _ => rfl, fun gone => ?_, fun here _ => freshProof_required here, fun _ running => by simp at running, nofun⟩
    rw [present] at gone
    cases gone
  | houseOpen =>
    dsimp only
    unfold State.enterHouseOpen
    refine entersPhase s a _ _ none fun h => ?_
    have was : s.phase a = .prepare := transition_houseOpen row
    have light : s.phase a ≠ .dark := by rw [was]; exact nofun
    obtain ⟨quiet, -⟩ := free_of_holds holds light free
    have still := h.still (show s.phase a ≠ _ by rw [was]; exact nofun) (show s.phase a ≠ _ by rw [was]; exact nofun)
    refine ⟨fun called => ?_, fun gone => absurd (h.absent gone) light, fun here _ => h.required here light,
      fun _ running => by simp at running, fun on => ?_⟩
    · rw [quiet] at called; cases called
    · rw [still] at on; cases on
  | beginners =>
    dsimp only
    unfold State.enterBeginners
    refine entersPhase s a _ none none fun h => ?_
    have light : s.phase a ≠ .dark := fun dark => by rw [dark] at row; cases row
    have closing : s.phase a ≠ .closing := fun dark => by rw [dark] at row; cases row
    refine ⟨fun called => ?_, fun gone => absurd (h.absent gone) light, fun here _ => h.required here light,
      fun _ running => by simp at running, fun on => ?_⟩
    · rcases transition_beginners row with haltable | halted
      · exact absurd haltable (Bool.eq_false_iff.1 (h.quiet called))
      · rw [State.obstacle, if_pos ⟨halted, called⟩] at free
        cases free
    · dsimp only at on
      split at on
      · cases on
      next moves => rw [h.still moves closing] at on; cases on
  | running =>
    dsimp only
    unfold State.enterRunning
    refine entersPhase s a _ none _ fun h => ?_
    have was : s.phase a = .beginners := transition_running row
    have light : s.phase a ≠ .dark := by rw [was]; exact nofun
    have still := h.still (show s.phase a ≠ _ by rw [was]; exact nofun) (show s.phase a ≠ _ by rw [was]; exact nofun)
    have unheld : s.blockingHold a = none := by
      simp only [State.obstacle] at free
      split at free
      · cases free
      · assumption
    obtain ⟨quiet, owed⟩ := free_of_holds holds light unheld
    refine ⟨fun called => ?_, fun gone => absurd (h.absent gone) light, fun here _ => h.required here light,
      fun here _ => proved_of owed (h.required here light), fun on => ?_⟩
    · rw [quiet] at called; cases called
    · rw [still] at on; cases on
  | interval =>
    dsimp only
    unfold State.enterInterval
    refine entersPhase s a _ _ none fun h => ?_
    have was : s.phase a = .running := transition_interval row
    have light : s.phase a ≠ .dark := by rw [was]; exact nofun
    have still := h.still (show s.phase a ≠ _ by rw [was]; exact nofun) (show s.phase a ≠ _ by rw [was]; exact nofun)
    refine ⟨fun called => ?_, fun gone => absurd (h.absent gone) light, fun here _ => h.required here light,
      fun here _ => h.proved here (.inl was), fun on => ?_⟩
    · have haltable := h.quiet called
      change (s.phase a).haltable = false at haltable
      rw [was] at haltable
      cases haltable
    · rw [still] at on; cases on
  | closing =>
    dsimp only
    unfold State.enterClosing
    refine entersPhase s a _ _ _ fun h => ?_
    have light : s.phase a ≠ .dark := fun dark => by rw [dark] at row; cases row
    refine ⟨fun _ => rfl, fun gone => absurd (h.absent gone) light, fun here _ => h.required here light,
      fun here _ => ?_, fun _ => .inr rfl⟩
    rcases transition_closing row with running | interval | halted
    · exact h.proved here (.inl running)
    · exact h.proved here (.inr (.inl interval))
    · refine proved_of ?_ (h.required here light)
      by_contra owed
      rw [State.obstacle, if_pos ⟨halted, here, by simpa using owed⟩] at free
      cases free
  | halted =>
    dsimp only
    unfold State.halt
    have light : s.phase a ≠ .dark := fun dark => by rw [dark] at row; cases row
    exact ((writePerf s a _ fun h => h.halt light).trans (of_changes (State.respond_changes ..))).trans
      (of_changes (State.callNotice_changes ..))

end PerfsKept

/-- A performance restored at a start, with no incident yet, is lawful (R29). -/
theorem Perf.restored_lawful (present iron defaults : Bool) (entry : Option RetainedEntry) :
    (Perf.restored present iron defaults entry).LawfulFor false present iron := by
  unfold Perf.restored
  dsimp only
  split
  · exact ⟨nofun, fun _ => rfl, fun _ light => absurd rfl light, fun _ running => by simp at running, nofun⟩
  · have restored : ∀ p : Phase, p.restored = .dark ∨ p.restored = .prepare ∨ p.restored = .halted ∨ p.restored = .closing :=
      fun p => by cases p <;> simp [Phase.restored]
    have phases : (entry.map (·.phase.restored)).getD .halted = .dark ∨
        (entry.map (·.phase.restored)).getD .halted = .prepare ∨ (entry.map (·.phase.restored)).getD .halted = .halted ∨
        (entry.map (·.phase.restored)).getD .halted = .closing := by
      cases entry with
      | none => simp
      | some e => exact restored e.phase
    generalize (entry.map (·.phase.restored)).getD .halted = phase at *
    generalize (entry.map (·.ironProved)).getD _ = proof
    refine ⟨nofun, fun gone => if_pos gone, fun here _ => ?_, fun here running => ?_, fun on => ?_⟩
    · dsimp only
      rw [IronProved.corrected, if_pos here]
      split
      · exact nofun
      · assumption
    · dsimp only at running ⊢
      split at running
      · simp at running
      · split at running
        · simp at running
        next open_ =>
          rcases phases with e | e | e | e <;> rw [e] at running open_
          · simp at running
          · simp at running
          · simp at running
          · by_contra owed
            exact open_ ⟨rfl, here, owed⟩
    · dsimp only at on ⊢
      obtain ⟨here, occupied⟩ := Bool.and_eq_true_iff.1 on
      rw [if_neg (by simp [here])]
      split
      · exact .inl rfl
      · rcases phases with e | e | e | e <;> rw [e] at occupied ⊢
        · cases occupied
        · cases occupied
        · exact .inl rfl
        · exact .inr rfl

/-- A start restores lawful performances (R29). -/
theorem performancesLawful_start (s : State) (p : Plant) (fromPin : Bool) : PerformancesLawful (s.start p fromPin) := by
  have set : PerformancesLawful (s.loadSettings.setUp p fromPin) := by
    refine performancesLawful_iff.2 fun a => ?_
    change ((tab _ : Vector Perf 3)[a]).LawfulFor (has (0 : AudSet) a) _ _
    rw [tab_get]
    have empty : has (0 : AudSet) a = false := by simp [has]
    rw [empty]
    exact Perf.restored_lawful ..
  have lights : PerfsKept (s.loadSettings.setUp p fromPin) (s.loadSettings.setUp p fromPin).writeRetained.startLights :=
    .of_less rfl rfl fun _ => id
  unfold State.start
  refine (PerfsKept.of_changes (State.flagAll_changes _)).keep ?_
  refine forAll_keeps PerformancesLawful _ (fun a t h => ?_) _ (lights.keep set)
  exact (PerfsKept.of_changes (State.evalAllHolds_changes a t)).keep h

/-! ## Decisions and events -/

theorem Decides.perfsKept {code : ReqCode} {q : Ask} {s : State} {v : Verdict} (holds : HoldsLawfulFor (fun _ _ => True) s)
    (h : Decides code q s v) : PerfsKept s v.2 := by
  have guard := h.guarded
  cases h with
  | stays => exact .refl s
  | looks => exact .of_changes (State.lookClears_changes ..)
  | arms => exact .of_changes (State.arm_changes ..)
  | stores => exact .of_changes s.beginStore_changes
  | restarts => exact .of_changes (State.softRestart_changes ..)
  | blocks => exact .of_changes (State.mark_changes ..)
  | enters _ aud p adm _ _ _ _ _ _ _ row _ free => exact .enter aud q.st holds row free
  | amendsPerf => exact .guarded guard (State.applyPerf_changes ..)
  | amendsIron => exact .guarded guard (State.applyIron_changes ..)
  | amendsZone => exact .guarded guard (State.applyZone_changes ..)
  | targets => exact .of_changes (State.applyTarget_changes ..)
  | amendsGroup => exact .guarded guard (State.applyGroup_changes ..)
  | amendsCZone => exact .guarded guard ((State.settle_changes ..).andThen (ps := [.settings, .store, .stations])
      (rs := [.settings, .store] ++ lightParts) (State.czoneAmended_changes ..))
  | amendsCircuit => exact .guarded guard (State.applyCircuit_changes ..)
  | amendsStatus => exact .guarded guard (State.applyStatus_changes ..)
  | amendsStation => exact .guarded guard (State.applyStation_changes ..)
  | raisesHold => exact .of_changes (State.fillHold_changes ..)
  | retiresHold => exact .of_changes (State.emptyHold_changes ..)
  | widens => exact .widenIncident ..
  | raisesIncident => exact .raiseStationIncident ..
  | actsIncident => exact .actIncident ..
  | retiresIncident => exact .retireIncidentAt ..
  | raisesCall _ x b c room _ _ _ _ found =>
    exact (PerfsKept.of_changes (State.roomForCall_changes found)).trans (.of_changes (State.fillCall_changes ..))
  | amendsCall => exact .of_changes (State.amendCallAt_changes ..)
  | retiresCall => exact .of_changes (State.retireCallAt_changes ..)

theorem PerfsKept.confirms {s t : State} {z : Fin 24} (run : s.confirms z = .next t) : PerfsKept s t := by
  obtain rfl | ⟨time, u, -, -, alarm, ends⟩ := State.confirms_cases run
  · exact .refl _
  have heard : PerfsKept s u := by
    rw [alarm]
    exact (PerfsKept.of_changes (s.reach_changes time)).trans (.of_changes (State.writeZone_changes ..))
  obtain ⟨i, -, -, rfl⟩ | ⟨i, -, -, rfl⟩ | ⟨-, -, rfl⟩ := ends
  · exact heard.trans (.raiseZoneIncident ..)
  · exact heard.trans (.reactivate ..)
  · exact heard

theorem PerfsKept.takes {s t : State} {f : State → State} (run : s.takes f = .next t) (h : PerfsKept s (f s)) :
    PerfsKept s t := by
  unfold State.takes at run
  obtain rfl := Host.Outcome.next.inj run
  split
  · exact h
  · exact .refl s

theorem PerfsKept.ackRunsOut (s : State) (i : Fin 25) : PerfsKept s (s.ackRunsOut i) := by
  unfold State.ackRunsOut
  split
  · exact .refl s
  · split
    · exact (PerfsKept.of_changes (s.reach_changes _)).trans (.escalateIncident ..)
    · exact .refl s

theorem PerfsKept.investigationRunsOut (s : State) (i : Fin 25) : PerfsKept s (s.investigationRunsOut i) := by
  unfold State.investigationRunsOut
  split
  · exact .refl s
  · split
    · exact (PerfsKept.of_changes (s.reach_changes _)).trans (.escalateIncident ..)
    · exact .refl s

theorem event_perfsKept {i : Instr} {s t : State} (run : exec i s = .next t) (event : requestOf i = none)
    (known : ∀ code kind r, i ≠ .unknownRequest code kind r) : PerfsKept s t := by
  have frame := commandsTouchOnlyTheirParts i s t run
  cases i with
  | unknownRequest code kind r => exact absurd rfl (known code kind r)
  | limitInEvent ch => exact .takes run (.limitInMade s ch)
  | confirmTimerExpiry z =>
    simp only [exec, execConfirmTimerExpiry] at run
    split at run
    · exact .confirms run
    · cases run; exact .refl s
  | acknowledgeTimerExpiry i => exact .takes run (.ackRunsOut s i)
  | investigationTimerExpiry i => exact .takes run (.investigationRunsOut s i)
  | coldStart p =>
    obtain rfl : s.start p false = t := Host.Outcome.next.inj run
    refine ⟨fun _ => ?_⟩
    exact performancesLawful_start s p false
  | resetPin p =>
    refine .takes run ⟨fun _ => ?_⟩
    exact performancesLawful_start s p true
  | _ => first
    | exact .of_changes frame
    | cases event

/-- Settles O11. -/
theorem performancesStayLawful : Obligations.PerformancesStayLawful := by
  unfold Obligations.PerformancesStayLawful
  intro s t holds lawful run
  have start : HoldsLawfulFor (fun _ _ => True) s ∧ PerformancesLawful s := ⟨holdsLawful_iff.1 holds, lawful⟩
  refine (step_keeps (P := fun u => HoldsLawfulFor (fun _ _ => True) u ∧ PerformancesLawful u)
    (fun u n h => ⟨(HoldsKept.clock u n).keep _ h.1, h.2⟩) (fun u rest h => ⟨?_, h.2⟩) (fun i u w h ran => ?_) start run).2
  · exact (HoldsKept.of_reasons (s := u) (t := { u with pending := rest }) ⟨rfl, rfl⟩ (fun _ => .rfl) fun _ _ => rfl).keep _ h.1
  refine ⟨exec_holdsLawful h.1 ran, (exec_keeps
    (P := fun u => HoldsLawfulFor (fun _ _ => True) u ∧ PerformancesLawful u)
    (fun u h => ⟨(HoldsKept.frameGood u).keep _ h.1, (PerfsKept.of_changes u.frameGood_changes).keep h.2⟩)
    (fun u h => ⟨(HoldsKept.frameFails u).keep _ h.1, (PerfsKept.of_changes u.frameFails_changes).keep h.2⟩)
    (fun u n b a h => ⟨(HoldsKept.reply u n b a).keep _ h.1, (PerfsKept.of_changes (u.reply_changes n b a)).keep h.2⟩)
    (fun _ _ _ _ h decided => ⟨decided.holdsKept.keep _ h.1, (decided.perfsKept h.1).keep h.2⟩)
    (fun event known h => ⟨exec_holdsLawful h.1 ran, (event_perfsKept ran event known).keep h.2⟩) h ran).2⟩

end Sys2Proof.Machine
end

section
/-!
PROOFS. What becomes of a request that is heard (R183, R184): the link port's checks in their order, and the requests
that the link port, the settings store and the supply monitor answer themselves.
-/

namespace Sys2Proof.Machine

-- One declaration at a time: side conditions closed by tactics wait for what stands before them.
set_option Elab.async false

/-! ## A request that is heard (R183) -/

/-- The owner's answer to the request that a command is. -/
def handlerOf : Instr → Ask → State → Verdict
  | .summary _ _ => State.summaryReq
  | .store _ _ => State.storeReq
  | .restart _ _ loads => State.restartReq loads
  | .raiseHold _ => State.raiseHoldReq
  | .raiseIncident _ => State.raiseIncidentReq
  | .raiseCall _ => State.raiseCallReq
  | .retireHold _ => State.retireHoldReq
  | .retireIncident _ => State.retireIncidentReq
  | .retireCall _ => State.retireCallReq
  | .amendCall _ => State.amendCallReq
  | .amendHold _ => State.amendHoldReq
  | .settingsAmendment _ _ limitIn => State.amendReq limitIn
  | _ => State.amendReq false

/-- Every request but a LOOK is the decision of the link port and its owner, and the reply. -/
theorem exec_heard {i : Instr} {code : ReqCode} {k : Kind} {r : Req} {st : Fin 8} {s : State}
    (named : requestOf i = some (code, k, r)) (other : code ≠ .look) (h : Heard s r st) :
    exec i s = .next ((State.decide code k r (handlerOf i) st s.frameGood).2.reply s.settings.part.address r.station
      (State.decide code k r (handlerOf i) st s.frameGood).1) := by
  have served (handler : Ask → State → Verdict) := State.serve_heard h (State.decide code k r handler)
  cases i with
  | look => cases named; exact absurd rfl other
  | commissioningLock a v =>
    cases named
    simp only [exec, execCommissioningLock, State.amendWith, BitVec.ofNat_toNat, BitVec.setWidth_eq]
    exact congrArg Host.Outcome.next (served _)
  | amendIncidentStage a v =>
    cases named
    simp only [exec, execAmendIncidentStage, State.amendWith, BitVec.ofNat_toNat, BitVec.setWidth_eq]
    exact congrArg Host.Outcome.next (served _)
  | amendTarget a v =>
    cases named
    simp only [exec, execAmendTarget, State.amendWith, BitVec.ofNat_toNat, BitVec.setWidth_eq]
    exact congrArg Host.Outcome.next (served _)
  | _ => first
    | (cases named; exact congrArg Host.Outcome.next (served _))
    | cases named

theorem exec_look_heard {k : Kind} {r : Req} {st : Fin 8} {s : State} (h : Heard s r st) :
    exec (.look k r) s = .next
      ((lookRead k st (State.decide .look k r State.lookReq st s.frameGood)).2.reply s.settings.part.address r.station
        (lookRead k st (State.decide .look k r State.lookReq st s.frameGood)).1) :=
  congrArg Host.Outcome.next (State.serve_heard h _)

section

variable {i : Instr} {code : ReqCode} {k : Kind} {r : Req} {st : Fin 8} {s : State}

/-- A request that passes the link port's checks is answered by its owner. -/
theorem exec_answered (named : requestOf i = some (code, k, r)) (other : code ≠ .look) (h : Heard s r st)
    (stop : s.frameGood.linkStop st code k r = none) :
    exec i s = .next ((handlerOf i ⟨st, k, r⟩ s.frameGood).2.reply s.settings.part.address r.station
      (handlerOf i ⟨st, k, r⟩ s.frameGood).1) := by
  have run := exec_heard named other h
  simp only [State.decide, stop] at run
  exact run

/-- What the owner says or refuses of a request, leaving the state as it is, is the whole of the command. -/
theorem exec_says (named : requestOf i = some (code, k, r)) (other : code ≠ .look) (h : Heard s r st)
    (stop : s.frameGood.linkStop st code k r = none) {status : Status} {why : Option Reason} {fields : List FieldVal}
    (answer : handlerOf i ⟨st, k, r⟩ s.frameGood = (Ask.answer ⟨st, k, r⟩ status why fields, s.frameGood)) :
    ∃ t, exec i s = .next t ∧ ChangesOnly [.link] s.frameGood t ∧
      Replies t s.settings.part.address r.station status why k r.index.toNat r.issue.toNat fields := by
  refine ⟨_, exec_answered named other h stop, ?_⟩
  rw [answer]
  exact ⟨State.reply_changes .., Ask.answer_echoes ⟨st, k, r⟩ ..⟩

/-- What the owner makes of a request is what the command leaves, but for the reply. -/
theorem exec_done (named : requestOf i = some (code, k, r)) (other : code ≠ .look) (h : Heard s r st)
    (stop : s.frameGood.linkStop st code k r = none) {status : Status} {why : Option Reason} {fields : List FieldVal}
    {u : State} (answer : handlerOf i ⟨st, k, r⟩ s.frameGood = (Ask.answer ⟨st, k, r⟩ status why fields, u)) :
    ∃ a t, t = u.reply s.settings.part.address r.station a ∧ exec i s = .next t ∧
      Replies t s.settings.part.address r.station status why k r.index.toNat r.issue.toNat fields := by
  have run := exec_answered named other h stop
  rw [answer] at run
  exact ⟨_, _, rfl, run, Ask.answer_echoes ⟨st, k, r⟩ ..⟩

end

/-! ## The link port's checks (R184) -/

theorem repeated_iff {fs : List FieldVal} : repeated fs = false ↔ (fs.map (·.id)).Nodup := by
  induction fs with
  | nil => simp [repeated]
  | cons f fs ih =>
    have again : carries fs (idOf f) = true ↔ f.id ∈ fs.map (·.id) := by
      rw [carries_iff, List.mem_map]
      exact exists_congr fun g => and_congr_right fun _ => ⟨fun e => BitVec.eq_of_toNat_eq e, fun e => congrArg BitVec.toNat e⟩
    rw [repeated, Bool.or_eq_false_iff, ih, List.map_cons, List.nodup_cons, ← again, Bool.not_eq_true]

theorem roleAdmits_iff {role : Role} {code : ReqCode} : roleAdmits role code = true ↔
    ¬(role = .none ∨ (role = .view ∧ code ≠ .look ∧ code ≠ .summary)) := by
  cases role <;> cases code <;> simp [roleAdmits]

theorem isDynamic_iff {k : Kind} : isDynamic k = true ↔ ¬(k ≠ .hold ∧ k ≠ .incident ∧ k ≠ .call) := by
  cases k <;> simp [isDynamic]

/-- The link port's checks, each by what it asks. -/
theorem State.linkStop_eq (s : State) (st : Fin 8) (code : ReqCode) (k : Kind) (r : Req) :
    s.linkStop st code k r =
      if s.role st = .none ∨ (s.role st = .view ∧ code ≠ .look ∧ code ≠ .summary) then some .notPermitted
      else if ((code = .raise ∨ code = .retire) ∧ k ≠ .hold ∧ k ≠ .incident ∧ k ≠ .call) ∨
          (code = .raise ∧ (r.index ≠ 0 ∨ r.issue ≠ 0)) then some .badField
      else if (code = .look ∨ code = .amend ∨ code = .retire) ∧
          (r.index.toNat < 1 ∨ kindSize k < r.index.toNat ∨
            (k ≠ .hold ∧ k ≠ .incident ∧ k ≠ .call ∧ r.issue ≠ 0)) then some .noRecord
      else if ((code = .look ∨ code = .summary ∨ code = .retire) ∧ r.fields ≠ []) ∨
          ¬(r.fields.map (·.id)).Nodup then some .badField
      else none := by
  have role : (!roleAdmits (s.role st) code) = true ↔
      (s.role st = .none ∨ (s.role st = .view ∧ code ≠ .look ∧ code ≠ .summary)) := by
    rw [Bool.not_eq_true', ← Bool.not_eq_true, roleAdmits_iff, not_not]
  have fixed : (!isDynamic k) = true ↔ (k ≠ .hold ∧ k ≠ .incident ∧ k ≠ .call) := by
    rw [Bool.not_eq_true', ← Bool.not_eq_true, isDynamic_iff, not_not]
  have again : repeated r.fields = true ↔ ¬(r.fields.map (·.id)).Nodup := by
    rw [← repeated_iff, Bool.not_eq_false]
  unfold State.linkStop
  refine if_ctx_congr role (fun _ => rfl) fun _ => ?_
  rw [ite_or, ite_or]
  refine if_ctx_congr ?_ (fun _ => rfl) fun _ => if_ctx_congr ?_ (fun _ => rfl) fun _ => if_ctx_congr ?_ (fun _ => rfl)
    fun _ => if_ctx_congr ?_ (fun _ => rfl) fun _ => if_ctx_congr again (fun _ => rfl) fun _ => rfl
  · rw [Bool.and_eq_true, fixed]
    simp
  · simp
  · have range : (!(Decidable.decide (1 ≤ r.index.toNat) && Decidable.decide (r.index.toNat ≤ kindSize k))) = true ↔
        r.index.toNat < 1 ∨ kindSize k < r.index.toNat := by
      simp
    rw [Bool.and_eq_true, Bool.or_eq_true (!(_ && _)), range, Bool.and_eq_true, fixed]
    simp [or_assoc, and_assoc]
  · simp [or_assoc]

/-- A request of role, record and fields in order passes. -/
theorem State.linkStop_amend {s : State} {st : Fin 8} {k : Kind} {r : Req} (role : s.role st ≠ .none)
    (able : s.role st ≠ .view) (index : 1 ≤ r.index.toNat ∧ r.index.toNat ≤ kindSize k)
    (issue : isDynamic k = true ∨ r.issue = 0) (once : (r.fields.map (·.id)).Nodup) : s.linkStop st .amend k r = none := by
  have owned : ¬(k ≠ .hold ∧ k ≠ .incident ∧ k ≠ .call ∧ r.issue ≠ 0) := by
    rintro ⟨hold, incident, call, named⟩
    exact issue.elim (fun dynamic => isDynamic_iff.1 dynamic ⟨hold, incident, call⟩) named
  rw [State.linkStop_eq, if_neg (by simp [role, able]), if_neg (by simp), if_neg ?_, if_neg (by simpa using once)]
  rintro ⟨-, low | high | named⟩
  · omega
  · omega
  · exact owned named

theorem State.linkStop_raise {s : State} {st : Fin 8} {k : Kind} {r : Req} (role : s.role st ≠ .none)
    (able : s.role st ≠ .view) (dynamic : isDynamic k = true) (index : r.index = 0) (issue : r.issue = 0)
    (once : (r.fields.map (·.id)).Nodup) : s.linkStop st .raise k r = none := by
  have owned := isDynamic_iff.1 dynamic
  rw [State.linkStop_eq, if_neg (by simp [role, able]), if_neg (by simp only [index, issue]; tauto),
    if_neg (by simp), if_neg (by simpa using once)]

theorem State.linkStop_retire {s : State} {st : Fin 8} {k : Kind} {r : Req} (role : s.role st ≠ .none)
    (able : s.role st ≠ .view) (dynamic : isDynamic k = true) (index : 1 ≤ r.index.toNat ∧ r.index.toNat ≤ kindSize k)
    (fields : r.fields = []) : s.linkStop st .retire k r = none := by
  have owned := isDynamic_iff.1 dynamic
  rw [State.linkStop_eq, if_neg (by simp [role, able]), if_neg (by simp only [reduceCtorEq]; tauto), if_neg ?_,
    if_neg (by simp [fields])]
  rintro ⟨-, low | high | ⟨hold, incident, call, -⟩⟩
  · omega
  · omega
  · exact owned ⟨hold, incident, call⟩

/-! ## Every request that the link port turns away (R184) -/

/-- Turning a LOOK away with anything but NO_RECORD leaves the flags (R189). -/
theorem lookRead_turned {k : Kind} {st : Fin 8} {v : Verdict} (done : v.1.status ≠ .done) (none : v.1.status ≠ .noRecord) :
    lookRead k st v = v := by
  rw [lookRead, if_neg (by simp [done, none])]

theorem lookRead_answer (k : Kind) (st : Fin 8) (v : Verdict) : (lookRead k st v).1 = v.1 := by
  unfold lookRead
  split
  · rfl
  · rfl

theorem lookRead_changes (k : Kind) (st : Fin 8) (a : Answer) (s : State) :
    ChangesOnly [.stations] s (lookRead k st (a, s)).2 := by
  unfold lookRead
  split
  · exact State.lookClears_changes ..
  · exact .refl _ s

theorem State.linkStop_not_done {s : State} {st : Fin 8} {code : ReqCode} {k : Kind} {r : Req} {status : Status}
    (stop : s.linkStop st code k r = some status) : status ≠ .done := by
  rintro rfl
  rw [State.linkStop_eq] at stop
  split_ifs at stop <;> cases stop

theorem linkChecks_turn {i : Instr} {code : ReqCode} {k : Kind} {r : Req} {st : Fin 8} {s : State} {status : Status}
    (named : requestOf i = some (code, k, r)) (h : Heard s r st)
    (stop : s.frameGood.linkStop st code k r = some status) :
    ∃ t, exec i s = .next t ∧
      Replies t s.settings.part.address r.station status none k r.index.toNat r.issue.toNat [] ∧
      ChangesOnly [.link, .stations] s.frameGood t ∧
      (code ≠ .look ∨ status ≠ .noRecord → ChangesOnly [.link] s.frameGood t) := by
  have decided (handler : Ask → State → Verdict) : State.decide code k r handler st s.frameGood =
      Ask.says ⟨st, k, r⟩ status [] s.frameGood := by simp only [State.decide, stop]
  by_cases look : code = .look
  · subst look
    obtain rfl : i = .look k r := by
      cases i with
      | look => cases named; rfl
      | _ => cases named
    have run := exec_look_heard h (k := k)
    rw [decided] at run
    refine ⟨_, run, ?_, (lookRead_changes ..).andThen (State.reply_changes ..), fun other => ?_⟩
    · rw [lookRead_answer]
      exact Ask.answer_echoes ⟨st, k, r⟩ ..
    · rw [lookRead_turned (State.linkStop_not_done stop) (other.resolve_left (not_not.2 rfl))]
      exact State.reply_changes ..
  · have run := exec_heard named look h
    rw [decided] at run
    have frame := State.reply_changes s.frameGood s.settings.part.address r.station
      (Ask.answer ⟨st, k, r⟩ status none [])
    exact ⟨_, run, Ask.answer_echoes ⟨st, k, r⟩ .., frame.mono (by decide), fun _ => frame⟩

theorem reqOf_eq_none {v : Nat} : reqOf v = none ↔ ¬(1 ≤ v ∧ v ≤ 7) := by
  constructor
  · rintro none ⟨low, high⟩
    interval_cases v <;> cases none
  · intro out
    unfold reqOf
    split <;> simp_all

/-- What a role admits of a known code (R184). -/
theorem roleAdmits_reqOf {v : Nat} {c : ReqCode} (known : reqOf v = some c) (role : Role) :
    roleAdmits role c = false ↔ role = .none ∨ (role = .view ∧ v ≠ 1 ∧ v ≠ 5) := by
  rw [← Bool.not_eq_true, roleAdmits_iff, not_not]
  unfold reqOf at known
  split at known <;> cases known <;> simp

theorem State.unknownStop_eq (s : State) (st : Fin 8) (code : Byte) :
    s.unknownStop st code =
      if knownCode code = false then .badField
      else if s.role st = .none ∨ (s.role st = .view ∧ code ≠ 1 ∧ code ≠ 5) then .notPermitted
      else .badField := by
  have named (n : Nat) (small : n < 256) : code = BitVec.ofNat 8 n ↔ code.toNat = n := by
    rw [← BitVec.toNat_inj, BitVec.toNat_ofNat, Nat.mod_eq_of_lt small]
  have one : code = 1 ↔ code.toNat = 1 := named 1 (by decide)
  have five : code = 5 ↔ code.toNat = 5 := named 5 (by decide)
  have known : knownCode code = false ↔ reqOf code.toNat = none := by
    rw [reqOf_eq_none]
    simp [knownCode, imp_iff_not_or]
  unfold State.unknownStop
  cases found : reqOf code.toNat with
  | none => rw [if_pos (known.2 found)]
  | some c =>
    have roles := roleAdmits_reqOf found (s.role st)
    have knows : knownCode code ≠ false := fun unknown => by
      rw [known.1 unknown] at found
      cases found
    simp only [if_neg knows, ne_eq, one, five]
    cases admits : roleAdmits (s.role st) c with
    | false => rw [if_neg Bool.false_ne_true, if_pos (roles.1 admits)]
    | true =>
      have may : ¬(s.role st = .none ∨ (s.role st = .view ∧ code.toNat ≠ 1 ∧ code.toNat ≠ 5)) := fun barred => by
        rw [roles.2 barred] at admits
        cases admits
      rw [if_pos rfl, if_neg may]

theorem rowless_of {code kind : Byte} (h : knownCode code = false ∨ knownKind kind = false ∨
    ((code = 2 ∨ code = 4) ∧ kind ≠ 2 ∧ kind ≠ 3 ∧ kind ≠ 7)) : rowless code kind = true := by
  unfold rowless raisesFixed
  rcases h with unknown | unknown | ⟨changes, hold, incident, call⟩
  · simp [unknown]
  · simp [unknown]
  · have fixed : (!(kind == 2 || kind == 3 || kind == 7)) = true := by
      rw [beq_eq_false_iff_ne.2 hold, beq_eq_false_iff_ne.2 incident, beq_eq_false_iff_ne.2 call]
      rfl
    have told : (code == 2 || code == 4) = true := by simpa using changes
    rw [told, fixed]
    cases knownCode code <;> cases knownKind kind <;> rfl

/-- Settles O17: a request is turned away by the first of the link port's checks, which leaves its owner unasked. -/
theorem linkChecksDecide : Obligations.LinkChecksDecide := by
  unfold Obligations.LinkChecksDecide
  refine ⟨fun i code k r st s status named heard stop => ?_, fun code kind r st s known heard => ?_⟩
  · refine linkChecks_turn named heard ?_
    rw [State.linkStop_eq, State.frameGood_role]
    exact stop
  · have served := State.serve_heard heard fun st t =>
      ({ status := t.unknownStop st code, reason := none, kind := kind, index := r.index, issue := r.issue,
         fields := [] }, t)
    have run : exec (.unknownRequest code kind r) s = .next (s.serve r fun st t =>
        ({ status := t.unknownStop st code, reason := none, kind := kind, index := r.index, issue := r.issue,
           fields := [] }, t)) := by
      change Host.Outcome.next (s.unknown code kind r) = _
      rw [State.unknown, rowless_of known]
      rfl
    rw [served] at run
    refine ⟨_, run, State.reply_changes .., ?_⟩
    rw [State.unknownStop_eq, State.frameGood_role]
    rfl

/-! ## Frames (R179..R182) -/

theorem State.setDegraded_link (s : State) (on : Bool) : (s.setDegraded on).link = { s.link with degraded := on } := by
  unfold State.setDegraded
  split
  next same => rw [← same]
  · have frame := State.evalHolds_changes .system (({ s with link := { s.link with degraded := on } } : State).mark .status)
    exact (frame.same .link (by decide)).trans (State.mark_link ..)

/-- A link that is judged as it was judged changes nothing (R182). -/
theorem State.setDegraded_same {s : State} {on : Bool} (same : s.link.degraded = on) : s.setDegraded on = s := by
  unfold State.setDegraded
  exact if_pos same

/-- The error counter written. -/
def State.counted (s : State) (n : Nat) : State := { s with link := { s.link with errors := n } }

theorem State.counted_changes (s : State) (n : Nat) : ChangesOnly [.link] s (s.counted n) := by
  constructor; intro p hp; cases p <;> simp_all [Part.same, State.counted]

theorem State.frameFails_eq (s : State) : s.frameFails =
    if min 32 (s.link.errors + 1) = 32 then (s.counted (min 32 (s.link.errors + 1))).setDegraded true
    else s.counted (min 32 (s.link.errors + 1)) := rfl

theorem State.frameGood_eq (s : State) : s.frameGood =
    if s.link.errors - 1 = 0 then (s.counted (s.link.errors - 1)).setDegraded false
    else s.counted (s.link.errors - 1) := rfl

theorem frameFails_counted (s : State) : FrameCounted s s.frameFails := by
  have frame := s.frameFails_changes
  have counted := s.counted_changes (min 32 (s.link.errors + 1))
  unfold FrameCounted
  rw [State.frameFails_eq] at frame ⊢
  split
  next top =>
    have full : decide (31 ≤ s.link.errors) = true := by rw [decide_eq_true_eq]; omega
    rw [if_pos top] at frame
    refine ⟨by rw [State.setDegraded_link, State.counted], by rw [State.setDegraded_link, State.counted], ?_, frame,
      fun stays => ?_⟩
    · rw [State.setDegraded_link, full, Bool.or_true]
    · rw [State.setDegraded_link] at stays
      rw [State.setDegraded_same (show (s.counted (min 32 (s.link.errors + 1))).link.degraded = true from stays.symm)]
      exact counted
  next low =>
    have open_ : decide (31 ≤ s.link.errors) = false := by rw [decide_eq_false_iff_not]; omega
    rw [if_neg low] at frame
    refine ⟨rfl, rfl, ?_, frame, fun _ => counted⟩
    rw [open_, Bool.or_false]
    rfl

theorem frameGood_counts (s : State) :
    s.frameGood.link.errors = s.link.errors - 1 ∧ s.frameGood.link.reply = s.link.reply ∧
      s.frameGood.link.degraded = (s.link.degraded && decide (2 ≤ s.link.errors)) ∧
      ChangesOnly requestParts s s.frameGood ∧
      (s.frameGood.link.degraded = s.link.degraded → ChangesOnly [.link] s s.frameGood) := by
  have frame := s.frameGood_changes
  have counted := s.counted_changes (s.link.errors - 1)
  rw [State.frameGood_eq] at frame ⊢
  split
  next bottom =>
    have few : decide (2 ≤ s.link.errors) = false := by rw [decide_eq_false_iff_not]; omega
    rw [if_pos bottom] at frame
    refine ⟨by rw [State.setDegraded_link, State.counted], by rw [State.setDegraded_link, State.counted], ?_, frame,
      fun stays => ?_⟩
    · rw [State.setDegraded_link, few, Bool.and_false]
    · rw [State.setDegraded_link] at stays
      rw [State.setDegraded_same (show (s.counted (s.link.errors - 1)).link.degraded = false from stays.symm)]
      exact counted
  next more =>
    have many : decide (2 ≤ s.link.errors) = true := by rw [decide_eq_true_eq]; omega
    rw [if_neg more] at frame
    refine ⟨rfl, rfl, ?_, frame, fun _ => counted⟩
    rw [many, Bool.and_true]
    rfl

/-- A part that is not listening judges no frame (R178, R180). -/
theorem State.listening_iff {s : State} : s.listening = true ↔ s.powered = true ∧ s.link.reply = none := by
  simp [State.listening]

theorem State.takes_powered {s : State} (f : State → State) (powered : s.powered = true) : s.takes f = .next (f s) :=
  congrArg Host.Outcome.next (if_pos powered)

theorem State.frameJudged_error {s : State} {chars : List Byte} (listens : s.listening = true)
    (error : frameIsError s.settings.part.address chars = true) : s.frameJudged chars = s.frameFails :=
  if_pos (by rw [listens, error]; rfl)

theorem State.frameJudged_fine {s : State} {chars : List Byte}
    (fine : s.listening = false ∨ frameIsError s.settings.part.address chars = false) : s.frameJudged chars = s :=
  if_neg (by rcases fine with e | e <;> simp [e])

theorem State.frameDropped_own {s : State} {chars : List Byte} (listens : s.listening = true)
    (own : addressed s.settings.part.address chars = true) : s.frameDropped chars = s.frameFails :=
  if_pos (by rw [listens, own]; rfl)

theorem State.frameDropped_other {s : State} {chars : List Byte}
    (other : s.listening = false ∨ addressed s.settings.part.address chars = false) : s.frameDropped chars = s :=
  if_neg (by rcases other with e | e <;> simp [e])

/-- Settles O18: counting a frame changes the counter, and the rest of the state only where the link's condition
turns. -/
theorem framesCounted : Obligations.FramesCounted := by
  unfold Obligations.FramesCounted
  refine ⟨fun s chars powered silent => ?_, fun s chars => rfl, fun s chars busy => ?_, frameGood_counts,
    fun s powered => ?_⟩
  · have listens := State.listening_iff.2 ⟨powered, silent⟩
    refine ⟨fun whole => ⟨fun own bad => ?_, fun fine => ?_⟩, fun own => ?_, fun other => ?_⟩
    · have error : frameIsError s.settings.part.address chars = true := by
        unfold frameIsError
        rcases bad with e | e <;> simp [whole, own, e]
      exact ⟨_, congrArg Host.Outcome.next (State.frameJudged_error listens error), frameFails_counted s⟩
    · have none : frameIsError s.settings.part.address chars = false := by
        unfold frameIsError
        rcases fine with e | ⟨crc, station⟩
        · simp [e]
        · simp [crc, station]
      exact congrArg Host.Outcome.next (State.frameJudged_fine (.inr none))
    · have counts : exec (.frameDiscarded chars) s = .next s.frameFails :=
        congrArg Host.Outcome.next (State.frameDropped_own listens own)
      exact ⟨⟨_, counts, frameFails_counted s⟩, _, counts, frameFails_counted s⟩
    · have ignored : exec (.frameDiscarded chars) s = .next s :=
        congrArg Host.Outcome.next (State.frameDropped_other (.inr other))
      exact ⟨ignored, ignored⟩
  · have deaf : s.listening = false := by
      rw [← Bool.not_eq_true, State.listening_iff]
      exact fun both => busy both.2
    exact ⟨congrArg Host.Outcome.next (State.frameJudged_fine (.inl deaf)),
      congrArg Host.Outcome.next (State.frameDropped_other (.inl deaf)),
      congrArg Host.Outcome.next (State.frameDropped_other (.inl deaf))⟩
  · refine ⟨_, s.takes_powered State.replyEnds powered, rfl, ?_⟩
    constructor; intro p hp; cases p <;> simp_all [Part.same, State.replyEnds]

end Sys2Proof.Machine
end

section
/-!
PROOFS. A LOOK (R184, R189): the record as a reply carries it is that of the tables of chapter 11 (R200), and its class
is cleared where it is armed.
-/

namespace Sys2Proof.Machine

-- One declaration at a time: side conditions closed by tactics wait for what stands before them.
set_option Elab.async false

/-! ## Codes (R200) -/

theorem yesNo_eq (b : Bool) : yesNo b = b.toNat := by cases b <;> rfl

theorem orZero_oneUp {n : Nat} (i : Option (Fin n)) : orZero oneUp i = numberOf i := by cases i <;> rfl

theorem Phase.code_eq (x : Phase) : x.code = codeIn phaseNames x := by cases x <;> rfl

theorem IronProved.code_eq (x : IronProved) : x.code = codeIn [.notRequired, .notYet, .proved, .failed] x := by
  cases x <;> rfl

theorem IronFault.code_eq (x : IronFault) : x.code = codeIn ironFaultNames (some x) := by cases x <;> rfl

theorem orZero_ironFault (x : Option IronFault) : orZero IronFault.code x = codeIn ironFaultNames x := by
  cases x with
  | none => rfl
  | some x => exact x.code_eq

theorem HoldCause.code_eq (x : HoldCause) : x.code = codeIn [.station, .iron, .fire, .supply, .system] x := by
  cases x <;> rfl

theorem reasonCode_eq (x : HoldReason) : reasonCode x = reasonNumber x := by
  cases x with
  | ironFault f => exact congrArg (0x0300 + ·) f.code_eq
  | _ => rfl

theorem Stage.code_eq (x : Stage) : x.code = codeIn [.staff, .general] x := by cases x <;> rfl

theorem orZero_escalationCause (x : Option EscalationCause) : orZero EscalationCause.code x =
    codeIn [none, some .direct, some .unoccupied, some .ackTimeout, some .investigationTimeout,
      some .secondZone, some .station, some .manual] x := by
  rcases x with _ | x
  · rfl
  · cases x <;> rfl

theorem ZoneType.code_eq (x : ZoneType) : x.code = codeIn [.detector, .callpoint, .interface] x := by cases x <;> rfl

theorem bandCode_eq (x : Band) : bandCode x = codeIn [.normal, .active, .openLoop, .short] x := by cases x <;> rfl

theorem Detection.code_eq (x : Detection) : x.code = codeIn [.normal, .pending, .alarm] x := by cases x <;> rfl

theorem ZoneCondition.code_eq (x : ZoneCondition) : x.code = codeIn [.sound, .fault, .unstable, .isolated] x := by
  cases x <;> rfl

theorem Motion.code_eq (x : Motion) : x.code = codeIn [.atIn, .raising, .atOut, .stopped, .descending] x := by
  cases x <;> rfl

theorem orZero_descentKind (x : Option DescentKind) :
    orZero DescentKind.code x = codeIn [none, some .full, some .part] x := by
  rcases x with _ | x
  · rfl
  · cases x <;> rfl

theorem orZero_subPhase (x : Option SubPhase) : orZero SubPhase.code x = codeIn [none, some .free, some .checked] x := by
  rcases x with _ | x
  · rfl
  · cases x <;> rfl

theorem orZero_releaseReason (x : Option ReleaseReason) : orZero ReleaseReason.code x =
    codeIn [none, some .demand, some .localRelease, some .fire, some .restart] x := by
  rcases x with _ | x
  · rfl
  · cases x <;> rfl

theorem orZero_stopCause (x : Option StopCause) : orZero StopCause.code x = codeIn [none, some .supply, some .timeout] x := by
  rcases x with _ | x
  · rfl
  · cases x <;> rfl

theorem orZero_descentResult (x : Option DescentResult) : orZero DescentResult.code x =
    codeIn [none, some .proofPass, some .pass, some .tooFast, some .tooSlow, some .stall, some .overspeed,
      some .drift, some .partialEnd] x := by
  rcases x with _ | x
  · rfl
  · cases x <;> rfl

theorem GroupKind.code_eq (x : GroupKind) : x.code = codeIn [.house, .aisle, .foyer] x := by cases x <;> rfl

theorem Feed.code_eq (x : Feed) : x.code = codeIn [.mains, .standby] x := by cases x <;> rfl

theorem DriveLaw.code_eq (x : DriveLaw) : x.code = codeIn [.linear, .square] x := by cases x <;> rfl

theorem Purpose.code_eq (x : Purpose) : x.code = codeIn [.audience, .staff] x := by cases x <;> rfl

theorem orZero_callOutcome (x : Option CallOutcome) : orZero CallOutcome.code x =
    codeIn [none, some .complete, some .degraded, some .partly, some .abandoned, some .overtaken] x := by
  rcases x with _ | x
  · rfl
  · cases x <;> rfl

theorem DeliveryState.code_eq (x : DeliveryState) : x.code =
    1 + codeIn [.waiting, .sounding, .done, .undelivered, .abandoned, .overtaken] x := by
  cases x <;> rfl

theorem orZero_burstMode (x : Option BurstMode) : orZero BurstMode.code x =
    codeIn [none, some .chimeFlicker, some .chime, some .flicker] x := by
  rcases x with _ | x
  · rfl
  · cases x <;> rfl

theorem Pattern.code_eq (x : Pattern) : x.code = codeIn [.continuous, .fast, .slow] x := by cases x <;> rfl

theorem CircuitCondition.code_eq (x : CircuitCondition) : x.code = codeIn [.sound, .openLoad, .overload, .failed] x := by
  cases x <;> rfl

theorem Mains.code_eq (x : Mains) : x.code = codeIn [.present, .lost, .settling] x := by cases x <;> rfl

theorem RestartCause.code_eq (x : RestartCause) : x.code = codeIn [.coldStart, .resetPin, .softRestart, .cellLost] x := by
  cases x <;> rfl

theorem StoreState.code_eq (x : StoreState) : x.code = codeIn [.loaded, .defaults, .storing, .stored] x := by
  cases x <;> rfl

theorem Role.code_eq (x : Role) : x.code = codeIn [.none, .view, .stage, .foh, .fire, .engineer] x := by cases x <;> rfl

theorem orEmpty_remaining (s : State) (t : Option Nat) : orEmpty (t.map s.remaining) = s.untilOf t := by cases t <;> rfl

theorem orEmpty_elapsed (s : State) (t : Option Nat) : orEmpty (t.map s.elapsed) = s.sinceOf t := by cases t <;> rfl

/-- A set of call zones as a number (R200). -/
theorem zones_toNat (l : List Delivery) (set : CallZoneSet) (n : Nat) (start : set.toNat = n) :
    (l.foldl (fun set d => set ||| single 8 d.zone.1) set).toNat = l.foldl (fun set d => set ||| 2 ^ d.zone.1) n := by
  induction l generalizing set n with
  | nil => exact start
  | cons d l ih =>
    refine ih _ _ ?_
    have one : (single 8 d.zone.1).toNat = 2 ^ d.zone.1 := by
      have small : 2 ^ d.zone.1 < 2 ^ 8 := Nat.pow_lt_pow_right (by decide) d.zone.2
      simpa [single, BitVec.toNat_shiftLeft, Nat.shiftLeft_eq] using small
    rw [BitVec.toNat_or, start, one]

/-! ## Records (R200) -/

theorem fv_eq (id v : Nat) : fv id v = ⟨BitVec.ofNat 8 id, BitVec.ofNat 16 v⟩ := rfl

theorem inFrame_cons (x : Nat × Nat) (l : List (Nat × Nat)) : inFrame (x :: l) = fv x.1 x.2 :: inFrame l := rfl

theorem inFrame_nil : inFrame [] = [] := rfl

theorem inFrame_append (l m : List (Nat × Nat)) : inFrame (l ++ m) = inFrame l ++ inFrame m := List.map_append

section

variable (s : State)

theorem State.perfFields_eq (a : Fin 3) : s.perfFields a = inFrame (s.perfTable a) := by
  simp only [State.perfFields, State.perfTable, inFrame_cons, inFrame_nil, yesNo_eq, Phase.code_eq, IronProved.code_eq,
    orZero_oneUp]

theorem holdFields_eq (a : Fin 3) (x : Hold) : holdFields a x = inFrame (holdTable a x) := by
  have origin : (match x.origin with
      | some st => oneUp st
      | none => 9) = x.origin.elim 9 fun st => st.1 + 1 := by cases x.origin <;> rfl
  simp only [holdFields, holdTable, inFrame_cons, inFrame_nil, HoldCause.code_eq, reasonCode_eq]
  cases x.origin <;> rfl

theorem State.incidentFields_eq (x : Incident) : s.incidentFields x = inFrame (s.incidentTable x) := by
  simp only [State.incidentFields, State.incidentTable, inFrame_cons, inFrame_nil, yesNo_eq, Stage.code_eq,
    orZero_escalationCause, orZero_oneUp, orEmpty_remaining]
  cases x.source <;> rfl

theorem State.zoneFields_eq (z : Fin 24) : s.zoneFields z = inFrame (s.zoneTable z) := by
  simp only [State.zoneFields, State.zoneTable, inFrame_cons, inFrame_nil, yesNo_eq, ZoneType.code_eq, bandCode_eq,
    Detection.code_eq, ZoneCondition.code_eq, orZero_oneUp]

theorem State.ironFields_eq (ch : Fin 3) : s.ironFields ch = inFrame (s.ironTable ch) := by
  simp only [State.ironFields, State.ironTable, inFrame_cons, inFrame_nil, yesNo_eq, Motion.code_eq, orZero_descentKind,
    orZero_subPhase, orZero_releaseReason, orZero_stopCause, orZero_ironFault, orZero_descentResult]

theorem State.groupFields_eq (g : Fin 12) : s.groupFields g = inFrame (s.groupTable g) := by
  simp only [State.groupFields, State.groupTable, inFrame_cons, inFrame_nil, yesNo_eq, GroupKind.code_eq, Feed.code_eq,
    DriveLaw.code_eq, oneUp]

theorem State.deliveryFields_eq (d : Delivery) : s.deliveryFields d = inFrame (s.deliveryTable d) := by
  have due : (if d.state = .waiting then s.remaining d.notBefore else 0xFFFF) =
      s.untilOf (if d.state = .waiting then some d.notBefore else none) := by split <;> rfl
  simp only [State.deliveryFields, State.deliveryTable, inFrame_cons, inFrame_nil, yesNo_eq, DeliveryState.code_eq,
    orEmpty_elapsed, due]

theorem State.callFields_eq (x : Call) : s.callFields x = inFrame (s.callTable x) := by
  have deliveries : x.deliveries.flatMap s.deliveryFields = inFrame (x.deliveries.flatMap s.deliveryTable) := by
    simp only [inFrame, List.map_flatMap]
    exact List.flatMap_congr fun d _ => s.deliveryFields_eq d
  have set : x.zones.toNat = x.deliveries.foldl (fun set d => set ||| 2 ^ d.zone.1) 0 := zones_toNat _ 0 0 rfl
  simp only [State.callFields, State.callTable, inFrame_append, inFrame_cons, inFrame_nil, yesNo_eq, Purpose.code_eq,
    orZero_callOutcome, orZero_oneUp, deliveries, set, oneUp]

theorem State.czoneFields_eq (z : Fin 8) : s.czoneFields z = inFrame (s.czoneTable z) := by
  have queue : s.czones[z].queue.mapIdx (fun i c => fv (64 + i) (oneUp c)) =
      inFrame (s.czones[z].queue.mapIdx fun i c => (64 + i, c.1 + 1)) := by
    refine List.ext_getElem (by simp [inFrame]) fun i _ _ => ?_
    simp [inFrame, fv, oneUp]
  simp only [State.czoneFields, State.czoneTable, inFrame_append, inFrame_cons, inFrame_nil, yesNo_eq, orZero_burstMode,
    orZero_oneUp, orEmpty_elapsed, queue]

theorem State.circuitFields_eq (c : Fin 16) : s.circuitFields c = inFrame (s.circuitTable c) := by
  simp only [State.circuitFields, State.circuitTable, inFrame_cons, inFrame_nil, yesNo_eq, Pattern.code_eq,
    CircuitCondition.code_eq]

theorem State.statusFields_eq : s.statusFields = inFrame s.statusTable := by
  simp only [State.statusFields, State.statusTable, inFrame_cons, inFrame_nil, yesNo_eq, Mains.code_eq,
    RestartCause.code_eq, StoreState.code_eq]

theorem State.stationFields_eq (n : Fin 8) : s.stationFields n = inFrame (s.stationTable n) := by
  simp only [State.stationFields, State.stationTable, State.summaryFields, inFrame_cons, inFrame_nil, Role.code_eq, oneUp,
    List.cons_append, List.nil_append]

/-- Every record is answered with the fields of its table (R184, R200). -/
theorem State.record_eq (k : Kind) (index : Byte) :
    s.record k index = (s.table k index).map fun x => (x.1, inFrame x.2) := by
  cases k with
  | hold =>
    simp only [State.record, State.table, Option.map_bind, Function.comp_def, Option.map_map, holdFields_eq]
  | incident =>
    simp only [State.record, State.table, Option.map_bind, Function.comp_def, Option.map_map, State.incidentFields_eq]
  | call =>
    simp only [State.record, State.table, Option.map_bind, Function.comp_def, Option.map_map, State.callFields_eq]
  | _ =>
    simp only [State.record, State.table, Option.map_map, Function.comp_def, State.perfFields_eq, State.zoneFields_eq,
      State.ironFields_eq, State.groupFields_eq, State.czoneFields_eq, State.circuitFields_eq, State.statusFields_eq,
      State.stationFields_eq]

end

/-! ## LOOK (R189) -/

theorem State.lookClears_station (s : State) (st : Fin 8) (k : Kind) :
    (s.lookClears st k).stations[st] =
      (if s.stations[st].armed.getLsbD (kindCode k - 1) = true then
        { flags := s.stations[st].flags &&& ~~~classBit k, armed := s.stations[st].armed &&& ~~~classBit k }
      else s.stations[st]) := by
  unfold State.lookClears
  dsimp only
  split
  · exact put_same ..
  · rfl

theorem State.lookClears_onlyAt (s : State) (st : Fin 8) (k : Kind) :
    OnlyAt st s.stations (s.lookClears st k).stations := by
  unfold State.lookClears
  dsimp only
  split
  · exact put_onlyAt _ _ _
  · exact fun _ _ => rfl

/-- A LOOK of a request without fields is stopped by an index or an issue that no record has (R184). -/
theorem State.linkStop_look {s : State} {st : Fin 8} {k : Kind} {r : Req} (role : s.role st ≠ .none)
    (fields : r.fields = []) : s.linkStop st .look k r =
      if r.index.toNat < 1 ∨ kindSize k < r.index.toNat ∨ (k ≠ .hold ∧ k ≠ .incident ∧ k ≠ .call ∧ r.issue ≠ 0) then
        some .noRecord
      else none := by
  rw [State.linkStop_eq, if_neg (by simp [role]), if_neg (by simp)]
  simp [fields]

/-- A record that is there has an index of its kind, and a fixed one has issue 0. -/
theorem State.table_indexed {s : State} {k : Kind} {index : Byte} {x : Nat × List (Nat × Nat)}
    (found : s.table k index = some x) :
    (1 ≤ index.toNat ∧ index.toNat ≤ kindSize k) ∧ ((k ≠ .hold ∧ k ≠ .incident ∧ k ≠ .call) → x.1 = 0) := by
  have within {n : Nat} {i : Fin n} (entry : entryOf n index = some i) : 1 ≤ index.toNat ∧ index.toNat ≤ n := by
    have at_ := entryOf_eq_some_iff.1 entry
    omega
  cases k <;> simp only [State.table, Option.map_eq_some_iff, Option.bind_eq_some_iff] at found
  case hold | incident | call =>
    obtain ⟨i, entry, -⟩ := found
    exact ⟨within entry, fun other => by simp at other⟩
  all_goals
    obtain ⟨i, entry, rfl⟩ := found
    exact ⟨within entry, fun _ => rfl⟩

/-- What a LOOK without fields is answered: the record that its index and issue name, or NO_RECORD. -/
theorem State.decide_look {s : State} {st : Fin 8} {k : Kind} {r : Req} (role : s.role st ≠ .none)
    (fields : r.fields = []) :
    (∀ issue fs, s.table k r.index = some (issue, fs) → r.issue = 0 ∨ r.issue.toNat = issue →
      State.decide .look k r State.lookReq st s =
        ({ Ask.answer ⟨st, k, r⟩ .done none (inFrame fs) with issue := BitVec.ofNat 8 issue }, s)) ∧
    ((∀ issue fs, s.table k r.index = some (issue, fs) → r.issue ≠ 0 ∧ r.issue.toNat ≠ issue) →
      State.decide .look k r State.lookReq st s = Ask.says ⟨st, k, r⟩ .noRecord [] s) := by
  have stop := State.linkStop_look (k := k) role fields
  refine ⟨fun issue fs found named => ?_, fun unnamed => ?_⟩
  · obtain ⟨⟨low, high⟩, fixed⟩ := State.table_indexed found
    have passes : s.linkStop st .look k r = none := by
      rw [stop, if_neg]
      rintro (below | above | ⟨hold, incident, call, given⟩)
      · omega
      · omega
      · have zero : issue = 0 := fixed ⟨hold, incident, call⟩
        exact given (named.resolve_right fun same => given (BitVec.eq_of_toNat_eq (same.trans zero)))
    simp only [State.decide, passes, State.lookReq, State.record_eq, found, Option.map_some]
    rw [if_pos named]
  · cases stopped : s.linkStop st .look k r with
    | some status =>
      obtain rfl : status = .noRecord := by
        rw [stop] at stopped
        split_ifs at stopped
        exact (Option.some.inj stopped).symm
      simp only [State.decide, stopped]
    | none =>
      simp only [State.decide, stopped, State.lookReq, State.record_eq]
      cases found : s.table k r.index with
      | none => rfl
      | some x =>
        obtain ⟨issue, fs⟩ := x
        obtain ⟨given, other⟩ := unnamed issue fs found
        exact if_neg fun named => named.elim given other

/-- Settles O19: the reply is built of the record's table, and its class is cleared at the station that looked. -/
theorem lookAnswersAndClears : Obligations.LookAnswersAndClears := by
  unfold Obligations.LookAnswersAndClears
  intro k r st s u heard fields role hu
  subst hu
  have role' : s.frameGood.role st ≠ .none := by rwa [State.frameGood_role]
  obtain ⟨there, absent⟩ := State.decide_look (k := k) role' fields
  have run := exec_look_heard heard (k := k)
  have link := State.lookClears_link s.frameGood st k
  obtain ⟨v, decided, turned⟩ : ∃ v, State.decide .look k r State.lookReq st s.frameGood = (v, s.frameGood) ∧
      (v.status == .done || v.status == .noRecord) = true := by
    by_cases named : ∃ issue fs, s.frameGood.table k r.index = some (issue, fs) ∧ (r.issue = 0 ∨ r.issue.toNat = issue)
    · obtain ⟨issue, fs, found, names⟩ := named
      exact ⟨_, there issue fs found names, rfl⟩
    · refine ⟨_, absent fun issue fs found => not_or.1 fun names => named ⟨issue, fs, found, names⟩, rfl⟩
  rw [decided, lookRead, if_pos turned] at run
  refine ⟨_, run, (State.lookClears_changes ..).andThen (State.reply_changes ..), ?_, ?_, ?_, ?_, fun issue fs found names => ?_,
    fun unnamed => ?_⟩
  · simp only [State.reply, link]
  · simp only [State.reply, link]
  · exact s.frameGood.lookClears_onlyAt st k
  · exact s.frameGood.lookClears_station st k
  · obtain rfl : v = _ := congrArg Prod.fst (decided.symm.trans (there issue fs found names))
    simp [Replies, State.reply, Ask.answer]
  · obtain rfl : v = _ := congrArg Prod.fst (decided.symm.trans (absent unnamed))
    exact Ask.answer_echoes ⟨st, k, r⟩ ..

end Sys2Proof.Machine
end

section
/-!
PROOFS. STORE (R198) and RESTART (R176, R177), with what the soft restart leaves of each block (R63, R80, R127, R154,
R166, R192).
-/

namespace Sys2Proof.Machine

-- One declaration at a time: side conditions closed by tactics wait for what stands before them.
set_option Elab.async false

/-! ## Requests that name the STATUS record (R176, R198) -/

section

variable {i : Instr} {code : ReqCode} {k : Kind} {r : Req} {st : Fin 8} {s : State}

/-- Of the link port's checks, the role and the ids of the fields can stop a STORE or a RESTART (R184). -/
theorem State.linkStop_ofStatus (ofStatus : code = .store ∨ code = .restart) :
    s.linkStop st code k r =
      if s.role st = .none ∨ s.role st = .view then some .notPermitted
      else if ¬(r.fields.map (·.id)).Nodup then some .badField else none := by
  rw [State.linkStop_eq]
  rcases ofStatus with rfl | rfl
  · simp
  · simp

theorem Ask.namesStatus_iff {q : Ask} :
    q.namesStatus = true ↔ q.kind = .status ∧ q.req.index = 1 ∧ q.req.issue = 0 ∧ q.req.fields = [] := by
  simp [Ask.namesStatus, and_assoc]

/-- A decision that leaves the state as it is, whoever takes it. -/
theorem exec_turned (named : requestOf i = some (code, k, r)) (other : code ≠ .look) (h : Heard s r st) {status : Status}
    {why : Option Reason} {fields : List FieldVal}
    (decided : State.decide code k r (handlerOf i) st s.frameGood =
      (Ask.answer ⟨st, k, r⟩ status why fields, s.frameGood)) :
    ∃ t, exec i s = .next t ∧ ChangesOnly [.link] s.frameGood t ∧
      Replies t s.settings.part.address r.station status why k r.index.toNat r.issue.toNat fields := by
  have run := exec_heard named other h
  rw [decided] at run
  exact ⟨_, run, State.reply_changes .., Ask.answer_echoes ⟨st, k, r⟩ ..⟩

end

/-! ## STORE (R198) -/

section

variable {k : Kind} {r : Req} {st : Fin 8} {s : State}

theorem State.decide_store_misnamed (role : s.role st ≠ .none) (able : s.role st ≠ .view)
    (misnamed : k ≠ .status ∨ r.index ≠ 1 ∨ r.issue ≠ 0 ∨ r.fields ≠ []) :
    State.decide .store k r State.storeReq st s = Ask.says ⟨st, k, r⟩ .badField [] s := by
  have names : (Ask.namesStatus ⟨st, k, r⟩) = false := by
    rw [← Bool.not_eq_true, Ask.namesStatus_iff]
    rintro ⟨kind, index, issue, fields⟩
    exact misnamed.elim (fun n => n kind) fun m => m.elim (fun n => n index) fun m => m.elim (fun n => n issue) fun n => n fields
  have stop := State.linkStop_ofStatus (code := .store) (k := k) (r := r) (st := st) (s := s) (.inl rfl)
  rw [if_neg (not_or.2 ⟨role, able⟩)] at stop
  by_cases once : (r.fields.map (·.id)).Nodup
  · rw [if_neg (not_not.2 once)] at stop
    simp only [State.decide, stop, State.storeReq, names, Bool.not_false, if_true]
  · rw [if_pos once] at stop
    simp only [State.decide, stop]

variable (index : r.index = 1) (issue : r.issue = 0) (fields : r.fields = [])
include index issue fields

theorem namesStatus_of : Ask.namesStatus ⟨st, .status, r⟩ = true := Ask.namesStatus_iff.2 ⟨rfl, index, issue, fields⟩

omit index issue in
/-- An owner that asks for an ENGINEER first is spared the roles that the link port turns away. -/
theorem State.decide_ofStatus {code : ReqCode} (ofStatus : code = .store ∨ code = .restart)
    {handler : Ask → State → Verdict} {v : Verdict} (asked : handler ⟨st, .status, r⟩ s =
      if s.role st ≠ .engineer then Ask.says ⟨st, .status, r⟩ .notPermitted [] s else v) :
    State.decide code .status r handler st s =
      if s.role st ≠ .engineer then Ask.says ⟨st, .status, r⟩ .notPermitted [] s else v := by
  have stop := State.linkStop_ofStatus (k := .status) (r := r) (st := st) (s := s) ofStatus
  rw [if_neg (not_not.2 (by simp [fields] : (r.fields.map (·.id)).Nodup))] at stop
  by_cases barred : s.role st = .none ∨ s.role st = .view
  · rw [if_pos barred] at stop
    have other : s.role st ≠ .engineer := by rcases barred with e | e <;> rw [e] <;> exact nofun
    simp only [State.decide, stop, if_pos other]
  · rw [if_neg barred] at stop
    simp only [State.decide, stop, asked]

theorem State.decide_store : State.decide .store .status r State.storeReq st s =
    if s.role st ≠ .engineer then Ask.says ⟨st, .status, r⟩ .notPermitted [] s
    else if s.store.state = .storing then Ask.says ⟨st, .status, r⟩ .busy [] s
    else Ask.says ⟨st, .status, r⟩ .done s.beginStore.statusFields s.beginStore := by
  refine State.decide_ofStatus fields (.inl rfl) ?_
  simp only [State.storeReq, namesStatus_of (st := st) index issue fields, Bool.not_true, Bool.false_eq_true, if_false,
    bne_iff_ne, ne_eq]

theorem State.decide_restart (loads : BitVec 16) : State.decide .restart .status r (State.restartReq loads) st s =
    if s.role st ≠ .engineer then Ask.says ⟨st, .status, r⟩ .notPermitted [] s
    else if s.store.state = .storing then Ask.says ⟨st, .status, r⟩ .busy [] s
    else if ¬∀ a, s.phase a = .dark then Ask.refuses ⟨st, .status, r⟩ .performanceActive [] s
    else if s.incidentList ≠ [] then Ask.refuses ⟨st, .status, r⟩ .alarmActive [] s
    else Ask.says ⟨st, .status, r⟩ .done (s.softRestart loads).statusFields (s.softRestart loads) := by
  refine State.decide_ofStatus fields (.inr rfl) ?_
  have lights : (!s.allDark) = true ↔ ¬∀ a, s.phase a = .dark := by
    rw [← State.allDark_iff, Bool.not_eq_true', Bool.not_eq_true]
  simp only [State.restartReq, namesStatus_of (st := st) index issue fields, Bool.not_true, Bool.false_eq_true, if_false,
    bne_iff_ne, ne_eq, lights]

end

theorem State.beginStore_store (s : State) : s.beginStore.store = { s.store with state := .storing } := by
  simp [State.beginStore]

theorem State.beginStore_image (s : State) : s.beginStore.image = s.image ∧ s.beginStore.imageGood = false := by
  simp [State.beginStore]

/-- The completion of a STORE in progress (R198). -/
theorem State.storeCompletes_storing {s : State} (storing : s.store.state = .storing) :
    s.storeCompletes.image = s.settings ∧ s.storeCompletes.imageGood = true ∧
      s.storeCompletes.store = { s.store with state := .stored, changed := false } := by
  unfold State.storeCompletes
  rw [if_pos storing]
  simp

/-- Settles O21: a STORE is begun by the decision on it and completed by the event alone. -/
theorem storeWritesImage : Obligations.StoreWritesImage := by
  unfold Obligations.StoreWritesImage
  refine ⟨fun r st s u heard index issue fields hu => ?_, fun s powered storing => ?_, fun s idle => ?_,
    fun k r st s heard role able misnamed => ?_⟩
  · subst hu
    have decided := State.decide_store (st := st) (s := s.frameGood) index issue fields
    rw [State.frameGood_role, State.frameGood_store] at decided
    have one : r.index.toNat = 1 := by rw [index]; rfl
    have turned {status : Status} {why : Option Reason} {shown : List FieldVal}
        (answered : State.decide .store .status r State.storeReq st s.frameGood =
          (Ask.answer ⟨st, .status, r⟩ status why shown, s.frameGood)) :
        ∃ t, exec (.store .status r) s = .next t ∧ ChangesOnly [.link] s.frameGood t ∧
          Replies t s.settings.part.address r.station status why .status 1 0 shown := by
      have result := exec_turned (i := .store .status r) rfl (by decide) heard answered
      rw [index, issue] at result
      exact result
    refine ⟨fun engineer idle => ?_, fun engineer storing => ?_, fun other => ?_⟩
    · rw [if_neg (not_not.2 engineer), if_neg idle] at decided
      have run := exec_heard (i := .store .status r) rfl (by decide) heard
      rw [show handlerOf (.store .status r) = State.storeReq from rfl, decided] at run
      obtain ⟨image, good⟩ := s.frameGood.beginStore_image
      refine ⟨_, run, ?_, ?_, good, ?_, Ask.answer_replies (ask := ⟨st, .status, r⟩) one issue ..⟩
      · exact s.frameGood.beginStore_store.trans (by rw [State.frameGood_store])
      · exact image.trans (s.frameGood_changes.same .image (by decide)).1
      · exact s.frameGood.beginStore_changes.andThen (State.reply_changes ..)
    · rw [if_neg (not_not.2 engineer), if_pos storing] at decided
      exact turned decided
    · rw [if_pos other] at decided
      exact turned decided
  · obtain ⟨image, good, store⟩ := State.storeCompletes_storing storing
    exact ⟨_, s.takes_powered State.storeCompletes powered, image, good, store, s.storeCompletes_changes⟩
  · have still : s.storeCompletes = s := if_neg idle
    change s.takes State.storeCompletes = _
    rw [State.takes, still, ite_self]
  · refine exec_turned (i := .store k r) rfl (by decide) heard ?_
    exact State.decide_store_misnamed (by rwa [State.frameGood_role]) (by rwa [State.frameGood_role]) misnamed

/-! ## What a soft restart leaves of each block (R177) -/

/-- In DARK there is no hold to evaluate (R20). -/
theorem State.evalHolds_dark {s : State} (dark : ∀ a, s.phase a = .dark) (c : HoldCause) : s.evalHolds c = s :=
  forAll_keeps (· = s) _ (fun a t h => by
    subst h
    exact if_pos (dark a)) s rfl

/-- The condition of a circuit that changes concerns holds and bursts alone. -/
theorem State.changeCircuit_quiet {s : State} (dark : ∀ a, s.phase a = .dark) (quiet : ∀ z : Fin 8, s.czones[z].mode = none)
    (c : Fin 16) (x : Circuit) : s.changeCircuit c x = s.writeCircuit c x := by
  have frame := s.writeCircuit_changes c x
  have perfs : (s.writeCircuit c x).perfs = s.perfs := frame.same .perfs (by decide)
  have czones : (s.writeCircuit c x).czones = s.czones := frame.same .czones (by decide)
  have lost (z : Fin 8) : (s.writeCircuit c x).chimeLost z = s.writeCircuit c x := by
    unfold State.chimeLost
    simp only [czones, quiet]
  unfold State.changeCircuit State.announceCondition
  dsimp only
  split
  · rfl
  · split
    · exact State.evalHolds_dark (fun a => by rw [State.phase, perfs]; exact dark a) _
    · split
      · split
        · exact lost _
        · rfl
      · rfl

/-- The burst's signals end and the zone is freed; what waits and what is silenced stays (R142, R143). -/
theorem State.stopBurst_czones (s : State) (z : Fin 8) :
    (s.stopBurst z).czones = put s.czones z (CallZone.freed s.czones[z].queue s.czones[z]) := by
  have demanded : (s.demand (chimeOf z) false .continuous).czones = s.czones :=
    (State.demand_changes ..).same .czones (by decide)
  have ended : ∃ code, (s.endSignals z).czones = put s.czones z { s.czones[z] with flickerCode := code } ∧ code = 0 := by
    unfold State.endSignals
    dsimp only
    split
    next none =>
      rw [demanded] at none ⊢
      refine ⟨s.czones[z].flickerCode, ?_, none⟩
      exact (put_self s.czones z).symm
    · refine ⟨0, ?_, rfl⟩
      unfold State.handFlicker
      rw [((State.flickerRequest_changes _ z 0).same .czones (by decide) : _ = _), State.writeCZone_czones, demanded]
  obtain ⟨code, signals, zero⟩ := ended
  unfold State.stopBurst State.freeZone
  rw [State.writeCZone_czones, signals, put_put]
  simp only [put_same, zero]
  rfl

theorem State.stopBurst_calls (s : State) (z : Fin 8) :
    (s.stopBurst z).calls = s.calls ∧ (s.stopBurst z).callList = s.callList := by
  have ended : ChangesOnly [.czones, .circuits, .groups, .flickers, .stations] s (s.endSignals z) := by
    unfold State.endSignals
    dsimp only
    split
    · exact (State.demand_changes ..).mono (by decide)
    · exact (State.demand_changes ..).andThen (State.handFlicker_changes ..)
  have whole : ChangesOnly [.czones, .circuits, .groups, .flickers, .stations] s (s.stopBurst z) :=
    ended.andThen (State.writeCZone_changes ..)
  exact whole.same .calls (by decide)

/-- The turn of one zone as the call unit restarts (R154). -/
def State.dropTurn (z : Fin 8) (s : State) : State :=
  (s.stopBurst z).writeCZone z { (s.stopBurst z).czones[z] with queue := [], suppressed := false, barred := false }

theorem State.dropCalls_eq (s : State) : ∃ t, s.dropCalls = { t with
      calls := tab fun c => { t.calls[c] with call := none }, callList := [] } ∧ t = forAll 8 State.dropTurn s :=
  ⟨_, rfl, rfl⟩

/-- A zone as it stands after the call unit has restarted: free, empty and not silenced. -/
def CallZone.restarted (x : CallZone) : CallZone := { CallZone.freed [] x with suppressed := false, barred := false }

theorem State.dropTurn_czones (s : State) (z : Fin 8) :
    (s.dropTurn z).czones = put s.czones z s.czones[z].restarted := by
  unfold State.dropTurn
  simp only [State.writeCZone_czones, State.stopBurst_czones, put_same, put_put]
  rfl

theorem State.dropTurn_calls (s : State) (z : Fin 8) : (s.dropTurn z).calls = s.calls := by
  unfold State.dropTurn
  rw [State.writeCZone_calls, (s.stopBurst_calls z).1]

/-- Bursts are stopped, queues and table emptied, and nothing is silenced (R154). -/
theorem State.dropCalls_czone (s : State) (z : Fin 8) : s.dropCalls.czones[z] = s.czones[z].restarted := by
  obtain ⟨t, dropped, turns⟩ := s.dropCalls_eq
  have whole : (forAll 8 State.dropTurn s).czones[z] = s.czones[z].restarted := by
    have before (i : Fin 8) (u : State) (ne : i ≠ z) (h : u.czones[z] = s.czones[z]) :
        (u.dropTurn i).czones[z] = s.czones[z] := by
      simp only [State.dropTurn_czones, put_other _ _ _ _ ne.symm]
      exact h
    have turn (u : State) (h : u.czones[z] = s.czones[z]) : (u.dropTurn z).czones[z] = s.czones[z].restarted := by
      simp only [State.dropTurn_czones, put_same]
      rw [h]
    have after (i : Fin 8) (u : State) (ne : i ≠ z) (h : u.czones[z] = s.czones[z].restarted) :
        (u.dropTurn i).czones[z] = s.czones[z].restarted := by
      simp only [State.dropTurn_czones, put_other _ _ _ _ ne.symm]
      exact h
    have turned := forAll_turn (f := State.dropTurn) (P := fun u : State => u.czones[z] = s.czones[z])
      (Q := fun u : State => u.czones[z] = s.czones[z].restarted) z before turn after s (Eq.refl _)
    exact turned
  rw [← turns] at whole
  rw [dropped]
  exact whole

theorem State.dropCalls_calls (s : State) :
    s.dropCalls.callList = [] ∧ ∀ c : Fin 32, s.dropCalls.calls[c] = ⟨s.calls[c].issue, none⟩ := by
  obtain ⟨t, dropped, turns⟩ := s.dropCalls_eq
  have kept : (forAll 8 State.dropTurn s).calls = s.calls :=
    forAll_keeps (fun u => u.calls = s.calls) _ (fun z u h => (u.dropTurn_calls z).trans h) s rfl
  rw [← turns] at kept
  rw [dropped]
  refine ⟨rfl, fun c => ?_⟩
  change (tab _ : Vector CallSlot 32)[c] = _
  rw [tab_get, kept]

/-- Fades and flicker stopped, before the forces are derived again (R127). -/
def State.lightsStopped (s : State) : State :=
  { s with
    flickers := tab fun z => { s.flickers[z] with code := 0, dip := false }
    groups := tab fun g => if s.settings.groups[g].present then s.groups[g].stopFade else s.groups[g] }

theorem State.restartLights_eq (s : State) : ∃ u v, s.restartLights = { u with lit := v } ∧
    u = s.lightsStopped.refreshGroups := ⟨_, _, rfl, rfl⟩

/-- The lights keep their levels, with no fade (R127). -/
theorem State.restartLights_group {s : State} (lights : LightsDerived s) (g : Fin 12)
    (present : s.settings.groups[g].present = true) :
    KeepsFade s.groups[g].stopFade s.restartLights.groups[g] := by
  have group (j : Fin 12) : s.lightsStopped.groups[j] =
      if s.settings.groups[j].present then s.groups[j].stopFade else s.groups[j] := tab_get ..
  have causes (j : Fin 12) : s.lightsStopped.groups[j].causes = s.groups[j].causes := by
    rw [group]
    split
    · rfl
    · rfl
  have settings : s.lightsStopped.settings = s.settings := rfl
  have derived : LightsDerived s.lightsStopped := by
    obtain ⟨forces, lit⟩ := lights
    refine ⟨fun j here => (causes j).trans (forces j here), fun z => ?_⟩
    rw [State.litNow_congr settings causes z]
    exact lit z
  have kept := State.refreshGroups_keepsFade derived g
  rw [group, if_pos present] at kept
  obtain ⟨u, v, restarted, refreshed⟩ := s.restartLights_eq
  rw [← refreshed] at kept
  rw [restarted]
  exact kept

theorem State.restartLights_flicker (s : State) (z : Fin 8) : s.restartLights.flickers[z].code = 0 := by
  have kept : s.lightsStopped.refreshGroups.flickers = s.lightsStopped.flickers :=
    (State.refreshGroups_changes _).same .flickers (by decide)
  have stopped : s.lightsStopped.flickers[z] = { s.flickers[z] with code := 0, dip := false } := tab_get ..
  obtain ⟨u, v, restarted, refreshed⟩ := s.restartLights_eq
  rw [← refreshed] at kept
  rw [restarted]
  change u.flickers[z].code = 0
  rw [kept, stopped]

/-- A circuit as a restart leaves it: set as at a cold start, and tested (R166). -/
def Circuit.restarted (now : Nat) (load : Bool) : Circuit :=
  { Circuit.cleared now with condition := if load then .sound else .openLoad }

theorem Circuit.cleared_tested (now : Nat) (load : Bool) : (Circuit.cleared now).tested load = Circuit.restarted now load := by
  cases load <;> rfl

/-- Every circuit restarts (R166). -/
theorem State.restartCircuits_quiet {s : State} (loads : BitVec 16) (dark : ∀ a, s.phase a = .dark)
    (quiet : ∀ z : Fin 8, s.czones[z].mode = none) :
    ChangesOnly [.circuits, .stations] s (s.restartCircuits loads) ∧
      ∀ c : Fin 16, (s.restartCircuits loads).circuits[c] = Circuit.restarted s.now (loads.getLsbD c.1) := by
  have changed {u : State} (kept : ChangesOnly [.circuits, .stations] s u) (c : Fin 16) (x : Circuit) :
      u.changeCircuit c x = u.writeCircuit c x := by
    have perfs : u.perfs = s.perfs := kept.same .perfs (by decide)
    have czones : u.czones = s.czones := kept.same .czones (by decide)
    exact State.changeCircuit_quiet (fun a => by rw [State.phase, perfs]; exact dark a)
      (fun z => by rw [czones]; exact quiet z) c x
  have turn (t : State) (frame : ChangesOnly [.circuits, .stations] s t) (c : Fin 16) :
      ChangesOnly [.circuits, .stations] s ((t.changeCircuit c (Circuit.cleared t.now)).changeCircuit c
          ((t.changeCircuit c (Circuit.cleared t.now)).circuits[c].tested (loads.getLsbD c.1))) ∧
        ((t.changeCircuit c (Circuit.cleared t.now)).changeCircuit c
          ((t.changeCircuit c (Circuit.cleared t.now)).circuits[c].tested (loads.getLsbD c.1))).circuits =
          put t.circuits c (Circuit.restarted s.now (loads.getLsbD c.1)) := by
    have now : t.now = s.now := frame.same .clock (by decide)
    have first := frame.andThen (rs := [.circuits, .stations]) (t.writeCircuit_changes c (Circuit.cleared t.now))
    rw [changed frame, changed first]
    refine ⟨first.andThen (State.writeCircuit_changes ..), ?_⟩
    simp only [State.writeCircuit_circuits, put_same, put_put, Circuit.cleared_tested, now]
  unfold State.restartCircuits
  dsimp only
  refine ⟨forAll_keeps (ChangesOnly [.circuits, .stations] s) _ (fun c t h => (turn t h c).1) s (.refl _ s), fun c => ?_⟩
  refine (forAll_turn (P := fun t => ChangesOnly [.circuits, .stations] s t)
    (Q := fun t => ChangesOnly [.circuits, .stations] s t ∧ t.circuits[c] = Circuit.restarted s.now (loads.getLsbD c.1)) c
    (fun i t _ h => (turn t h i).1) (fun t h => ⟨(turn t h c).1, ?_⟩) (fun i t ne h => ⟨(turn t h.1 i).1, ?_⟩) s (.refl _ s)).2
  · simp only [(turn t h c).2, put_same]
  · simp only [(turn t h.1 i).2, put_other _ _ _ _ ne.symm]
    exact h.2

/-- In DARK a zone that restarts concerns no hold (R80). -/
theorem State.restartZones_dark {s : State} (dark : ∀ a, s.phase a = .dark) :
    ChangesOnly [.zones, .stations] s s.restartZones ∧ ∀ z : Fin 24, s.restartZones.zones[z] =
      s.zones[z].softRestart s.now s.settings.zones[z] s.lines.bands[z] := by
  have turn (t : State) (frame : ChangesOnly [.zones, .stations] s t) (z : Fin 24) :
      (if t.zones[z].condition = (t.zones[z].softRestart t.now t.settings.zones[z] t.lines.bands[z]).condition then
        t.writeZone z (t.zones[z].softRestart t.now t.settings.zones[z] t.lines.bands[z])
      else (t.writeZone z (t.zones[z].softRestart t.now t.settings.zones[z] t.lines.bands[z])).evalHolds .system) =
      t.writeZone z (t.zones[z].softRestart s.now s.settings.zones[z] s.lines.bands[z]) := by
    have now : t.now = s.now := frame.same .clock (by decide)
    have settings : t.settings = s.settings := frame.same .settings (by decide)
    have lines : t.lines = s.lines := frame.same .lines (by decide)
    rw [now, settings, lines]
    have written := frame.andThen (rs := [.zones, .stations])
      (t.writeZone_changes z (t.zones[z].softRestart s.now s.settings.zones[z] s.lines.bands[z]))
    have perfs := written.same .perfs (by decide)
    rw [State.evalHolds_dark (fun a => ?_), ite_self]
    exact (congrArg (fun v => v[a].phase) (perfs : _ = s.perfs)).trans (dark a)
  unfold State.restartZones
  dsimp only
  have kept (t : State) (frame : ChangesOnly [.zones, .stations] s t) (z : Fin 24) := frame.andThen
    (rs := [.zones, .stations]) (t.writeZone_changes z (t.zones[z].softRestart s.now s.settings.zones[z] s.lines.bands[z]))
  refine ⟨forAll_keeps (ChangesOnly [.zones, .stations] s) _ (fun z t h => ?_) s (.refl _ s), fun z => ?_⟩
  · rw [turn t h z]
    exact kept t h z
  refine (forAll_turn
    (P := fun t => ChangesOnly [.zones, .stations] s t ∧ t.zones[z] = s.zones[z])
    (Q := fun t => ChangesOnly [.zones, .stations] s t ∧
      t.zones[z] = s.zones[z].softRestart s.now s.settings.zones[z] s.lines.bands[z]) z
    (fun i t ne h => ?_) (fun t h => ?_) (fun i t ne h => ?_) s ⟨.refl _ s, rfl⟩).2
  · rw [turn t h.1 i]
    refine ⟨kept t h.1 i, ?_⟩
    simp only [State.writeZone_zones, put_other _ _ _ _ ne.symm]
    exact h.2
  · rw [turn t h.1 z]
    refine ⟨kept t h.1 z, ?_⟩
    simp only [State.writeZone_zones, put_same]
    rw [h.2]
  · rw [turn t h.1 i]
    refine ⟨kept t h.1 i, ?_⟩
    simp only [State.writeZone_zones, put_other _ _ _ _ ne.symm]
    exact h.2

theorem State.restartIrons_iron (s : State) (ch : Fin 3) : s.restartIrons.irons[ch] = s.irons[ch].softRestart := by
  have turned := forAll_turn (f := fun ch (s : State) => s.writeIron ch s.irons[ch].softRestart)
    (P := fun t : State => t.irons[ch] = s.irons[ch]) (Q := fun t : State => t.irons[ch] = s.irons[ch].softRestart) ch
    (fun i t ne h => by simp only [State.writeIron_irons, put_other _ _ _ _ ne.symm]; exact h)
    (fun t h => by simp only [State.writeIron_irons, put_same]; rw [h])
    (fun i t ne h => by simp only [State.writeIron_irons, put_other _ _ _ _ ne.symm]; exact h) s (Eq.refl _)
  exact turned

theorem State.setDegraded_dark {s : State} (dark : ∀ a, s.phase a = .dark) (on : Bool) :
    ChangesOnly [.link, .stations] s (s.setDegraded on) := by
  unfold State.setDegraded
  split
  · exact .refl _ s
  · have judged : ChangesOnly [.link] s ({ s with link := { s.link with degraded := on } } : State) := by
      constructor; intro p hp; cases p <;> simp_all [Part.same]
    have marked := judged.andThen (rs := [.link, .stations])
      (State.mark_changes ({ s with link := { s.link with degraded := on } } : State) .status)
    generalize ({ s with link := { s.link with degraded := on } } : State).mark .status = u at *
    have perfs : u.perfs = s.perfs := marked.same .perfs (by decide)
    rw [State.evalHolds_dark fun a => by rw [State.phase, perfs]; exact dark a]
    exact marked

/-- The link recovers, which in DARK concerns no hold (R192). -/
theorem State.restartLink_dark {s : State} (dark : ∀ a, s.phase a = .dark) :
    ChangesOnly [.link, .stations] s s.restartLink ∧ s.restartLink.link = ⟨0, false, s.link.reply⟩ := by
  have zeroed : ∀ a, (s.counted 0).phase a = .dark := dark
  exact ⟨(s.counted_changes 0).andThen (State.setDegraded_dark zeroed false), State.setDegraded_link ..⟩

/-- What a present zone is after a soft restart (R80). -/
theorem Zone.softRestart_present {x : Zone} {now : Nat} {cfg : ZoneSettings} {b : Band} (present : cfg.present = true) :
    (x.softRestart now cfg b).isolated = x.isolated ∧ (x.softRestart now cfg b).incident = x.incident ∧
      (x.softRestart now cfg b).band = b ∧ (x.softRestart now cfg b).noise = 0 ∧
      (x.softRestart now cfg b).loopFault = false ∧
      (x.softRestart now cfg b).condition = (if x.isolated then .isolated else .sound) ∧
      (x.softRestart now cfg b).detection = if b = .active ∧ x.isolated = false then .pending else .normal := by
  unfold Zone.softRestart Zone.readBand
  rw [if_pos present]
  dsimp only
  split
  · exact ⟨rfl, rfl, rfl, rfl, rfl, rfl, rfl⟩
  · exact ⟨rfl, rfl, rfl, rfl, rfl, rfl, rfl⟩

/-- What a soft restart in DARK leaves, block by block (R177). -/
structure SoftRestarted (loads : BitVec 16) (s t : State) : Prop where
  frame : ChangesOnly ([.link, .stations, .supply, .zones, .irons] ++ lightParts) s t
  supply : t.supply = { s.supply with restartCause := .softRestart }
  link : t.link = ⟨0, false, s.link.reply⟩
  stations : ∀ i : Fin 8, t.stations[i] =
    { flags := if s.settings.stations[i].role = .none then 0 else s.settings.stations[i].mask, armed := 0 }
  irons : ∀ ch : Fin 3, t.irons[ch] = s.irons[ch].softRestart
  list : t.callList = []
  calls : ∀ c : Fin 32, t.calls[c] = ⟨s.calls[c].issue, none⟩
  czones : ∀ z : Fin 8, t.czones[z] = s.czones[z].restarted
  flickers : ∀ z : Fin 8, t.flickers[z].code = 0
  circuits : ∀ c : Fin 16, t.circuits[c] = Circuit.restarted s.now (loads.getLsbD c.1)
  zones : ∀ z : Fin 24, t.zones[z] = s.zones[z].softRestart s.now s.settings.zones[z] s.lines.bands[z]
  groups : LightsDerived s → ∀ g : Fin 12, s.settings.groups[g].present = true →
    t.groups[g].level = s.groups[g].level ∧ t.groups[g].target = s.groups[g].level ∧ t.groups[g].fading = false

theorem State.softRestart_restarts {s : State} (loads : BitVec 16) (dark : ∀ a, s.phase a = .dark) :
    SoftRestarted loads s (s.softRestart loads) := by
  have stays {ps : List Part} {u : State} (h : ChangesOnly ps s u) (out : ps.contains .perfs = false) :
      ∀ a, u.phase a = .dark := fun a => by
    have perfs : u.perfs = s.perfs := h.same .perfs (by simpa using out)
    rw [State.phase, perfs]
    exact dark a
  have dropped := s.dropCalls_changes
  have czones := s.dropCalls_czone
  obtain ⟨list, calls⟩ := s.dropCalls_calls
  have follow : LightsFollow s s.dropCalls := (LightsFollow.silences s).dropCalls (.refl s)
  have sounded : Sounded s s.dropCalls := (Sounded.silences s).dropCalls (.refl s)
  unfold State.softRestart
  dsimp only
  generalize s.dropCalls = u0 at *
  have lit := u0.restartLights_changes
  have faded (lights : LightsDerived u0) (g : Fin 12) := State.restartLights_group lights g
  have flickers := u0.restartLights_flicker
  have head1 := dropped.andThen (rs := lightParts) lit
  have quiet (z : Fin 8) : u0.restartLights.czones[z].mode = none := by
    rw [(lit.same .czones (by decide) : u0.restartLights.czones = _), czones]
    rfl
  generalize u0.restartLights = u1 at *
  obtain ⟨tripped, circuits⟩ := State.restartCircuits_quiet loads (stays head1 rfl) quiet
  have now1 : u1.now = s.now := head1.same .clock (by decide)
  generalize u1.restartCircuits loads = u2 at *
  have head2 := head1.andThen (rs := lightParts) tripped
  obtain ⟨read, zones⟩ := State.restartZones_dark (stays head2 rfl)
  generalize u2.restartZones = u3 at *
  have head3 := head2.andThen (rs := .zones :: lightParts) read
  have checked := u3.restartIrons_changes
  have irons := u3.restartIrons_iron
  generalize u3.restartIrons = u4 at *
  have head4 := head3.andThen (rs := .irons :: .zones :: lightParts) checked
  have supplied := u4.writeSupply_changes { u4.supply with restartCause := .softRestart }
  have supply : (u4.writeSupply { u4.supply with restartCause := .softRestart }).supply =
      { s.supply with restartCause := .softRestart } := by
    rw [State.writeSupply_supply, (head4.same .supply (by decide) : u4.supply = s.supply)]
  generalize u4.writeSupply { u4.supply with restartCause := .softRestart } = u5 at *
  have head5 := head4.andThen (rs := .supply :: .irons :: .zones :: lightParts) supplied
  obtain ⟨linked, link⟩ := State.restartLink_dark (stays head5 rfl)
  generalize u5.restartLink = u6 at *
  have head6 := head5.andThen (rs := .link :: .supply :: .irons :: .zones :: lightParts) linked
  have flagged := u6.flagAll_changes
  have tail4 := (supplied.andThen (rs := [.supply, .link, .stations]) linked).andThen
    (rs := [.supply, .link, .stations]) flagged
  have tail3 := checked.andThen (rs := [.irons, .supply, .link, .stations]) tail4
  have tail2 := read.andThen (rs := [.zones, .irons, .supply, .link, .stations]) tail3
  have tail1 := tripped.andThen (rs := [.circuits, .zones, .irons, .supply, .link, .stations]) tail2
  have tail0 := lit.andThen (rs := [.flickers, .groups, .lit, .circuits, .zones, .irons, .supply, .link, .stations]) tail1
  have tabled : u6.flagAll.calls = u0.calls ∧ u6.flagAll.callList = u0.callList := tail0.same .calls (by decide)
  refine ⟨(head6.andThen (rs := .link :: .supply :: .irons :: .zones :: lightParts) flagged).mono (by decide), ?_, ?_,
    fun i => ?_, fun ch => ?_, ?_, fun c => ?_, fun z => ?_, fun z => ?_, fun c => ?_, fun z => ?_, fun lights g here => ?_⟩
  · exact ((linked.andThen (rs := [.link, .stations]) flagged).same .supply (by decide)).trans supply
  · rw [(flagged.same .link (by decide) : u6.flagAll.link = u6.link), link, (head5.same .link (by decide) : u5.link = _)]
  · change (tab _ : Vector StationLive 8)[i] = _
    rw [tab_get, (head6.same .settings (by decide) : u6.settings = s.settings)]
  · rw [(tail4.same .irons (by decide) : _ = u4.irons), irons, (head3.same .irons (by decide) : u3.irons = _)]
  · rw [tabled.2, list]
  · rw [tabled.1, calls]
  · rw [(tail0.same .czones (by decide) : _ = u0.czones), czones]
  · rw [(tail1.same .flickers (by decide) : _ = u1.flickers), flickers]
  · rw [(tail2.same .circuits (by decide) : _ = u2.circuits), circuits, now1]
  · rw [(tail3.same .zones (by decide) : _ = u3.zones), zones, (head2.same .zones (by decide) : u2.zones = _),
      (head2.same .clock (by decide) : u2.now = _), (head2.same .settings (by decide) : u2.settings = _),
      (head2.same .lines (by decide) : u2.lines = _)]
  · have settings : u0.settings = s.settings := dropped.same .settings (by decide)
    obtain ⟨target, level, -, -, -, fading, -⟩ := faded (follow.lights lights) g (by rw [settings]; exact here)
    obtain ⟨-, dropLevel, -⟩ := sounded.fades g
    rw [(tail1.same .groups (by decide) : _ = u1.groups)]
    exact ⟨level.trans dropLevel, target.trans dropLevel, fading⟩

/-- Settles O22: the checks of R176 come in their order, and a RESTART that passes them restarts every block in DARK. -/
theorem restartClearsTheDay : Obligations.RestartClearsTheDay := by
  unfold Obligations.RestartClearsTheDay
  intro r loads st s u heard index issue fields hu
  subst hu
  have one : r.index.toNat = 1 := by rw [index]; rfl
  have good := s.frameGood_changes
  have incidents : s.frameGood.incidentList = s.incidentList := (good.same .incidents (by decide)).2
  have decided := State.decide_restart (st := st) (s := s.frameGood) index issue fields loads
  rw [State.frameGood_role, State.frameGood_store, incidents] at decided
  simp only [State.frameGood_phase] at decided
  have turned {status : Status} {why : Option Reason} {shown : List FieldVal}
      (answered : State.decide .restart .status r (State.restartReq loads) st s.frameGood =
        (Ask.answer ⟨st, .status, r⟩ status why shown, s.frameGood)) :
      ∃ t, exec (.restart .status r loads) s = .next t ∧ ChangesOnly [.link] s.frameGood t ∧
        Replies t s.settings.part.address r.station status why .status 1 0 shown := by
    have result := exec_turned (i := .restart .status r loads) rfl (by decide) heard answered
    rw [index, issue] at result
    exact result
  refine ⟨fun other => ?_, fun engineer storing => ?_, fun engineer idle light => ?_, fun engineer idle dark open_ => ?_,
    fun engineer idle dark quiet lights => ?_⟩
  · rw [if_pos other] at decided
    exact turned decided
  · rw [if_neg (not_not.2 engineer), if_pos storing] at decided
    exact turned decided
  · rw [if_neg (not_not.2 engineer), if_neg idle, if_pos (by simpa using light)] at decided
    exact turned decided
  · rw [if_neg (not_not.2 engineer), if_neg idle, if_neg (not_not.2 dark), if_pos open_] at decided
    exact turned decided
  · rw [if_neg (not_not.2 engineer), if_neg idle, if_neg (not_not.2 dark), if_neg (not_not.2 quiet)] at decided
    have run := exec_heard (i := .restart .status r loads) rfl (by decide) heard
    rw [show handlerOf (.restart .status r loads) = State.restartReq loads from rfl, decided] at run
    have restarted := State.softRestart_restarts (s := s.frameGood) loads fun a => by rw [State.frameGood_phase, dark a]
    have settings := s.frameGood_settings
    generalize s.frameGood.softRestart loads = v at *
    have reply := State.reply_changes v s.settings.part.address r.station
      (Ask.answer ⟨st, .status, r⟩ .done none v.statusFields)
    refine ⟨_, run, Ask.answer_replies (ask := ⟨st, .status, r⟩) one issue .., (restarted.frame.andThen reply), ?_, ?_, ?_,
      fun i => ?_, fun ch => ?_, restarted.list, fun c => ?_, fun z => ?_, fun c => ?_, fun z here => ?_, fun g here => ?_⟩
    · exact restarted.supply.trans (by rw [(good.same .supply (by decide) : s.frameGood.supply = s.supply)])
    · exact congrArg Link.errors restarted.link
    · exact congrArg Link.degraded restarted.link
    · have station := restarted.stations i
      rw [settings] at station
      exact ⟨congrArg StationLive.armed station, congrArg StationLive.flags station⟩
    · refine (restarted.irons ch).trans ?_
      rw [State.frameGood_irons]
      rfl
    · refine (restarted.calls c).trans ?_
      rw [(good.same .calls (by decide) : s.frameGood.calls = s.calls ∧ _).1]
    · have zone := restarted.czones z
      exact ⟨congrArg CallZone.sounding zone, congrArg CallZone.queue zone, congrArg CallZone.suppressed zone,
        congrArg CallZone.barred zone, restarted.flickers z⟩
    · refine (restarted.circuits c).trans ?_
      rw [(good.same .clock (by decide) : s.frameGood.now = s.now)]
      rfl
    · have zone := restarted.zones z
      rw [settings, (good.same .zones (by decide) : s.frameGood.zones = s.zones),
        (good.same .lines (by decide) : s.frameGood.lines = s.lines)] at zone
      obtain ⟨isolated, incident, band, noise, loop, condition, detection⟩ :=
        Zone.softRestart_present (x := s.zones[z]) (now := s.frameGood.now) (b := s.lines.bands[z]) here
      rw [← zone] at isolated incident band noise loop condition detection
      exact ⟨isolated, incident, band, noise, loop, condition, detection⟩
    · have present : s.frameGood.settings.groups[g].present = true := by rw [settings]; exact here
      have group := restarted.groups lights g present
      rw [(good.same .groups (by decide) : s.frameGood.groups = s.groups)] at group
      exact group

end Sys2Proof.Machine
end

section
/-!
PROOFS. What ends a delivery and a call (R137, R152), what a call notice ends (R150, R151), and the transitions of a
performance (R7..R18).
-/

namespace Sys2Proof.Machine
-- The proofs of this file are elaborated one after another.
set_option Elab.async false

/-! ## Calls and deliveries as they are written (R132, R152) -/

theorem State.call?_of_calls {s t : State} (h : t.calls = s.calls) (c : Fin 32) : t.call? c = s.call? c := by
  simp only [State.call?, h]

theorem ChangesOnly.call? {ps : List Part} {s t : State} (h : ChangesOnly ps s t)
    (out : ps.contains .calls = false := by rfl) (c : Fin 32) : t.call? c = s.call? c := by
  have same : t.calls = s.calls ∧ t.callList = s.callList := h.same .calls (by simpa using out)
  exact State.call?_of_calls same.1 c

/-- A call none of whose deliveries is unended is FINISHED with its outcome (R152). -/
def Call.finish (x : Call) : Call :=
  if x.finished || x.deliveries.any Delivery.unended then x
  else { x with finished := true, outcome := some (outcomeOf x.deliveries) }

theorem Call.finish_deliveries (x : Call) : x.finish.deliveries = x.deliveries := by
  unfold Call.finish; split <;> rfl

theorem Call.finish_finished (x : Call) : x.finish.finished = true ∨ x.finish.deliveries.any Delivery.unended = true := by
  rw [Call.finish_deliveries]
  unfold Call.finish
  split
  next h => exact Bool.or_eq_true_iff.1 h
  next => exact .inl rfl

theorem State.finishCall_call? (s : State) (c j : Fin 32) :
    (s.finishCall c).call? j = if j = c then (s.call? c).map Call.finish else s.call? j := by
  unfold State.finishCall
  cases found : s.call? c with
  | none =>
    dsimp only
    split
    next same => rw [same, found]; rfl
    next => rfl
  | some x =>
    dsimp only [Option.map_some]
    unfold Call.finish
    split
    · split
      next same => rw [same, found]
      next => rfl
    · rw [State.writeCall_call?]

theorem State.editDelivery_call? (s : State) (c j : Fin 32) (z : Fin 8) (f : Delivery → Delivery) :
    (s.editDelivery c z f).call? j = if j = c then (s.call? c).map (Call.editDelivery z f) else s.call? j := by
  unfold State.editDelivery
  cases found : s.call? c with
  | none =>
    dsimp only
    split
    next same => rw [same, found]; rfl
    next => rfl
  | some x => exact State.writeCall_call? ..

/-- A delivery as it is when it has ended in state `st` (R137). -/
def Delivery.endedAs (st : DeliveryState) (d : Delivery) : Delivery := { d with state := st, resumes := false }

/-- A call one of whose deliveries has ended in state `st` (R137, R152). -/
def Call.ended (z : Fin 8) (st : DeliveryState) (x : Call) : Call := (x.editDelivery z (Delivery.endedAs st)).finish

theorem State.endDelivery_call? (s : State) (c j : Fin 32) (z : Fin 8) (st : DeliveryState) :
    (s.endDelivery c z st).call? j = if j = c then (s.call? c).map (Call.ended z st) else s.call? j := by
  have whole : s.endDelivery c z st = (s.editDelivery c z (Delivery.endedAs st)).finishCall c := rfl
  rw [whole, State.finishCall_call?, State.editDelivery_call?, State.editDelivery_call?, if_pos rfl, Option.map_map]
  split
  · rfl
  · rfl

theorem Call.editDelivery_delivery? (x : Call) (z w : Fin 8) (f : Delivery → Delivery) (zone : ∀ d, (f d).zone = d.zone) :
    (x.editDelivery z f).delivery? w = if w = z then (x.delivery? w).map f else x.delivery? w := by
  unfold Call.delivery? Call.editDelivery
  dsimp only
  rw [List.find?_map]
  have same : ((fun d : Delivery => d.zone == w) ∘ fun d => if d.zone = z then f d else d) = fun d => d.zone == w := by
    funext d
    rw [Function.comp_apply]
    split <;> simp [zone]
  rw [same]
  cases found : x.deliveries.find? fun d => d.zone == w with
  | none => split <;> rfl
  | some d =>
    have at_ : d.zone = w := by simpa using List.find?_some found
    rw [Option.map_some, Option.map_some, at_]
    split <;> rfl

theorem Call.ended_delivery? (x : Call) (z w : Fin 8) (st : DeliveryState) :
    (x.ended z st).delivery? w = if w = z then (x.delivery? w).map (Delivery.endedAs st) else x.delivery? w := by
  rw [← Call.editDelivery_delivery? x z w (Delivery.endedAs st) fun _ => rfl]
  simp only [Call.delivery?, Call.ended, Call.finish_deliveries]

/-- The deliveries of a call after one has ended: those of its zone have the new state, and the others stand. -/
theorem Call.mem_ended {x : Call} {z : Fin 8} {st : DeliveryState} {d : Delivery} (h : d ∈ (x.ended z st).deliveries) :
    d.zone = z ∧ d.state = st ∨ d.zone ≠ z ∧ d ∈ x.deliveries := by
  simp only [Call.ended, Call.finish_deliveries, Call.editDelivery, List.mem_map] at h
  obtain ⟨e, mem, rfl⟩ := h
  by_cases own : e.zone = z
  · rw [if_pos own]; exact .inl ⟨own, rfl⟩
  · rw [if_neg own]; exact .inr ⟨own, mem⟩

/-! ## A delivery that leaves its zone (R143) -/

theorem State.writeCZone_call? (s : State) (z : Fin 8) (x : CallZone) (c : Fin 32) :
    (s.writeCZone z x).call? c = s.call? c := (State.writeCZone_changes s z x).call? rfl c

theorem State.withdraw_call? (s : State) (c j : Fin 32) (z : Fin 8) : (s.withdraw c z).call? j = s.call? j := by
  unfold State.withdraw
  split
  · exact State.call?_of_calls (State.stopBurst_calls s z).1 j
  · exact State.writeCZone_call? ..

/-! ## Bursts that start leave the calls that have ended (R140, R141) -/

/-- A delivery whose burst starts (R142). -/
def Delivery.begun (d : Delivery) : Delivery := { d with state := .sounding, resumes := false }

theorem State.startBurst_call? (s : State) (z : Fin 8) (c j : Fin 32) (m : BurstMode) (code : Nat) :
    (s.startBurst z c m code).call? j =
      if j = c then (s.call? c).map (Call.editDelivery z Delivery.begun) else s.call? j := by
  rw [← State.editDelivery_call?]
  unfold State.startBurst
  extract_lets cfg strokes s1 cz s2
  have written : s2.call? j = s1.call? j := State.writeCZone_call? ..
  refine Eq.trans ?_ written
  cases m with
  | chime => exact (State.beginStroke_changes s2 z).call? rfl j
  | chimeFlicker =>
    exact ((State.handFlicker_changes s2 z code).andThen (rs := burstParts.erase .calls)
      (State.beginStroke_changes ..)).call? rfl j
  | flicker => exact (State.handFlicker_changes s2 z code).call? rfl j

/-- No delivery of the call is WAITING or SOUNDING. -/
def Call.closed (x : Call) : Prop := ∀ d ∈ x.deliveries, d.unended = false

/-- A delivery that is due is one of a call that is not over. -/
theorem State.not_isDue_of_closed {s : State} {c : Fin 32} {x : Call} (h : s.call? c = some x) (closed : x.closed) (z : Fin 8) :
    s.isDue z c = false := by
  unfold State.isDue State.delivery?
  rw [h, Option.bind_some]
  cases found : x.delivery? z with
  | none => rfl
  | some d =>
    have ended := closed d (List.mem_of_find?_eq_some found)
    simp only [Delivery.unended, Bool.or_eq_false_iff] at ended
    dsimp only
    rw [ended.1]
    rfl

/-- The arbiter leaves a call that is over. -/
theorem State.lookFor_closed {c : Fin 32} {x : Call} (closed : x.closed) (z : Fin 8) (fuel : Nat) (s : State)
    (h : s.call? c = some x) : (s.lookFor z fuel).call? c = some x := by
  induction fuel generalizing s with
  | zero => exact h
  | succ fuel ih =>
    unfold State.lookFor
    dsimp only
    split
    · exact h
    · split
      · exact h
      next d found =>
        have due := List.find?_some found
        have ne : c ≠ d := by
          rintro rfl
          rw [State.not_isDue_of_closed h closed] at due
          cases due
        split
        · rw [State.startBurst_call?, if_neg ne, h]
        · refine ih _ ?_
          rw [State.endDelivery_call?, if_neg ne]
          exact (State.writeCZone_call? ..).trans h

/-! ## A call notice (R150, R151) -/

/-- A call whose deliveries in the zones of `rest` are the only ones that may be unended, those of `x` having ended
in state `st` elsewhere. -/
structure Call.Noticed (st : DeliveryState) (x : Call) (rest : List Delivery) (y : Call) : Prop where
  left : ∀ d ∈ y.deliveries, d.unended = true → ∃ e ∈ rest, e.unended = true ∧ e.zone = d.zone
  states : ∀ z d, x.delivery? z = some d → d.unended = true →
    (y.delivery? z).map (·.state) = some st ∨ ∃ e, y.delivery? z = some e ∧ e.unended = true
  finished : x.deliveries.any Delivery.unended = true →
    y.finished = true ∨ y.deliveries.any Delivery.unended = true

theorem Call.noticed_start (st : DeliveryState) (x : Call) : x.Noticed st x.deliveries x :=
  ⟨fun d mem open_ => ⟨d, mem, open_, rfl⟩, fun _ d found open_ => .inr ⟨d, found, open_⟩, fun open_ => .inr open_⟩

theorem Call.Noticed.skip {st : DeliveryState} {x y : Call} {d : Delivery} {rest : List Delivery}
    (h : x.Noticed st (d :: rest) y) (ended : d.unended = false) : x.Noticed st rest y := by
  refine ⟨fun e mem open_ => ?_, h.states, h.finished⟩
  obtain ⟨f, listed, still, zone⟩ := h.left e mem open_
  rcases List.mem_cons.1 listed with rfl | later
  · rw [ended] at still; cases still
  · exact ⟨f, later, still, zone⟩

/-- The delivery in the next zone ends. -/
theorem Call.Noticed.next {st : DeliveryState} {x y : Call} {d : Delivery} {rest : List Delivery}
    (h : x.Noticed st (d :: rest) y) (final : st ≠ .waiting ∧ st ≠ .sounding) :
    x.Noticed st rest (y.ended d.zone st) := by
  refine ⟨fun e mem open_ => ?_, fun z f found open_ => ?_, fun _ => Call.finish_finished _⟩
  · obtain ⟨-, state⟩ | ⟨other, old⟩ := Call.mem_ended mem
    · simp [Delivery.unended, state, final] at open_
    · obtain ⟨f, listed, still, zone⟩ := h.left e old open_
      rcases List.mem_cons.1 listed with rfl | later
      · exact absurd zone.symm other
      · exact ⟨f, later, still, zone⟩
  · rw [Call.ended_delivery?]
    by_cases own : z = d.zone
    · rw [if_pos own]
      obtain ended | ⟨e, found', -⟩ := h.states z f found open_
      · cases has : y.delivery? z with
        | none => rw [has] at ended; cases ended
        | some e => exact .inl rfl
      · rw [found']; exact .inl rfl
    · rw [if_neg own]; exact h.states z f found open_

/-- Where the whole list is done, the call is over, with its unended deliveries ended so and FINISHED if there were
any. -/
theorem Call.Noticed.closed {st : DeliveryState} {x y : Call} (h : x.Noticed st [] y) : y.closed := by
  intro d mem
  by_contra open_
  obtain ⟨e, listed, -⟩ := h.left d mem (by simpa using open_)
  cases listed

/-- A call whose deliveries have all been ended by a notice with state `st`. -/
def EndedBy (st : DeliveryState) (x y : Call) : Prop :=
  y.closed ∧ (∀ z d, x.delivery? z = some d → d.unended = true → (y.delivery? z).map (·.state) = some st) ∧
    (x.deliveries.any Delivery.unended = true → y.finished = true)

theorem Call.Noticed.endedBy {st : DeliveryState} {x y : Call} (h : x.Noticed st [] y) : EndedBy st x y := by
  refine ⟨h.closed, fun z d found open_ => ?_, fun open_ => ?_⟩
  · obtain ended | ⟨e, found', still⟩ := h.states z d found open_
    · exact ended
    · rw [h.closed e (List.mem_of_find?_eq_some found')] at still; cases still
  · obtain finished | still := h.finished open_
    · exact finished
    · obtain ⟨e, mem, open'⟩ := List.any_eq_true.1 still
      rw [h.closed e mem] at open'; cases open'

/-- The end of one delivery at a notice (R150). -/
def State.noticeDelivery (st : DeliveryState) (c : Fin 32) (s : State) (d : Delivery) : State :=
  if d.unended then (s.withdraw c d.zone).endDelivery c d.zone st else s

/-- The turn of one call at a notice (R150). -/
def State.noticeCall (st : DeliveryState) (s : State) (c : Fin 32) : State :=
  (((s.call? c).map (·.deliveries)).getD []).foldl (State.noticeDelivery st c) s

theorem State.noticeDelivery_call? (st : DeliveryState) (c j : Fin 32) (s : State) (d : Delivery) :
    (s.noticeDelivery st c d).call? j =
      if j = c ∧ d.unended = true then (s.call? c).map (Call.ended d.zone st) else s.call? j := by
  unfold State.noticeDelivery
  split
  next open_ =>
    rw [State.endDelivery_call?, State.withdraw_call?, State.withdraw_call?]
    simp only [open_, and_true]
  next ended => rw [if_neg fun h => ended h.2]

theorem State.noticeCall_other (st : DeliveryState) (s : State) {c j : Fin 32} (ne : j ≠ c) :
    (s.noticeCall st c).call? j = s.call? j := by
  refine foldl_keeps (fun t => State.call? t j = s.call? j) _ (fun t d same => ?_) _ s rfl
  rw [State.noticeDelivery_call?, if_neg fun h => ne h.1, same]

theorem State.noticeCall_ends {st : DeliveryState} {s : State} {c : Fin 32} {x : Call}
    (final : st ≠ .waiting ∧ st ≠ .sounding) (h : s.call? c = some x) :
    ∃ y, (s.noticeCall st c).call? c = some y ∧ EndedBy st x y := by
  have turns : ∀ (l : List Delivery) (t : State) (y : Call), t.call? c = some y → x.Noticed st l y →
      ∃ y, (l.foldl (State.noticeDelivery st c) t).call? c = some y ∧ EndedBy st x y := by
    intro l
    induction l with
    | nil => exact fun t y found noticed => ⟨y, found, noticed.endedBy⟩
    | cons d l ih =>
      intro t y found noticed
      rw [List.foldl_cons]
      by_cases open_ : d.unended = true
      · refine ih _ (y.ended d.zone st) ?_ (noticed.next final)
        rw [State.noticeDelivery_call?, if_pos ⟨rfl, open_⟩, found]
        rfl
      · refine ih _ y ?_ (noticed.skip (by simpa using open_))
        rw [State.noticeDelivery_call?, if_neg fun h => open_ h.2, found]
  have whole := turns x.deliveries s x h (x.noticed_start st)
  unfold State.noticeCall
  rw [h]
  exact whole

/-- A call that is over is left by a further turn of its own. -/
theorem State.noticeCall_closed {st : DeliveryState} {s : State} {c j : Fin 32} {y : Call} (h : s.call? j = some y)
    (closed : y.closed) : (s.noticeCall st c).call? j = some y := by
  by_cases own : j = c
  · subst own
    unfold State.noticeCall
    rw [h]
    have turns : ∀ l : List Delivery, (∀ d ∈ l, d.unended = false) → l.foldl (State.noticeDelivery st j) s = s := by
      intro l
      induction l with
      | nil => exact fun _ => rfl
      | cons d l ih =>
        intro all
        have still : s.noticeDelivery st j d = s := if_neg (by rw [all d (List.mem_cons_self ..)]; decide)
        rw [List.foldl_cons, still]
        exact ih fun e mem => all e (List.mem_cons_of_mem _ mem)
    exact (congrArg (State.call? · j) (turns y.deliveries closed)).trans h
  · rw [State.noticeCall_other st s own, h]

/-- The turns of a list of calls end each of them. -/
theorem State.noticeCalls_end {st : DeliveryState} (final : st ≠ .waiting ∧ st ≠ .sounding) {c : Fin 32} {x : Call}
    (cs : List (Fin 32)) (mem : c ∈ cs) (s : State) (h : s.call? c = some x) :
    ∃ y, (cs.foldl (State.noticeCall st) s).call? c = some y ∧ EndedBy st x y := by
  induction cs generalizing s with
  | nil => cases mem
  | cons d cs ih =>
    rw [List.foldl_cons]
    by_cases own : c = d
    · subst own
      obtain ⟨y, found, ended⟩ := State.noticeCall_ends final h
      obtain ⟨closed, -⟩ := id ended
      exact ⟨y, foldl_keeps (fun t => State.call? t c = some y) _ (fun t e same => State.noticeCall_closed same closed)
        cs _ found, ended⟩
    · exact ih ((List.mem_cons.1 mem).resolve_left own) _ (by rw [State.noticeCall_other st s own, h])

/-- The ACTIVE AUDIENCE calls of an auditorium, which a notice ends (R150). -/
def State.audienceCalls (s : State) (a : Fin 3) : List (Fin 32) :=
  s.callList.filter fun c =>
    match s.call? c with
    | some x => !x.finished && x.purpose == .audience && x.aud == some a
    | none => false

theorem State.callNotice_eq (s : State) (a : Fin 3) (st : DeliveryState) :
    s.callNotice a st = (s.soundingZones (s.audienceCalls a)).foldl (fun t z => t.arbitrate z)
      ((s.audienceCalls a).foldl (State.noticeCall st) s) := rfl

/-- A call notice ends every unended delivery of the auditorium's ACTIVE AUDIENCE calls, and the zones left free start
no burst for one of them. -/
theorem State.callNotice_ends (s : State) (a : Fin 3) {st : DeliveryState} (final : st ≠ .waiting ∧ st ≠ .sounding) :
    AudienceEnded a st s (s.callNotice a st) := by
  intro c listed x found active audience aud
  have mem : c ∈ s.audienceCalls a := by
    refine List.mem_filter.2 ⟨listed, ?_⟩
    simp [found, active, audience, aud]
  obtain ⟨y, ended, closed, states, finished⟩ := State.noticeCalls_end final _ mem s found
  refine ⟨y, ?_, closed, states, finished⟩
  rw [State.callNotice_eq]
  exact foldl_keeps (fun t => State.call? t c = some y) _ (fun t z same => State.lookFor_closed closed z _ t same) _ _ ended

/-- What a notice ends is read from the table it found. -/
theorem AudienceEnded.transport {a : Fin 3} {st : DeliveryState} {s s' t t' : State} (h : AudienceEnded a st s t)
    (list : s'.callList = s.callList) (calls : s'.calls = s.calls) (after : t'.calls = t.calls) :
    AudienceEnded a st s' t' := by
  intro c listed x found active audience aud
  rw [State.call?_of_calls calls] at found
  obtain ⟨y, ended, rest⟩ := h c (list ▸ listed) x found active audience aud
  exact ⟨y, by rw [State.call?_of_calls after, ended], rest⟩

end Sys2Proof.Machine
end

section
/-!
PROOFS. The lights at a phase change that may end an interruption or cross DARK (R115, R119..R122), and the
transitions to HOUSE_OPEN, BEGINNERS from HALTED, RUNNING, CLOSING and HALTED (R8, R10, R12, R13, R15, R16).
-/

namespace Sys2Proof.Machine

-- The proofs of this file are elaborated one after another.
set_option Elab.async false

/-! ## The force causes after a record is written (R115) -/

/-- The force causes after a write that leaves which performances are DARK, with RESTORE as the record has it. -/
theorem State.writePerf_restores {s : State} {a : Fin 3} {p : Perf}
    (dark : (p.phase != .dark) = (s.phase a != .dark)) (g : Fin 12) :
    (s.writePerf a p).causesOf g = causeSet (meets s.generalSet (s.groupServes g))
      (s.settings.groups[g].feed == .standby && (s.supply.mains != .present) &&
        someIx 3 fun b => has (s.groupServes g) b && s.phase b != .dark)
      (s.settings.groups[g].kind != .foyer && (put s.perfs a p)[s.settings.groups[g].aud].interrupted)
      (s.settings.groups[g].feed == .mains && (s.supply.mains != .present)) := by
  have phases (b : Fin 3) : ((put s.perfs a p)[b].phase != .dark) = (s.perfs[b].phase != .dark) := by
    rw [put_get]
    split
    next same => rw [same, dark]; rfl
    next => rfl
  simp only [State.causesOf, State.groupServes, State.generalSet, State.openIncidents, State.phase,
    State.writePerf_settings, State.writePerf_incidents, State.writePerf_incidentList, State.writePerf_supply,
    State.writePerf_perfs, phases]

/-- A group whose interruption the record does not bear on keeps its causes. -/
theorem State.writePerf_causesOf_other {s : State} {a : Fin 3} {p : Perf}
    (dark : (p.phase != .dark) = (s.phase a != .dark)) {g : Fin 12} (present : s.settings.groups[g].present = true)
    (unled : ¬s.follows g a) : (s.writePerf a p).causesOf g = s.causesOf g := by
  rw [State.writePerf_restores dark]
  have restore : (s.settings.groups[g].kind != .foyer && (put s.perfs a p)[s.settings.groups[g].aud].interrupted) =
      (s.settings.groups[g].kind != .foyer && s.perfs[s.settings.groups[g].aud].interrupted) := by
    by_cases foyer : s.settings.groups[g].kind = .foyer
    · rw [foyer]; rfl
    · have away : s.settings.groups[g].aud ≠ a := fun same => unled ⟨present, foyer, same⟩
      rw [put_get, if_neg away]
  rw [restore]
  rfl

theorem causeSet_restore {general supply restore mains : Bool} (h : causeSet general supply restore mains = 4) :
    general = false ∧ supply = false ∧ mains = false := by
  revert h
  cases general <;> cases supply <;> cases restore <;> cases mains <;> decide

/-- A group that RESTORE alone forced has no cause left when its performance's interruption ends (R120). -/
theorem State.writePerf_causesOf_released {s : State} {a : Fin 3} {p : Perf}
    (dark : (p.phase != .dark) = (s.phase a != .dark)) (ended : p.interrupted = false) {g : Fin 12}
    (led : s.follows g a) (forced : s.causesOf g = 4) : (s.writePerf a p).causesOf g = 0 := by
  obtain ⟨general, supply, mains⟩ := causeSet_restore forced
  obtain ⟨-, -, aud⟩ := led
  rw [State.writePerf_restores dark, general, supply, mains, put_get, if_pos aud, ended, Bool.and_false]
  rfl

/-- With mains PRESENT and the interruption as it was, crossing DARK moves no cause of any group (R115). -/
theorem State.writePerf_causesOf_mains {s : State} {a : Fin 3} {p : Perf} (mains : s.supply.mains = .present)
    (same : p.interrupted = s.perfs[a].interrupted) (g : Fin 12) : (s.writePerf a p).causesOf g = s.causesOf g := by
  have restores (b : Fin 3) : (put s.perfs a p)[b].interrupted = s.perfs[b].interrupted := by
    rw [put_get]
    split
    next e => rw [e, same]
    next => rfl
  simp only [State.causesOf, State.groupServes, State.generalSet, State.openIncidents, State.writePerf_settings,
    State.writePerf_incidents, State.writePerf_incidentList, State.writePerf_supply, State.writePerf_perfs, restores,
    mains, bne_self_eq_false, Bool.and_false, Bool.false_and]

/-! ## Groups as their causes are derived again (R119, R120) -/

theorem LightGroup.startFade_target (t d : Nat) (x : LightGroup) : (x.startFade t d).target = t := by
  unfold LightGroup.startFade; split <;> rfl

theorem LightGroup.force_target (c : CauseSet) (d : Nat) (x : LightGroup) : (x.force c d).target = x.target := by
  unfold LightGroup.force
  split
  · rfl
  · split
    · rfl
    · split
      · exact LightGroup.startFade_target ..
      · rfl

theorem State.refreshed_target (s : State) (g : Fin 12) : (s.refreshed g).target = s.groups[g].target := by
  unfold State.refreshed
  split
  · exact LightGroup.force_target ..
  · rfl

/-- A group whose causes stand as derived keeps its fade. -/
theorem State.refreshed_keepsFade {s : State} {g : Fin 12}
    (derived : s.settings.groups[g].present = true → s.causesOf g = s.groups[g].causes) :
    KeepsFade s.groups[g] (s.refreshed g) := by
  unfold State.refreshed
  split
  next present =>
    rw [derived present, LightGroup.force_same]
    exact State.relit_keepsFade ..
  next => exact .refl _

theorem LightGroup.startFade_released (t d : Nat) (x : LightGroup) :
    ReleasedTo t d x (({ x with causes := 0, level := x.driven } : LightGroup).startFade t d) := by
  unfold LightGroup.startFade
  by_cases none : d = 0
  · rw [if_pos none]; exact ⟨rfl, rfl, rfl, by simp [none], rfl, by simp [none], by simp [none]⟩
  · rw [if_neg none]; exact ⟨rfl, rfl, rfl, rfl, rfl, by simp [none], by simp [none]⟩

theorem ReleasedTo.keep {t d : Nat} {x y z : LightGroup} (h : ReleasedTo t d x y) (k : KeepsFade y z) :
    ReleasedTo t d x z := by
  obtain ⟨target, level, start, steps, step, fading, causes⟩ := k
  rw [ReleasedTo, target, level, start, steps, step, fading, causes]
  exact h

/-- A forced group that has no cause left fades from its driven level to its target (R120). -/
theorem State.refreshed_released {s : State} {g : Fin 12} (present : s.settings.groups[g].present = true)
    (forced : s.groups[g].causes ≠ 0) (free : s.causesOf g = 0) :
    ReleasedTo s.groups[g].target s.settings.groups[g].restoreFade s.groups[g] (s.refreshed g) := by
  unfold State.refreshed
  rw [if_pos present, free]
  have eased : s.groups[g].force 0 s.settings.groups[g].restoreFade =
      ({ s.groups[g] with causes := 0, level := s.groups[g].driven } : LightGroup).startFade s.groups[g].target
        s.settings.groups[g].restoreFade := by
    unfold LightGroup.force
    rw [if_neg (Ne.symm forced), if_neg forced, if_pos rfl]
  rw [eased]
  exact (LightGroup.startFade_released ..).keep (State.relit_keepsFade ..)

/-! ## Any phase change (R6, R121) -/

/-- The state of a phase change before the force causes are derived again. -/
def State.responding (s : State) (a : Fin 3) (p : Perf) (r : Option Response) : State :=
  (s.writePerf a p).respondWith a r

theorem State.responding_changes (s : State) (a : Fin 3) (p : Perf) (r : Option Response) :
    ChangesOnly [.perfs, .retained, .groups, .stations] s (s.responding a p r) :=
  (s.writePerf_changes a p).andThen (State.respondWith_changes ..)

theorem State.responding_causesOf (s : State) (a : Fin 3) (p : Perf) (r : Option Response) (g : Fin 12) :
    (s.responding a p r).causesOf g = (s.writePerf a p).causesOf g :=
  (State.respondWith_changes ..).causesOf g

theorem State.responding_causes (s : State) (a : Fin 3) (p : Perf) (r : Option Response) (g : Fin 12) :
    (s.responding a p r).groups[g].causes = s.groups[g].causes := by
  rw [State.responding, State.respondWith_causes, State.writePerf_groups]

theorem State.responding_none (s : State) (a : Fin 3) (p : Perf) (g : Fin 12) :
    (s.responding a p none).groups[g] = s.groups[g] := by
  unfold State.responding State.respondWith
  rw [State.writePerf_groups]

theorem State.responding_takes (s : State) (a : Fin 3) (p : Perf) (r : Response) {g : Fin 12} (led : s.follows g a) :
    TakesResponse r.target r.fade s.groups[g] (s.responding a p (some r)).groups[g] := by
  have takes := (s.writePerf a p).respond_takes a r.target r.fade g
    (((s.writePerf_changes a p).follows rfl g a).2 led)
  simp only [State.writePerf_groups] at takes
  exact takes

theorem State.responding_other (s : State) (a : Fin 3) (p : Perf) (r : Option Response) {g : Fin 12}
    (unled : ¬s.follows g a) : (s.responding a p r).groups[g] = s.groups[g] := by
  cases r with
  | none => exact State.responding_none ..
  | some r =>
    have same := (s.writePerf a p).respond_other a r.target r.fade g fun k =>
      unled (((s.writePerf_changes a p).follows rfl g a).1 k)
    simp only [State.writePerf_groups] at same
    exact same

/-- A response leaves the driven level of a forced group (R119, R122). -/
theorem State.respond_driven (s : State) (a : Fin 3) (t d : Nat) {g : Fin 12} (forced : s.groups[g].causes ≠ 0) :
    (s.respond a t d).groups[g].driven = s.groups[g].driven := by
  rw [State.respond_eq]
  have kept : (forAll 12 (State.respondTurn a t d) s).groups[g].causes = s.groups[g].causes ∧
      (forAll 12 (State.respondTurn a t d) s).groups[g].driven = s.groups[g].driven := by
    refine forAll_keeps (fun u => u.groups[g].causes = s.groups[g].causes ∧ u.groups[g].driven = s.groups[g].driven) _
      (fun i u hu => ?_) s ⟨rfl, rfl⟩
    obtain ⟨causes, driven⟩ := hu
    refine ⟨(u.respondTurn_causes a t d i g).trans causes, ?_⟩
    by_cases own : i = g ∧ u.follows g a
    · obtain ⟨rfl, reached⟩ := own
      simp only [State.respondTurn_groups t d reached, put_same]
      rw [State.responded, if_neg (causes ▸ forced)]
      exact driven
    · rw [u.respondTurn_other a t d i g (not_and_or.1 own)]
      exact driven
  exact kept.2

/-- Performance `a` of `s` has become `p` in `t`: the record and the retained copy hold it, and the fades are those
that the response and the new force causes left. -/
structure PhaseTaken (a : Fin 3) (p : Perf) (r : Option Response) (s t : State) : Prop where
  perfs : t.perfs = put s.perfs a p
  retained : t.retained = ⟨put s.retained.entries a ⟨p.phase, p.act, p.ironProved⟩, true⟩
  fades : ∀ g : Fin 12, KeepsFade ((s.responding a p r).refreshed g) t.groups[g]

theorem State.refreshLights_fades (s : State) (g : Fin 12) : KeepsFade (s.refreshed g) s.refreshLights.groups[g] := by
  have sounded := (Sounded.announceLit s.refreshGroups).fades g
  rw [State.refreshGroups_group] at sounded
  exact sounded

theorem State.enterPhase_taken {s : State} {a : Fin 3} {p : Perf} (r : Option Response) (n : Option DeliveryState)
    (new : s.phase a ≠ p.phase) : PhaseTaken a p r s (s.enterPhase a p r n) := by
  have lit : ChangesOnly lightParts (s.writePerf a p) (s.responding a p r).refreshLights :=
    ((s.writePerf a p).respondWith_changes a r).andThen (State.refreshLights_changes _)
  have fades := (s.responding a p r).refreshLights_fades
  have silent : PhaseTaken a p r s (s.responding a p r).refreshLights :=
    ⟨(lit.same .perfs (by decide)).trans (State.writePerf_perfs ..),
      (lit.same .retained (by decide)).trans (State.writePerf_retained new), fades⟩
  cases n with
  | none => exact silent
  | some st =>
    have notice := State.callNotice_changes (s.responding a p r).refreshLights a st
    have sounded := Sounded.callNotice (s.responding a p r).refreshLights a st
    exact ⟨(notice.same .perfs (by decide)).trans silent.perfs, (notice.same .retained (by decide)).trans silent.retained,
      fun g => (fades g).trans (sounded.fades g)⟩

namespace PhaseTaken

variable {a : Fin 3} {p : Perf} {r : Option Response} {s t u : State}

/-- What leaves the records and the groups leaves the change as it is. -/
theorem andThen {ps : List Part} (h : PhaseTaken a p r s t) (k : ChangesOnly ps t u)
    (out : ps.all (fun q => !([.perfs, .retained, .groups] : List Part).contains q) = true := by rfl) :
    PhaseTaken a p r s u := by
  have same (q : Part) (mem : q ∈ ([.perfs, .retained, .groups] : List Part)) : q.same t u :=
    k.same q fun inside => by
      have := List.all_eq_true.1 out q inside
      simp only [Bool.not_eq_true', List.contains_eq_mem, decide_eq_false_iff_not] at this
      exact this mem
  have groups : u.groups = t.groups := same .groups (by simp)
  refine ⟨(same .perfs (by simp)).trans h.perfs, (same .retained (by simp)).trans h.retained, fun g => ?_⟩
  rw [groups]
  exact h.fades g

theorem entries (h : PhaseTaken a p r s t) :
    t.perfs[a] = p ∧ OnlyAt a s.perfs t.perfs ∧ t.retained.entries[a] = ⟨p.phase, p.act, p.ironProved⟩ ∧
      OnlyAt a s.retained.entries t.retained.entries ∧ t.retained.checkGood = true := by
  obtain ⟨perfs, retained, -⟩ := h
  refine ⟨?_, fun j other => ?_, ?_, fun j other => ?_, ?_⟩
  · simp only [perfs, put_same]
  · simp only [perfs, put_other _ _ _ _ other]
  · simp only [retained, put_same]
  · simp only [retained, put_other _ _ _ _ other]
  · rw [retained]

/-- The target is the response's, or stays where no response reaches the group. -/
theorem target (h : PhaseTaken a p r s t) (g : Fin 12) : t.groups[g].target = (s.responding a p r).groups[g].target := by
  obtain ⟨target, -⟩ := h.fades g
  rw [target, State.refreshed_target]

theorem target_led {x : Response} (h : PhaseTaken a p (some x) s t) {g : Fin 12} (led : s.follows g a) :
    t.groups[g].target = x.target := by
  obtain ⟨target, -⟩ := s.responding_takes a p x led
  rw [h.target, target]

theorem target_other (h : PhaseTaken a p r s t) {g : Fin 12} (unled : ¬s.follows g a) :
    t.groups[g].target = s.groups[g].target := by
  rw [h.target, s.responding_other a p r unled]

/-- A group whose causes stand keeps what the response left. -/
theorem keeps (h : PhaseTaken a p r s t) (lights : LightsDerived s) {g : Fin 12}
    (stand : s.settings.groups[g].present = true → (s.writePerf a p).causesOf g = s.causesOf g) :
    KeepsFade (s.responding a p r).groups[g] t.groups[g] := by
  obtain ⟨derived, -⟩ := lights
  have settings : (s.responding a p r).settings = s.settings := (s.responding_changes a p r).same .settings (by decide)
  refine (State.refreshed_keepsFade fun present => ?_).trans (h.fades g)
  rw [settings] at present
  rw [State.responding_causesOf, State.responding_causes, stand present, derived g present]

theorem keeps_other (h : PhaseTaken a p r s t) (lights : LightsDerived s)
    (dark : (p.phase != .dark) = (s.phase a != .dark)) {g : Fin 12} (unled : ¬s.follows g a) :
    KeepsFade s.groups[g] t.groups[g] := by
  rw [← s.responding_other a p r unled]
  exact h.keeps lights fun present => State.writePerf_causesOf_other dark present unled

theorem keepsFade (h : PhaseTaken a p none s t) (lights : LightsDerived s)
    (dark : (p.phase != .dark) = (s.phase a != .dark)) (same : p.interrupted = s.perfs[a].interrupted) (g : Fin 12) :
    KeepsFade s.groups[g] t.groups[g] := by
  rw [← s.responding_none a p g]
  exact h.keeps lights fun _ => State.writePerf_causesOf s a p g dark same

theorem takes {x : Response} (h : PhaseTaken a p (some x) s t) (lights : LightsDerived s)
    (dark : (p.phase != .dark) = (s.phase a != .dark)) (same : p.interrupted = s.perfs[a].interrupted) {g : Fin 12}
    (led : s.follows g a) : TakesResponse x.target x.fade s.groups[g] t.groups[g] :=
  (s.responding_takes a p x led).keep (h.keeps lights fun _ => State.writePerf_causesOf s a p g dark same)

/-- A group that RESTORE alone forced is released from its driven level where the interruption ends (R120). -/
theorem released (h : PhaseTaken a p r s t) (lights : LightsDerived s)
    (dark : (p.phase != .dark) = (s.phase a != .dark)) (ended : p.interrupted = false) {g : Fin 12}
    (led : s.follows g a) (forced : s.groups[g].causes = 4) :
    ReleasedTo (s.responding a p r).groups[g].target s.settings.groups[g].restoreFade s.groups[g] t.groups[g] := by
  obtain ⟨derived, -⟩ := lights
  obtain ⟨present, -⟩ := id led
  have settings : (s.responding a p r).settings = s.settings := (s.responding_changes a p r).same .settings (by decide)
  have was : s.causesOf g = 4 := (derived g present).symm.trans forced
  have free : (s.responding a p r).causesOf g = 0 := by
    rw [State.responding_causesOf, State.writePerf_causesOf_released dark ended led was]
  have standing : (s.responding a p r).groups[g].causes ≠ 0 := by
    rw [State.responding_causes, forced]; decide
  have released := State.refreshed_released (settings ▸ present) standing free
  rw [settings] at released
  have driven : (s.responding a p r).groups[g].driven = s.groups[g].driven := by
    cases r with
    | none => rw [State.responding_none]
    | some x =>
      unfold State.responding State.respondWith
      dsimp only
      rw [State.respond_driven _ a x.target x.fade (by rw [State.writePerf_groups, forced]; decide),
        State.writePerf_groups]
  obtain ⟨causes, target, start, steps, step, level, fading⟩ := released.keep (h.fades g)
  exact ⟨causes, target, start.trans driven, steps, step, by rw [level, driven], fading⟩

end PhaseTaken

/-! ## The frame of a phase change that crosses no DARK (R121, R125) -/

/-- The lit states are derived from the FOYER groups alone (R125). -/
theorem State.litNow_of_foyers {s t : State} (settings : t.settings = s.settings)
    (causes : ∀ g : Fin 12, s.settings.groups[g].present = true → s.settings.groups[g].kind = .foyer →
      t.groups[g].causes = s.groups[g].causes) (z : Fin 8) : t.litNow z = s.litNow z := by
  unfold State.litNow
  rw [settings]
  refine congrArg (someIx 12) (funext fun g => ?_)
  dsimp only
  by_cases foyer : s.settings.groups[g].present = true ∧ s.settings.groups[g].kind = .foyer
  · rw [causes g foyer.1 foyer.2]
  · have out : (s.settings.groups[g].present && s.settings.groups[g].kind == .foyer) = false := by
      rw [Bool.eq_false_iff]
      simpa using foyer
    rw [out, Bool.false_and, Bool.false_and, Bool.false_and]

/-- Out of DARK no phase change lights or darkens a call zone. -/
theorem State.responding_refreshLights {s : State} {a : Fin 3} {p : Perf} (r : Option Response) (lights : LightsDerived s)
    (dark : (p.phase != .dark) = (s.phase a != .dark)) :
    (s.responding a p r).refreshLights = (s.responding a p r).refreshGroups := by
  obtain ⟨derived, lit⟩ := lights
  have frame : ChangesOnly [.perfs, .retained, .groups, .stations] s (s.responding a p r).refreshGroups :=
    (s.responding_changes a p r).andThen (State.refreshGroups_changes _)
  have settings : (s.responding a p r).refreshGroups.settings = s.settings := frame.same .settings (by decide)
  have litSame : (s.responding a p r).refreshGroups.lit = s.lit := frame.same .lit (by decide)
  refine State.announceLit_derived fun z => ?_
  rw [litSame, lit z]
  refine (State.litNow_of_foyers settings (fun g present foyer => ?_) z).symm
  have inner : (s.responding a p r).settings = s.settings := (s.responding_changes a p r).same .settings (by decide)
  rw [State.refreshGroups_group, State.refreshed_causes _ _ (inner ▸ present), State.responding_causesOf,
    State.writePerf_causesOf_other dark present fun led => led.2.1 foyer, derived g present]

theorem State.enterPhase_quiet {s : State} {a : Fin 3} {p : Perf} (r : Option Response) (lights : LightsDerived s)
    (dark : (p.phase != .dark) = (s.phase a != .dark)) :
    ChangesOnly [.perfs, .retained, .groups, .stations] s (s.enterPhase a p r none) := by
  have whole : s.enterPhase a p r none = (s.responding a p r).refreshGroups :=
    State.responding_refreshLights r lights dark
  rw [whole]
  exact (s.responding_changes a p r).andThen (State.refreshGroups_changes _)

/-- A phase change that gives notice ends the AUDIENCE calls of its auditorium (R150, R151). -/
theorem State.enterPhase_noticed {s : State} {a : Fin 3} {p : Perf} (r : Option Response) {st : DeliveryState}
    (lights : LightsDerived s) (dark : (p.phase != .dark) = (s.phase a != .dark))
    (final : st ≠ .waiting ∧ st ≠ .sounding) :
    ChangesOnly [.perfs, .retained, .groups, .flickers, .calls, .czones, .circuits, .stations] s
        (s.enterPhase a p r (some st)) ∧
      AudienceEnded a st s (s.enterPhase a p r (some st)) := by
  have quiet := State.enterPhase_quiet r lights dark
  have whole : s.enterPhase a p r (some st) = (s.enterPhase a p r none).callNotice a st := rfl
  have same : (s.enterPhase a p r none).calls = s.calls ∧ (s.enterPhase a p r none).callList = s.callList :=
    quiet.same .calls (by decide)
  rw [whole]
  exact ⟨quiet.andThen (State.callNotice_changes ..),
    (State.callNotice_ends _ a final).transport same.2.symm same.1.symm rfl⟩

/-! ## Phase requests that a condition turns away (R7..R18, R28) -/

section

variable {s u : State} {q : Ask} {a : Fin 3} {p : Phase} {adm : Admission}

theorem State.phaseRequest_refused {why : Reason} (new : u.phase a ≠ p) (row : transition (u.phase a) p = some adm)
    (admitted : u.admits q.st a adm = true) (bar : u.obstacle a p = some (.reason why)) :
    u.phaseRequest q a p = q.refuses why (u.perfFields a) u := by
  simp [State.phaseRequest, new, row, admitted, bar]

theorem State.phaseRequest_blocked {k : Fin 8} (new : u.phase a ≠ p) (row : transition (u.phase a) p = some adm)
    (admitted : u.admits q.st a adm = true) (bar : u.obstacle a p = some (.hold k)) :
    u.phaseRequest q a p = u.blockedBy a k := by
  simp [State.phaseRequest, new, row, admitted, bar]

/-- The reply that a hold blocks names the hold and marks its class again (R28). -/
theorem State.blockedBy_replies {k : Fin 8} {x : Hold} (found : u.hold? a k = some x) (address : Nat) (station : Byte) :
    ChangesOnly [.link, .stations] u ((u.blockedBy a k).2.reply address station (u.blockedBy a k).1) ∧
      ((u.blockedBy a k).2.reply address station (u.blockedBy a k).1).stations = (u.mark .hold).stations ∧
      Replies ((u.blockedBy a k).2.reply address station (u.blockedBy a k).1) address station .refused
        (some .holdPresent) .hold (holdIndex a k) u.holds[a][k].issue (holdFields a x) := by
  refine ⟨(u.mark_changes .hold).andThen (State.reply_changes ..), rfl, ?_⟩
  simp only [State.blockedBy, found, Option.map_some, Option.getD_some]
  rfl

end

section

variable {q : AmendReq} {a : Fin 3} {st : Fin 8} {s : State} {p : Phase} {adm : Admission}

theorem State.frameGood_admits (s : State) (st : Fin 8) (a : Fin 3) (adm : Admission) :
    s.frameGood.admits st a adm = s.admits st a adm := by
  rw [State.admits, State.frameGood_role, State.frameGood_isStageOf, State.admits]

theorem phaseCommand_refused {why : Reason} (h : HeardAlone s q st (a.1 + 1) 0)
    (role : s.role st = .foh ∨ s.isStageOf st a = true) (new : s.phase a ≠ p)
    (row : transition (s.phase a) p = some adm) (admitted : s.admits st a adm = true)
    (bar : s.frameGood.obstacle a p = some (.reason why)) :
    ∃ t, exec (phaseCommand p q) s = .next t ∧ ChangesOnly [.link] s.frameGood t ∧
      Replies t s.settings.part.address q.station .refused (some why) .perf (a.1 + 1) 0 (s.frameGood.perfFields a) := by
  refine ⟨_, exec_phaseCommand_heard p h role, ?_⟩
  rw [State.phaseRequest_refused (by rwa [State.frameGood_phase]) (by rwa [State.frameGood_phase])
    ((s.frameGood_admits st a adm).trans admitted) bar]
  exact ⟨State.reply_changes .., replies_phaseAsk p _ _ _ h⟩

theorem phaseCommand_blocked {k : Fin 8} {x : Hold} (h : HeardAlone s q st (a.1 + 1) 0)
    (role : s.role st = .foh ∨ s.isStageOf st a = true) (new : s.phase a ≠ p)
    (row : transition (s.phase a) p = some adm) (admitted : s.admits st a adm = true)
    (bar : s.frameGood.obstacle a p = some (.hold k)) (found : s.frameGood.hold? a k = some x) :
    ∃ t, exec (phaseCommand p q) s = .next t ∧ ChangesOnly [.link, .stations] s.frameGood t ∧
      Replies t s.settings.part.address q.station .refused (some .holdPresent) .hold (holdIndex a k)
        s.frameGood.holds[a][k].issue (holdFields a x) := by
  refine ⟨_, exec_phaseCommand_heard p h role, ?_⟩
  rw [State.phaseRequest_blocked (by rwa [State.frameGood_phase]) (by rwa [State.frameGood_phase])
    ((s.frameGood_admits st a adm).trans admitted) bar]
  obtain ⟨frame, -, reply⟩ := State.blockedBy_replies found s.settings.part.address q.station
  exact ⟨frame, reply⟩

end

theorem State.admits_foh {s : State} {st : Fin 8} {a : Fin 3} {x : Bool} (h : s.role st = .foh) :
    s.admits st a ⟨x, true⟩ = true := by simp [State.admits, h]

theorem State.admits_both {s : State} {st : Fin 8} {a : Fin 3} (h : s.isStageOf st a = true ∨ s.role st = .foh) :
    s.admits st a ⟨true, true⟩ = true := by
  rcases h with h | h <;> simp [State.admits, h]

theorem State.blockingHold_none {s : State} {a : Fin 3} (h : s.holdLists[a] = []) : s.blockingHold a = none := by
  simp [State.blockingHold, State.oldestHold, h, -Fin.getElem_fin]

/-! ## PREPARE to HOUSE_OPEN (R8) -/

/-- Settles O25: the preset response goes out as the groups stand, and no force cause follows from the phase. -/
theorem houseOpenEntered : Obligations.HouseOpenEntered := by
  unfold Obligations.HouseOpenEntered
  intro q a st s u heard hu foh prepare empty lights
  subst hu
  have record : s.frameGood.perfs[a] = s.perfs[a] := by simp only [State.frameGood_perfs]
  have new : s.phase a ≠ .houseOpen := by rw [prepare]; decide
  have dark : (Phase.houseOpen != .dark) = (s.frameGood.phase a != .dark) := by rw [State.frameGood_phase, prepare]; rfl
  have row : transition (s.phase a) .houseOpen = some ⟨false, true⟩ := by rw [prepare]; rfl
  obtain ⟨answer, t, rfl, run, reply⟩ := phaseCommand_enters .houseOpen _ heard (.inl foh) new row
    (State.admits_foh foh) (State.blockingHold_none empty)
  have entered : PhaseEntered a { s.frameGood.perfs[a] with phase := .houseOpen }
      (some ⟨s.frameGood.settings.perfs[a].presetLevel, s.frameGood.settings.perfs[a].presetFade⟩) s.frameGood
      (s.frameGood.enter a st .houseOpen) :=
    State.enterPhase_unforced _ lights dark rfl (by rwa [State.frameGood_phase])
  rw [record, State.frameGood_settings] at entered
  have change := entered.reply s.settings.part.address q.station answer
  obtain ⟨perf, otherPerfs, entry, otherEntries, good⟩ := change.entries
  exact ⟨_, run, reply, change.frame, perf, otherPerfs, entry, otherEntries, good, change.takes, change.keepsFade_other⟩

/-! ## HALTED to BEGINNERS (R15) -/

theorem State.obstacle_released {s : State} {a : Fin 3} (h : ∀ x ∈ s.openIncidents, x.stage = .general → has x.auds a = false) :
    s.obstacle a .beginners = none := by
  refine if_neg ?_
  rintro ⟨-, concerned⟩
  obtain ⟨x, mem, general, auds⟩ := (s.generalSet_has a).1 concerned
  rw [h x mem general] at auds
  cases auds

theorem State.obstacle_alarm {s : State} {a : Fin 3} (halted : s.phase a = .halted)
    (h : ∃ x ∈ s.openIncidents, x.stage = .general ∧ has x.auds a = true) :
    s.obstacle a .beginners = some (.reason .alarmActive) := if_pos ⟨halted, (s.generalSet_has a).2 h⟩

theorem State.frameGood_openIncidents (s : State) : s.frameGood.openIncidents = s.openIncidents := by
  have incidents : s.frameGood.incidents = s.incidents ∧ s.frameGood.incidentList = s.incidentList :=
    s.frameGood_changes.same .incidents (by decide)
  simp only [State.openIncidents, incidents.1, incidents.2]

theorem State.frameGood_groups (s : State) : s.frameGood.groups = s.groups := s.frameGood_changes.same .groups (by decide)

/-- Settles O27: only RESTORE, which no FOYER group has, can go with the phase, so that no call zone is told. -/
theorem haltedToBeginners : Obligations.HaltedToBeginners := by
  unfold Obligations.HaltedToBeginners
  intro q a st s u heard hu halted stage
  subst hu
  have record : s.frameGood.perfs[a] = s.perfs[a] := by simp only [State.frameGood_perfs]
  have halted' : s.frameGood.perfs[a].phase = .halted := (s.frameGood_phase a).trans halted
  have new : s.phase a ≠ .beginners := by rw [halted]; decide
  have dark : (Phase.beginners != .dark) = (s.frameGood.phase a != .dark) := by rw [State.frameGood_phase, halted]; rfl
  have row : transition (s.phase a) .beginners = some ⟨true, false⟩ := by rw [halted]; rfl
  rw [← s.frameGood_openIncidents]
  refine ⟨fun concerned => ?_, fun free lights => ?_⟩
  · exact phaseCommand_refused heard (.inr stage) new row (State.admits_stage stage)
      (State.obstacle_alarm halted' concerned)
  · obtain ⟨answer, t, rfl, run, reply⟩ := phaseCommand_enters .beginners _ heard (.inr stage) new row
      (State.admits_stage stage) (State.obstacle_released free)
    have whole : s.frameGood.enter a st .beginners =
        s.frameGood.enterPhase a { s.frameGood.perfs[a] with phase := .beginners, interrupted := false } none none := by
      unfold State.enter State.enterBeginners
      dsimp only
      rw [if_pos halted']
    have frame := State.enterPhase_quiet (s := s.frameGood)
      (p := { s.frameGood.perfs[a] with phase := .beginners, interrupted := false }) none lights dark
    have taken := State.enterPhase_taken (s := s.frameGood)
      (p := { s.frameGood.perfs[a] with phase := .beginners, interrupted := false }) none none
      (by rwa [State.frameGood_phase])
    rw [← whole] at frame taken
    have change := taken.andThen (State.reply_changes _ s.settings.part.address q.station answer)
    obtain ⟨perf, otherPerfs, -⟩ := change.entries
    rw [record] at perf
    refine ⟨_, run, reply, frame.andThen (State.reply_changes ..), perf, otherPerfs, fun g led forced => ?_,
      fun g spared => ?_⟩
    · rw [← State.frameGood_groups] at forced ⊢
      have released := change.released lights dark rfl led forced
      rw [State.responding_none, State.frameGood_settings] at released
      exact released
    · rw [← State.frameGood_groups]
      obtain calm | unled := spared
      · exact change.keepsFade lights dark (by rw [record, calm]) g
      · exact change.keeps_other lights dark unled

/-! ## BEGINNERS to RUNNING (R10) -/

theorem State.obstacle_running {s : State} {a : Fin 3} (empty : s.holdLists[a] = []) :
    s.obstacle a .running = if s.ironNotAt a .atOut then some (.reason .ironNotOut) else none := by
  unfold State.obstacle
  dsimp only
  rw [State.blockingHold_none empty]

theorem State.ironNotAt_iff {s : State} {a : Fin 3} {m : Motion} :
    s.ironNotAt a m = true ↔ s.settings.irons[a].present = true ∧ s.irons[a].motion ≠ m := by
  simp [State.ironNotAt, -Fin.getElem_fin]

theorem State.frameGood_ironNotAt (s : State) (a : Fin 3) (m : Motion) : s.frameGood.ironNotAt a m = s.ironNotAt a m := by
  simp only [State.ironNotAt, State.frameGood_settings, State.frameGood_irons]

theorem act_counted (n : Nat) : (if n ≥ 15 then 15 else n + 1) = min 15 (n + 1) := by
  split <;> omega

/-- Settles O28: no force cause follows from the phase, and the notice ends the calls. -/
theorem runningEntered : Obligations.RunningEntered := by
  unfold Obligations.RunningEntered
  intro q a st s u heard hu beginners stage empty
  subst hu
  have record : s.frameGood.perfs[a] = s.perfs[a] := by simp only [State.frameGood_perfs]
  have new : s.phase a ≠ .running := by rw [beginners]; decide
  have dark : (Phase.running != .dark) = (s.frameGood.phase a != .dark) := by rw [State.frameGood_phase, beginners]; rfl
  have row : transition (s.phase a) .running = some ⟨true, false⟩ := by rw [beginners]; rfl
  have bar := (State.obstacle_running empty).trans (by rw [State.frameGood_ironNotAt])
  refine ⟨fun present low => ?_, fun out lights => ?_⟩
  · exact phaseCommand_refused heard (.inr stage) new row (State.admits_stage stage)
      (bar.trans (if_pos (State.ironNotAt_iff.2 ⟨present, low⟩)))
  · have free : ¬s.ironNotAt a .atOut = true := by
      rw [State.ironNotAt_iff]
      rintro ⟨present, low⟩
      obtain absent | high := out
      · rw [absent] at present; cases present
      · exact low high
    obtain ⟨answer, t, rfl, run, reply⟩ := phaseCommand_enters .running _ heard (.inr stage) new row
      (State.admits_stage stage) (bar.trans (if_neg free))
    have entered : s.frameGood.enter a st .running = s.frameGood.enterPhase a
        { s.perfs[a] with phase := .running, act := min 15 (s.perfs[a].act + 1) } none (some .overtaken) := by
      unfold State.enter State.enterRunning
      dsimp only
      rw [act_counted, record]
    obtain ⟨frame, ended⟩ := State.enterPhase_noticed (s := s.frameGood)
      (p := { s.perfs[a] with phase := .running, act := min 15 (s.perfs[a].act + 1) }) none lights dark
      (st := .overtaken) ⟨by decide, by decide⟩
    have taken := State.enterPhase_taken (s := s.frameGood)
      (p := { s.perfs[a] with phase := .running, act := min 15 (s.perfs[a].act + 1) }) none (some .overtaken)
      (by rwa [State.frameGood_phase])
    rw [← entered] at frame ended taken
    have change := taken.andThen (State.reply_changes _ s.settings.part.address q.station answer)
    obtain ⟨perf, otherPerfs, entry, otherEntries, good⟩ := change.entries
    have act := congrArg Perf.act perf
    refine ⟨_, run, reply, frame.andThen (State.reply_changes ..), perf, otherPerfs, ?_, otherEntries, good,
      change.keepsFade lights dark (by rw [record]), ended.transport rfl rfl (State.reply_calls ..)⟩
    rw [entry, act]

/-! ## Entry to CLOSING (R12, R16) -/

theorem State.obstacle_closing_free {s : State} {a : Fin 3}
    (h : s.phase a ≠ .halted ∨ s.settings.irons[a].present = false ∨ unproved s.perfs[a].ironProved = false) :
    s.obstacle a .closing = none := by
  refine if_neg ?_
  rintro ⟨halted, present, unproved⟩
  rcases h with h | h | h
  · exact h halted
  · rw [h] at present; cases present
  · rw [h] at unproved; cases unproved

/-- The record of a performance that enters CLOSING (R12, R16). -/
def Perf.closing (p : Perf) : Perf :=
  { p with phase := .closing, interrupted := if p.phase = .halted then false else p.interrupted }

/-- Settles O30. -/
theorem closingEntered : Obligations.ClosingEntered := by
  unfold Obligations.ClosingEntered
  intro q a st s u heard hu origin
  subst hu
  have record : s.frameGood.perfs[a] = s.perfs[a] := by simp only [State.frameGood_perfs]
  have role : s.role st = .foh ∨ s.isStageOf st a = true := by
    rcases origin with ⟨-, stage⟩ | ⟨-, both⟩
    · exact .inr stage
    · exact both.symm
  have new : s.phase a ≠ .closing := by rcases origin with ⟨h, -⟩ | ⟨h | h, -⟩ <;> rw [h] <;> decide
  have light : s.phase a ≠ .dark := by rcases origin with ⟨h, -⟩ | ⟨h | h, -⟩ <;> rw [h] <;> decide
  have dark : (Phase.closing != .dark) = (s.frameGood.phase a != .dark) := by
    rw [State.frameGood_phase, (bne_iff_ne (a := s.phase a)).2 light]; rfl
  obtain ⟨adm, row, admitted⟩ : ∃ adm, transition (s.phase a) .closing = some adm ∧ s.admits st a adm = true := by
    rcases origin with ⟨h, stage⟩ | ⟨h | h, both⟩
    · exact ⟨⟨true, false⟩, by rw [h]; rfl, State.admits_stage stage⟩
    · exact ⟨⟨true, true⟩, by rw [h]; rfl, State.admits_both both⟩
    · exact ⟨⟨true, true⟩, by rw [h]; rfl, State.admits_both both⟩
  refine ⟨fun halted present unproved_ x found => ?_, fun free lights => ?_⟩
  · refine phaseCommand_blocked heard role new row admitted (if_pos ⟨?_, ?_, ?_⟩) found
    · rw [State.frameGood_phase, halted]
    · rw [State.frameGood_settings, present]
    · rw [record, unproved_]
  · have free' : s.frameGood.obstacle a .closing = none :=
      State.obstacle_closing_free (by rwa [State.frameGood_phase, State.frameGood_settings, record])
    obtain ⟨answer, t, rfl, run, reply⟩ := phaseCommand_enters .closing _ heard role new row admitted free'
    have entered : s.frameGood.enter a st .closing = s.frameGood.enterPhase a s.perfs[a].closing
        (some ⟨1000, s.settings.perfs[a].closingFade⟩) (some .abandoned) := by
      unfold State.enter State.enterClosing Perf.closing
      dsimp only
      rw [record, State.frameGood_settings]
      rfl
    obtain ⟨frame, ended⟩ := State.enterPhase_noticed (s := s.frameGood) (p := s.perfs[a].closing)
      (some ⟨1000, s.settings.perfs[a].closingFade⟩) lights dark (st := .abandoned) ⟨by decide, by decide⟩
    have taken := State.enterPhase_taken (s := s.frameGood) (p := s.perfs[a].closing)
      (some ⟨1000, s.settings.perfs[a].closingFade⟩) (some .abandoned) (by rwa [State.frameGood_phase])
    rw [← entered] at frame ended taken
    have change := taken.andThen (State.reply_changes _ s.settings.part.address q.station answer)
    obtain ⟨perf, otherPerfs, entry, otherEntries, good⟩ := change.entries
    refine ⟨_, run, reply, frame.andThen (State.reply_changes ..), perf, otherPerfs, entry, otherEntries, good,
      fun g led => change.target_led led, fun calm g led => ?_, fun halted g led forced => ?_,
      fun g unled => change.keeps_other lights dark unled, ended.transport rfl rfl (State.reply_calls ..)⟩
    · refine change.takes lights dark ?_ led
      rw [record]
      rcases calm with other | calm
      · exact if_neg other
      · unfold Perf.closing
        dsimp only
        rw [calm, ite_self]
    · have released := change.released lights dark (if_pos halted) led forced
      obtain ⟨target, -⟩ := s.frameGood.responding_takes a s.perfs[a].closing
        ⟨1000, s.settings.perfs[a].closingFade⟩ led
      rw [target, State.frameGood_settings] at released
      exact released

/-! ## A station stop (R13) -/

/-- Settles O31: a halt gives its response and its notice, and derives no force cause again. -/
theorem haltEntered : Obligations.HaltEntered := by
  unfold Obligations.HaltEntered
  intro q a st s u heard hu both origin
  subst hu
  have record : s.frameGood.perfs[a] = s.perfs[a] := by simp only [State.frameGood_perfs]
  have new : s.phase a ≠ .halted := by rcases origin with h | h | h | h <;> rw [h] <;> decide
  have row : transition (s.phase a) .halted = some ⟨true, true⟩ := by
    rcases origin with h | h | h | h <;> rw [h] <;> rfl
  obtain ⟨answer, t, rfl, run, reply⟩ := phaseCommand_enters .halted _ heard both.symm new row
    (State.admits_both both) rfl
  have halts : s.frameGood.enter a st .halted =
      (s.frameGood.responding a { s.frameGood.perfs[a] with phase := .halted } (some ⟨1000, 0⟩)).callNotice a
        .abandoned := rfl
  rw [record] at halts
  have before := s.frameGood.responding_changes a { s.perfs[a] with phase := .halted } (some ⟨1000, 0⟩)
  have takes := fun g => s.frameGood.responding_takes a { s.perfs[a] with phase := .halted } ⟨1000, 0⟩ (g := g)
  have others := fun g => s.frameGood.responding_other a { s.perfs[a] with phase := .halted } (some ⟨1000, 0⟩) (g := g)
  have perfs : (s.frameGood.responding a { s.perfs[a] with phase := .halted } (some ⟨1000, 0⟩)).perfs =
      put s.frameGood.perfs a { s.perfs[a] with phase := .halted } :=
    ((State.respondWith_changes ..).same .perfs (by decide)).trans (State.writePerf_perfs ..)
  have retained : (s.frameGood.responding a { s.perfs[a] with phase := .halted } (some ⟨1000, 0⟩)).retained =
      ⟨put s.frameGood.retained.entries a ⟨.halted, s.perfs[a].act, s.perfs[a].ironProved⟩, true⟩ :=
    ((State.respondWith_changes ..).same .retained (by decide)).trans
      (State.writePerf_retained (by rwa [State.frameGood_phase]))
  generalize s.frameGood.responding a { s.perfs[a] with phase := .halted } (some ⟨1000, 0⟩) = w at *
  have notice := w.callNotice_changes a .abandoned
  have fades := (Sounded.callNotice w a .abandoned).fades
  have ended := w.callNotice_ends a (st := .abandoned) ⟨by decide, by decide⟩
  rw [← halts] at notice fades ended
  have calls : w.calls = s.frameGood.calls ∧ w.callList = s.frameGood.callList := before.same .calls (by decide)
  have perfs' : (s.frameGood.enter a st .halted).perfs = put s.frameGood.perfs a { s.perfs[a] with phase := .halted } :=
    (notice.same .perfs (by decide)).trans perfs
  have retained' : (s.frameGood.enter a st .halted).retained =
      ⟨put s.frameGood.retained.entries a ⟨.halted, s.perfs[a].act, s.perfs[a].ironProved⟩, true⟩ :=
    (notice.same .retained (by decide)).trans retained
  have whole := before.andThen (rs := [.link, .perfs, .retained, .groups, .flickers, .calls, .czones, .circuits, .stations])
    notice
  generalize s.frameGood.enter a st .halted = v at *
  refine ⟨_, run, reply, whole.andThen (State.reply_changes ..), ?_, ?_, ?_, ?_, ?_,
    fun g led => (takes g led).keep (fades g), fun g unled => ?_, ended.transport calls.2.symm calls.1.symm
      (State.reply_calls ..)⟩
  · rw [State.reply_perfs, perfs']; exact put_same ..
  · rw [State.reply_perfs, perfs']; exact put_onlyAt _ _ _
  · rw [State.reply_retained, retained']; exact put_same ..
  · rw [State.reply_retained, retained']; exact put_onlyAt _ _ _
  · rw [State.reply_retained, retained']
  · rw [← others g unled]; exact fades g

end Sys2Proof.Machine
end

section
/-!
PROOFS. The transitions to PREPARE and DARK (R7, R17, R18), the checks of a phase request in their order (R4, R5, R28),
and holds that stations raise and retire (R20, R21, R22).
-/

namespace Sys2Proof.Machine

-- The proofs of this file are elaborated one after another.
set_option Elab.async false

/-! ## Holds raised in slot order (R7) -/

/-- The entry of an automatic hold in a fresh list: its slot, where its condition is true. -/
def State.raises (s : State) (a : Fin 3) (c : HoldCause) : Option (Fin 8) :=
  if (s.holdReason a c).isSome then some (holdSlot c) else none

/-- From `s`, where performance `a` holds nothing, the holds of the causes in `done` have been raised in `t`. -/
structure HoldsRaised (a : Fin 3) (done : List HoldCause) (s t : State) : Prop where
  frame : ChangesOnly [.holds, .stations] s t
  list : t.holdLists[a] = done.filterMap (s.raises a)
  raised : ∀ c ∈ done, ∀ why, s.holdReason a c = some why →
    t.holds[a][holdSlot c] = ⟨nextIssue s.holds[a][holdSlot c].issue, some ⟨none, c, why⟩⟩
  rest : ∀ k : Fin 8, k ∉ done.map holdSlot → t.holds[a][k] = s.holds[a][k]

theorem HoldsRaised.start {a : Fin 3} {s : State} (empty : s.holdLists[a] = []) : HoldsRaised a [] s s :=
  ⟨.refl _ s, empty, (fun _ mem => absurd mem List.not_mem_nil), fun _ _ => rfl⟩

/-- Out of DARK, evaluating the next hold of a performance that holds nothing at its slot raises it in its place. -/
theorem HoldsRaised.next {a : Fin 3} {done : List HoldCause} {s t : State} {c : HoldCause} (h : HoldsRaised a done s t)
    (light : s.phase a ≠ .dark) (clear : ∀ k, s.hold? a k = none) (new : c ∉ done) :
    HoldsRaised a (done ++ [c]) s (t.evalHold c a) := by
  obtain ⟨frame, list, raised, rest⟩ := h
  have fresh : holdSlot c ∉ done.map holdSlot := by
    intro mem
    obtain ⟨d, listed, same⟩ := List.mem_map.1 mem
    exact new (holdSlot_inj same ▸ listed)
  have reason : t.holdReason a c = s.holdReason a c := frame.holdReason a c
  have bare : t.hold? a (holdSlot c) = none := by
    have slot : t.holds[a][holdSlot c] = s.holds[a][holdSlot c] := rest _ fresh
    have none' := clear (holdSlot c)
    unfold State.hold? at none' ⊢
    rw [slot, none']
  have light' : t.phase a ≠ .dark := by
    have perfs : t.perfs = s.perfs := frame.same .perfs (by decide)
    rwa [State.phase, perfs]
  have unlisted : holdSlot c ∉ t.holdLists[a] := by
    rw [list]
    intro mem
    obtain ⟨d, listed, entry⟩ := List.mem_filterMap.1 mem
    unfold State.raises at entry
    split at entry
    · exact new (holdSlot_inj (Option.some.inj entry) ▸ listed)
    · cases entry
  refine ⟨frame.andThen (State.evalHold_changes c a t), ?_, ?_, ?_⟩
  all_goals
    obtain ⟨still, dark | same⟩ | ⟨-, why, found, -, filled⟩ | ⟨-, -, stands, -⟩ := State.evalHold_cases c a t
  · exact absurd dark light'
  · rw [bare, reason] at same
    rw [still, list, List.filterMap_append]
    simp [State.raises, same]
  · rw [filled, State.fillHold_list, List.erase_of_not_mem unlisted, list, List.filterMap_append]
    simp [State.raises, ← reason, found]
  · rw [bare] at stands; cases stands
  · exact absurd dark light'
  · rw [still]
    intro d listed why holds
    rcases List.mem_append.1 listed with old | last
    · exact raised d old why holds
    · obtain rfl := List.mem_singleton.1 last
      rw [bare, reason, holds] at same
      cases same
  · rw [filled]
    intro d listed why' holds
    rcases List.mem_append.1 listed with old | last
    · have ne : holdSlot d ≠ holdSlot c := fun same => new (holdSlot_inj same ▸ old)
      obtain ⟨-, slots, -⟩ := t.fillHold_onlyAt a (holdSlot c) { origin := none, cause := c, reason := why }
      exact (slots _ ne).trans (raised d old why' holds)
    · obtain rfl := List.mem_singleton.1 last
      obtain rfl : why = why' := Option.some.inj ((found.symm.trans reason).trans holds)
      rw [State.fillHold_slot, rest _ fresh]
  · rw [bare] at stands; cases stands
  · exact absurd dark light'
  · rw [still]
    exact fun k out => rest k fun mem => out (by simp [List.mem_map.1 mem])
  · rw [filled]
    intro k out
    rw [List.map_append, List.mem_append, not_or] at out
    obtain ⟨-, slots, -⟩ := t.fillHold_onlyAt a (holdSlot c) { origin := none, cause := c, reason := why }
    exact (slots k fun same => out.2 (by simp [same])).trans (rest k out.1)
  · rw [bare] at stands; cases stands

/-- The four automatic holds of a performance that holds nothing stand in slot order (R7, R29). -/
theorem State.evalAllHolds_raised {s : State} {a : Fin 3} (light : s.phase a ≠ .dark) (empty : s.holdLists[a] = [])
    (clear : ∀ k, s.hold? a k = none) :
    HoldsRaised a [.iron, .fire, .supply, .system] s (s.evalAllHolds a) :=
  ((((HoldsRaised.start empty).next light clear (by decide)).next light clear (by decide)).next light clear
    (by decide)).next light clear (by decide)

theorem State.evalAllHolds_lists (s : State) (a : Fin 3) : OnlyAt a s.holdLists (s.evalAllHolds a).holdLists := by
  have turn (c : HoldCause) (t : State) : OnlyAt a t.holdLists (t.evalHold c a).holdLists := by
    obtain ⟨-, -, lists, -⟩ := automaticHoldEvaluated c a t _ rfl
    exact lists
  intro j other
  unfold State.evalAllHolds
  rw [turn _ _ j other, turn _ _ j other, turn _ _ j other, turn _ _ j other]

/-- A reply changes no condition of a hold. -/
theorem State.reply_holdReason (s : State) (n : Nat) (b : Byte) (answer : Answer) (a : Fin 3) (c : HoldCause) :
    (s.reply n b answer).holdReason a c = s.holdReason a c := by
  cases c <;> rfl

/-! ## DARK to PREPARE (R7) -/

theorem phaseCommand_absent {q : AmendReq} {a : Fin 3} {st : Fin 8} {s : State} {p : Phase} {adm : Admission}
    (h : HeardAlone s q st (a.1 + 1) 0) (role : s.role st = .foh ∨ s.isStageOf st a = true) (new : s.phase a ≠ p)
    (row : transition (s.phase a) p = some adm) (admitted : s.admits st a adm = true)
    (bar : s.frameGood.obstacle a p = some .absent) :
    ∃ t, exec (phaseCommand p q) s = .next t ∧ ChangesOnly [.link] s.frameGood t ∧
      Replies t s.settings.part.address q.station .badField none .perf (a.1 + 1) 0 (s.frameGood.perfFields a) := by
  have decided : s.frameGood.phaseRequest (phaseAsk q st p) a p =
      (phaseAsk q st p).says .badField (s.frameGood.perfFields a) s.frameGood := by
    have admitted' : s.frameGood.admits (phaseAsk q st p).st a adm = true := (s.frameGood_admits st a adm).trans admitted
    simp [State.phaseRequest, State.frameGood_phase, new, row, admitted', bar]
  refine ⟨_, exec_phaseCommand_heard p h role, ?_⟩
  rw [decided]
  exact ⟨State.reply_changes .., replies_phaseAsk p _ _ _ h⟩

theorem State.admits_either {s : State} {st : Fin 8} {a : Fin 3} (h : s.role st = .foh ∨ s.isStageOf st a = true) :
    s.admits st a ⟨true, true⟩ = true := State.admits_both h.symm

/-- The record of a performance that is opened (R7). -/
def State.openedPerf (s : State) (a : Fin 3) (st : Fin 8) : Perf where
  phase := .prepare
  act := 0
  ironProved := s.freshProof a
  interrupted := false
  openedBy := some st

/-- Settles O24: the fresh record is written first, so that the holds are evaluated for PREPARE in slot order. -/
theorem prepareEntered : Obligations.PrepareEntered := by
  unfold Obligations.PrepareEntered
  intro q a st s u heard hu role dark
  subst hu
  have new : s.phase a ≠ .prepare := by rw [dark]; decide
  have row : transition (s.phase a) .prepare = some ⟨true, true⟩ := by rw [dark]; rfl
  have admitted : s.admits st a ⟨true, true⟩ = true := State.admits_either role
  refine ⟨fun absent => ?_, fun present => ?_⟩
  · exact phaseCommand_absent heard role new row admitted (if_neg (by rw [State.frameGood_settings, absent]; decide))
  · obtain ⟨answer, t, rfl, run, reply⟩ := phaseCommand_enters .prepare _ heard role new row admitted
      (if_pos (by rw [State.frameGood_settings, present]))
    have entered : s.frameGood.enter a st .prepare =
        (s.frameGood.enterPhase a (s.frameGood.openedPerf a st) none none).evalAllHolds a := rfl
    have taken : PhaseTaken a (s.frameGood.openedPerf a st) none s.frameGood
        (s.frameGood.enterPhase a (s.frameGood.openedPerf a st) none none) :=
      State.enterPhase_taken none none (by rw [State.frameGood_phase]; exact new)
    have frame := s.frameGood.enterPhase_changes a (s.frameGood.openedPerf a st) none none
    have opened : s.frameGood.openedPerf a st =
        { phase := .prepare, act := 0, interrupted := false, openedBy := some st,
          ironProved := if s.settings.irons[a].present then .notYet else .notRequired } := by
      rw [State.openedPerf, State.freshProof, State.frameGood_settings]
    rw [opened] at entered taken frame
    generalize s.frameGood.enterPhase a _ none none = v at *
    have evaluated := v.evalAllHolds_changes a
    have others := v.evalAllHolds_lists a
    have holds : v.holds = s.frameGood.holds ∧ v.holdLists = s.frameGood.holdLists := frame.same .holds (by decide)
    have perfs := taken.perfs
    have settings : v.settings = s.settings :=
      (frame.same .settings (by decide) : v.settings = s.frameGood.settings).trans s.frameGood_settings
    have light : v.phase a ≠ .dark := by
      rw [State.phase, perfs, put_same]
      exact Phase.noConfusion
    rw [entered] at run reply
    have change := (taken.andThen evaluated).andThen
      (State.reply_changes (v.evalAllHolds a) s.settings.part.address q.station answer)
    obtain ⟨perf, otherPerfs, entry, otherEntries, good⟩ := change.entries
    have whole := frame.andThen (rs := [.link, .holds, .perfs, .retained] ++ lightParts) evaluated
    have reasons (c : HoldCause) : (v.evalAllHolds a).holdReason a c = v.holdReason a c := evaluated.holdReason a c
    refine ⟨_, run, reply, whole.andThen (State.reply_changes ..), ?_, otherPerfs, ?_, otherEntries, good,
      fun g => ?_, ?_, fun lawful => ?_⟩
    · rw [perf]
    · rw [entry, perf]
    · rw [change.target, State.responding_none]
    · rw [State.reply_holdLists, ← holds.2]; exact others
    · obtain ⟨-, slots, emptied, -⟩ := lawful a
      have empty : v.holdLists[a] = [] := by
        simp only [holds.2]
        exact emptied ((s.frameGood_phase a).trans dark)
      have clear (k : Fin 8) : v.hold? a k = none := by
        obtain ⟨filled, -⟩ := slots k
        rw [emptied ((s.frameGood_phase a).trans dark)] at filled
        unfold State.hold? at filled ⊢
        rw [holds.1]
        simpa using filled
      obtain ⟨-, list, raised, -⟩ := State.evalAllHolds_raised light empty clear
      have listed : (v.evalAllHolds a).holdLists[a] = [HoldCause.iron, .fire, .supply, .system].filterMap
          (fun c => if ((v.evalAllHolds a).holdReason a c).isSome then some (holdSlot c) else none) := by
        rw [list]
        simp only [reasons]
        rfl
      simp only [State.reply_holdReason, State.reply_holdLists, State.reply_holds]
      refine ⟨listed, fun iron => ?_, fun c mem why holds' => ?_⟩
      · have due : ((v.evalAllHolds a).holdReason a .iron).isSome = true := by
          rw [reasons, State.holdReason_iron, perfs]
          rw [put_same, if_pos iron, settings, iron]
          simp [unproved]
        simp only [listed, List.filterMap_cons, due, if_true]
        rfl
      · rw [reasons] at holds'
        rw [raised c mem why holds']
        simp only [holds.1]

/-! ## Entry to DARK (R17, R18) -/

/-- Emptying a performance's holds empties each slot and keeps its issue (R17, R20). -/
theorem State.clearHolds_slot (s : State) (a : Fin 3) (k : Fin 8) :
    (s.clearHolds a).holds[a][k] = ⟨s.holds[a][k].issue, none⟩ := by
  unfold State.clearHolds
  refine forAll_turn (P := fun t : State => t.holds[a][k] = s.holds[a][k])
    (Q := fun t : State => t.holds[a][k] = ⟨s.holds[a][k].issue, none⟩) k (fun i t ne same => ?_) (fun t same => ?_)
    (fun i t ne same => ?_) s rfl
  · split
    · obtain ⟨-, slots, -⟩ := t.emptyHold_onlyAt a i
      rw [slots k ne.symm, same]
    · exact same
  · split
    · rw [State.emptyHold_slot, same]
    next bare =>
      have none' : t.holds[a][k].hold = none := by simpa [State.hold?] using bare
      rw [← same, ← none']
  · split
    · obtain ⟨-, slots, -⟩ := t.emptyHold_onlyAt a i
      rw [slots k ne.symm, same]
    · exact same

/-- Lights derived where nothing but holds changes are so after it. -/
theorem LightsDerived.holds {s t : State} (h : LightsDerived s) (frame : ChangesOnly [.holds, .stations] s t) :
    LightsDerived t := (LightsFollow.of_changes frame).lights h

/-- The record of a performance that goes DARK (R17). -/
def State.darkPerf (s : State) (a : Fin 3) : Perf :=
  { s.perfs[a] with phase := .dark, ironProved := s.freshProof a, interrupted := false, openedBy := none }

/-- Settles O32. -/
theorem darkEntered : Obligations.DarkEntered := by
  unfold Obligations.DarkEntered
  intro q a st s u heard hu
  subst hu
  have record : s.frameGood.perfs[a] = s.perfs[a] := by simp only [State.frameGood_perfs]
  refine ⟨fun closing foh present high => ?_, fun origin => ?_⟩
  · have new : s.phase a ≠ .dark := by rw [closing]; decide
    have row : transition (s.phase a) .dark = some ⟨false, true⟩ := by rw [closing]; rfl
    refine phaseCommand_refused heard (.inl foh) new row (State.admits_foh foh) (if_pos ⟨?_, ?_⟩)
    · rw [State.frameGood_phase, closing]
    · rw [State.frameGood_ironNotAt]; exact State.ironNotAt_iff.2 ⟨present, high⟩
  · have role : s.role st = .foh ∨ s.isStageOf st a = true := by
      rcases origin with ⟨-, foh, -⟩ | ⟨-, both⟩
      · exact .inl foh
      · exact both
    have new : s.phase a ≠ .dark := by rcases origin with ⟨h, -⟩ | ⟨h, -⟩ <;> rw [h] <;> decide
    obtain ⟨adm, row, admitted⟩ : ∃ adm, transition (s.phase a) .dark = some adm ∧ s.admits st a adm = true := by
      rcases origin with ⟨h, foh, -⟩ | ⟨h, both⟩
      · exact ⟨⟨false, true⟩, by rw [h]; rfl, State.admits_foh foh⟩
      · exact ⟨⟨true, true⟩, by rw [h]; rfl, State.admits_either both⟩
    have free : s.frameGood.obstacle a .dark = none := by
      refine if_neg ?_
      rw [State.frameGood_phase, State.frameGood_ironNotAt, State.ironNotAt_iff]
      rintro ⟨closing, present, high⟩
      rcases origin with ⟨-, -, absent | low⟩ | ⟨prepare, -⟩
      · rw [absent] at present; cases present
      · exact high low
      · rw [prepare] at closing; cases closing
    obtain ⟨answer, t, rfl, run, reply⟩ := phaseCommand_enters .dark _ heard role new row admitted free
    have entered : s.frameGood.enter a st .dark = (s.frameGood.clearHolds a).enterPhase a (s.frameGood.darkPerf a)
        (some ⟨0, s.frameGood.settings.perfs[a].presetFade⟩) none := rfl
    have darkened : s.frameGood.darkPerf a =
        { phase := .dark, act := s.perfs[a].act, interrupted := false, openedBy := none,
          ironProved := if s.settings.irons[a].present then .notYet else .notRequired } := by
      rw [State.darkPerf, State.freshProof, State.frameGood_settings, record]
    rw [darkened, State.frameGood_settings] at entered
    have cleared := s.frameGood.clearHolds_changes a
    have slots := s.frameGood.clearHolds_slot a
    have emptied (lawful : HoldsLawful s.frameGood) : (s.frameGood.clearHolds a).holdLists[a] = [] :=
      (State.clearHolds_empty ((holdsLawful_iff.1 lawful).lists a)).1
    have others (j : Fin 3) (ne : j ≠ a) := s.frameGood.clearHolds_others ne
    generalize s.frameGood.clearHolds a = w at *
    have perfs : w.perfs = s.frameGood.perfs := cleared.same .perfs (by decide)
    have retained : w.retained = s.frameGood.retained := cleared.same .retained (by decide)
    have groups : w.groups = s.frameGood.groups := cleared.same .groups (by decide)
    have supply : w.supply = s.frameGood.supply := cleared.same .supply (by decide)
    have was : w.phase a = s.phase a := by simp only [State.phase, perfs, State.frameGood_perfs]
    have taken := State.enterPhase_taken (s := w) (a := a)
      (p := { phase := .dark, act := s.perfs[a].act, interrupted := false, openedBy := none,
              ironProved := if s.settings.irons[a].present then .notYet else .notRequired })
      (some ⟨0, s.settings.perfs[a].presetFade⟩) none (by rw [was]; exact new)
    have frame := w.enterPhase_changes a
      { phase := .dark, act := s.perfs[a].act, interrupted := false, openedBy := none,
        ironProved := if s.settings.irons[a].present then .notYet else .notRequired }
      (some ⟨0, s.settings.perfs[a].presetFade⟩) none
    rw [← entered] at frame taken
    have holds : (s.frameGood.enter a st .dark).holds = w.holds ∧ (s.frameGood.enter a st .dark).holdLists = w.holdLists :=
      frame.same .holds (by decide)
    have whole := cleared.andThen (rs := [.link, .holds, .perfs, .retained] ++ lightParts) frame
    have follows (g : Fin 12) : w.follows g a ↔ s.frameGood.follows g a := cleared.follows rfl g a
    have change := taken.andThen (State.reply_changes _ s.settings.part.address q.station answer)
    generalize s.frameGood.enter a st .dark = v at *
    obtain ⟨perf, otherPerfs, entry, otherEntries, good⟩ := change.entries
    rw [perfs] at otherPerfs
    rw [retained] at otherEntries
    refine ⟨_, run, reply, whole.andThen (State.reply_changes ..), ?_, otherPerfs, ?_, otherEntries, good, fun k => ?_,
      fun j ne => ?_, fun j ne => ?_, fun lawful => ?_, fun g led => change.target_led ((follows g).2 led),
      fun g unled => ?_, fun lights mains calm g led => ?_⟩
    · rw [perf]
    · rw [entry, perf]
    · rw [State.reply_holds, holds.1]; exact slots k
    · rw [State.reply_holds, holds.1]; exact (others j ne).1
    · rw [State.reply_holdLists, holds.2]; exact (others j ne).2
    · rw [State.reply_holdLists, holds.2]; exact emptied lawful
    · rw [change.target_other fun led => unled ((follows g).1 led), groups]
    · have steady : false = w.perfs[a].interrupted := by
        rw [perfs, record, calm]
      have present : w.supply.mains = .present := by
        rw [supply]
        exact (congrArg Supply.mains (s.frameGood_changes.same .supply (by decide) : s.frameGood.supply = s.supply)).trans
          mains
      have kept := change.keeps (lights.holds cleared) fun _ =>
        State.writePerf_causesOf_mains present steady g
      have takes := (w.responding_takes a _ _ ((follows g).2 led)).keep kept
      rw [groups] at takes
      exact takes

/-! ## A phase request beside other fields (R5, R185, R194) -/

/-- The first field at fault is the one that no fault stands before (R185). -/
theorem firstFlaw_eq_some {judge : FieldVal → Option Flaw} {fs : List FieldVal} {f : FieldVal} {w : Flaw} (mem : f ∈ fs)
    (before : ∀ f' ∈ fs.takeWhile (fun x => x != f), judge f' = none) (flaw : judge f = some w) :
    firstFlaw judge fs = some (w, f) := by
  induction fs with
  | nil => cases mem
  | cons x fs ih =>
    by_cases own : x = f
    · subst own
      simp [firstFlaw, flaw]
    · have differs : (x != f) = true := bne_iff_ne.2 own
      rw [List.takeWhile_cons_of_pos (by exact differs)] at before
      have sound : judge x = none := before x (List.mem_cons_self ..)
      have rest := ih ((List.mem_cons.1 mem).resolve_left (Ne.symm own)) fun f' later =>
        before f' (List.mem_cons_of_mem _ later)
      unfold firstFlaw at rest ⊢
      rw [List.findSome?_cons, sound]
      exact rest

/-- A field judged by a list of ids with their least and greatest values, `clash` telling of a company refused. -/
def listedForm (clash : Bool) (f : FieldVal) : List (Nat × Nat × Nat) → Option Flaw
  | [] => some .notAmendable
  | (id, low, high) :: l =>
      if idOf f = id then if low ≤ valOf f ∧ valOf f ≤ high ∧ clash = false then none else some .badField
      else listedForm clash f l

theorem formOf_eq (k : Kind) (index : Byte) (fs : List FieldVal) (f : FieldVal) :
    formOf k index fs f = listedForm (clashes k fs f) f (amendable k index) := by
  unfold formOf
  induction amendable k index with
  | nil => rfl
  | cons e l ih =>
    obtain ⟨id, low, high⟩ := e
    rw [List.find?_cons, listedForm]
    by_cases own : idOf f = id
    · have named : (id == f.id.toNat) = true := beq_iff_eq.2 own.symm
      rw [if_pos own, named]
      rfl
    · have other : (id == f.id.toNat) = false := beq_eq_false_iff_ne.2 (Ne.symm own)
      rw [if_neg own, other]
      exact ih

theorem valOf_le (f : FieldVal) : valOf f ≤ 65535 := Nat.le_of_lt_succ f.value.isLt

/-- A PERF field's form is what the list of its kind says of it. -/
theorem formOf_perf (index : Byte) (fs : List FieldVal) (f : FieldVal) : formOf .perf index fs f = perfForm f := by
  have free : clashes .perf fs f = false := rfl
  rw [formOf_eq, free]
  unfold perfForm amendable
  dsimp only
  split
  case h_7 => simp_all [listedForm]
  all_goals
    rename_i named
    simp [named, listedForm, orBad, isYesNo, valOf_le f]

/-- A field carried once is the one a request asks with. -/
theorem askedFor_withField {q : AmendReq} {id : Byte} {v : Word} (once : ((q.withField id v).fields.map (·.id)).Nodup) :
    askedFor (q.withField id v).fields id.toNat = some v.toNat := by
  have apart : ∀ f ∈ q.before, (idOf f == id.toNat) = false := by
    intro f mem
    rw [beq_eq_false_iff_ne]
    intro same
    unfold AmendReq.withField at once
    rw [List.map_append, List.map_cons, List.nodup_middle, List.nodup_cons] at once
    exact once.1 (List.mem_append_left _ (List.mem_map.2 ⟨f, mem, BitVec.eq_of_toNat_eq same⟩))
  unfold askedFor fieldOf AmendReq.withField
  rw [List.find?_append, List.find?_eq_none.2 fun f mem => by simp [apart f mem]]
  simp [idOf, valOf]

theorem State.able_of_phaseRole {s : State} {st : Fin 8} {a : Fin 3} (h : s.role st = .foh ∨ s.isStageOf st a = true) :
    s.role st ≠ .none ∧ s.role st ≠ .view := by
  rcases h with h | h
  · rw [h]; exact ⟨by decide, by decide⟩
  · unfold State.isStageOf at h
    simp only [Bool.and_eq_true, beq_iff_eq] at h
    rw [h.1]; exact ⟨by decide, by decide⟩

/-- A phase request as the performance unit takes it, in whatever request it stands. -/
structure PhaseAsked (p : Phase) (q : AmendReq) (a : Fin 3) (st : Fin 8) (s : State) : Prop where
  heard : Heard s (q.withField 32 (BitVec.ofNat 16 p.code)) st
  listens : s.role st ≠ .none
  able : s.role st ≠ .view
  once : ((q.withField 32 (BitVec.ofNat 16 p.code)).fields.map (·.id)).Nodup
  index : q.index.toNat = a.1 + 1
  issue : q.issue = 0

namespace PhaseAsked

variable {p : Phase} {q : AmendReq} {a : Fin 3} {st : Fin 8} {s : State}

theorem named (p : Phase) (q : AmendReq) :
    requestOf (phaseCommand p q) = some (.amend, .perf, q.withField 32 (BitVec.ofNat 16 p.code)) := by
  cases p <;> rfl

theorem handled (h : PhaseAsked p q a st s) :
    handlerOf (phaseCommand p q) ⟨st, .perf, q.withField 32 (BitVec.ofNat 16 p.code)⟩ s.frameGood =
      s.frameGood.amendPerf ⟨st, .perf, q.withField 32 (BitVec.ofNat 16 p.code)⟩ a := by
  have amends : handlerOf (phaseCommand p q) = State.amendReq false := by cases p <;> rfl
  have entry : entryOf 3 (q.withField 32 (BitVec.ofNat 16 p.code)).index = some a := entryOf_eq_some h.index
  rw [amends]
  simp only [State.amendReq, entry]

theorem stop (h : PhaseAsked p q a st s) :
    s.frameGood.linkStop st .amend .perf (q.withField 32 (BitVec.ofNat 16 p.code)) = none := by
  have index := h.index
  refine State.linkStop_amend (by rw [State.frameGood_role]; exact h.listens) (by rw [State.frameGood_role]; exact h.able)
    ?_ (.inr h.issue) h.once
  change 1 ≤ q.index.toNat ∧ q.index.toNat ≤ 3
  omega

theorem asked (h : PhaseAsked p q a st s) :
    (askedFor (q.withField 32 (BitVec.ofNat 16 p.code)).fields 32).bind Phase.ofCode = some p := by
  have value := askedFor_withField h.once
  have id : (32 : Byte).toNat = 32 := rfl
  rw [id] at value
  rw [value]
  cases p <;> rfl

theorem carried (h : PhaseAsked p q a st s) : carries (q.withField 32 (BitVec.ofNat 16 p.code)).fields 32 = true :=
  carries_of_askedFor (askedFor_withField h.once)

/-- What the unit says of a phase request and leaves the state with is the reply. -/
theorem says_ (h : PhaseAsked p q a st s) {status : Status} {why : Option Reason} {fields : List FieldVal}
    (answer : s.frameGood.amendPerf ⟨st, .perf, q.withField 32 (BitVec.ofNat 16 p.code)⟩ a =
      (Ask.answer ⟨st, .perf, q.withField 32 (BitVec.ofNat 16 p.code)⟩ status why fields, s.frameGood)) :
    ∃ t, exec (phaseCommand p q) s = .next t ∧ ChangesOnly [.link] s.frameGood t ∧
      Replies t s.settings.part.address q.station status why .perf (a.1 + 1) 0 fields := by
  have turned := exec_says (named p q) (by decide) h.heard h.stop (h.handled.trans answer)
  have index : (q.withField 32 (BitVec.ofNat 16 p.code)).index.toNat = a.1 + 1 := h.index
  have issue : (q.withField 32 (BitVec.ofNat 16 p.code)).issue.toNat = 0 := congrArg BitVec.toNat h.issue
  rw [index, issue] at turned
  exact turned

end PhaseAsked

section

variable {p : Phase} {q : Ask} {a : Fin 3} {u : State}

/-- A flaw of form is answered with the record before the role is read (R5, R185). -/
theorem State.amendPerf_flawed {w : Flaw} {f : FieldVal} (carried : carries q.req.fields 32 = true)
    (flaw : firstFlaw perfForm q.req.fields = some (w, f)) :
    u.amendPerf q a = q.flawed (w, f) (u.perfFields a) u := by
  simp only [State.amendPerf, flaw, carried, if_true]

/-- A station that may not ask for the phase, or may not amend the settings beside it, is NOT_PERMITTED (R5, R194). -/
theorem State.amendPerf_notPermitted (kind : q.kind = .perf) (carried : carries q.req.fields 32 = true)
    (form : firstFlaw perfForm q.req.fields = none)
    (bar : u.role q.st ≠ .foh ∧ u.isStageOf q.st a = false ∨ amendsSettings .perf q.req.fields = true) :
    u.amendPerf q a = q.says .notPermitted (u.perfFields a) u := by
  by_cases role : u.role q.st = .foh ∨ u.isStageOf q.st a = true
  · have beside : amendsSettings .perf q.req.fields = true := by
      obtain ⟨notFoh, notStage⟩ | beside := bar
      · rcases role with foh | stage
        · exact absurd foh notFoh
        · rw [notStage] at stage; cases stage
      · exact beside
    have admitted : (u.role q.st == .foh || u.isStageOf q.st a) = true := by simpa using role
    have stop : u.settingsStop q = some .notPermitted := by
      have engineer : (u.role q.st != .engineer) = true := by
        rw [bne_iff_ne]
        rintro isEngineer
        rcases role with foh | stage
        · rw [isEngineer] at foh; cases foh
        · simp [State.isStageOf, isEngineer] at stage
      rw [State.settingsStop, kind, if_pos beside, State.settingsBar, if_pos engineer]
    simp only [State.amendPerf, form, carried, admitted, stop, Bool.not_true, Bool.and_false, Bool.false_eq_true, if_false,
      if_true]
  · have barred : (u.role q.st == .foh || u.isStageOf q.st a) = false := by simpa using role
    simp only [State.amendPerf, form, carried, barred, Bool.not_false, Bool.and_true, if_true]

/-- Past the checks of form, role and settings a phase request is the performance unit's (R5). -/
theorem State.amendPerf_phase (kind : q.kind = .perf) (carried : carries q.req.fields 32 = true)
    (form : firstFlaw perfForm q.req.fields = none) (role : u.role q.st = .foh ∨ u.isStageOf q.st a = true)
    (alone : amendsSettings .perf q.req.fields = false)
    (asked : (askedFor q.req.fields 32).bind Phase.ofCode = some p) : u.amendPerf q a = u.phaseRequest q a p := by
  have admitted : (u.role q.st == .foh || u.isStageOf q.st a) = true := by simpa using role
  have stop : u.settingsStop q = none := by
    rw [State.settingsStop, kind, alone]
    rfl
  simp only [State.amendPerf, form, carried, admitted, stop, asked, Bool.not_true, Bool.and_false, Bool.false_eq_true,
    if_false]

theorem State.phaseRequest_same (h : u.phase a = p) : u.phaseRequest q a p = q.says .done (u.perfFields a) u := if_pos h

theorem State.phaseRequest_wrongPhase (new : u.phase a ≠ p) (row : transition (u.phase a) p = none) :
    u.phaseRequest q a p = q.refuses .wrongPhase (u.perfFields a) u := by
  simp [State.phaseRequest, new, row]

theorem State.phaseRequest_notPermitted {adm : Admission} (new : u.phase a ≠ p)
    (row : transition (u.phase a) p = some adm) (barred : u.admits q.st a adm = false) :
    u.phaseRequest q a p = q.says .notPermitted (u.perfFields a) u := by
  simp [State.phaseRequest, new, row, barred]

end

/-- Whatever is none of the sixteen transitions has no row (R7..R18). -/
theorem transition_eq_none {p p' : Phase}
    (h : (p, p') ∉ [(Phase.dark, Phase.prepare), (.prepare, .houseOpen), (.houseOpen, .beginners),
      (.interval, .beginners), (.beginners, .running), (.running, .interval), (.running, .closing),
      (.interval, .closing), (.houseOpen, .halted), (.beginners, .halted), (.running, .halted),
      (.interval, .halted), (.halted, .beginners), (.halted, .closing), (.closing, .dark), (.prepare, .dark)]) :
    transition p p' = none := by
  revert h
  cases p <;> cases p' <;> decide

theorem transition_self (p : Phase) : transition p p = none := by
  cases p <;> rfl

theorem transition_stageOnly {p p' : Phase} (h : (p, p') ∈ [(Phase.houseOpen, Phase.beginners), (.interval, .beginners),
    (.beginners, .running), (.running, .interval), (.running, .closing), (.halted, .beginners)]) :
    transition p p' = some ⟨true, false⟩ := by
  revert h
  cases p <;> cases p' <;> decide

theorem transition_fohOnly {p p' : Phase} (h : (p, p') ∈ [(Phase.prepare, Phase.houseOpen), (.closing, .dark)]) :
    transition p p' = some ⟨false, true⟩ := by
  revert h
  cases p <;> cases p' <;> decide

/-- The oldest hold stands in the way of HOUSE_OPEN and of RUNNING (R28). -/
theorem State.obstacle_hold {s : State} {a : Fin 3} {k : Fin 8} (oldest : s.holdLists[a][0]? = some k) :
    s.obstacle a .houseOpen = some (.hold k) ∧ s.obstacle a .running = some (.hold k) := by
  have blocks : s.blockingHold a = some (.hold k) := by
    rw [State.blockingHold, State.oldestHold, List.head?_eq_getElem?, oldest]
    rfl
  unfold State.obstacle
  dsimp only
  rw [blocks]
  exact ⟨rfl, rfl⟩

/-- Settles O33. -/
theorem phaseRequestChecked : Obligations.PhaseRequestChecked := by
  unfold Obligations.PhaseRequestChecked
  intro p q r a st s u hr heard hu listens able once index issue
  subst hr hu
  have asks : PhaseAsked p q a st s := ⟨heard, listens, able, once, index, issue⟩
  have forms (f : FieldVal) : formOf .perf q.index (q.withField 32 (BitVec.ofNat 16 p.code)).fields f = perfForm f :=
    formOf_perf ..
  simp only [forms]
  refine ⟨fun f mem sound => ⟨fun flaw => ?_, fun flaw => ?_⟩, fun sound => ?_⟩
  · exact asks.says_ (State.amendPerf_flawed asks.carried (firstFlaw_eq_some mem sound flaw))
  · exact asks.says_ (State.amendPerf_flawed asks.carried (firstFlaw_eq_some mem sound flaw))
  have form := firstFlaw_eq_none.2 sound
  refine ⟨fun bar => ?_, fun role alone => ?_⟩
  · refine asks.says_ (State.amendPerf_notPermitted rfl asks.carried form ?_)
    rwa [State.frameGood_role, State.frameGood_isStageOf]
  have role' : s.frameGood.role st = .foh ∨ s.frameGood.isStageOf st a = true := by
    rwa [State.frameGood_role, State.frameGood_isStageOf]
  have decided := State.amendPerf_phase (q := ⟨st, .perf, q.withField 32 (BitVec.ofNat 16 p.code)⟩) (u := s.frameGood)
    rfl asks.carried form role' alone asks.asked
  have new_of_row {adm : Admission} (row : transition (s.phase a) p = some adm) : s.phase a ≠ p := by
    rintro same
    rw [same, transition_self] at row
    cases row
  refine ⟨fun same => ?_, fun new out => ?_, fun barred => ?_, fun k x oldest found origin => ?_⟩
  · exact asks.says_ (decided.trans (State.phaseRequest_same ((s.frameGood_phase a).trans same)))
  · rw [← s.frameGood_phase] at new out
    exact asks.says_ (decided.trans (State.phaseRequest_wrongPhase new (transition_eq_none out)))
  · obtain ⟨adm, row, refused⟩ : ∃ adm, transition (s.phase a) p = some adm ∧ s.admits st a adm = false := by
      obtain ⟨foh, row⟩ | ⟨stage, row⟩ := barred
      · exact ⟨_, transition_stageOnly row, State.not_admits_foh foh⟩
      · refine ⟨_, transition_fohOnly row, ?_⟩
        have notFoh : s.role st ≠ .foh := by
          unfold State.isStageOf at stage
          simp only [Bool.and_eq_true, beq_iff_eq] at stage
          rw [stage.1]
          decide
        simp [State.admits, notFoh]
    have new := new_of_row row
    rw [← s.frameGood_phase] at new row
    exact asks.says_ (decided.trans (State.phaseRequest_notPermitted new row ((s.frameGood_admits st a _).trans refused)))
  · obtain ⟨house, run⟩ := State.obstacle_hold oldest
    obtain ⟨adm, row, admitted, bar⟩ : ∃ adm, transition (s.frameGood.phase a) p = some adm ∧
        s.frameGood.admits st a adm = true ∧ s.frameGood.obstacle a p = some (.hold k) := by
      rw [s.frameGood_phase]
      rcases origin with ⟨prepare, rfl, foh⟩ | ⟨beginners, rfl, stage⟩
      · exact ⟨⟨false, true⟩, by rw [prepare]; rfl, (s.frameGood_admits ..).trans (State.admits_foh foh), house⟩
      · exact ⟨⟨true, false⟩, by rw [beginners]; rfl, (s.frameGood_admits ..).trans (State.admits_stage stage), run⟩
    have new := new_of_row (s.frameGood_phase a ▸ row)
    have blocked := decided.trans (State.phaseRequest_blocked (by rwa [s.frameGood_phase]) row admitted bar)
    obtain ⟨frame, stations, reply⟩ := State.blockedBy_replies found s.settings.part.address q.station
    refine ⟨_, exec_answered (PhaseAsked.named p q) (by decide) asks.heard asks.stop, ?_⟩
    rw [asks.handled, blocked]
    exact ⟨frame, stations, reply⟩

end Sys2Proof.Machine
end

section
/-!
PROOFS. Holds that stations raise and retire (R20, R21, R22), and requests for dynamic records as their owners answer
them (R184).
-/

namespace Sys2Proof.Machine

-- The proofs of this file are elaborated one after another.
set_option Elab.async false

/-! ## Requests for dynamic records (R184) -/

section

variable {i : Instr} {code : ReqCode} {k : Kind} {r : Req} {s : State} {st : Fin 8}

/-- A RAISE that its owner answers names the record it filled in its reply. -/
theorem exec_names (named : requestOf i = some (code, k, r)) (other : code ≠ .look) (h : Heard s r st)
    (stop : s.frameGood.linkStop st code k r = none) {status : Status} {index issue : Nat} {fields : List FieldVal}
    {u : State} (answer : handlerOf i ⟨st, k, r⟩ s.frameGood = Ask.names ⟨st, k, r⟩ status index issue fields u) :
    ∃ a t, t = u.reply s.settings.part.address r.station a ∧ exec i s = .next t ∧
      Replies t s.settings.part.address r.station status none k index issue fields := by
  have run := exec_answered named other h stop
  rw [answer] at run
  exact ⟨_, _, rfl, run, rfl⟩

end

theorem namesOccupant_iff {r : Req} {issue : Nat} : namesOccupant r issue = true ↔ r.issue ≠ 0 ∧ issue = r.issue.toNat := by
  simp only [namesOccupant, Bool.and_eq_true, bne_iff_ne, beq_iff_eq, ne_eq, eq_comm (a := r.issue.toNat)]

theorem nextIssue_eq (n : Nat) : nextIssue n = if n < 255 then n + 1 else 1 := by
  unfold nextIssue
  split <;> split <;> omega

/-! ## The hold a request names (R20) -/

theorem holdIndex_range (a : Fin 3) (k : Fin 8) : 1 ≤ holdIndex a k ∧ holdIndex a k ≤ kindSize .hold := by
  unfold holdIndex kindSize
  dsimp only
  omega

theorem holdAt_index {i : Fin 24} {a : Fin 3} {k : Fin 8} (h : i.1 = a.1 * 8 + k.1) : holdAt i = (a, k) := by
  unfold holdAt
  refine Prod.ext (Fin.ext ?_) (Fin.ext ?_)
  · dsimp only; omega
  · dsimp only; omega

theorem State.namedHold_eq {s : State} {r : Req} {a : Fin 3} {k : Fin 8} (index : r.index.toNat = holdIndex a k) :
    s.namedHold r = if namesOccupant r s.holds[a][k].issue then (s.hold? a k).map fun x => (a, k, x) else none := by
  have lt : a.1 * 8 + k.1 < 24 := by omega
  have entry : entryOf 24 r.index = some ⟨a.1 * 8 + k.1, lt⟩ := entryOf_eq_some index
  unfold State.namedHold
  rw [entry, Option.bind_some, holdAt_index rfl]

theorem State.namedHold_found {s : State} {r : Req} {a : Fin 3} {k : Fin 8} {x : Hold}
    (index : r.index.toNat = holdIndex a k) (slot : s.holds[a][k] = ⟨r.issue.toNat, some x⟩) (issue : r.issue ≠ 0) :
    s.namedHold r = some (a, k, x) := by
  rw [State.namedHold_eq index, State.hold?, slot, if_pos (namesOccupant_iff.2 ⟨issue, rfl⟩)]
  rfl

theorem State.namedHold_none {s : State} {r : Req} {a : Fin 3} {k : Fin 8} (index : r.index.toNat = holdIndex a k)
    (out : s.hold? a k = none ∨ r.issue = 0 ∨ s.holds[a][k].issue ≠ r.issue.toNat) : s.namedHold r = none := by
  rw [State.namedHold_eq index]
  split
  next named =>
    obtain ⟨issue, same⟩ := namesOccupant_iff.1 named
    rcases out with empty | zero | other
    · rw [empty]; rfl
    · exact absurd zero issue
    · exact absurd same other
  next => rfl

/-! ## What a RAISE of a HOLD asks for (R21, R201) -/

theorem entryNo_eq_none {n v : Nat} (h : v < 1 ∨ n < v) : entryNo n v = none := by
  unfold entryNo
  exact dif_neg (by omega)

theorem entryNo_succ {n : Nat} (a : Fin n) : entryNo n (a.1 + 1) = some a := by
  unfold entryNo
  rw [dif_pos (by omega)]
  exact congrArg some (Fin.ext (by simp))

theorem toNat_word {n : Nat} (h : n ≤ 65535) : (BitVec.ofNat 16 n).toNat = n := by
  rw [BitVec.toNat_ofNat]
  omega

/-- The two fields in either order ask for the auditorium and the code. -/
theorem holdAsked_eq {fs : List FieldVal} {v n : Word}
    (fields : fs = [⟨32, v⟩, ⟨35, n⟩] ∨ fs = [⟨35, n⟩, ⟨32, v⟩]) {a : Fin 3} (aud : v.toNat = a.1 + 1)
    (range : 1 ≤ n.toNat ∧ n.toNat ≤ 255) : holdAsked fs = some (a, n.toNat) := by
  have asked : fs.all (fun f => idOf f == 32 || idOf f == 35) = true ∧ askedFor fs 32 = some v.toNat ∧
      askedFor fs 35 = some n.toNat := by
    rcases fields with rfl | rfl <;> exact ⟨rfl, rfl, rfl⟩
  obtain ⟨ids, first, second⟩ := asked
  unfold holdAsked
  rw [if_pos ids, first, second, aud, Option.bind_some, entryNo_succ]
  exact if_pos range

/-- A field beyond the two, or either missing or out of range, asks for no hold. -/
theorem holdAsked_eq_none {fs : List FieldVal}
    (bad : (∃ f ∈ fs, f.id ≠ 32 ∧ f.id ≠ 35) ∨ (∀ f ∈ fs, f.id = 32 → f.value.toNat < 1 ∨ 3 < f.value.toNat) ∨
      (∀ f ∈ fs, f.id = 35 → f.value.toNat < 1 ∨ 255 < f.value.toNat)) : holdAsked fs = none := by
  have byte {f : FieldVal} {id : Byte} (h : idOf f = id.toNat) : f.id = id := BitVec.eq_of_toNat_eq h
  unfold holdAsked
  split
  next ids =>
    obtain ⟨f, mem, not32, not35⟩ | no32 | no35 := bad
    · have allowed := List.all_eq_true.1 ids f mem
      rw [Bool.or_eq_true, beq_iff_eq, beq_iff_eq] at allowed
      rcases allowed with h | h
      · exact absurd (byte h) not32
      · exact absurd (byte h) not35
    · have unnamed : (askedFor fs 32).bind (entryNo 3) = none := by
        cases asked : askedFor fs 32 with
        | none => rfl
        | some v =>
          obtain ⟨f, mem, id, rfl⟩ := askedFor_eq_some asked
          exact entryNo_eq_none (no32 f mem (byte id))
      rw [unnamed]
    · split
      next a n _ asked =>
        obtain ⟨f, mem, id, rfl⟩ := askedFor_eq_some asked
        have out : f.value.toNat < 1 ∨ 255 < f.value.toNat := no35 f mem (byte id)
        exact if_neg (by unfold valOf; omega)
      next => rfl
  next => rfl

/-! ## RAISE, RETIRE and AMEND of a HOLD -/

section

variable {u : State} {q : Ask} {a : Fin 3} {n : Nat}

theorem State.raiseHoldReq_notPermitted (asked : holdAsked q.req.fields = some (a, n))
    (barred : u.role q.st ≠ .foh ∧ u.isStageOf q.st a = false) :
    u.raiseHoldReq q = q.says .notPermitted [] u := by
  have no : (u.role q.st == .foh || u.isStageOf q.st a) = false := by simp [barred]
  simp only [State.raiseHoldReq, asked, no, Bool.not_false, if_true]

/-- Admitted, a RAISE of a HOLD is judged on the phase and the room (R21). -/
theorem State.raiseHoldReq_eq (asked : holdAsked q.req.fields = some (a, n))
    (role : u.role q.st = .foh ∨ u.isStageOf q.st a = true) :
    u.raiseHoldReq q =
      if u.phase a = .dark then q.refuses .wrongPhase [] u
      else match u.freeStationSlot a with
        | none => q.says .full [] u
        | some k => q.names .done (holdIndex a k)
            (u.fillHold a k { origin := some q.st, cause := .station, reason := .code n }).holds[a][k].issue
            (holdFields a { origin := some q.st, cause := .station, reason := .code n })
            (u.fillHold a k { origin := some q.st, cause := .station, reason := .code n }) := by
  have yes : (u.role q.st == .foh || u.isStageOf q.st a) = true := by simpa using role
  simp only [State.raiseHoldReq, asked, yes, Bool.not_true, Bool.false_eq_true, if_false] <;> rfl

end

/-- The first entry that passes is the one that none before it passes. -/
theorem firstIx_eq_some {n : Nat} {p : Fin n → Bool} {k : Fin n} (here : p k = true) (before : ∀ j, j < k → p j = false) :
    firstIx n p = some k := by
  unfold firstIx
  rw [List.find?_eq_some_iff_append]
  refine ⟨here, (List.finRange n).take k.1, (List.finRange n).drop (k.1 + 1), ?_, fun j mem => ?_⟩
  · have lt : k.1 < (List.finRange n).length := by simp
    have cut := List.take_append_drop k.1 (List.finRange n)
    rw [List.drop_eq_getElem_cons lt, List.getElem_finRange] at cut
    exact cut.symm
  · obtain ⟨m, lt, rfl⟩ := List.mem_iff_getElem.1 mem
    rw [List.length_take] at lt
    rw [List.getElem_take, List.getElem_finRange]
    exact Bool.not_eq_true' _ ▸ before _ (Fin.lt_def.2 (by simpa using lt.trans_le (Nat.min_le_left _ _)))

theorem firstIx_eq_none {n : Nat} {p : Fin n → Bool} (h : ∀ j, p j = false) : firstIx n p = none := by
  unfold firstIx
  exact List.find?_eq_none.2 fun j _ => by simp [h j]

theorem State.freeStationSlot_none {s : State} {a : Fin 3} (full : ∀ j : Fin 8, j.1 < 4 → s.hold? a j ≠ none) :
    s.freeStationSlot a = none := by
  refine firstIx_eq_none fun j => ?_
  by_cases low : j.1 < 4
  · have filled := Option.isNone_eq_false_iff.2 (Option.isSome_iff_ne_none.2 (full j low))
    rw [filled, Bool.and_false]
  · rw [decide_eq_false low, Bool.false_and]

theorem State.freeStationSlot_some {s : State} {a : Fin 3} {k : Fin 8} (low : k.1 < 4) (free : s.hold? a k = none)
    (before : ∀ j : Fin 8, j < k → s.hold? a j ≠ none) : s.freeStationSlot a = some k := by
  refine firstIx_eq_some (by simp [low, free]) fun j lt => ?_
  have filled := Option.isNone_eq_false_iff.2 (Option.isSome_iff_ne_none.2 (before j lt))
  rw [filled, Bool.and_false]

theorem State.sameRole_iff {s : State} {st o : Fin 8} : s.sameRole st o = true ↔
    s.role st = s.role o ∧ (s.role st = .stage → s.settings.stations[st].aud = s.settings.stations[o].aud) := by
  simp only [State.sameRole, Bool.and_eq_true, beq_iff_eq, Bool.or_eq_true, bne_iff_ne, ne_eq, imp_iff_not_or]

theorem State.frameGood_sameRole (s : State) (st o : Fin 8) : s.frameGood.sameRole st o = s.sameRole st o := by
  simp only [State.sameRole, State.frameGood_role, State.frameGood_settings]

/-- R21: a RAISE of a HOLD with its two fields, by the STAGE of the auditorium or FOH. -/
theorem holdRaised {r : Req} {a : Fin 3} {n : Nat} {st : Fin 8} {k : Fin 8} {s : State} (heard : Heard s r st)
    (index : r.index = 0) (issue : r.issue = 0)
    (fields : r.fields = [⟨32, BitVec.ofNat 16 (a.1 + 1)⟩, ⟨35, BitVec.ofNat 16 n⟩] ∨
      r.fields = [⟨35, BitVec.ofNat 16 n⟩, ⟨32, BitVec.ofNat 16 (a.1 + 1)⟩]) (low : 1 ≤ n) (high : n ≤ 255)
    (role : s.role st = .foh ∨ s.isStageOf st a = true) :
    (s.phase a = .dark →
      ∃ t, exec (.raiseHold r) s = .next t ∧ ChangesOnly [.link] s.frameGood t ∧
        Replies t s.settings.part.address r.station .refused (some .wrongPhase) .hold 0 0 []) ∧
    (s.phase a ≠ .dark → (∀ j : Fin 8, j.1 < 4 → s.frameGood.hold? a j ≠ none) →
      ∃ t, exec (.raiseHold r) s = .next t ∧ ChangesOnly [.link] s.frameGood t ∧
        Replies t s.settings.part.address r.station .full none .hold 0 0 []) ∧
    (s.phase a ≠ .dark → k.1 < 4 → s.frameGood.hold? a k = none → (∀ j : Fin 8, j < k → s.frameGood.hold? a j ≠ none) →
      ∃ t, exec (.raiseHold r) s = .next t ∧ ChangesOnly requestParts s.frameGood t ∧
        t.holds[a][k] = ⟨nextIssue s.frameGood.holds[a][k].issue, some ⟨some st, .station, .code n⟩⟩ ∧
        OnlyAt k s.frameGood.holds[a] t.holds[a] ∧ OnlyAt a s.frameGood.holds t.holds ∧
        (k ∉ s.frameGood.holdLists[a] → t.holdLists[a] = s.frameGood.holdLists[a] ++ [k]) ∧
        OnlyAt a s.frameGood.holdLists t.holdLists ∧
        Replies t s.settings.part.address r.station .done none .hold (holdIndex a k) t.holds[a][k].issue
          [fv 32 (a.1 + 1), fv 33 (st.1 + 1), fv 34 0, fv 35 n]) := by
  have asked : holdAsked r.fields = some (a, n) := by
    have value : (BitVec.ofNat 16 n).toNat = n := toNat_word (by omega)
    have found := holdAsked_eq fields (toNat_word (by omega)) (by rw [value]; exact ⟨low, high⟩)
    rw [value] at found
    exact found
  have once : (r.fields.map (·.id)).Nodup := by
    rcases fields with h | h <;> rw [h] <;> simp
  obtain ⟨listens, able⟩ := State.able_of_phaseRole role
  have stop : s.frameGood.linkStop st .raise .hold r = none :=
    State.linkStop_raise (by rwa [State.frameGood_role]) (by rwa [State.frameGood_role]) rfl index issue once
  have decided := State.raiseHoldReq_eq (u := s.frameGood) (q := ⟨st, .hold, r⟩) asked
    (by rwa [State.frameGood_role, State.frameGood_isStageOf])
  rw [State.frameGood_phase] at decided
  have turned {status : Status} {why : Option Reason}
      (answer : s.frameGood.raiseHoldReq ⟨st, .hold, r⟩ = (Ask.answer ⟨st, .hold, r⟩ status why [], s.frameGood)) :
      ∃ t, exec (.raiseHold r) s = .next t ∧ ChangesOnly [.link] s.frameGood t ∧
        Replies t s.settings.part.address r.station status why .hold 0 0 [] := by
    have says_ := exec_says (i := .raiseHold r) rfl (by decide) heard stop answer
    rw [index, issue] at says_
    exact says_
  refine ⟨fun dark => turned (decided.trans (if_pos dark)), fun light full => turned (decided.trans ?_),
    fun light slot free before => ?_⟩
  · rw [if_neg light, State.freeStationSlot_none full]
    rfl
  · rw [if_neg light, State.freeStationSlot_some slot free before] at decided
    obtain ⟨answer, t, rfl, run, reply⟩ := exec_names (i := .raiseHold r) rfl (by decide) heard stop decided
    have filled := s.frameGood.fillHold_changes a k { origin := some st, cause := .station, reason := .code n }
    obtain ⟨others, slots, lists⟩ :=
      s.frameGood.fillHold_onlyAt a k { origin := some st, cause := .station, reason := .code n }
    refine ⟨_, run, filled.andThen (State.reply_changes ..), ?_, slots, others, fun fresh => ?_, lists, reply⟩
    · rw [State.reply_holds, State.fillHold_slot]
    · rw [State.reply_holdLists, State.fillHold_list, List.erase_of_not_mem fresh]

/-- Settles O34. -/
theorem stationHoldsRaisedAndRetired : Obligations.StationHoldsRaisedAndRetired := by
  unfold Obligations.StationHoldsRaisedAndRetired
  refine ⟨fun r a n st k s u heard index issue hu fields low high role => ?_,
    fun r st s heard index issue once listens able => ⟨fun bad => ?_, fun a n fields low high notFoh notStage => ?_⟩,
    fun r a k x st s u heard index slot issue hu listens able => ⟨fun fields => ⟨fun o origin role aud => ?_, fun other => ?_⟩,
      fun once => ?_⟩,
    fun r a k st s u heard index hu listens able once out => ⟨?_, fun fields => ?_⟩⟩
  · subst hu
    have raised := holdRaised (k := k) heard index issue fields low high role
    rw [nextIssue_eq] at raised
    exact raised
  · have stop : s.frameGood.linkStop st .raise .hold r = none :=
      State.linkStop_raise (by rwa [State.frameGood_role]) (by rwa [State.frameGood_role]) rfl index issue once
    have answer : s.frameGood.raiseHoldReq ⟨st, .hold, r⟩ = Ask.says ⟨st, .hold, r⟩ .badField [] s.frameGood := by
      simp only [State.raiseHoldReq, holdAsked_eq_none bad]
    have says_ := exec_says (i := .raiseHold r) rfl (by decide) heard stop answer
    rw [index, issue] at says_
    exact says_
  · have stop : s.frameGood.linkStop st .raise .hold r = none :=
      State.linkStop_raise (by rwa [State.frameGood_role]) (by rwa [State.frameGood_role]) rfl index issue once
    have asked := holdAsked_eq (.inl fields) (toNat_word (n := a.1 + 1) (by omega)) ⟨low, high⟩
    have answer := State.raiseHoldReq_notPermitted (u := s.frameGood) (q := ⟨st, .hold, r⟩) asked
      (by rw [State.frameGood_role, State.frameGood_isStageOf]; exact ⟨notFoh, notStage⟩)
    have says_ := exec_says (i := .raiseHold r) rfl (by decide) heard stop answer
    rw [index, issue] at says_
    exact says_
  all_goals subst hu
  all_goals have range := index ▸ holdIndex_range a k
  · have stop : s.frameGood.linkStop st .retire .hold r = none :=
      State.linkStop_retire (by rwa [State.frameGood_role]) (by rwa [State.frameGood_role]) rfl range fields
    have same : s.frameGood.sameRole st o = true := (s.frameGood_sameRole st o).trans (State.sameRole_iff.2 ⟨role, aud⟩)
    have answer : s.frameGood.retireHoldReq ⟨st, .hold, r⟩ =
        Ask.says ⟨st, .hold, r⟩ .done [] (s.frameGood.emptyHold a k) := by
      simp only [State.retireHoldReq, State.namedHold_found index slot issue, origin, same, if_true]
    obtain ⟨answer', t, rfl, run, reply⟩ := exec_done (i := .retireHold r) rfl (by decide) heard stop answer
    obtain ⟨others, slots, lists⟩ := s.frameGood.emptyHold_onlyAt a k
    rw [index] at reply
    refine ⟨_, run, (s.frameGood.emptyHold_changes a k).andThen (State.reply_changes ..), ?_, slots, others,
      State.emptyHold_list .., lists, reply⟩
    rw [State.reply_holds, State.emptyHold_slot, slot]
  · have stop : s.frameGood.linkStop st .retire .hold r = none :=
      State.linkStop_retire (by rwa [State.frameGood_role]) (by rwa [State.frameGood_role]) rfl range fields
    have answer : s.frameGood.retireHoldReq ⟨st, .hold, r⟩ = Ask.says ⟨st, .hold, r⟩ .notPermitted [] s.frameGood := by
      obtain none' | ⟨o, origin, apart⟩ := other
      · simp only [State.retireHoldReq, State.namedHold_found index slot issue, none']
      · have differs : ¬s.frameGood.sameRole st o = true := by
          rw [State.frameGood_sameRole, State.sameRole_iff]
          rintro ⟨role, aud⟩
          rcases apart with h | ⟨stage, h⟩
          · exact h role
          · exact h (aud stage)
        simp only [State.retireHoldReq, State.namedHold_found index slot issue, origin, if_neg differs]
    have says_ := exec_says (i := .retireHold r) rfl (by decide) heard stop answer
    rw [index] at says_
    exact says_
  · have stop : s.frameGood.linkStop st .amend .hold r = none :=
      State.linkStop_amend (by rwa [State.frameGood_role]) (by rwa [State.frameGood_role]) range (.inl rfl) once
    have answer : s.frameGood.amendHoldReq ⟨st, .hold, r⟩ =
        Ask.refuses ⟨st, .hold, r⟩ .notAmendable (r.fields.take 1) s.frameGood := by
      simp only [State.amendHoldReq, State.namedHold_found index slot issue]
    have says_ := exec_says (i := .amendHold r) rfl (by decide) heard stop answer
    rw [index] at says_
    exact says_
  · have stop : s.frameGood.linkStop st .amend .hold r = none :=
      State.linkStop_amend (by rwa [State.frameGood_role]) (by rwa [State.frameGood_role]) range (.inl rfl) once
    have answer : s.frameGood.amendHoldReq ⟨st, .hold, r⟩ = Ask.says ⟨st, .hold, r⟩ .noRecord [] s.frameGood := by
      simp only [State.amendHoldReq, State.namedHold_none index out]
    have says_ := exec_says (i := .amendHold r) rfl (by decide) heard stop answer
    rw [index] at says_
    exact says_
  · have stop : s.frameGood.linkStop st .retire .hold r = none :=
      State.linkStop_retire (by rwa [State.frameGood_role]) (by rwa [State.frameGood_role]) rfl range fields
    have answer : s.frameGood.retireHoldReq ⟨st, .hold, r⟩ = Ask.says ⟨st, .hold, r⟩ .noRecord [] s.frameGood := by
      simp only [State.retireHoldReq, State.namedHold_none index out]
    have says_ := exec_says (i := .retireHold r) rfl (by decide) heard stop answer
    rw [index] at says_
    exact says_

end Sys2Proof.Machine
end

section
/-!
PROOFS. The encoder's counts (R46, R49, R52), the loads of the position (R44, R50, R51) and the demand OUT and its
timer (R37, R38, R43, R45).
-/

namespace Sys2Proof.Machine

-- The proofs of this file are elaborated one after another.
set_option Elab.async false

/-! ## Events of a channel -/

/-- An event that leaves the state is taken as nothing, powered or not. -/
theorem State.takes_still {s : State} {f : State → State} (h : f s = s) : s.takes f = .next s := by
  by_cases powered : s.powered = true
  · rw [State.takes_powered f powered, h]
  · exact State.takes_unpowered (by simpa using powered) f

/-- A channel written with nothing shown changed marks nothing (R35). -/
theorem State.writeIron_quiet {s : State} {ch : Fin 3} {x : Iron} (h : x.shown = s.irons[ch].shown) :
    ChangesOnly [.irons] s (s.writeIron ch x) := by
  have whole : s.writeIron ch x = { s with irons := put s.irons ch x } := by
    unfold State.writeIron
    dsimp only
    rw [h, bne_self_eq_false]
    rfl
  rw [whole]
  constructor; intro p hp; cases p <;> simp_all [Part.same]

/-! ## One count (R46, R49, R52) -/

/-- The position and the totals after a count, before it is judged (R49). -/
def Iron.moved (up : Bool) (x : Iron) : Iron := (x.tally up).count up

section

variable {x : Iron} {tol : Int} {up : Bool}

theorem Iron.saturates_iff : x.saturates up = true ↔ if up then 65535 ≤ x.position else x.position = 0 := by
  cases up <;> simp [Iron.saturates]

/-- A channel after a count and the check that its position could follow it (R49). -/
def Iron.followed (up : Bool) (x : Iron) : Iron := if x.saturates up then (x.moved up).faulted .drift else x.moved up

theorem Iron.counted_eq : x.counted tol up =
    if (x.followed up).motion = .raising ∧ (x.followed up).raiseTravel + tol < (x.followed up).raiseTop then
      (x.followed up).faulted .direction
    else if (x.motion = .atOut ∨ x.motion = .stopped) ∧ (x.followed up).restTravel + tol < 0 ∧
        (x.followed up).sawCreep = false then
      { x.followed up with sawCreep := true }.noteFault .drift
    else x.followed up := rfl

/-- Under the motor a lost count stops the raise (R47, R49). -/
theorem Iron.followed_raising (h : x.motion = .raising) : x.followed up =
    if x.saturates up then ((x.moved up).noteFault .drift).stopRaise none else x.moved up := by
  have stops : (x.moved up).faulted .drift = ((x.moved up).noteFault .drift).stopRaise none := if_pos h
  unfold Iron.followed
  rw [stops]

theorem Iron.followed_still (h : x.motion ≠ .raising) : x.followed up =
    if x.saturates up then (x.moved up).noteFault .drift else x.moved up := by
  have notes : (x.moved up).faulted .drift = (x.moved up).noteFault .drift := if_neg h
  unfold Iron.followed
  rw [notes]

/-- Under the motor a lost count or the wrong direction stops the raise (R46, R47, R49). -/
theorem Iron.counted_raising (h : x.motion = .raising) : x.counted tol up =
    if x.saturates up then ((x.moved up).noteFault .drift).stopRaise none
    else if (x.moved up).raiseTravel + tol < (x.moved up).raiseTop then
      ((x.moved up).noteFault .direction).stopRaise none
    else x.moved up := by
  have motion : (x.moved up).motion = .raising := h
  have stops : (x.moved up).faulted .direction = ((x.moved up).noteFault .direction).stopRaise none := if_pos h
  have awake : ¬(x.motion = .atOut ∨ x.motion = .stopped) := by rw [h]; decide
  rw [Iron.counted_eq, Iron.followed_raising h]
  split
  next lost => rw [if_neg fun k => Motion.noConfusion k.1, if_neg fun k => awake k.1]
  next kept =>
    rw [stops]
    simp only [motion, true_and, awake, false_and, if_false]

/-- At rest a lost count and the first creep of the spell are faults (R49, R52). -/
theorem Iron.counted_resting (h : x.motion = .atOut ∨ x.motion = .stopped) : x.counted tol up =
    if (x.moved up).restTravel + tol < 0 ∧ x.sawCreep = false then
      { (if x.saturates up then (x.moved up).noteFault .drift else x.moved up) with sawCreep := true }.noteFault .drift
    else if x.saturates up then (x.moved up).noteFault .drift else x.moved up := by
  have still : x.motion ≠ .raising := by rcases h with h | h <;> rw [h] <;> decide
  have motion : (x.followed up).motion = x.motion := by
    rw [Iron.followed_still still]; split <;> rfl
  have travel : (x.followed up).restTravel = (x.moved up).restTravel := by
    rw [Iron.followed_still still]; split <;> rfl
  have creep : (x.followed up).sawCreep = x.sawCreep := by
    rw [Iron.followed_still still]; split <;> rfl
  rw [Iron.counted_eq, motion, travel, creep, if_neg fun k => still k.1, Iron.followed_still still]
  simp only [h, true_and]

/-- IN and in a descent a lost count alone is a fault (R49). -/
theorem Iron.counted_other (h : x.motion = .atIn ∨ x.motion = .descending) : x.counted tol up =
    if x.saturates up then (x.moved up).noteFault .drift else x.moved up := by
  have still : x.motion ≠ .raising := by rcases h with h | h <;> rw [h] <;> decide
  have awake : ¬(x.motion = .atOut ∨ x.motion = .stopped) := by rcases h with h | h <;> rw [h] <;> decide
  have motion : (x.followed up).motion = x.motion := by
    rw [Iron.followed_still still]; split <;> rfl
  rw [Iron.counted_eq, motion, if_neg fun k => still k.1, if_neg fun k => awake k.1, Iron.followed_still still]

theorem Iron.moved_raising (h : x.motion = .raising) :
    (x.moved up).raiseTravel = x.raiseTravel + (if up then 1 else -1) ∧
      (x.moved up).raiseTop = max x.raiseTop (x.raiseTravel + (if up then 1 else -1)) := by
  have raises : (x.motion == .raising) = true := beq_iff_eq.2 h
  exact ⟨if_pos raises, if_pos raises⟩

theorem Iron.moved_resting (h : x.motion = .atOut ∨ x.motion = .stopped) :
    (x.moved up).restTravel = x.restTravel + (if up then 1 else -1) := by
  have rests : (x.motion == .atOut || x.motion == .stopped) = true := by simpa using h
  exact if_pos rests

theorem Iron.moved_eq : x.moved up = { x with
    position := if up then min 65535 (x.position + 1) else x.position - 1
    sampleMove := x.sampleMove + 1
    raiseTravel := if x.motion = .raising then x.raiseTravel + (if up then 1 else -1) else x.raiseTravel
    raiseTop := if x.motion = .raising then max x.raiseTop (x.raiseTravel + (if up then 1 else -1)) else x.raiseTop
    restTravel := if x.motion = .atOut ∨ x.motion = .stopped then x.restTravel + (if up then 1 else -1)
      else x.restTravel } := by
  unfold Iron.moved Iron.tally Iron.count
  simp

end

/-- A count that is neither lost nor a fault is written and nothing else. -/
theorem State.countEncoder_plain {s : State} {ch : Fin 3} {up : Bool} (present : s.settings.irons[ch].present = true)
    (kept : ¬s.irons[ch].saturates up = true)
    (straight : ¬((s.irons[ch].moved up).motion = .raising ∧
      (s.irons[ch].moved up).raiseTravel + s.settings.irons[ch].driftTol < (s.irons[ch].moved up).raiseTop))
    (steady : ¬((s.irons[ch].motion = .atOut ∨ s.irons[ch].motion = .stopped) ∧
      (s.irons[ch].moved up).restTravel + s.settings.irons[ch].driftTol < 0 ∧ (s.irons[ch].moved up).sawCreep = false)) :
    s.countEncoder ch up = s.writeIron ch (s.irons[ch].moved up) := by
  unfold State.countEncoder
  rw [if_neg (by rw [present]; decide)]
  dsimp only
  rw [if_neg kept]
  rw [State.writeIron_iron]
  exact (if_neg straight).trans (if_neg steady)

/-- Settles O40. -/
theorem encoderCountMoves : Obligations.EncoderCountMoves := by
  unfold Obligations.EncoderCountMoves
  refine ⟨fun ch up s absent => ?_, fun ch up s x d tol resting lost wrong creeps powered present hx hd htol hrest hlost
    hwrong hcreep => ?_⟩
  · refine State.takes_still ?_
    unfold State.countEncoder
    rw [if_pos (by rw [absent]; rfl)]
  subst hx hd htol
  have irons := s.countEncoder_irons ch up present
  have frame := s.countEncoder_changes ch up
  have sat : s.irons[ch].saturates up = true ↔ lost := Iron.saturates_iff.trans hlost.symm
  refine ⟨_, s.takes_powered (State.countEncoder ch up) powered, frame, ?_⟩
  have quiet (notLost : ¬lost) (notWrong : ¬wrong) (notCreeps : ¬creeps) : ChangesOnly [.irons] s (s.countEncoder ch up) := by
    rw [State.countEncoder_plain present (fun k => notLost (sat.1 k))]
    · exact State.writeIron_quiet rfl
    · rintro ⟨raising, back⟩
      have raising' : s.irons[ch].motion = .raising := raising
      obtain ⟨travel, top⟩ := Iron.moved_raising (up := up) raising'
      rw [travel, top] at back
      exact notWrong (hwrong.2 ⟨raising', back⟩)
    · rintro ⟨rest, creep, fresh⟩
      rw [Iron.moved_resting rest] at creep
      exact notCreeps (hcreep.2 ⟨hrest.2 rest, creep, fresh⟩)
  generalize s.countEncoder ch up = t at *
  have here : t.irons[ch] = s.irons[ch].counted s.settings.irons[ch].driftTol up := by rw [irons, put_same]
  rw [here]
  refine ⟨irons ▸ put_onlyAt _ _ _, ?_⟩
  clear here irons
  generalize s.irons[ch] = x at *
  generalize (s.settings.irons[ch].driftTol : Int) = tol at *
  by_cases raising : x.motion = .raising
  · have moving : ¬resting := by rw [hrest, raising]; decide
    have calm : ¬creeps := fun k => moving (hcreep.1 k).1
    have back : (x.moved up).raiseTravel + tol < (x.moved up).raiseTop ↔ wrong := by
      obtain ⟨travel, top⟩ := Iron.moved_raising (up := up) raising
      rw [hwrong, travel, top]
      exact ⟨fun k => ⟨raising, k⟩, fun k => k.2⟩
    by_cases l : lost
    · rw [Iron.counted_raising raising, if_pos (sat.2 l)]
      simp [l, calm, moving, Iron.stopRaise, Iron.noteFault, Iron.moved_eq, raising, Recorded]
    · by_cases w : wrong
      · rw [Iron.counted_raising raising, if_neg (mt sat.1 l), if_pos (back.2 w)]
        simp [l, w, calm, moving, Iron.stopRaise, Iron.noteFault, Iron.moved_eq, raising, Recorded]
      · rw [Iron.counted_raising raising, if_neg (mt sat.1 l), if_neg (mt back.1 w)]
        simp [l, w, calm, moving, Iron.moved_eq, raising, quiet]
  have straight : ¬wrong := fun k => raising (hwrong.1 k).1
  by_cases rest : x.motion = .atOut ∨ x.motion = .stopped
  · have rests : resting := hrest.2 rest
    have slips : (x.moved up).restTravel + tol < 0 ∧ x.sawCreep = false ↔ creeps := by
      rw [hcreep, Iron.moved_resting rest]
      exact ⟨fun k => ⟨rests, k⟩, fun k => k.2⟩
    by_cases l : lost
    · by_cases c : creeps
      · rw [Iron.counted_resting rest, if_pos (slips.2 c), if_pos (sat.2 l)]
        simp [l, c, straight, rests, raising, rest, Iron.noteFault, Iron.moved_eq]
      · rw [Iron.counted_resting rest, if_neg (mt slips.1 c), if_pos (sat.2 l)]
        simp [l, c, straight, rests, raising, rest, Iron.noteFault, Iron.moved_eq, Recorded]
    · by_cases c : creeps
      · rw [Iron.counted_resting rest, if_pos (slips.2 c), if_neg (mt sat.1 l)]
        simp [l, c, straight, rests, raising, rest, Iron.noteFault, Iron.moved_eq, Recorded]
      · rw [Iron.counted_resting rest, if_neg (mt slips.1 c), if_neg (mt sat.1 l)]
        simp [l, c, straight, rests, raising, rest, Iron.moved_eq, quiet]
  · have busy : ¬resting := fun k => rest (hrest.1 k)
    have calm : ¬creeps := fun k => busy (hcreep.1 k).1
    have other : x.motion = .atIn ∨ x.motion = .descending := by
      revert raising rest
      cases x.motion <;> decide
    by_cases l : lost
    · rw [Iron.counted_other other, if_pos (sat.2 l)]
      simp [l, calm, straight, busy, raising, Iron.noteFault, Iron.moved_eq, Recorded]
    · rw [Iron.counted_other other, if_neg (mt sat.1 l)]
      simp [l, calm, straight, busy, raising, Iron.moved_eq, quiet]

/-! ## The position loaded (R44, R47, R50, R51) -/

section

variable {x : Iron} {tol at_ : Nat} {stops : Bool}

theorem Iron.drifted_iff : x.drifted tol at_ = true ↔ DriftsFrom at_ tol x := by
  unfold Iron.drifted DriftsFrom
  rw [Bool.and_eq_true, Bool.or_eq_true, decide_eq_true_iff, decide_eq_true_iff]
  exact and_congr_right fun _ => or_congr (by omega) (by omega)

theorem Iron.reloaded_true_to (calm : ¬DriftsFrom at_ tol x) : x.reloaded tol at_ stops = x.load at_ := by
  unfold Iron.reloaded
  rw [if_neg (mt Iron.drifted_iff.1 calm)]

theorem Iron.reloaded_drift (drifts : DriftsFrom at_ tol x) : x.reloaded tol at_ stops =
    if stops ∧ x.motion = .raising then ((x.noteFault .drift).stopRaise none).load at_ else (x.noteFault .drift).load at_ := by
  unfold Iron.reloaded Iron.faulted
  rw [if_pos (Iron.drifted_iff.2 drifts)]
  cases stops with
  | false => simp
  | true =>
    simp only [if_true, true_and]
    split <;> rfl

/-- A load writes the position and nothing else but what the drift check does (R50). -/
theorem Iron.reloaded_position : (x.reloaded tol at_ stops).position = at_ ∧ (x.reloaded tol at_ stops).referenced = true :=
  ⟨rfl, rfl⟩

theorem Recorded.load {f : IronFault} {y : Iron} (h : Recorded f x y) : Recorded f x (y.load at_) := h

theorem Recorded.of_noteFault (f : IronFault) (x : Iron) : Recorded f x (x.noteFault f) := ⟨rfl, rfl⟩

theorem Iron.reloaded_recorded (drifts : DriftsFrom at_ tol x) : Recorded .drift x (x.reloaded tol at_ stops) := by
  rw [Iron.reloaded_drift drifts]
  split
  · exact ⟨rfl, rfl⟩
  · exact ⟨rfl, rfl⟩

/-- What a load does to the motion: a DRIFT under the motor stops the raise (R47). -/
theorem Iron.reloaded_motion : (x.reloaded tol at_ true).motion = x.motion ∨
    (x.motion = .raising ∧ DriftsFrom at_ tol x ∧ (x.reloaded tol at_ true).motion = .stopped ∧
      (x.reloaded tol at_ true).stop = none) := by
  by_cases drifts : DriftsFrom at_ tol x
  · rw [Iron.reloaded_drift drifts]
    by_cases raising : x.motion = .raising
    · rw [if_pos ⟨rfl, raising⟩]; exact .inr ⟨raising, drifts, rfl, rfl⟩
    · rw [if_neg fun k => raising k.2]; exact .inl rfl
  · rw [Iron.reloaded_true_to drifts]; exact .inl rfl

theorem Iron.reloaded_kept_motion : (x.reloaded tol at_ false).motion = x.motion := by
  unfold Iron.reloaded
  split <;> rfl

/-- A load leaves the last judgement (R60). -/
theorem Iron.reloaded_judgement : (x.reloaded tol at_ stops).result = x.result ∧ (x.reloaded tol at_ stops).td = x.td ∧
    (x.reloaded tol at_ stops).tf = x.tf := by
  by_cases drifts : DriftsFrom at_ tol x
  · rw [Iron.reloaded_drift drifts]; split <;> exact ⟨rfl, rfl, rfl⟩
  · rw [Iron.reloaded_true_to drifts]; exact ⟨rfl, rfl, rfl⟩

end

/-- An uncommanded fall is a DRIFT whatever the drift check finds (R51). -/
theorem Iron.fallen_recorded {x : Iron} {tol : Nat} : Recorded .drift x (x.fallen tol) := by
  unfold Iron.fallen
  by_cases drifts : DriftsFrom 0 tol x
  · rw [if_pos (Iron.drifted_iff.2 drifts)]; exact Iron.reloaded_recorded drifts
  · rw [if_neg (mt Iron.drifted_iff.1 drifts), Iron.reloaded_true_to drifts]; exact ⟨rfl, rfl⟩

theorem Iron.fallen_judgement {x : Iron} {tol : Nat} : (x.fallen tol).result = x.result ∧ (x.fallen tol).td = x.td ∧
    (x.fallen tol).tf = x.tf := by
  obtain ⟨result, td, tf⟩ := Iron.reloaded_judgement (x := x) (tol := tol) (at_ := 0) (stops := true)
  unfold Iron.fallen
  split
  · exact ⟨result, td, tf⟩
  · exact ⟨result, td, tf⟩

theorem Iron.fallen_position {x : Iron} {tol : Nat} : (x.fallen tol).position = 0 ∧ (x.fallen tol).referenced = true := by
  unfold Iron.fallen
  split
  · exact ⟨rfl, rfl⟩
  · exact ⟨rfl, rfl⟩

/-- A limit IN outside a descent is no business of the performance unit (R51). -/
theorem State.limitInMade_still_changes {s : State} {ch : Fin 3} (h : s.irons[ch].motion ≠ .descending) :
    ChangesOnly [.irons, .holds, .stations] s (s.limitInMade ch) := by
  unfold State.limitInMade
  split
  · exact .refl _ _
  · dsimp only
    have loaded := s.reload_changes ch 0 true
    generalize s.reload ch 0 true = s1 at *
    have fallen : ChangesOnly [.irons, .holds, .stations] s
        (if s.irons[ch].drifted s.settings.irons[ch].driftTol 0 = true then s1 else s1.recordFault ch .drift) := by
      split
      · exact loaded
      · exact loaded.andThen (State.recordFault_changes ..)
    split
    next motion => exact absurd motion h
    · exact fallen.andThen (State.writeIron_changes ..)
    · exact fallen.andThen (State.writeIron_changes ..)
    · exact loaded.mono
    · exact loaded.mono

/-! ## The outputs of a channel (R32) -/

theorem State.holdOutput_on {s : State} {ch : Fin 3} (powered : s.powered = true)
    (present : s.settings.irons[ch].present = true)
    (h : s.irons[ch].motion = .raising ∨ s.irons[ch].motion = .atOut ∨ s.irons[ch].motion = .stopped) :
    s.holdOutput ch = true := by
  unfold State.holdOutput
  rw [powered, present]
  rcases h with h | h | h <;> rw [h] <;> rfl

theorem State.holdOutput_off {s : State} {ch : Fin 3} (h : s.irons[ch].motion = .atIn ∨ s.irons[ch].motion = .descending) :
    s.holdOutput ch = false := by
  unfold State.holdOutput
  rcases h with h | h <;> rw [h] <;> exact Bool.and_false _

theorem State.raiseOutput_on {s : State} {ch : Fin 3} (powered : s.powered = true)
    (present : s.settings.irons[ch].present = true) (h : s.irons[ch].motion = .raising) : s.raiseOutput ch = true := by
  unfold State.raiseOutput
  rw [powered, present, h]
  rfl

theorem State.raiseOutput_off {s : State} {ch : Fin 3} (h : s.irons[ch].motion ≠ .raising) : s.raiseOutput ch = false := by
  unfold State.raiseOutput
  rw [beq_false_of_ne h, Bool.and_false]

theorem State.checkOutput_off {s : State} {ch : Fin 3} (h : s.irons[ch].motion ≠ .descending) : s.checkOutput ch = false := by
  unfold State.checkOutput
  rw [beq_false_of_ne h, Bool.and_false, Bool.false_and]

theorem State.checkOutput_iff {s : State} {ch : Fin 3} (powered : s.powered = true)
    (present : s.settings.irons[ch].present = true) (h : s.irons[ch].motion = .descending) :
    s.checkOutput ch = (s.irons[ch].sub == some .checked) := by
  unfold State.checkOutput
  rw [powered, present, h]
  rfl

/-! ## The index and the limits (R44, R50, R51) -/

/-- R50, R51: the index event of a present channel. -/
theorem indexEvent_loads {ch : Fin 3} {s : State} (powered : s.powered = true)
    (present : s.settings.irons[ch].present = true) :
    ∃ t, exec (.indexEvent ch) s = .next t ∧ ChangesOnly [.irons, .holds, .stations] s t ∧
      OnlyAt ch s.irons t.irons ∧ t.irons[ch].position = s.settings.irons[ch].indexPos ∧ t.irons[ch].referenced = true ∧
      (¬DriftsFrom s.settings.irons[ch].indexPos s.settings.irons[ch].driftTol s.irons[ch] →
        t.irons[ch] = { s.irons[ch] with position := s.settings.irons[ch].indexPos, referenced := true } ∧
          ChangesOnly [.irons, .stations] s t) ∧
      (DriftsFrom s.settings.irons[ch].indexPos s.settings.irons[ch].driftTol s.irons[ch] →
        Recorded .drift s.irons[ch] t.irons[ch] ∧
        (s.irons[ch].motion = .raising → t.irons[ch].motion = .stopped ∧ t.irons[ch].stop = none) ∧
        (s.irons[ch].motion ≠ .raising → t.irons[ch].motion = s.irons[ch].motion)) := by
  have irons := s.indexSeen_irons ch present
  have quiet (calm : ¬DriftsFrom s.settings.irons[ch].indexPos s.settings.irons[ch].driftTol s.irons[ch]) :
      ChangesOnly [.irons, .stations] s (s.indexSeen ch) := by
    unfold State.indexSeen State.reload
    rw [if_neg (by rw [present]; decide)]
    dsimp only
    rw [if_neg (mt Iron.drifted_iff.1 calm)]
    exact State.writeIron_changes ..
  have frame := s.indexSeen_changes ch
  refine ⟨_, s.takes_powered (State.indexSeen ch) powered, frame, ?_⟩
  generalize s.indexSeen ch = t at *
  have here : t.irons[ch] = s.irons[ch].reloaded s.settings.irons[ch].driftTol s.settings.irons[ch].indexPos true := by
    rw [irons, put_same]
  refine ⟨irons ▸ put_onlyAt _ _ _, ?_⟩
  rw [here]
  refine ⟨rfl, rfl, fun calm => ⟨Iron.reloaded_true_to calm, quiet calm⟩, fun drifts =>
    ⟨Iron.reloaded_recorded drifts, fun raising => ?_, fun still => ?_⟩⟩
  · rw [Iron.reloaded_drift drifts, if_pos ⟨rfl, raising⟩]; exact ⟨rfl, rfl⟩
  · rw [Iron.reloaded_drift drifts, if_neg fun k => still k.2]; rfl

/-- What limit OUT makes of a channel, but for the motion (R44, R51). -/
theorem Iron.raisedTo_reloaded (cfg : IronSettings) (x : Iron) :
    (x.raisedTo cfg).position = cfg.travel ∧ (x.raisedTo cfg).referenced = true ∧
      (x.raisedTo cfg).fault = (x.reloaded cfg.driftTol cfg.travel false).fault ∧
      (x.raisedTo cfg).further = (x.reloaded cfg.driftTol cfg.travel false).further := by
  unfold Iron.raisedTo
  dsimp only
  split
  · exact ⟨rfl, rfl, rfl, rfl⟩
  · exact ⟨rfl, rfl, rfl, rfl⟩

theorem Iron.raisedTo_raising {cfg : IronSettings} {x : Iron} (h : x.motion = .raising) :
    (x.raisedTo cfg).motion = .atOut ∧ (x.raisedTo cfg).restTravel = 0 := by
  unfold Iron.raisedTo
  dsimp only
  rw [if_pos (Iron.reloaded_kept_motion.trans h)]
  exact ⟨rfl, rfl⟩

theorem Iron.raisedTo_motion {cfg : IronSettings} {x : Iron} (h : x.motion ≠ .raising) :
    (x.raisedTo cfg).motion = x.motion := by
  unfold Iron.raisedTo
  dsimp only
  rw [if_neg fun k => h (Iron.reloaded_kept_motion.symm.trans k)]
  exact Iron.reloaded_kept_motion

/-- R44, R51: the limit OUT event of a present channel. -/
theorem limitOutEvent_loads {ch : Fin 3} {s : State} (powered : s.powered = true)
    (present : s.settings.irons[ch].present = true) :
    ∃ t, exec (.limitOutEvent ch) s = .next t ∧ ChangesOnly [.irons, .holds, .stations] s t ∧
      OnlyAt ch s.irons t.irons ∧ t.irons[ch].position = s.settings.irons[ch].travel ∧ t.irons[ch].referenced = true ∧
      (s.irons[ch].motion = .raising → t.irons[ch].motion = .atOut ∧ t.irons[ch].restTravel = 0 ∧
        t.holdOutput ch = true ∧ t.raiseOutput ch = false) ∧
      (s.irons[ch].motion ≠ .raising → t.irons[ch].motion = s.irons[ch].motion) ∧
      (DriftsFrom s.settings.irons[ch].travel s.settings.irons[ch].driftTol s.irons[ch] →
        Recorded .drift s.irons[ch] t.irons[ch]) ∧
      (¬DriftsFrom s.settings.irons[ch].travel s.settings.irons[ch].driftTol s.irons[ch] →
        t.irons[ch].fault = s.irons[ch].fault ∧ t.irons[ch].further = s.irons[ch].further) := by
  have irons := s.limitOutMade_irons ch present
  have frame := s.limitOutMade_changes ch
  refine ⟨_, s.takes_powered (State.limitOutMade ch) powered, frame, ?_⟩
  generalize s.limitOutMade ch = t at *
  have here : t.irons[ch] = s.irons[ch].raisedTo s.settings.irons[ch] := by rw [irons, put_same]
  have power : t.powered = s.powered := frame.same .power (by decide)
  have settings : t.settings = s.settings := frame.same .settings (by decide)
  obtain ⟨position, referenced, fault, further⟩ := Iron.raisedTo_reloaded s.settings.irons[ch] s.irons[ch]
  refine ⟨irons ▸ put_onlyAt _ _ _, here ▸ position, here ▸ referenced, fun raising => ?_, fun still => ?_,
    fun drifts => ?_, fun calm => ?_⟩
  · obtain ⟨motion, rest⟩ := Iron.raisedTo_raising (cfg := s.settings.irons[ch]) raising
    rw [← here] at motion rest
    exact ⟨motion, rest, State.holdOutput_on (power.trans powered) (by rw [settings, present]) (.inr (.inl motion)),
      State.raiseOutput_off (by rw [motion]; decide)⟩
  · rw [here]; exact Iron.raisedTo_motion still
  · rw [here, Recorded, fault, further]; exact Iron.reloaded_recorded drifts
  · rw [here, fault, further, Iron.reloaded_true_to calm]; exact ⟨rfl, rfl⟩

/-- Settles O41. -/
theorem positionReloaded : Obligations.PositionReloaded := by
  unfold Obligations.PositionReloaded
  intro ch s x cfg powered hcfg present hx
  subst hcfg hx
  refine ⟨indexEvent_loads powered present, limitOutEvent_loads powered present, fun up => ?_⟩
  have irons := s.limitInMade_irons ch present
  have frame := State.limitInMade_still_changes up
  refine ⟨_, s.takes_powered (State.limitInMade ch) powered, frame, ?_⟩
  generalize s.limitInMade ch = t at *
  have here : t.irons[ch] = s.irons[ch].landedBy s.settings.irons[ch] s.perfs[ch].proofDrop := by rw [irons, put_same]
  refine ⟨irons ▸ put_onlyAt _ _ _, ?_⟩
  by_cases fell : s.irons[ch].motion = .atOut ∨ s.irons[ch].motion = .stopped
  · have lands : t.irons[ch] = s.irons[ch].fallen s.settings.irons[ch].driftTol := by
      rw [here, Iron.landedBy]
      rcases fell with h | h <;> rw [h]
    obtain ⟨result, td, tf⟩ := Iron.fallen_judgement (x := s.irons[ch]) (tol := s.settings.irons[ch].driftTol)
    obtain ⟨position, referenced⟩ := Iron.fallen_position (x := s.irons[ch]) (tol := s.settings.irons[ch].driftTol)
    have off : t.holdOutput ch = false := State.holdOutput_off (.inl (by rw [lands]; rfl))
    rw [lands]
    refine ⟨position, referenced, result, td, tf, fun _ => ⟨rfl, Iron.fallen_recorded, rfl, off⟩, fun other => ?_⟩
    rcases fell with h | h <;> rw [h] at other <;> rcases other with k | k <;> cases k
  · have rests : s.irons[ch].motion = .atIn ∨ s.irons[ch].motion = .raising := by
      revert fell up
      cases s.irons[ch].motion <;> decide
    have lands : t.irons[ch] = s.irons[ch].reloaded s.settings.irons[ch].driftTol 0 true := by
      rw [here, Iron.landedBy]
      rcases rests with h | h <;> rw [h]
    obtain ⟨result, td, tf⟩ :=
      Iron.reloaded_judgement (x := s.irons[ch]) (tol := s.settings.irons[ch].driftTol) (at_ := 0) (stops := true)
    rw [lands]
    refine ⟨rfl, rfl, result, td, tf, fun other => absurd other fell, fun _ => ⟨Iron.reloaded_true_to, fun drifts =>
      ⟨Iron.reloaded_recorded drifts, ?_⟩⟩⟩
    rw [Iron.reloaded_drift drifts]
    rcases rests with h | h
    · rw [if_neg (by rw [h]; exact fun k => Motion.noConfusion k.2), if_neg (by rw [h]; decide)]
      exact h
    · rw [if_pos ⟨rfl, h⟩, if_pos h]
      rfl

end Sys2Proof.Machine
end

section
/-!
PROOFS. The end of a descent and its judgement (R19, R58, R59), the samples that supervise it (R53..R57, R62), and the
raise timer (R45).
-/

namespace Sys2Proof.Machine

-- The proofs of this file are elaborated one after another.
set_option Elab.async false

/-! ## The judgement of a descent (R58, R59) -/

/-- The result of a FULL descent in its time, from its first fault (R59). -/
def faultResult : Option IronFault → DescentResult
  | some .stall => .stall
  | some .overspeed => .overspeed
  | some .tooSlow => .tooSlow
  | some _ => .drift
  | none => .pass

theorem faultResult_pass {f : Option IronFault} : faultResult f = .pass ↔ f = none := by
  cases f with
  | none => exact ⟨fun _ => rfl, fun _ => rfl⟩
  | some f => cases f <;> exact ⟨nofun, nofun⟩

section

variable {x : Iron} {cfg : IronSettings}

/-- What a descent that has arrived is judged on: too early at IN or after its crossing (R59). -/
def Iron.early (cfg : IronSettings) (x : Iron) : Prop :=
  x.kind = some .full ∧ (x.td < cfg.descentMin ∨ x.tf < cfg.finalMin)

theorem Iron.judge_part (h : x.kind ≠ some .full) : x.judge cfg = (.partialEnd, false) :=
  if_pos (bne_iff_ne.2 h)

theorem Iron.judge_early (h : x.early cfg) : x.judge cfg = (.tooFast, true) := by
  obtain ⟨full, soon⟩ := h
  unfold Iron.judge
  rw [if_neg (by rw [full]; decide)]
  by_cases first : x.td < cfg.descentMin
  · rw [if_pos first]
  · rw [if_neg first, if_pos (soon.resolve_left first)]

/-- A descent in its time is judged on its first fault. -/
theorem Iron.judge_timely (full : x.kind = some .full) (timely : ¬x.early cfg) :
    x.judge cfg = (faultResult x.firstFault, false) := by
  unfold Iron.judge
  rw [if_neg (by rw [full]; decide), if_neg fun k => timely ⟨full, .inl k⟩, if_neg fun k => timely ⟨full, .inr k⟩]
  cases x.firstFault with
  | none => rfl
  | some f => cases f <;> rfl

/-- Early is exactly what records CHECK_FAILURE. -/
theorem Iron.judge_early_iff : (x.judge cfg).2 = true ↔ x.early cfg := by
  by_cases soon : x.early cfg
  · rw [Iron.judge_early soon]; exact ⟨fun _ => soon, fun _ => rfl⟩
  · by_cases full : x.kind = some .full
    · rw [Iron.judge_timely full soon]; exact ⟨nofun, fun k => absurd k soon⟩
    · rw [Iron.judge_part full]; exact ⟨nofun, fun k => absurd k soon⟩

/-- A descent passes where it is FULL, not early and without a fault (R19, R59). -/
theorem Iron.judge_pass_iff : (x.judge cfg).1 = .pass ↔ x.kind = some .full ∧ ¬x.early cfg ∧ x.firstFault = none := by
  by_cases soon : x.early cfg
  · rw [Iron.judge_early soon]; exact ⟨nofun, fun k => absurd soon k.2.1⟩
  · by_cases full : x.kind = some .full
    · rw [Iron.judge_timely full soon]
      exact faultResult_pass.trans ⟨fun none => ⟨full, soon, none⟩, fun k => k.2.2⟩
    · rw [Iron.judge_part full]; exact ⟨nofun, fun k => absurd k.1 full⟩

/-- What the landing of a descent leaves (R58). -/
theorem Iron.arrived_landed (proof : Bool) : (x.arrived cfg proof).motion = .atIn ∧
    (x.arrived cfg proof).position = x.position ∧ (x.arrived cfg proof).referenced = x.referenced ∧
    (x.arrived cfg proof).sub = none ∧ (x.arrived cfg proof).td = x.landed.td ∧ (x.arrived cfg proof).tf = x.landed.tf ∧
    (x.arrived cfg proof).kind = x.kind ∧ (x.arrived cfg proof).reason = x.reason := by
  unfold Iron.arrived
  dsimp only
  generalize x.landed.judge cfg = v
  obtain ⟨r, failed⟩ := v
  cases failed with
  | false => exact ⟨rfl, rfl, rfl, rfl, rfl, rfl, rfl, rfl⟩
  | true => exact ⟨rfl, rfl, rfl, rfl, rfl, rfl, rfl, rfl⟩

theorem Iron.arrived_result (proof : Bool) : (x.arrived cfg proof).result =
    some (if (x.landed.judge cfg).1 = .pass ∧ proof = true then .proofPass else (x.landed.judge cfg).1) := rfl

/-- An early landing is a fault of its own (R59). -/
theorem Iron.arrived_early (proof : Bool) (soon : x.landed.early cfg) : Recorded .checkFailure x (x.arrived cfg proof) := by
  unfold Iron.arrived
  dsimp only
  rw [if_pos (Iron.judge_early_iff.2 soon)]
  exact ⟨rfl, rfl⟩

theorem Iron.arrived_timely (proof : Bool) (timely : ¬x.landed.early cfg) :
    (x.arrived cfg proof).fault = x.fault ∧ (x.arrived cfg proof).further = x.further := by
  unfold Iron.arrived
  dsimp only
  rw [if_neg (mt Iron.judge_early_iff.1 timely)]
  exact ⟨rfl, rfl⟩

end

theorem Perf.proofDrop_eq (p : Perf) : p.proofDrop =
    (p.phase == .prepare || ((p.phase == .halted || p.phase == .beginners) && unproved p.ironProved)) := by
  unfold Perf.proofDrop
  cases p.phase <;> simp

/-- The performance unit takes the judgement of a FULL descent that is a proof drop (R19). -/
theorem State.takeJudgement_perfs (s : State) (a : Fin 3) (kind : DescentKind) (passed : Bool) :
    (s.takeJudgement a kind passed).perfs =
      if kind = .full ∧ s.perfs[a].proofDrop = true then
        put s.perfs a { s.perfs[a] with ironProved := if passed then .proved else .failed }
      else s.perfs := by
  have written (p : IronProved) : (s.setProved a p).perfs = put s.perfs a { s.perfs[a] with ironProved := p } := by
    unfold State.setProved
    dsimp only
    split
    next same =>
      have whole : ({ s.perfs[a] with ironProved := p } : Perf) = s.perfs[a] := by rw [← same]
      rw [whole, put_self]
    next =>
      have frame := (s.writePerf a { s.perfs[a] with ironProved := p }).evalHold_changes .iron a
      exact (frame.same .perfs (by decide)).trans (State.writePerf_perfs ..)
  unfold State.takeJudgement
  cases kind with
  | part => simp
  | full =>
    by_cases drop : s.perfs[a].proofDrop = true
    · simp only [drop, if_true, true_and]
      exact written _
    · simp only [drop, and_false, if_false, Bool.false_eq_true]

/-- What limit IN makes of the performance: the judgement of the descent it ends, or nothing (R19, R51). -/
theorem State.limitInMade_perfs {s : State} {ch : Fin 3} (present : s.settings.irons[ch].present = true)
    (falls : s.irons[ch].motion = .descending) :
    (s.limitInMade ch).perfs =
      if s.irons[ch].kind = some .full ∧ s.perfs[ch].proofDrop = true then
        put s.perfs ch { s.perfs[ch] with
          ironProved :=
            if ((s.irons[ch].reloaded s.settings.irons[ch].driftTol 0 true).landed.judge s.settings.irons[ch]).1 = .pass
              then .proved else .failed }
      else s.perfs := by
  have loaded := s.reload_irons ch 0 true
  have frame := s.reload_changes ch 0 true
  have arrives : s.limitInMade ch = (s.reload ch 0 true).arrive ch := by
    unfold State.limitInMade
    rw [if_neg (by rw [present]; decide)]
    dsimp only
    rw [falls]
  rw [arrives]
  have settings : (s.reload ch 0 true).settings = s.settings := frame.same .settings (by decide)
  have perfs : (s.reload ch 0 true).perfs = s.perfs := frame.same .perfs (by decide)
  have here : (s.reload ch 0 true).irons[ch] = s.irons[ch].reloaded s.settings.irons[ch].driftTol 0 true := by
    rw [loaded, put_same]
  have kind : (s.irons[ch].reloaded s.settings.irons[ch].driftTol 0 true).kind = s.irons[ch].kind := by
    unfold Iron.reloaded Iron.faulted
    split
    · simp only [if_true]
      split <;> rfl
    · rfl
  generalize s.reload ch 0 true = w at *
  unfold State.arrive
  extract_lets x v s1 s2 result s3
  have told : ChangesOnly [.irons, .holds, .stations] w s3 := by
    unfold s3
    refine ChangesOnly.andThen (ps := [.irons, .holds, .stations]) ?_ (State.writeIron_changes ..)
    unfold s2
    split
    · exact (State.writeIron_changes ..).andThen (State.recordFault_changes ..)
    · exact (State.writeIron_changes ..).mono
  have same : s3.perfs = s.perfs := (told.same .perfs (by decide) : s3.perfs = w.perfs).trans perfs
  have isFull : x.kind.getD .part = .full ↔ s.irons[ch].kind = some .full := by
    unfold x
    rw [here, kind]
    cases s.irons[ch].kind with
    | none => exact ⟨nofun, nofun⟩
    | some k => exact ⟨congrArg some, Option.some.inj⟩
  have judged : v = (s.irons[ch].reloaded s.settings.irons[ch].driftTol 0 true).landed.judge s.settings.irons[ch] := by
    unfold v x
    rw [here]
    simp only [settings]
  rw [State.takeJudgement_perfs, same, judged]
  simp only [isFull, beq_iff_eq]
  rfl

/-- Settles O42: the position is loaded first, so that a drift it finds is judged with the descent. -/
theorem limitInEndsDescent : Obligations.LimitInEndsDescent := by
  unfold Obligations.LimitInEndsDescent
  intro ch s x cfg drift early first tf proving powered hcfg present hx falls hdrift firstDrift firstPlain crossed uncrossed
    hearly hproving
  subst hcfg hx
  have irons := s.limitInMade_irons ch present
  have frame := s.limitInMade_changes ch
  have perfs := State.limitInMade_perfs present falls
  have drop : s.perfs[ch].proofDrop = proving := by
    rw [Perf.proofDrop_eq, hproving]
    rfl
  refine ⟨_, s.takes_powered (State.limitInMade ch) powered, frame, ?_⟩
  generalize s.limitInMade ch = t at *
  have here : t.irons[ch] =
      (s.irons[ch].reloaded s.settings.irons[ch].driftTol 0 true).arrived s.settings.irons[ch] proving := by
    rw [irons, put_same, Iron.landedBy, falls, drop]
  rw [drop] at perfs
  -- The channel once its position is loaded.
  have loaded : ∃ y : Iron, s.irons[ch].reloaded s.settings.irons[ch].driftTol 0 true = y ∧ y.position = 0 ∧
      y.referenced = true ∧ y.kind = s.irons[ch].kind ∧ y.reason = s.irons[ch].reason ∧
      y.descentTimer = s.irons[ch].descentTimer ∧ y.crossing = s.irons[ch].crossing ∧ y.firstFault = first ∧
      (drift = true → Recorded .drift s.irons[ch] y) ∧
      (drift = false → y.fault = s.irons[ch].fault ∧ y.further = s.irons[ch].further) := by
    by_cases drifts : DriftsFrom 0 s.settings.irons[ch].driftTol s.irons[ch]
    · have on := hdrift.2 drifts
      refine ⟨_, Iron.reloaded_drift drifts, ?_⟩
      rw [if_neg fun k => by rw [falls] at k; exact Motion.noConfusion k.2]
      refine ⟨rfl, rfl, rfl, rfl, rfl, rfl, ?_, fun _ => ⟨rfl, rfl⟩, fun off => absurd (on.symm.trans off) (by decide)⟩
      rw [firstDrift on]
      exact if_pos falls
    · have off : drift = false := Bool.eq_false_iff.2 fun on => drifts (hdrift.1 on)
      exact ⟨_, Iron.reloaded_true_to drifts, rfl, rfl, rfl, rfl, rfl, rfl, (firstPlain off).symm,
        fun on => absurd (off.symm.trans on) (by decide), fun _ => ⟨rfl, rfl⟩⟩
  obtain ⟨y, is, position, referenced, kind, reason, timer, crossing, faulted, recorded, plain⟩ := loaded
  rw [is] at here perfs
  have td : y.landed.td = s.irons[ch].descentTimer := timer
  have tf' : y.landed.tf = tf := by
    change (match y.crossing with | some t => y.descentTimer - t | none => 0) = tf
    rw [crossing, timer]
    cases at_ : s.irons[ch].crossing with
    | none => exact (uncrossed at_).symm
    | some c => exact (crossed c at_).symm
  have soon : y.landed.early s.settings.irons[ch] ↔ early = true := by
    rw [hearly, Iron.early, td, tf', ← kind]
    rfl
  obtain ⟨motion, position', referenced', sub, landedTd, landedTf, kind', reason'⟩ :=
    Iron.arrived_landed (x := y) (cfg := s.settings.irons[ch]) proving
  rw [← here] at motion position' referenced' sub landedTd landedTf kind' reason'
  have result := Iron.arrived_result (x := y) (cfg := s.settings.irons[ch]) proving
  rw [← here] at result
  have pass := Iron.judge_pass_iff (x := y.landed) (cfg := s.settings.irons[ch])
  rw [soon, show y.landed.firstFault = y.firstFault from rfl, faulted, show y.landed.kind = y.kind from rfl, kind] at pass
  have timely (full : s.irons[ch].kind = some .full) (late : early = false) :=
    Iron.judge_timely (x := y.landed) (cfg := s.settings.irons[ch]) (kind.trans full)
      (fun k => by rw [soon.1 k] at late; cases late)
  rw [show y.landed.firstFault = y.firstFault from rfl, faulted] at timely
  have other {v : DescentResult} (judged : (y.landed.judge s.settings.irons[ch]).1 = v) (failed : v ≠ .pass) :
      t.irons[ch].result = some v := by
    rw [result, judged, if_neg fun k => failed k.1]
  refine ⟨irons ▸ put_onlyAt _ _ _, ?_, motion, position'.trans position, referenced'.trans referenced, sub,
    landedTd.trans td, landedTf.trans tf', kind'.trans kind, reason'.trans reason, State.holdOutput_off (.inl motion),
    State.raiseOutput_off (by rw [motion]; decide), State.checkOutput_off (by rw [motion]; decide), fun part => ⟨?_, ?_⟩,
    fun on => ?_, fun full late => ⟨fun h => ?_, fun h => ?_, fun h => ?_, fun h => ?_, fun h => ?_⟩,
    fun calm late => ?_, fun drifts late => ?_, fun on calm => ?_, fun on drifts => ?_, fun full proves => ?_, fun idle => ?_⟩
  · rw [perfs]
    split
    · exact put_onlyAt _ _ _
    · exact fun _ _ => rfl
  · refine other ?_ DescentResult.noConfusion
    rw [Iron.judge_part (x := y.landed) (fun k => part (kind.symm.trans k))]
  · rw [perfs, if_neg fun k => part k.1]
  · refine other ?_ DescentResult.noConfusion
    rw [Iron.judge_early (soon.2 on)]
  · exact other (by rw [timely full late, h]; rfl) DescentResult.noConfusion
  · exact other (by rw [timely full late, h]; rfl) DescentResult.noConfusion
  · exact other (by rw [timely full late, h]; rfl) DescentResult.noConfusion
  · exact other (by rw [timely full late, h]; rfl) DescentResult.noConfusion
  · rw [result, timely full late, h]
    cases proving <;> rfl
  · obtain ⟨fault, further⟩ := Iron.arrived_timely (x := y) (cfg := s.settings.irons[ch]) proving
      (fun k => by rw [soon.1 k] at late; cases late)
    rw [here, fault, further]
    exact plain calm
  · obtain ⟨fault, further⟩ := Iron.arrived_timely (x := y) (cfg := s.settings.irons[ch]) proving
      (fun k => by rw [soon.1 k] at late; cases late)
    rw [here, Recorded, fault, further]
    exact recorded drifts
  · obtain ⟨fault, further⟩ := Iron.arrived_early (x := y) (cfg := s.settings.irons[ch]) proving (soon.2 on)
    obtain ⟨same, same'⟩ := plain calm
    rw [here, Recorded, fault, further, same, same']
    exact ⟨rfl, rfl⟩
  · obtain ⟨fault, further⟩ := Iron.arrived_early (x := y) (cfg := s.settings.irons[ch]) proving (soon.2 on)
    obtain ⟨drift', further'⟩ := recorded drifts
    rw [here, fault, further, drift', further']
    exact ⟨rfl, Bool.or_true _⟩
  · rw [perfs, if_pos ⟨full, proves⟩, put_same]
    refine congrArg (fun p => ({ s.perfs[ch] with ironProved := p } : Perf)) ?_
    refine if_congr ?_ rfl rfl
    rw [pass]
    simp only [full, true_and, Bool.not_eq_true]
    exact and_comm
  · rw [perfs, if_neg fun k => by rw [idle] at k; exact Bool.noConfusion k.2]

/-! ## One sample (R53..R57, R62) -/

/-- The faults that the checks of one sample find, recorded one after another (R36). -/
def Iron.noteFaults (fs : List IronFault) (x : Iron) : Iron := fs.foldl (fun y f => y.noteFault f) x

/-- The first fault stays, and a second sets further faults (R36). -/
theorem Iron.noteFaults_fault (fs : List IronFault) (x : Iron) :
    (x.noteFaults fs).fault = (x.fault.toList ++ fs).head? ∧
      (x.noteFaults fs).further = (x.further || decide (fs ≠ [] ∧ 2 ≤ (x.fault.toList ++ fs).length)) := by
  induction fs generalizing x with
  | nil => cases fault : x.fault <;> simp [Iron.noteFaults, fault]
  | cons f fs ih =>
    obtain ⟨first, further⟩ := ih (x.noteFault f)
    have step : x.noteFaults (f :: fs) = (x.noteFault f).noteFaults fs := rfl
    rw [step, first, further]
    cases fault : x.fault with
    | none =>
      refine ⟨by simp [Iron.noteFault, fault], ?_⟩
      cases fs <;> simp [Iron.noteFault, fault]
    | some g =>
      refine ⟨by simp [Iron.noteFault, fault], ?_⟩
      simp [Iron.noteFault, fault]

/-- A descent keeps its own first fault (R36). -/
theorem Iron.noteFaults_firstFault (fs : List IronFault) {x : Iron} (falls : x.motion = .descending) :
    (x.noteFaults fs).firstFault = (x.firstFault.toList ++ fs).head? := by
  induction fs generalizing x with
  | nil => cases first : x.firstFault <;> simp [Iron.noteFaults, first]
  | cons f fs ih =>
    have step : x.noteFaults (f :: fs) = (x.noteFault f).noteFaults fs := rfl
    rw [step, ih (x := x.noteFault f) falls]
    cases first : x.firstFault <;> simp [Iron.noteFault, falls, first]

/-- Recording faults changes nothing else of a channel. -/
theorem Iron.noteFaults_eq (fs : List IronFault) (x : Iron) : x.noteFaults fs =
    { x with fault := (x.noteFaults fs).fault, further := (x.noteFaults fs).further,
             firstFault := (x.noteFaults fs).firstFault } := by
  induction fs generalizing x with
  | nil => rfl
  | cons f fs ih =>
    have step : x.noteFaults (f :: fs) = (x.noteFault f).noteFaults fs := rfl
    rw [step, ih (x.noteFault f)]
    rfl

section

variable (cfg : IronSettings) (x : Iron)

/-- The sample finds OVERSPEED, which it does not at the crossing (R55). -/
def Iron.findsOverspeed : Bool := !x.advance.crosses cfg && x.advance.overspeeds cfg

/-- The faults of one sample, in their order (R55, R56, R57). -/
def Iron.found : List IronFault :=
  (if x.findsOverspeed cfg then [.overspeed] else []) ++ (if x.advance.stalls cfg then [.stall] else []) ++
    (if x.advance.tooLate cfg then [.tooSlow] else [])

/-- A channel whose timers a sample has advanced, with the crossing and the findings noted (R53..R57). -/
def Iron.watched : Iron :=
  { (if x.advance.crosses cfg then x.advance.cross else x.advance) with
    sawOverspeed := x.sawOverspeed || x.findsOverspeed cfg
    sawStall := x.sawStall || x.advance.stalls cfg
    sawTooSlow := x.sawTooSlow || x.advance.tooLate cfg }

/-- A sample of a descent records what its checks find, one after another. -/
theorem Iron.supervised_eq : x.supervised cfg = (x.watched cfg).noteFaults (x.found cfg) := by
  have overspeeds : (!x.advance.crosses cfg && x.advance.overspeeds cfg) = x.findsOverspeed cfg := rfl
  unfold Iron.supervised Iron.found Iron.watched
  dsimp only
  rw [overspeeds]
  generalize x.findsOverspeed cfg = o, x.advance.crosses cfg = c, x.advance.stalls cfg = m, x.advance.tooLate cfg = l
  cases c <;> cases o <;> cases m <;> cases l <;> simp only [Bool.or_true, Bool.or_false] <;> rfl

/-- What a sample does with or without a crossing (R53). -/
structure Iron.Watched (x y : Iron) : Prop where
  position : y.position = x.position
  motion : y.motion = x.motion
  timer : y.descentTimer = min 65535 (x.descentTimer + 1)
  still : y.still = if x.sampleMove = 0 then x.still + 1 else 0
  fault : y.fault = x.fault
  further : y.further = x.further
  firstFault : y.firstFault = x.firstFault

theorem Iron.watched_kept : Iron.Watched x (x.watched cfg) := by
  unfold Iron.watched
  constructor <;> split <;> rfl

/-- The crossing sample turns FREE into CHECKED, and finds no OVERSPEED (R54, R55). -/
theorem Iron.watched_crossing (crosses : x.advance.crosses cfg = true) : (x.watched cfg).sub = some .checked ∧
    (x.watched cfg).finalTimer = some 0 ∧ (x.watched cfg).crossing = some (min 65535 (x.descentTimer + 1)) ∧
      (x.watched cfg).sawOverspeed = x.sawOverspeed := by
  unfold Iron.watched Iron.findsOverspeed
  rw [if_pos crosses, crosses]
  exact ⟨rfl, rfl, rfl, Bool.or_false _⟩

/-- Any other sample keeps the subphase, and advances the final timer where it runs (R53). -/
theorem Iron.watched_passing (passes : ¬x.advance.crosses cfg = true) : (x.watched cfg).sub = x.sub ∧
    (x.watched cfg).finalTimer = x.finalTimer.map (fun f => min 65535 (f + 1)) ∧
      (x.watched cfg).crossing = x.crossing := by
  unfold Iron.watched
  rw [if_neg passes]
  exact ⟨rfl, rfl, rfl⟩

/-- The first sample of a descent that waits for no crossing, or one at or below the slowdown, is the crossing (R54,
R62). -/
theorem Iron.crosses_iff : x.advance.crosses cfg = true ↔ x.sub = some .free ∧ (x.position ≤ cfg.slowdown ∨
    ((x.referenced = false ∨ x.reason = some .restart) ∧ min 65535 (x.descentTimer + 1) ≤ 1)) := by
  unfold Iron.crosses Iron.crossesFirst Iron.advance
  simp only [Bool.and_eq_true, Bool.or_eq_true, beq_iff_eq, decide_eq_true_iff, Bool.not_eq_true']

theorem Iron.findsOverspeed_iff : x.findsOverspeed cfg = true ↔ ¬x.advance.crosses cfg = true ∧ x.sub = some .checked ∧
    cfg.vFinalMax < x.sampleMove ∧ x.sawOverspeed = false := by
  unfold Iron.findsOverspeed Iron.overspeeds
  simp only [Bool.and_eq_true, beq_iff_eq, decide_eq_true_iff, Bool.not_eq_true', Bool.not_eq_true, and_assoc]
  rfl

theorem Iron.stalls_iff : x.advance.stalls cfg = true ↔
    cfg.stallTime ≤ (if x.sampleMove = 0 then x.still + 1 else 0) ∧ x.sawStall = false := by
  unfold Iron.stalls
  simp only [Bool.and_eq_true, decide_eq_true_iff, Bool.not_eq_true']
  rfl

theorem Iron.tooLate_iff : x.advance.tooLate cfg = true ↔ x.kind = some .full ∧
    cfg.descentMax ≤ min 65535 (x.descentTimer + 1) ∧ x.sawTooSlow = false := by
  unfold Iron.tooLate
  simp only [Bool.and_eq_true, beq_iff_eq, decide_eq_true_iff, Bool.not_eq_true', and_assoc]
  rfl

end

/-- A check whose finding is noted once: noted after the sample where it was before or is found. -/
theorem noted_iff {saw finds : Bool} {p : Prop} (h : finds = true ↔ p ∧ saw = false) :
    (saw || finds) = true ↔ saw = true ∨ p := by
  cases saw with
  | true => simp
  | false => simp [h]

/-- A check that finds something is one that had not, and has it noted after. -/
theorem newly_noted {saw finds : Bool} (once : finds = true → saw = false) :
    ((saw || finds) = true ∧ saw = false) ↔ finds = true := by
  cases saw with
  | true => simp; simpa using once
  | false => simp

/-- The clock of a sample (R53; log entry 2). -/
theorem State.sample_now {s : State} {ch : Fin 3} (present : s.settings.irons[ch].present = true) :
    (s.sample ch).now = max s.now (s.irons[ch].sampleAt + 100) := by
  unfold State.sample
  rw [if_neg (by rw [present]; decide)]
  extract_lets x t s1 s2 y
  have frame : ChangesOnly [.irons, .holds, .stations] s1 s2 := by
    unfold s2
    split
    · exact State.superviseDescent_changes ..
    · exact .refl _ _
  have whole := (frame.andThen (rs := [.irons, .holds, .stations])
    (s2.writeIron_changes ch { y with sampleMove := 0, samplePos := y.position, sampleAt := t })).andThen
      (State.markIf_changes _ (x.samplePos != x.position) .iron) (rs := [.irons, .holds, .stations])
  have clock : (State.markIf (x.samplePos != x.position) .iron
      (s2.writeIron ch { y with sampleMove := 0, samplePos := y.position, sampleAt := t })).now = s1.now :=
    whole.same .clock (by decide)
  rw [clock]
  rfl

/-- A sample of a channel that is in no descent, at an unchanged position, marks nothing (R53; log entry 35). -/
theorem State.sample_quiet {s : State} {ch : Fin 3} (present : s.settings.irons[ch].present = true)
    (rests : s.irons[ch].motion ≠ .descending) (same : s.irons[ch].samplePos = s.irons[ch].position) :
    ChangesOnly [.clock, .irons] s (s.sample ch) := by
  unfold State.sample
  rw [if_neg (by rw [present]; decide)]
  dsimp only
  rw [if_neg rests, same, bne_self_eq_false]
  exact (s.now_changes _).andThen (State.writeIron_quiet rfl)

/-- Settles O43. -/
theorem sampleSupervisesDescent : Obligations.SampleSupervisesDescent := by
  unfold Obligations.SampleSupervisesDescent
  refine ⟨fun ch s absent => ?_, fun ch s x cfg n still powered hcfg present hx hn hstill => ?_⟩
  · exact State.takes_still (if_pos (by rw [absent]; rfl))
  subst hcfg hx
  have irons := s.sample_irons ch present
  have frame := s.sample_changes ch
  have now := State.sample_now present
  have quiet := State.sample_quiet present
  have stalled (falls : s.irons[ch].motion = .descending) (stalls : s.irons[ch].advance.stalls s.settings.irons[ch] = true) :
      exec (.stall ch) s = .next (s.sample ch) :=
    (s.takes_powered (State.stallSample ch) powered).trans (congrArg _ (if_pos ⟨falls, stalls⟩))
  have slow (falls : s.irons[ch].motion = .descending) (late : s.irons[ch].advance.tooLate s.settings.irons[ch] = true) :
      exec (.tooSlow ch) s = .next (s.sample ch) :=
    (s.takes_powered (State.slowSample ch) powered).trans (congrArg _ (if_pos ⟨falls, late⟩))
  refine ⟨_, s.takes_powered (State.sample ch) powered, frame, ?_⟩
  generalize s.sample ch = t at *
  have here : t.irons[ch] = s.irons[ch].sampled s.settings.irons[ch] t.now := by rw [irons, put_same, now]; rfl
  have power : t.powered = true := (frame.same .power (by decide) : t.powered = s.powered).trans powered
  have settings : t.settings = s.settings := frame.same .settings (by decide)
  refine ⟨irons ▸ put_onlyAt _ _ _, now, ?_⟩
  by_cases falls : s.irons[ch].motion = .descending
  · have check : t.irons[ch].motion = .descending → t.checkOutput ch = (t.irons[ch].sub == some .checked) :=
      State.checkOutput_iff power (by rw [settings, present])
    have crosses := Iron.crosses_iff s.settings.irons[ch] s.irons[ch]
    have overspeeds := Iron.findsOverspeed_iff s.settings.irons[ch] s.irons[ch]
    have stalls := Iron.stalls_iff s.settings.irons[ch] s.irons[ch]
    have late := Iron.tooLate_iff s.settings.irons[ch] s.irons[ch]
    rw [← hn] at crosses late
    rw [← hstill] at stalls
    have kept := Iron.watched_kept s.settings.irons[ch] s.irons[ch]
    obtain ⟨fault, further⟩ :=
      Iron.noteFaults_fault (s.irons[ch].found s.settings.irons[ch]) (s.irons[ch].watched s.settings.irons[ch])
    have firstFault := Iron.noteFaults_firstFault (s.irons[ch].found s.settings.irons[ch]) (kept.motion.trans falls)
    rw [kept.fault] at fault
    rw [kept.fault, kept.further] at further
    rw [kept.firstFault] at firstFault
    have whole : t.irons[ch] = { s.irons[ch].watched s.settings.irons[ch] with
        fault := (s.irons[ch].fault.toList ++ s.irons[ch].found s.settings.irons[ch]).head?
        further := s.irons[ch].further || decide (s.irons[ch].found s.settings.irons[ch] ≠ [] ∧
          2 ≤ (s.irons[ch].fault.toList ++ s.irons[ch].found s.settings.irons[ch]).length)
        firstFault := (s.irons[ch].firstFault.toList ++ s.irons[ch].found s.settings.irons[ch]).head?
        position := s.irons[ch].position
        sampleMove := 0, samplePos := s.irons[ch].position, sampleAt := t.now } := by
      rw [here, Iron.sampled, if_pos falls, Iron.supervised_eq, Iron.noteFaults_eq, fault, further, firstFault,
        kept.position]
    have moves : t.irons[ch].motion = s.irons[ch].motion := by rw [whole]; exact kept.motion
    have output := check (moves.trans falls)
    have sub : t.irons[ch].sub = (s.irons[ch].watched s.settings.irons[ch]).sub := by rw [whole]
    rw [output, sub, whole]
    refine ⟨rfl, rfl, rfl, rfl, kept.motion, fun k => absurd falls k, fun _ => ⟨kept.timer.trans hn.symm,
      kept.still.trans hstill.symm, fun crossing => ?_, fun passing => ?_, fun free referenced cause above first => ?_,
      noted_iff stalls, ?_, fun found finding => ?_, fun fresh stalling => stalled falls (stalls.2 ⟨stalling, fresh⟩),
      fun fresh full over_ => slow falls (late.2 ⟨full, over_, fresh⟩)⟩⟩
    · obtain ⟨sub, final, point, seen⟩ := Iron.watched_crossing _ _ (crosses.2 crossing)
      exact ⟨sub, final, point.trans (congrArg some hn.symm), by rw [sub]; rfl, seen⟩
    · have passes := fun c => passing (crosses.1 c)
      obtain ⟨sub, final, point⟩ := Iron.watched_passing _ _ passes
      refine ⟨sub, point, final, (noted_iff (p := _ ∧ _) (overspeeds.trans ?_))⟩
      exact (and_iff_right passes).trans and_assoc.symm
    · have passes : ¬s.irons[ch].advance.crosses s.settings.irons[ch] = true := fun c => by
        rcases (crosses.1 c).2 with low | ⟨blind | cold, _⟩
        · omega
        · exact Bool.noConfusion (blind.symm.trans referenced)
        · exact cause cold
      obtain ⟨sub, final, _⟩ := Iron.watched_passing _ _ passes
      exact ⟨sub.trans free, final, by rw [sub, free]; rfl⟩
    · exact noted_iff (p := _ ∧ _) (late.trans and_assoc.symm)
    · have same : found = s.irons[ch].found s.settings.irons[ch] := by
        rw [finding]
        exact congrArg₂ (· ++ ·) (congrArg₂ (· ++ ·)
          (if_congr (newly_noted fun o => (overspeeds.1 o).2.2.2) rfl rfl)
          (if_congr (newly_noted fun o => (stalls.1 o).2) rfl rfl))
          (if_congr (newly_noted fun o => (late.1 o).2.2) rfl rfl)
      rw [same]
      exact ⟨rfl, rfl, rfl⟩
  · have plain : t.irons[ch] = { s.irons[ch] with sampleMove := 0, samplePos := s.irons[ch].position, sampleAt := t.now } := by
      rw [here, Iron.sampled, if_neg falls]
    rw [plain]
    exact ⟨rfl, rfl, rfl, rfl, rfl, fun _ => ⟨rfl, quiet falls⟩, fun k => absurd k falls⟩

end Sys2Proof.Machine
end

section
/-!
PROOFS. An AMEND of a fixed record (R184, R185, R194, R201): the form of its fields as chapter 11 lists them, the
settings it asks for, and the reply.
-/

namespace Sys2Proof.Machine
-- One proof after another: the whole text stays within the memory of one compile.
set_option Elab.async false

/-! ## The form of a field by the list of its kind (R185, R201) -/

theorem isSome_setOf {n v : Nat} : (setOf n v).isSome = true ↔ v < 2 ^ n := by
  unfold setOf
  split
  next small => simp [small]
  next large => simp [large]

theorem isSome_entryNo {n v : Nat} : (entryNo n v).isSome = true ↔ 1 ≤ v ∧ v ≤ n := by
  unfold entryNo
  split
  next inside => simp [inside]
  next outside => simp [outside]

/-- A field passes exactly where its value is within the ends of its list. -/
theorem orBad_eq {pass : Bool} {low high : Nat} {f : FieldVal} {clash : Bool}
    (h : pass = true ↔ low ≤ valOf f ∧ valOf f ≤ high ∧ clash = false) :
    orBad pass = if low ≤ valOf f ∧ valOf f ≤ high ∧ clash = false then none else some .badField := by
  unfold orBad
  exact if_congr h rfl rfl

/-- The ids that stand before a field are those of the model's own check. -/
theorem before_contains (fs : List FieldVal) (f : FieldVal) (id : Nat) :
    ((fs.takeWhile fun g => g.id != f.id).map fun g => g.id.toNat).contains id = carriedBefore fs (idOf f) id := by
  have same : (fun g : FieldVal => g.id != f.id) = fun g => idOf g != idOf f := by
    funext g
    rw [Bool.eq_iff_iff, bne_iff_ne, bne_iff_ne, idOf, idOf, not_iff_not, BitVec.toNat_inj]
  rw [same, carriedBefore, Bool.eq_iff_iff, carries_iff, List.contains_iff_mem, List.mem_map]
  rfl

theorem id_beq {f : FieldVal} {n : Nat} (small : n < 256) : (f.id == BitVec.ofNat 8 n) = (idOf f == n) := by
  rw [Bool.eq_iff_iff, beq_iff_eq, beq_iff_eq, idOf, ← BitVec.toNat_inj, BitVec.toNat_ofNat, Nat.mod_eq_of_lt small]

section

variable (index : Byte) (fs : List FieldVal) (f : FieldVal)

/-- A ZONE field's form is what the list of its kind says of it. -/
theorem formOf_zone : formOf .zone index fs f = zoneForm f := by
  have free : clashes .zone fs f = false := rfl
  rw [formOf_eq, free]
  unfold zoneForm amendable
  dsimp only
  split
  case h_11 => simp_all [listedForm]
  all_goals
    rename_i named
    simp only [named, listedForm, reduceIte, Nat.reduceEqDiff, and_true, Nat.zero_le, true_and]
  case h_7 => simp [valOf_le f]
  case h_4 | h_5 | h_6 =>
    refine (if_congr ?_ rfl rfl).symm
    rw [isSome_setOf]
    omega
  all_goals
    refine (if_congr ?_ rfl rfl).symm
    simp only [isYesNo, beq_iff_eq, decide_eq_true_iff]
  case h_10 => omega

/-- A CZONE field's form is what the list of its kind says of it. -/
theorem formOf_czone : formOf .czone index fs f = czoneForm f := by
  have free : clashes .czone fs f = false := rfl
  rw [formOf_eq, free]
  unfold czoneForm amendable
  dsimp only
  split
  case h_5 => simp_all [listedForm]
  all_goals
    rename_i named
    simp only [named, listedForm, reduceIte, Nat.reduceEqDiff, and_true, Nat.zero_le, true_and]
  case h_3 | h_4 => simp [valOf_le f]
  all_goals refine (if_congr ?_ rfl rfl).symm
  · simp [isYesNo]
  · rw [isSome_setOf]
    omega

/-- A CIRCUIT field's form is what the list of its kind says of it. -/
theorem formOf_circuit {c : Fin 16} (here : index.toNat = c.1 + 1) : formOf .circuit index fs f = circuitForm c f := by
  have free : clashes .circuit fs f = false := rfl
  rw [formOf_eq, free]
  unfold circuitForm
  split
  case h_4 => simp_all [listedForm, amendable]
  all_goals
    rename_i named
    simp only [amendable, named, listedForm, reduceIte, Nat.reduceEqDiff, and_true, Nat.zero_le, true_and]
    refine (if_congr ?_ rfl rfl).symm
  · rw [Bool.and_eq_true, isSome_setOf, Bool.or_eq_true, decide_eq_true_iff, beq_iff_eq]
    split
    · omega
    · omega
  · simp [isYesNo]
  · rw [beq_iff_eq]
    omega

/-- A STATUS field's form is what the list of its kind says of it. -/
theorem formOf_status : formOf .status index fs f = statusForm f := by
  have free : clashes .status fs f = false := rfl
  rw [formOf_eq, free]
  unfold statusForm amendable
  dsimp only
  split
  case h_6 => simp_all [listedForm]
  all_goals
    rename_i named
    simp [named, listedForm, orBad, isYesNo, valOf_le f]

/-- A STATION field's form is what the list of its kind says of it. -/
theorem formOf_station : formOf .station index fs f = stationForm f := by
  have free : clashes .station fs f = false := rfl
  rw [formOf_eq, free]
  unfold stationForm amendable
  dsimp only
  split
  case h_4 => simp_all [listedForm]
  all_goals
    rename_i named
    simp only [named, listedForm, reduceIte, Nat.reduceEqDiff, and_true, Nat.zero_le, true_and]
    refine (if_congr ?_ rfl rfl).symm
  · simp
  · exact isSome_entryNo
  · rw [isSome_setOf]
    omega

/-- A field that the list of its kind names is judged by its ends. -/
theorem listedForm_of_mem {clash : Bool} {low high : Nat} {l : List (Nat × Nat × Nat)} (once : (l.map (·.1)).Nodup)
    (mem : (idOf f, low, high) ∈ l) :
    listedForm clash f l = if low ≤ valOf f ∧ valOf f ≤ high ∧ clash = false then none else some .badField := by
  induction l with
  | nil => cases mem
  | cons e l ih =>
    obtain ⟨id, low', high'⟩ := e
    rw [List.map_cons, List.nodup_cons] at once
    obtain ⟨fresh, once⟩ := once
    unfold listedForm
    rcases List.mem_cons.1 mem with same | later
    · cases same
      rw [if_pos rfl]
    · have other : idOf f ≠ id := fun same => fresh (List.mem_map.2 ⟨_, later, same⟩)
      rw [if_neg other]
      exact ih once later

/-- A field that the list of its kind does not name cannot be amended. -/
theorem listedForm_of_absent {clash : Bool} {l : List (Nat × Nat × Nat)} (absent : ∀ e ∈ l, idOf f ≠ e.1) :
    listedForm clash f l = some .notAmendable := by
  induction l with
  | nil => rfl
  | cons e l ih =>
    unfold listedForm
    rw [if_neg (absent e List.mem_cons_self)]
    exact ih fun e mem => absent e (List.mem_cons_of_mem _ mem)

theorem clashes_iron : clashes .iron fs f =
    ((idOf f == 37 && carriedBefore fs (idOf f) 128) || (idOf f == 128 && carriedBefore fs (idOf f) 37)) := by
  have out : (f.id == 37) = (idOf f == 37) := id_beq (by decide)
  have clear : (f.id == 128) = (idOf f == 128) := id_beq (by decide)
  simp only [clashes, before_contains, out, clear, beq_self_eq_true, Bool.true_and,
    beq_false_of_ne (show Kind.iron ≠ Kind.incident by decide), beq_false_of_ne (show Kind.iron ≠ Kind.group by decide),
    Bool.false_and, Bool.or_false]

theorem clashes_group : clashes .group fs f = (idOf f == 128 && !carries fs 33) := by
  have fade : (f.id == 128) = (idOf f == 128) := id_beq (by decide)
  have target : (fs.any fun g => g.id == 33) = carries fs 33 := by
    rw [Bool.eq_iff_iff, carries_iff, List.any_eq_true]
    refine exists_congr fun g => and_congr_right fun _ => ?_
    rw [show (g.id == 33) = (idOf g == 33) from id_beq (by decide), beq_iff_eq]
  simp only [clashes, fade, target, beq_self_eq_true, Bool.true_and,
    beq_false_of_ne (show Kind.group ≠ Kind.incident by decide), beq_false_of_ne (show Kind.group ≠ Kind.iron by decide),
    Bool.false_and, Bool.false_or]

/-- An IRON field's form is what the list of its kind says of it, a second action being refused (R37). -/
theorem formOf_iron : formOf .iron index fs f = ironForm fs f := by
  have list : amendable .iron index = amendable .iron 0 := rfl
  have once : ((amendable .iron 0).map (·.1)).Nodup := by decide
  rw [formOf_eq, clashes_iron, list]
  unfold ironForm
  split
  case h_4 =>
    split
    next inside =>
      have plain : ¬idOf f = 37 ∧ ¬idOf f = 128 := by omega
      rw [listedForm_of_mem (low := 0) (high := 65535) f once, beq_false_of_ne plain.1, beq_false_of_ne plain.2]
      · exact if_pos ⟨Nat.zero_le _, valOf_le f, rfl⟩
      · obtain ⟨low, high⟩ := inside
        generalize idOf f = id at *
        interval_cases id <;> decide
    next outside =>
      refine listedForm_of_absent f ?_
      simp only [amendable, List.forall_mem_cons, List.not_mem_nil, false_implies, implies_true, and_true]
      and_intros <;> first | assumption | omega
  all_goals rename_i named
  · rw [listedForm_of_mem (low := 0) (high := 1) f once (by rw [named]; decide), named]
    exact (orBad_eq (by simp [isYesNo])).symm
  · rw [listedForm_of_mem (low := 0) (high := 1) f once (by rw [named]; decide), named]
    exact (orBad_eq (by simp [isYesNo])).symm
  · rw [listedForm_of_mem (low := 1) (high := 1) f once (by rw [named]; decide), named]
    cases carriedBefore fs 128 37 <;> exact (orBad_eq (by simp [Nat.le_antisymm_iff, and_comm])).symm

/-- A GROUP field's form is what the list of its kind says of it, a fade time wanting a target (R107). -/
theorem formOf_group : formOf .group index fs f = groupForm fs f := by
  have list : amendable .group index = amendable .group 0 := rfl
  have once : ((amendable .group 0).map (·.1)).Nodup := by decide
  rw [formOf_eq, clashes_group, list]
  unfold groupForm
  split
  case h_13 =>
    refine listedForm_of_absent f ?_
    simp only [amendable, List.forall_mem_cons, List.not_mem_nil, false_implies, implies_true, and_true]
    and_intros <;> first | assumption | omega
  all_goals rename_i named
  case h_1 | h_5 | h_6 =>
    rw [listedForm_of_mem (low := 0) (high := 1) f once (by rw [named]; decide), named]
    exact (orBad_eq (by simp [isYesNo])).symm
  case h_2 =>
    rw [listedForm_of_mem (low := 0) (high := 2) f once (by rw [named]; decide), named]
    exact (orBad_eq (by simp)).symm
  case h_3 =>
    rw [listedForm_of_mem (low := 1) (high := 3) f once (by rw [named]; decide), named]
    exact (orBad_eq (by simp [isSome_entryNo])).symm
  case h_4 =>
    rw [listedForm_of_mem (low := 1) (high := 8) f once (by rw [named]; decide), named]
    exact (orBad_eq (by simp [isSome_entryNo])).symm
  all_goals
    rw [listedForm_of_mem (low := 0) (high := 65535) f once (by rw [named]; decide), named]
  case h_12 => exact (orBad_eq (by simp [valOf_le f])).symm
  all_goals exact if_pos ⟨Nat.zero_le _, valOf_le f, rfl⟩

end

end Sys2Proof.Machine
end

section
/-!
PROOFS. The settings that an AMEND asks for (R194, R197): the fields of the request written one after another are the
values that chapter 11's ids carry.
-/

namespace Sys2Proof.Machine
-- One proof after another: the whole text stays within the memory of one compile.
set_option Elab.async false

/-! ## Fields written one after another (R194) -/

theorem askedFor_cons (f : FieldVal) (fs : List FieldVal) (id : Nat) :
    askedFor (f :: fs) id = if idOf f = id then some (valOf f) else askedFor fs id := by
  unfold askedFor fieldOf
  rw [List.find?_cons]
  split
  next own => rw [if_pos (beq_iff_eq.1 own)]; rfl
  next other => rw [if_neg (by simpa using other)]

theorem askedFor_nil (id : Nat) : askedFor [] id = none := rfl

theorem askedFor_fresh {f : FieldVal} {fs : List FieldVal} (once : ((f :: fs).map (·.id)).Nodup) :
    askedFor fs (idOf f) = none := by
  rw [askedFor_eq_none, ← Bool.not_eq_true, carries_iff]
  rintro ⟨g, mem, same⟩
  rw [List.map_cons, List.nodup_cons] at once
  exact once.1 (List.mem_map.2 ⟨g, mem, BitVec.eq_of_toNat_eq same⟩)

/-- Writing the fields of a request one after another is reading each id from it, where no id comes twice. -/
theorem foldl_eq_asked {α : Type} {amend : α → FieldVal → α} {asked : List FieldVal → α → α} {good : FieldVal → Prop}
    (empty : ∀ x, asked [] x = x)
    (step : ∀ f fs x, good f → askedFor fs (idOf f) = none → asked (f :: fs) x = asked fs (amend x f))
    {fs : List FieldVal} (form : ∀ f ∈ fs, good f) (once : (fs.map (·.id)).Nodup) (x : α) :
    fs.foldl amend x = asked fs x := by
  induction fs generalizing x with
  | nil => exact (empty x).symm
  | cons f fs ih =>
    rw [List.foldl_cons, step f fs x (form f List.mem_cons_self) (askedFor_fresh once)]
    exact ih (fun g mem => form g (List.mem_cons_of_mem _ mem)) (List.nodup_cons.1 once).2 _

theorem setOf_getD {n v : Nat} (good : orBad (setOf n v).isSome = none) (old : BitVec n) :
    (setOf n v).getD old = BitVec.ofNat n v := by
  unfold setOf at good ⊢
  split
  · rfl
  next large => rw [if_neg large] at good; cases good

theorem ZoneType.ofCode_eq (v : Nat) : ZoneType.ofCode v = [ZoneType.detector, .callpoint, .interface][v]? := by
  match v with
  | 0 | 1 | 2 => rfl
  | v + 3 => rfl

theorem GroupKind.ofCode_eq (v : Nat) : GroupKind.ofCode v = [GroupKind.house, .aisle, .foyer][v]? := by
  match v with
  | 0 | 1 | 2 => rfl
  | v + 3 => rfl

theorem Feed.ofCode_eq (v : Nat) : Feed.ofCode v = [Feed.mains, .standby][v]? := by
  match v with
  | 0 | 1 => rfl
  | v + 2 => rfl

theorem DriveLaw.ofCode_eq (v : Nat) : DriveLaw.ofCode v = [DriveLaw.linear, .square][v]? := by
  match v with
  | 0 | 1 => rfl
  | v + 2 => rfl

/-- Of a code that its check of form passes (R186). -/
theorem Role.ofCode_eq {v : Nat} (good : v ≤ 5) :
    Role.ofCode v = [Role.none, .view, .stage, .foh, .fire, .engineer][v]? := by
  interval_cases v <;> rfl

section

variable {fs : List FieldVal} (once : (fs.map (·.id)).Nodup)
include once

theorem PerfSettings.foldl_amend (x : PerfSettings) : fs.foldl PerfSettings.amend x = x.asked fs := by
  refine foldl_eq_asked (asked := PerfSettings.asked) (good := fun _ => True) (fun x => rfl) (fun f fs x _ fresh => ?_)
    (fun _ _ => trivial) once x
  unfold PerfSettings.amend
  split
  all_goals simp_all [PerfSettings.asked, asks, asksYes, askedFor_cons, saysYes]

theorem IronSettings.foldl_amend (x : IronSettings) : fs.foldl IronSettings.amend x = x.asked fs := by
  refine foldl_eq_asked (asked := IronSettings.asked) (good := fun _ => True) (fun x => rfl) (fun f fs x _ fresh => ?_)
    (fun _ _ => trivial) once x
  unfold IronSettings.amend
  split
  all_goals simp_all [IronSettings.asked, asks, asksYes, askedFor_cons, saysYes]

theorem PartSettings.foldl_amend (x : PartSettings) : fs.foldl PartSettings.amend x = x.asked fs := by
  refine foldl_eq_asked (asked := PartSettings.asked) (good := fun _ => True) (fun x => rfl) (fun f fs x _ fresh => ?_)
    (fun _ _ => trivial) once x
  unfold PartSettings.amend
  split
  all_goals simp_all [PartSettings.asked, asks, asksYes, askedFor_cons, saysYes]

theorem ZoneSettings.foldl_amend (form : ∀ f ∈ fs, zoneForm f = none) (x : ZoneSettings) :
    fs.foldl ZoneSettings.amend x = x.asked fs := by
  refine foldl_eq_asked (asked := ZoneSettings.asked) (fun x => rfl) (fun f fs x good fresh => ?_) form once x
  unfold ZoneSettings.amend
  unfold zoneForm at good
  split
  all_goals simp_all [ZoneSettings.asked, asks, asksYes, asksName, asksSet, askedFor_cons, saysYes, ZoneType.ofCode_eq]
  all_goals exact (setOf_getD good _).symm

theorem GroupSettings.foldl_amend (x : GroupSettings) : fs.foldl GroupSettings.amend x = x.asked fs := by
  refine foldl_eq_asked (asked := GroupSettings.asked) (good := fun _ => True) (fun x => rfl) (fun f fs x _ fresh => ?_)
    (fun _ _ => trivial) once x
  unfold GroupSettings.amend
  split
  all_goals simp_all [GroupSettings.asked, asks, asksYes, asksName, asksEntry, askedFor_cons, saysYes, GroupKind.ofCode_eq,
    Feed.ofCode_eq, DriveLaw.ofCode_eq]

theorem CZoneSettings.foldl_amend (form : ∀ f ∈ fs, czoneForm f = none) (x : CZoneSettings) :
    fs.foldl CZoneSettings.amend x = x.asked fs := by
  refine foldl_eq_asked (asked := CZoneSettings.asked) (fun x => rfl) (fun f fs x good fresh => ?_) form once x
  unfold CZoneSettings.amend
  unfold czoneForm at good
  split
  all_goals simp_all [CZoneSettings.asked, asks, asksYes, asksSet, askedFor_cons, saysYes]
  all_goals exact (setOf_getD good _).symm

theorem CircuitSettings.foldl_amend {c : Fin 16} (form : ∀ f ∈ fs, circuitForm c f = none) (x : CircuitSettings) :
    fs.foldl CircuitSettings.amend x = x.asked fs := by
  refine foldl_eq_asked (asked := CircuitSettings.asked) (fun x => rfl) (fun f fs x good fresh => ?_) form once x
  unfold CircuitSettings.amend
  unfold circuitForm at good
  split
  all_goals simp_all [CircuitSettings.asked, asksYes, asksSet, askedFor_cons, saysYes]
  next v named =>
    refine (setOf_getD ?_ _).symm
    revert good
    cases (setOf 3 (valOf f)).isSome
    · exact id
    · exact fun _ => rfl

theorem StationSettings.foldl_amend (form : ∀ f ∈ fs, stationForm f = none) (x : StationSettings) :
    fs.foldl StationSettings.amend x = x.asked fs := by
  refine foldl_eq_asked (asked := StationSettings.asked) (fun x => rfl) (fun f fs x good fresh => ?_) form once x
  unfold StationSettings.amend
  unfold stationForm at good
  split
  all_goals simp_all [StationSettings.asked, asksName, asksEntry, asksSet, askedFor_cons]
  case h_1 =>
    have inside : valOf f ≤ 5 := by
      unfold orBad at good
      by_contra outside
      rw [decide_eq_false outside] at good
      cases good
    rw [Role.ofCode_eq inside]
  case h_3 => exact (setOf_getD good _).symm

end

/-! ## Settings in range (R197) -/

theorem PerfSettings.inRange_eq (x : PerfSettings) : x.inRange = x.ranged := rfl

theorem ZoneSettings.inRange_eq (x : ZoneSettings) : x.inRange = x.ranged := rfl

theorem GroupSettings.inRange_eq (x : GroupSettings) : x.inRange = x.ranged := rfl

theorem CZoneSettings.inRange_eq (x : CZoneSettings) : x.inRange = x.ranged := rfl

theorem PartSettings.inRange_eq (x : PartSettings) : x.inRange = x.ranged := rfl

theorem IronSettings.inRange_eq (x : IronSettings) : x.inRange = x.ranged := rfl

end Sys2Proof.Machine
end

section
/-!
PROOFS. An AMEND of a fixed record that is heard, and the requests on an IRON record: the demand OUT (R38, R43), the
raise that lasts too long (R45) and the clear fault (R61).
-/

namespace Sys2Proof.Machine
-- One proof after another: the whole text stays within the memory of one compile.
set_option Elab.async false

/-! ## An AMEND of a fixed record (R184) -/

/-- The limit IN input that a command reports: an amendment of settings alone may. -/
def limitInOf : Instr → Bool
  | .settingsAmendment _ _ limitIn => limitIn
  | _ => false

/-- An AMEND of a fixed record that is heard, from a station that may amend (R184). -/
structure FixedAsked (i : Instr) (k : Kind) (r : Req) (st : Fin 8) (s : State) : Prop where
  named : requestOf i = some (.amend, k, r)
  fixed : isDynamic k = false
  heard : Heard s r st
  listens : s.role st ≠ .none
  able : s.role st ≠ .view
  once : (r.fields.map (·.id)).Nodup
  range : 1 ≤ r.index.toNat ∧ r.index.toNat ≤ kindSize k
  issue : r.issue = 0

namespace FixedAsked

variable {i : Instr} {k : Kind} {r : Req} {st : Fin 8} {s : State}

/-- An action alone, as a request (R184). -/
theorem alone {q : AmendReq} {id : Byte} {v : Word} {n : Nat} (named : requestOf i = some (.amend, k, q.withField id v))
    (fixed : isDynamic k = false) (h : HeardAlone s q st n 0) (listens : s.role st ≠ .none) (able : s.role st ≠ .view)
    (range : 1 ≤ n ∧ n ≤ kindSize k) : FixedAsked i k (q.withField id v) st s := by
  have heard := h.heard id v
  have fields := h.fields id v
  obtain ⟨-, -, -, -, -, index, issue⟩ := h
  exact ⟨named, fixed, heard, listens, able, by rw [fields]; exact List.nodup_singleton _, index ▸ range,
    BitVec.eq_of_toNat_eq issue⟩

theorem handled (h : FixedAsked i k r st s) : handlerOf i = State.amendReq (limitInOf i) := by
  obtain ⟨named, fixed, -⟩ := h
  cases i with
  | amendHold => cases named; cases fixed
  | amendCall => cases named; cases fixed
  | settingsAmendment => rfl
  | _ => first | rfl | cases named

theorem stop (h : FixedAsked i k r st s) : s.frameGood.linkStop st .amend k r = none :=
  State.linkStop_amend (by rw [State.frameGood_role]; exact h.listens) (by rw [State.frameGood_role]; exact h.able)
    h.range (.inr h.issue) h.once

section

variable {status : Status} {why : Option Reason} {fields : List FieldVal} {u : State}

/-- What the owner says of the request, leaving the state as it is, is the whole of the command. -/
theorem turned (h : FixedAsked i k r st s) (answer : State.amendReq (limitInOf i) ⟨st, k, r⟩ s.frameGood =
      (Ask.answer ⟨st, k, r⟩ status why fields, s.frameGood)) :
    ∃ t, exec i s = .next t ∧ ChangesOnly [.link] s.frameGood t ∧
      Replies t s.settings.part.address r.station status why k r.index.toNat 0 fields := by
  have run := exec_says h.named (by decide) h.heard h.stop (h.handled ▸ answer)
  rw [h.issue] at run
  exact run

/-- What the owner makes of the request is what the command leaves, but for the reply. -/
theorem done (h : FixedAsked i k r st s) (answer : State.amendReq (limitInOf i) ⟨st, k, r⟩ s.frameGood =
      (Ask.answer ⟨st, k, r⟩ status why fields, u)) :
    ∃ a t, t = u.reply s.settings.part.address r.station a ∧ exec i s = .next t ∧
      Replies t s.settings.part.address r.station status why k r.index.toNat 0 fields := by
  have run := exec_done h.named (by decide) h.heard h.stop (h.handled ▸ answer)
  rw [h.issue] at run
  exact run

end

end FixedAsked

/-! ## The checks on role, store and locks (R194) -/

theorem State.lockedOut_eq (s : State) (st : Fin 8) : s.lockedOut st = (s.settingsBar st).map fun w => (w, none) := by
  have dark : (!s.allDark || s.store.locked) = true ↔ (∃ a, s.phase a ≠ .dark) ∨ s.store.locked = true := by
    rw [Bool.or_eq_true, Bool.not_eq_true', ← Bool.not_eq_true, State.allDark_iff, not_forall]
  unfold State.lockedOut State.settingsBar
  simp only [dark, bne_iff_ne, beq_iff_eq]
  split_ifs <;> rfl

theorem State.frameGood_lockedOut (s : State) (st : Fin 8) : s.frameGood.lockedOut st = s.lockedOut st := by
  unfold State.lockedOut
  simp only [State.frameGood_role, State.frameGood_store, State.frameGood_phase]

/-- A request with settings is turned away by the checks on role, store and locks (R194). -/
theorem State.settingsStop_of {s : State} {q : Ask} (settles : amendsSettings q.kind q.req.fields = true) :
    s.settingsStop q = s.settingsBar q.st := if_pos settles

theorem State.settingsStop_of_none {s : State} {q : Ask} (settles : amendsSettings q.kind q.req.fields = false) :
    s.settingsStop q = none := if_neg (by rw [settles]; decide)

/-! ## The settings of one record among all (R193, R194) -/

/-- Reading one record's settings and writing them. -/
structure SettingsAt {α : Type} (get : Settings → α) (set : Settings → α → Settings) : Prop where
  get_set : ∀ x a, get (set x a) = a
  set_get : ∀ x, set x (get x) = x
  set_set : ∀ x a b, set (set x a) b = set x b

namespace SettingsAt

variable {α : Type} {get : Settings → α} {set : Settings → α → Settings} (h : SettingsAt get set)
include h

theorem set_inj {x : Settings} {a b : α} : set x a = set x b ↔ a = b :=
  ⟨fun same => by rw [← h.get_set x a, same, h.get_set], fun same => by rw [same]⟩

theorem set_eq_self {x : Settings} {a : α} : set x a = x ↔ a = get x := by
  rw [← h.set_inj (x := x), h.set_get]

/-- The settings are written, and a change of them is noted (R193). -/
theorem written [DecidableEq α] (s : State) (a : α) :
    SettingsWritten (set s.settings a) s (s.settled (set s.settings a) (get s.settings != a)) := by
  refine ⟨State.noteChange_settings .., (State.noteChange_store _ _).trans ?_⟩
  have same : (get s.settings != a) = decide (set s.settings a ≠ s.settings) := by
    rw [Bool.eq_iff_iff, bne_iff_ne, decide_eq_true_iff, ne_eq, ne_eq, h.set_eq_self, eq_comm]
  rw [same]

/-- ADJUSTED exactly where bringing the settings into range has moved one (R197). -/
theorem okStatus_eq [DecidableEq α] (x : Settings) (a b : α) :
    okStatus (a != b) = if set x a = set x b then .done else .adjusted := by
  unfold okStatus
  by_cases same : a = b
  · rw [same, bne_self_eq_false, if_pos rfl]
    rfl
  · rw [if_pos (bne_iff_ne.2 same), if_neg (mt h.set_inj.1 same)]

end SettingsAt

theorem SettingsWritten.andThen {new : Settings} {ps : List Part} {s t u : State} (h : SettingsWritten new s t)
    (frame : ChangesOnly ps t u) (hs : ps.contains .settings = false := by rfl)
    (ht : ps.contains .store = false := by rfl) : SettingsWritten new s u := by
  obtain ⟨settings, store⟩ := h
  exact ⟨(frame.same .settings (by simpa using hs)).trans settings, (frame.same .store (by simpa using ht)).trans store⟩

theorem settingsAt_perf (a : Fin 3) : SettingsAt (·.perfs[a]) (fun x => x.withPerf a) :=
  ⟨fun x _ => put_same .., fun _ => by rw [Settings.withPerf, put_self],
    fun _ _ _ => by unfold Settings.withPerf; rw [put_put]⟩

theorem settingsAt_iron (ch : Fin 3) : SettingsAt (·.irons[ch]) (fun x => x.withIron ch) :=
  ⟨fun x _ => put_same .., fun _ => by rw [Settings.withIron, put_self],
    fun _ _ _ => by unfold Settings.withIron; rw [put_put]⟩

theorem settingsAt_zone (z : Fin 24) : SettingsAt (·.zones[z]) (fun x => x.withZone z) :=
  ⟨fun x _ => put_same .., fun _ => by rw [Settings.withZone, put_self],
    fun _ _ _ => by unfold Settings.withZone; rw [put_put]⟩

theorem settingsAt_group (g : Fin 12) : SettingsAt (·.groups[g]) (fun x => x.withGroup g) :=
  ⟨fun x _ => put_same .., fun _ => by rw [Settings.withGroup, put_self],
    fun _ _ _ => by unfold Settings.withGroup; rw [put_put]⟩

theorem settingsAt_czone (z : Fin 8) : SettingsAt (·.czones[z]) (fun x => x.withCZone z) :=
  ⟨fun x _ => put_same .., fun _ => by rw [Settings.withCZone, put_self],
    fun _ _ _ => by unfold Settings.withCZone; rw [put_put]⟩

theorem settingsAt_circuit (c : Fin 16) : SettingsAt (·.circuits[c]) (fun x => x.withCircuit c) :=
  ⟨fun x _ => put_same .., fun _ => by rw [Settings.withCircuit, put_self],
    fun _ _ _ => by unfold Settings.withCircuit; rw [put_put]⟩

/-! ## AMEND of an IRON record (R33, R34, R37) -/

section

variable {r : Req} {ch : Fin 3} (index : r.index.toNat = ch.1 + 1)
include index

theorem State.amendReq_iron (l : Bool) (st : Fin 8) (u : State) :
    State.amendReq l ⟨st, .iron, r⟩ u = u.amendIron ⟨st, .iron, r⟩ ch l := by
  simp only [State.amendReq, entryOf_eq_some index]

theorem State.reads_iron (u : State) : u.reads .iron r.index = u.ironFields ch := by
  unfold State.reads State.table
  rw [entryOf_eq_some index, State.ironFields_eq]
  rfl

theorem Settings.asked_iron (fs : List FieldVal) (x : Settings) :
    x.asked .iron r.index fs = x.withIron ch (x.irons[ch].asked fs) := by
  unfold Settings.asked
  rw [entryOf_eq_some index]
  rfl

theorem Settings.ranged_iron (x : Settings) : x.ranged .iron r.index = x.withIron ch x.irons[ch].ranged := by
  unfold Settings.ranged
  rw [entryOf_eq_some index]
  rfl

end

/-- The numbers of a channel contradict each other exactly where the model's check finds them so (R33). -/
theorem IronSettings.coherent_fixed (x : IronSettings) : x.fixed.coherent = !x.contradicts := by
  unfold IronSettings.coherent IronSettings.fixed IronSettings.contradicts clamp
  dsimp only
  generalize max 1000 (min 60000 x.travel) = travel, max 100 x.slowdown = slowdown,
    max 50 (min 1200 x.descentMax) = latest, max 50 (min 1200 x.descentMin) = soonest
  simp only [Bool.not_or, ← decide_not, not_le]

section

variable {q : Ask} {ch : Fin 3} {l : Bool} {u : State}

/-- The request carries a demand or a clear fault (R37). -/
def actsOnIron (fs : List FieldVal) : Bool := carries fs 37 || carries fs 128

/-- The record that a refusal of an IRON request carries: where it asks for an action (R37; log entry 10). -/
def State.ironShown (u : State) (ch : Fin 3) (fs : List FieldVal) : List FieldVal :=
  if actsOnIron fs then u.ironFields ch else []

/-- An accepted IRON request: its settings in range, its action, and the reply (R33, R37). -/
def State.acceptIron (q : Ask) (ch : Fin 3) (l : Bool) (u : State) : Verdict :=
  let asked := q.req.fields.foldl IronSettings.amend u.settings.irons[ch]
  let new := if amendsSettings .iron q.req.fields then asked.inRange else u.settings.irons[ch]
  let t := u.applyIron ch q.req.fields new l
  q.says (okStatus (asked != new))
    (if actsOnIron q.req.fields || asked != new || q.req.fields = [] then t.ironFields ch else []) t

theorem State.amendIron_flawed {w : Flaw × FieldVal} (flaw : firstFlaw (ironForm q.req.fields) q.req.fields = some w) :
    u.amendIron q ch l = q.flawed w (u.ironShown ch q.req.fields) u := by
  simp only [State.amendIron, flaw]
  rfl

/-- An action on an absent channel (R37). -/
theorem State.amendIron_absent (form : firstFlaw (ironForm q.req.fields) q.req.fields = none)
    (acts : actsOnIron q.req.fields = true) (absent : u.settings.irons[ch].present = false) :
    u.amendIron q ch l = q.says .badField (u.ironFields ch) u := by
  unfold actsOnIron at acts
  simp only [State.amendIron, form, acts, absent, Bool.not_false, Bool.and_self, if_true]

/-- The channel is present for an action, and the role admits it (R37). -/
structure IronAdmitted (q : Ask) (ch : Fin 3) (u : State) : Prop where
  form : firstFlaw (ironForm q.req.fields) q.req.fields = none
  present : actsOnIron q.req.fields = true → u.settings.irons[ch].present = true
  admits : u.admitsIron q.st ch q.req.fields = true

/-- An action from a station of another role (R37). -/
theorem State.amendIron_barred (form : firstFlaw (ironForm q.req.fields) q.req.fields = none)
    (present : actsOnIron q.req.fields = true → u.settings.irons[ch].present = true)
    (barred : u.admitsIron q.st ch q.req.fields = false) :
    u.amendIron q ch l = q.says .notPermitted (u.ironShown ch q.req.fields) u := by
  have there : (actsOnIron q.req.fields && !u.settings.irons[ch].present) = false := by
    cases acts : actsOnIron q.req.fields with
    | false => rfl
    | true => rw [present acts]; rfl
  unfold actsOnIron at there
  simp only [State.amendIron, form, there, barred, Bool.false_eq_true, if_false, Bool.not_false, if_true]
  rfl

/-- What decides an IRON request that its role admits: the locks, the channel's state, and its numbers (R194). -/
theorem State.amendIron_admitted (h : IronAdmitted q ch u) : u.amendIron q ch l =
    match u.settingsStop q with
    | some status => q.says status (u.ironShown ch q.req.fields) u
    | none =>
        match u.ironBar ch q.req.fields (q.req.fields.foldl IronSettings.amend u.settings.irons[ch]).present with
        | some r => q.refuses r (u.ironShown ch q.req.fields) u
        | none =>
            if amendsSettings .iron q.req.fields = true ∧
                (q.req.fields.foldl IronSettings.amend u.settings.irons[ch]).contradicts = true then
              q.says .badField (u.ironShown ch q.req.fields) u
            else u.acceptIron q ch l := by
  obtain ⟨form, present, admits⟩ := h
  have there : (actsOnIron q.req.fields && !u.settings.irons[ch].present) = false := by
    cases acts : actsOnIron q.req.fields with
    | false => rfl
    | true => rw [present acts]; rfl
  have clash (x : IronSettings) : (amendsSettings .iron q.req.fields && !x.fixed.coherent) = true ↔
      amendsSettings .iron q.req.fields = true ∧ x.contradicts = true := by
    rw [IronSettings.coherent_fixed, Bool.not_not, Bool.and_eq_true]
  unfold actsOnIron at there
  simp only [State.amendIron, form, there, admits, Bool.false_eq_true, if_false, Bool.not_true, clash] <;> rfl

end

end Sys2Proof.Machine
end

section
/-!
PROOFS. The requests on an IRON record: the demand OUT (R38, R43), the raise that lasts too long (R45) and the clear
fault (R61).
-/

namespace Sys2Proof.Machine
-- One proof after another: the whole text stays within the memory of one compile.
set_option Elab.async false

/-! ## The demand OUT and the raise (R38, R43, R45) -/

/-- A demand alone is an action. -/
theorem actsOnIron_demand (out : Bool) : actsOnIron [⟨37, BitVec.ofNat 16 out.toNat⟩] = true := by
  cases out <;> decide

/-- A role that may not demand OUT is not admitted (R37). -/
theorem State.admitsIron_out {u : State} {st : Fin 8} {ch : Fin 3} (role : u.role st ≠ .fire)
    (stage : u.isStageOf st ch = false) : u.admitsIron st ch [⟨37, 1⟩] = false := by
  have asked : askedFor [⟨37, 1⟩] 37 = some 1 := by decide
  unfold State.admitsIron
  rw [asked]
  simp [stage, role]

/-- Every answer of the conditions on a demand OUT, in their order (R38). -/
theorem State.outBar_eq (s : State) (ch : Fin 3) : s.outBar ch =
    if s.irons[ch].motion = .descending then some .motion
    else if s.irons[ch].motion = .raising ∨ s.irons[ch].motion = .atOut then none
    else if ∃ i ∈ s.openIncidents, has i.auds ch = true then some .alarmActive
    else if s.irons[ch].pressed = true then some .releaseActive
    else if s.irons[ch].fault ≠ none then some .faultPresent
    else if s.supply.mains ≠ .present then some .supply
    else none := by
  have raise : s.raiseBar ch =
      if ∃ i ∈ s.openIncidents, has i.auds ch = true then some .alarmActive
      else if s.irons[ch].pressed = true then some .releaseActive
      else if s.irons[ch].fault ≠ none then some .faultPresent
      else if s.supply.mains ≠ .present then some .supply
      else none := by
    unfold State.raiseBar
    refine if_congr List.any_eq_true rfl (if_congr Iff.rfl rfl (if_congr ?_ rfl (if_congr bne_iff_ne rfl rfl)))
    exact Option.isSome_iff_ne_none
  rw [← raise]
  unfold State.outBar
  cases s.irons[ch].motion <;> rfl

/-- A demand OUT where the channel raises already or is OUT changes nothing (R38). -/
theorem State.demandOut_up {s : State} {ch : Fin 3} (h : s.irons[ch].motion = .raising ∨ s.irons[ch].motion = .atOut) :
    s.demandOut ch = s := by
  unfold State.demandOut
  rcases h with h | h <;> rw [h]

/-- R45: the raise timer stops a raise with its fault. -/
theorem raiseTimeout_stops {s : State} {ch : Fin 3} (powered : s.powered = true) (raises : s.irons[ch].motion = .raising) :
    ∃ t, exec (.raiseTimeout ch) s = .next t ∧ ChangesOnly [.clock, .irons, .holds, .stations] s t ∧
      OnlyAt ch s.irons t.irons ∧ t.irons[ch].motion = .stopped ∧ t.irons[ch].stop = some .timeout ∧
      Recorded .raiseTimeout s.irons[ch] t.irons[ch] ∧ t.irons[ch].restTravel = 0 ∧
      t.now = max s.now (s.irons[ch].raiseStart + s.settings.irons[ch].raiseMax * 100) ∧
      t.raiseOutput ch = false ∧ (s.settings.irons[ch].present = true → t.holdOutput ch = true) := by
  have timed : s.raiseTimesOut ch =
      (s.reach (s.irons[ch].raiseStart + tenths s.settings.irons[ch].raiseMax)).faultInMotion ch .raiseTimeout :=
    if_pos raises
  have irons := State.faultInMotion_irons
    (s.reach (s.irons[ch].raiseStart + tenths s.settings.irons[ch].raiseMax)) ch .raiseTimeout
  have stops : s.irons[ch].faulted .raiseTimeout = (s.irons[ch].noteFault .raiseTimeout).stopRaise (some .timeout) :=
    if_pos raises
  have frame := s.raiseTimesOut_changes ch
  have clock : (s.raiseTimesOut ch).now = max s.now (s.irons[ch].raiseStart + s.settings.irons[ch].raiseMax * 100) := by
    rw [timed]
    exact (State.faultInMotion_changes ..).same .clock (by decide)
  rw [← timed, State.reach_irons, stops] at irons
  refine ⟨_, s.takes_powered (State.raiseTimesOut ch) powered, frame, ?_⟩
  generalize s.raiseTimesOut ch = t at *
  have here : t.irons[ch] = (s.irons[ch].noteFault .raiseTimeout).stopRaise (some .timeout) := by rw [irons, put_same]
  have stopped : t.irons[ch].motion = .stopped := by rw [here]; rfl
  have power : t.powered = true := (frame.same .power (by decide) : t.powered = s.powered).trans powered
  have settings : t.settings = s.settings := frame.same .settings (by decide)
  refine ⟨irons ▸ put_onlyAt _ _ _, stopped, by rw [here]; rfl, by rw [here]; exact ⟨rfl, rfl⟩, by rw [here]; rfl, clock,
    State.raiseOutput_off (by rw [stopped]; decide), fun present => ?_⟩
  exact State.holdOutput_on power (by rw [settings, present]) (.inr (.inr stopped))

section

variable {q : AmendReq} {ch : Fin 3} {st : Fin 8} {s : State} (heard : HeardAlone s q st (ch.1 + 1) 0)
include heard

/-- A demand OUT or IN that the owner turns away leaves the state (R37). -/
theorem demandOut_turned (listens : s.role st ≠ .none) (able : s.role st ≠ .view) {status : Status}
    (answer : s.frameGood.amendIron ⟨st, .iron, q.withField 37 1⟩ ch false =
      Ask.says ⟨st, .iron, q.withField 37 1⟩ status (s.frameGood.ironFields ch) s.frameGood) :
    ∃ t, exec (.demandOut q) s = .next t ∧ ChangesOnly [.link] s.frameGood t ∧
      Replies t s.settings.part.address q.station status none .iron (ch.1 + 1) 0 (s.frameGood.ironFields ch) := by
  have fixed : FixedAsked (.demandOut q) .iron (q.withField 37 1) st s :=
    .alone rfl rfl heard listens able ⟨Nat.le_add_left .., ch.isLt⟩
  have index : (q.withField 37 1).index.toNat = ch.1 + 1 := heard.2.2.2.2.2.1
  rw [← index]
  exact fixed.turned ((State.amendReq_iron index ..).trans answer)

/-- R37: a demand OUT of an absent channel, and one from a station of another role. -/
theorem demandOut_absent (listens : s.role st ≠ .none) (able : s.role st ≠ .view)
    (absent : s.settings.irons[ch].present = false) :
    ∃ t, exec (.demandOut q) s = .next t ∧ ChangesOnly [.link] s.frameGood t ∧
      Replies t s.settings.part.address q.station .badField none .iron (ch.1 + 1) 0 (s.frameGood.ironFields ch) := by
  have fields : (q.withField 37 1).fields = [⟨37, 1⟩] := heard.fields 37 1
  refine demandOut_turned heard listens able (State.amendIron_absent ?_ ?_ (by rw [State.frameGood_settings, absent]))
  · rw [fields]; exact (demandField_form true).1
  · rw [fields]; exact actsOnIron_demand true

theorem demandOut_notPermitted (listens : s.role st ≠ .none) (able : s.role st ≠ .view)
    (present : s.settings.irons[ch].present = true) (fire : s.role st ≠ .fire) (stage : s.isStageOf st ch = false) :
    ∃ t, exec (.demandOut q) s = .next t ∧ ChangesOnly [.link] s.frameGood t ∧
      Replies t s.settings.part.address q.station .notPermitted none .iron (ch.1 + 1) 0 (s.frameGood.ironFields ch) := by
  have fields : (q.withField 37 1).fields = [⟨37, 1⟩] := heard.fields 37 1
  have acts : actsOnIron (q.withField 37 1).fields = true := by rw [fields]; exact actsOnIron_demand true
  have barred := State.amendIron_barred (q := ⟨st, .iron, q.withField 37 1⟩) (ch := ch) (l := false) (u := s.frameGood)
    (by rw [fields]; exact (demandField_form true).1) (fun _ => by rw [State.frameGood_settings, present])
    (by rw [fields]; exact State.admitsIron_out (by rwa [State.frameGood_role]) (by rwa [State.frameGood_isStageOf]))
  rw [State.ironShown, if_pos acts] at barred
  exact demandOut_turned heard listens able barred

/-- R38: a demand OUT of a channel that raises or is OUT is DONE and changes nothing. -/
theorem demandOut_done_up (present : s.settings.irons[ch].present = true) (demander : s.mayDemand st ch true)
    (up : s.irons[ch].motion = .raising ∨ s.irons[ch].motion = .atOut) :
    ∃ t, exec (.demandOut q) s = .next t ∧ ChangesOnly [.link] s.frameGood t ∧
      Replies t s.settings.part.address q.station .done none .iron (ch.1 + 1) 0 (s.frameGood.ironFields ch) := by
  have free : s.outBar ch = none := by
    rw [State.outBar_eq, if_neg (fun k => by rcases up with up | up <;> rw [up] at k <;> cases k), if_pos up]
  obtain ⟨answer, t, ht, run, reply⟩ := demandCommand_done heard present demander ((s.frameGood_outBar ch).trans free)
  have same : s.frameGood.demanded ch true = s.frameGood := State.demandOut_up (by rwa [State.frameGood_irons])
  have left : t = s.frameGood.reply s.settings.part.address q.station answer := by rw [ht, same]
  have record : t.ironFields ch = s.frameGood.ironFields ch := by rw [left, State.reply_ironFields]
  rw [record] at reply
  exact ⟨t, run, left ▸ State.reply_changes .., reply⟩

/-- R43: a raise that begins has HOLD and RAISE on. -/
theorem demandOut_raises (present : s.settings.irons[ch].present = true) (demander : s.mayDemand st ch true)
    (rests : s.irons[ch].motion = .atIn ∨ s.irons[ch].motion = .stopped) (free : s.raiseBar ch = none) :
    ∃ t, exec (.demandOut q) s = .next t ∧ ChangesOnly [.link, .irons, .stations] s.frameGood t ∧
      OnlyAt ch s.frameGood.irons t.irons ∧ t.irons[ch] = s.irons[ch].beginRaise s.now ∧
      t.holdOutput ch = true ∧ t.raiseOutput ch = true ∧ t.checkOutput ch = false ∧
      Replies t s.settings.part.address q.station .done none .iron (ch.1 + 1) 0 (t.ironFields ch) := by
  have bar : s.frameGood.demandBar ch true = none := (s.frameGood_outBar ch).trans ((State.outBar_resting rests).trans free)
  obtain ⟨answer, t, ht, run, reply⟩ := demandCommand_done heard present demander bar
  have now : s.frameGood.now = s.now := s.frameGood_changes.same .clock (by decide)
  have raises : s.frameGood.demanded ch true = s.frameGood.writeIron ch (s.irons[ch].beginRaise s.now) := by
    rw [← now, ← s.frameGood_irons]
    exact State.demandOut_resting (by rwa [State.frameGood_irons])
  rw [raises] at ht
  have frame := (s.frameGood.writeIron_changes ch (s.irons[ch].beginRaise s.now)).andThen
    (rs := [.link, .irons, .stations]) (State.reply_changes _ s.settings.part.address q.station answer)
  rw [← ht] at frame
  have irons : t.irons = put s.frameGood.irons ch (s.irons[ch].beginRaise s.now) := by
    rw [ht, State.reply_irons, State.writeIron_irons]
  have power : s.frameGood.powered = true := (s.frameGood_changes.same .power (by decide)).trans heard.1
  have settings : s.frameGood.settings = s.settings := s.frameGood_settings
  refine ⟨t, run, frame, irons ▸ put_onlyAt _ _ _, ?_⟩
  generalize s.frameGood = u at *
  have here : t.irons[ch] = s.irons[ch].beginRaise s.now := by rw [irons, put_same]
  have raising : t.irons[ch].motion = .raising := by rw [here]; rfl
  have power : t.powered = true := (frame.same .power (by decide) : t.powered = u.powered).trans power
  have settings : t.settings = u.settings := frame.same .settings (by decide)
  have there : t.settings.irons[ch].present = true := by rw [settings, ‹u.settings = _›, present]
  exact ⟨here, State.holdOutput_on power there (.inl raising), State.raiseOutput_on power there raising,
    State.checkOutput_off (by rw [raising]; decide), reply⟩

end

/-- Settles O36. -/
theorem raiseJudgedAndTimed : Obligations.RaiseJudgedAndTimed := by
  unfold Obligations.RaiseJudgedAndTimed
  refine ⟨fun ch s x powered hx raises => ?_, fun ch s rests => State.takes_still (if_neg rests),
    fun q ch st s u x heard hu hx listens able => ?_⟩
  · subst hx
    exact raiseTimeout_stops powered raises
  · subst hu hx
    refine ⟨demandOut_absent heard listens able, demandOut_notPermitted heard listens able, fun present role => ?_⟩
    have demander : s.mayDemand st ch true := role.imp_right .inl
    refine ⟨demandOut_done_up heard present demander, fun why barred => ?_, fun rests quiet letGo sound mains => ?_⟩
    · exact demandCommand_refused heard present demander
        ((s.frameGood_outBar ch).trans ((s.outBar_eq ch).trans barred))
    · exact demandOut_raises heard present demander rests (State.raiseBar_free quiet letGo sound mains)

end Sys2Proof.Machine
end

section
/-!
PROOFS. The clear fault of an IRON record, alone and beside settings (R37, R61).
-/

namespace Sys2Proof.Machine
-- One proof after another: the whole text stays within the memory of one compile.
set_option Elab.async false

/-! ## Holds that an announcement leaves (R23) -/

theorem State.evalHold_holds_other (c : HoldCause) {a b : Fin 3} (s : State) (other : b ≠ a) :
    (s.evalHold c b).holds[a] = s.holds[a] := by
  obtain ⟨still, -⟩ | ⟨-, why, -, -, raised⟩ | ⟨-, -, -, removed⟩ := State.evalHold_cases c b s
  · rw [still]
  · rw [raised]
    exact (s.fillHold_onlyAt ..).1 a other.symm
  · rw [removed]
    exact (s.emptyHold_onlyAt ..).1 a other.symm

/-- A hold that is due is left as it is. -/
theorem State.evalHolds_holds_due {c : HoldCause} {a : Fin 3} {s : State} (due : HoldDue c a s) :
    (s.evalHolds c).holds[a] = s.holds[a] := by
  refine (forAll_keeps (fun t => ChangesOnly [.holds, .stations] s t ∧ t.holds[a] = s.holds[a]) _
    (fun b t h => ?_) s ⟨.refl _ s, rfl⟩).2
  obtain ⟨frame, same⟩ := h
  refine ⟨frame.andThen (State.evalHold_changes c b t), ?_⟩
  by_cases own : b = a
  · subst own
    have perfs : t.perfs = s.perfs := frame.same .perfs (by decide)
    have due' : HoldDue c b t := fun light => by
      have stands := due (by unfold State.phase; rw [← perfs]; exact light)
      rw [State.hold?, same, frame.holdReason]
      exact stands
    obtain ⟨still, -⟩ | ⟨light, why, reason, empty, -⟩ | ⟨light, reason, stands, -⟩ := State.evalHold_cases c b t
    · rw [still, same]
    · have fill := due' light
      rw [reason, empty] at fill
      cases fill
    · have gone := due' light
      rw [reason, stands] at gone
      cases gone
  · rw [State.evalHold_holds_other c t own, same]

/-! ## Fields beside an action (R37, R194) -/

theorem mem_withField {q : AmendReq} {id : Byte} {v : Word} {f : FieldVal} :
    f ∈ (q.withField id v).fields ↔ f = ⟨id, v⟩ ∨ f ∈ q.before ++ q.after := by
  unfold AmendReq.withField
  simp only [List.mem_append, List.mem_cons]
  tauto

theorem carries_of_carriedBefore {fs : List FieldVal} {id other : Nat} (h : carriedBefore fs id other = true) :
    carries fs other = true := by
  obtain ⟨f, mem, own⟩ := carries_iff.1 h
  exact carries_iff.2 ⟨f, List.takeWhile_subset _ mem, own⟩

section

variable {q : AmendReq} {id : Byte} {v : Word} {k : Kind}

/-- Beside settings, a request carries no other action. -/
theorem carries_beside (settings : ∀ f ∈ q.before ++ q.after, 1 ≤ idOf f ∧ idOf f ≤ topSetting k) {n : Nat}
    (action : topSetting k < n) (other : id.toNat ≠ n) : carries (q.withField id v).fields n = false := by
  rw [← Bool.not_eq_true, carries_iff]
  rintro ⟨f, mem, own⟩
  rcases mem_withField.1 mem with rfl | mem
  · exact other own
  · have := (settings f mem).2
    omega

/-- An action beside settings is an amendment of settings (R194). -/
theorem amendsSettings_beside (settings : ∀ f ∈ q.before ++ q.after, 1 ≤ idOf f ∧ idOf f ≤ topSetting k)
    (some : q.before ++ q.after ≠ []) : amendsSettings k (q.withField id v).fields = true := by
  obtain ⟨f, fs, first⟩ := List.exists_cons_of_ne_nil some
  have mem : f ∈ q.before ++ q.after := by rw [first]; exact List.mem_cons_self
  exact amendsSettings_iff.2 ⟨f, mem_withField.2 (.inr mem), settings f mem⟩

end

/-! ## The clear fault (R61) -/

/-- The fields of a clear fault, alone or beside settings (R37). -/
structure ClearAsked (fs : List FieldVal) : Prop where
  form : firstFlaw (ironForm fs) fs = none
  clears : carries fs 128 = true
  plain : carries fs 37 = false

theorem clearAsked_alone : ClearAsked [⟨128, 1⟩] := ⟨by decide, by decide, by decide⟩

namespace ClearAsked

variable {fs : List FieldVal} (h : ClearAsked fs)
include h

theorem acts : actsOnIron fs = true := by rw [actsOnIron, h.clears, Bool.or_true]

theorem noDemand : askedFor fs 37 = none := askedFor_eq_none.2 h.plain

theorem admitsIron (u : State) (st : Fin 8) (ch : Fin 3) :
    u.admitsIron st ch fs = (u.isStageOf st ch || u.role st == .engineer) := by
  unfold State.admitsIron
  rw [h.noDemand, h.clears]
  rfl

theorem ironBar (u : State) (ch : Fin 3) (present : Bool) :
    u.ironBar ch fs present = if u.irons[ch].motion ≠ .atIn then some .ironNotIn else none := by
  unfold State.ironBar
  rw [h.clears, h.noDemand, Bool.or_true]
  cases u.irons[ch].motion <;> rfl

theorem actIron (u : State) (ch : Fin 3) : u.actIron ch fs = u.clearIronFault ch := by
  unfold State.actIron
  rw [h.noDemand]
  exact if_pos h.clears

end ClearAsked

theorem State.clearIronFault_none {s : State} {ch : Fin 3} (sound : s.irons[ch].fault = none) : s.clearIronFault ch = s :=
  if_neg (by rw [sound]; decide)

theorem State.clearIronFault_some {s : State} {ch : Fin 3} (h : s.irons[ch].fault ≠ none) :
    s.clearIronFault ch = (s.writeIron ch { s.irons[ch] with fault := none, further := false }).evalHolds .iron :=
  if_pos (Option.isSome_iff_ne_none.2 h)

/-- A cleared fault takes its hold with it, but for an unproved curtain (R24, R61). -/
theorem State.clearIronFault_holds {s : State} {ch : Fin 3} (present : s.settings.irons[ch].present = true)
    (h : s.irons[ch].fault ≠ none) (lawful : HoldsLawful s) (light : s.phase ch ≠ .dark) :
    (unproved s.perfs[ch].ironProved = true → (s.clearIronFault ch).holds[ch] = s.holds[ch]) ∧
      (unproved s.perfs[ch].ironProved = false → (s.clearIronFault ch).hold? ch 4 = none) := by
  rw [State.clearIronFault_some h]
  have frame := s.writeIron_changes ch { s.irons[ch] with fault := none, further := false }
  have irons := s.writeIron_iron ch { s.irons[ch] with fault := none, further := false }
  have stood : (s.hold? ch (holdSlot .iron)).isSome = true := by
    rw [(holdsLawful_iff.1 lawful).due .iron ch HoldCause.automatic_iron trivial light, State.holdReason_iron, present,
      Option.isSome_iff_ne_none.2 h]
    rfl
  generalize s.writeIron ch { s.irons[ch] with fault := none, further := false } = t at *
  have perfs : t.perfs = s.perfs := frame.same .perfs (by decide)
  have holds : t.holds = s.holds ∧ t.holdLists = s.holdLists := frame.same .holds (by decide)
  have reason : (t.holdReason ch .iron).isSome = unproved s.perfs[ch].ironProved := by
    rw [State.holdReason_iron, irons, perfs]
    exact (congrArg (· || _) (Bool.and_false _)).trans (Bool.false_or _)
  have light' : t.phase ch ≠ .dark := by unfold State.phase; rw [perfs]; exact light
  refine ⟨fun needs => ?_, fun proved => ?_⟩
  · rw [State.evalHolds_holds_due, holds.1]
    intro _
    rw [reason, needs, State.hold?, holds.1]
    exact stood
  · have gone := t.evalHolds_due .iron ch (by
      have same : (t.evalHolds .iron).perfs = t.perfs := (t.evalHolds_changes .iron).same .perfs (by decide)
      unfold State.phase at light' ⊢
      rw [same]
      exact light')
    rw [(t.evalHolds_changes .iron).holdReason, reason, proved] at gone
    exact Option.isNone_iff_eq_none.1 (by rw [← Option.not_isSome, show (4 : Fin 8) = holdSlot .iron from rfl, gone]; rfl)

/-! ### The clear fault alone (R61) -/

/-- A clear fault alone is no settings amendment, and writes none. -/
theorem State.acceptIron_clear {u : State} {q : Ask} {ch : Fin 3} {l : Bool} (fields : q.req.fields = [⟨128, 1⟩]) :
    u.acceptIron q ch l = q.says .done ((u.clearIronFault ch).ironFields ch) (u.clearIronFault ch) := by
  have plain : amendsSettings .iron [⟨128, 1⟩] = false := by decide
  have same : [(⟨128, 1⟩ : FieldVal)].foldl IronSettings.amend u.settings.irons[ch] = u.settings.irons[ch] := rfl
  have acts : actsOnIron [⟨128, 1⟩] = true := by decide
  unfold State.acceptIron
  rw [fields, plain, same, acts]
  dsimp only
  rw [if_neg Bool.false_ne_true, bne_self_eq_false, State.applyIron_actions, clearAsked_alone.actIron]
  rfl

section

variable {q : AmendReq} {ch : Fin 3} {st : Fin 8} {s : State} (heard : HeardAlone s q st (ch.1 + 1) 0)
  (present : s.settings.irons[ch].present = true)
include heard

theorem clearFault_fixed (listens : s.role st ≠ .none) (able : s.role st ≠ .view) :
    FixedAsked (.clearFault q) .iron (q.withField 128 1) st s :=
  .alone rfl rfl heard listens able ⟨Nat.le_add_left .., ch.isLt⟩

include present

theorem clearFault_notPermitted (listens : s.role st ≠ .none) (able : s.role st ≠ .view) (engineer : s.role st ≠ .engineer)
    (stage : s.isStageOf st ch = false) :
    ∃ t, exec (.clearFault q) s = .next t ∧ ChangesOnly [.link] s.frameGood t ∧
      Replies t s.settings.part.address q.station .notPermitted none .iron (ch.1 + 1) 0 (s.frameGood.ironFields ch) := by
  have fields : (q.withField 128 1).fields = [⟨128, 1⟩] := heard.fields 128 1
  have index : (q.withField 128 1).index.toNat = ch.1 + 1 := heard.2.2.2.2.2.1
  have clears : ClearAsked (q.withField 128 1).fields := fields ▸ clearAsked_alone
  have barred := State.amendIron_barred (q := ⟨st, .iron, q.withField 128 1⟩) (ch := ch) (l := false) (u := s.frameGood)
    clears.form (fun _ => by rw [State.frameGood_settings, present])
    (by rw [clears.admitsIron, State.frameGood_isStageOf, State.frameGood_role, stage]; simpa using engineer)
  rw [State.ironShown, if_pos clears.acts] at barred
  rw [← index]
  exact (clearFault_fixed heard listens able).turned ((State.amendReq_iron index ..).trans barred)

/-- Admitted, a clear fault wants the channel IN (R61). -/
theorem clearFault_decided (role : s.role st = .engineer ∨ s.isStageOf st ch = true) :
    s.frameGood.amendIron ⟨st, .iron, q.withField 128 1⟩ ch false =
      if s.irons[ch].motion ≠ .atIn then
        Ask.refuses ⟨st, .iron, q.withField 128 1⟩ .ironNotIn (s.frameGood.ironFields ch) s.frameGood
      else Ask.says ⟨st, .iron, q.withField 128 1⟩ .done ((s.frameGood.clearIronFault ch).ironFields ch)
        (s.frameGood.clearIronFault ch) := by
  have fields : (q.withField 128 1).fields = [⟨128, 1⟩] := heard.fields 128 1
  have clears : ClearAsked (q.withField 128 1).fields := fields ▸ clearAsked_alone
  have plain : amendsSettings .iron (q.withField 128 1).fields = false := by rw [fields]; decide
  have admitted : IronAdmitted ⟨st, .iron, q.withField 128 1⟩ ch s.frameGood := by
    refine ⟨clears.form, fun _ => by rw [State.frameGood_settings, present], ?_⟩
    rw [clears.admitsIron, State.frameGood_isStageOf, State.frameGood_role]
    rcases role with engineer | stage
    · rw [engineer]; exact Bool.or_true _
    · rw [stage]; rfl
  rw [State.amendIron_admitted admitted, State.settingsStop_of_none plain]
  dsimp only
  rw [clears.ironBar, State.frameGood_irons]
  by_cases high : s.irons[ch].motion ≠ .atIn
  · rw [if_pos high, if_pos high, State.ironShown, if_pos clears.acts]
  · rw [if_neg high, if_neg high]
    dsimp only
    rw [if_neg (by rw [plain]; simp), State.acceptIron_clear fields]

/-- R61: what a clear fault that is admitted does. -/
theorem clearFault_admitted (role : s.role st = .engineer ∨ s.isStageOf st ch = true) :
    (s.irons[ch].motion ≠ .atIn →
      ∃ t, exec (.clearFault q) s = .next t ∧ ChangesOnly [.link] s.frameGood t ∧
        Replies t s.settings.part.address q.station .refused (some .ironNotIn) .iron (ch.1 + 1) 0
          (s.frameGood.ironFields ch)) ∧
    (s.irons[ch].motion = .atIn →
      ∃ a t, t = (s.frameGood.clearIronFault ch).reply s.settings.part.address q.station a ∧
        exec (.clearFault q) s = .next t ∧
        Replies t s.settings.part.address q.station .done none .iron (ch.1 + 1) 0 (t.ironFields ch)) := by
  have index : (q.withField 128 1).index.toNat = ch.1 + 1 := heard.2.2.2.2.2.1
  have decided := clearFault_decided heard present role
  have listens : s.role st ≠ .none ∧ s.role st ≠ .view := by
    rcases role with engineer | stage
    · rw [engineer]; decide
    · exact State.able_of_phaseRole (.inr stage)
  have fixed := clearFault_fixed heard listens.1 listens.2
  rw [← index]
  refine ⟨fun high => ?_, fun low => ?_⟩
  · rw [if_pos high] at decided
    exact fixed.turned ((State.amendReq_iron index ..).trans decided)
  · rw [if_neg (not_not.2 low)] at decided
    obtain ⟨a, t, left, run, reply⟩ := fixed.done ((State.amendReq_iron index ..).trans decided)
    refine ⟨a, t, left, run, ?_⟩
    rw [left, State.reply_ironFields, ← left]
    exact reply

end

/-! ### An action beside settings (R37, R194) -/

section

variable {q : AmendReq} {ch : Fin 3} {st : Fin 8} {s : State} {id : Byte} {v : Word} {i : Instr}
  (fixed : FixedAsked i .iron (q.withField id v) st s) (index : (q.withField id v).index.toNat = ch.1 + 1)
  (settles : q.before ++ q.after ≠ [])
  (settings : ∀ f ∈ q.before ++ q.after, 1 ≤ f.id.toNat ∧ f.id.toNat ≤ 11 ∧
    formOf .iron (q.withField id v).index (q.withField id v).fields f = none)

section

include settings

theorem ironSettings_beside : ∀ f ∈ q.before ++ q.after, 1 ≤ idOf f ∧ idOf f ≤ topSetting .iron := fun f mem => by
  obtain ⟨low, high, -⟩ := settings f mem
  exact ⟨low, high⟩

/-- The form of an action beside settings is that of the action (R185). -/
theorem ironForm_beside (action : ironForm (q.withField id v).fields ⟨id, v⟩ = none) :
    firstFlaw (ironForm (q.withField id v).fields) (q.withField id v).fields = none := by
  refine firstFlaw_eq_none.2 fun f mem => ?_
  rcases mem_withField.1 mem with rfl | mem
  · exact action
  · obtain ⟨-, -, good⟩ := settings f mem
    rwa [formOf_iron] at good

/-- A clear fault beside settings is a clear fault. -/
theorem clearAsked_beside (hid : id = 128) (hv : v = 1) : ClearAsked (q.withField id v).fields := by
  subst hid hv
  have plain : carries (q.withField 128 1).fields 37 = false :=
    carries_beside (k := .iron) (ironSettings_beside settings) (by decide) (by decide)
  have before : carriedBefore (q.withField 128 1).fields 128 37 = false := by
    rw [← Bool.not_eq_true]
    intro k
    rw [carries_of_carriedBefore k] at plain
    cases plain
  refine ⟨ironForm_beside settings ?_, withField_carries q 128 1, plain⟩
  change orBad (_ && !carriedBefore (q.withField 128 1).fields 128 37) = none
  rw [before]
  decide

/-- A demand beside settings has the form of a demand, and clears nothing. -/
theorem demandForm_beside (hid : id = 37) (hv : v.toNat ≤ 1) :
    firstFlaw (ironForm (q.withField id v).fields) (q.withField id v).fields = none ∧
      carries (q.withField id v).fields 128 = false ∧ carries (q.withField id v).fields 37 = true := by
  subst hid
  have noClear : carries (q.withField 37 v).fields 128 = false :=
    carries_beside (k := .iron) (ironSettings_beside settings) (by decide) (by decide)
  have before : carriedBefore (q.withField 37 v).fields 37 128 = false := by
    rw [← Bool.not_eq_true]
    intro k
    rw [carries_of_carriedBefore k] at noClear
    cases noClear
  refine ⟨ironForm_beside settings ?_, noClear, withField_carries q 37 v⟩
  change orBad (decide (v.toNat ≤ 1) && !carriedBefore (q.withField 37 v).fields 37 128) = none
  rw [before, decide_eq_true hv]
  rfl

end

include fixed index

/-- An action on an absent channel is BAD_FIELD, whatever stands beside it (R37). -/
theorem ironAction_absent (form : firstFlaw (ironForm (q.withField id v).fields) (q.withField id v).fields = none)
    (acts : actsOnIron (q.withField id v).fields = true) (absent : s.settings.irons[ch].present = false) :
    ∃ t, exec i s = .next t ∧ ChangesOnly [.link] s.frameGood t ∧
      Replies t s.settings.part.address q.station .badField none .iron (ch.1 + 1) 0
        (s.frameGood.reads .iron (q.withField id v).index) := by
  rw [State.reads_iron index, ← index]
  exact fixed.turned ((State.amendReq_iron index ..).trans
    (State.amendIron_absent form acts (by rw [State.frameGood_settings, absent])))

/-- A station that is no ENGINEER is NOT_PERMITTED an action beside settings, its role admitting it or not (R194). -/
theorem ironAction_notPermitted (form : firstFlaw (ironForm (q.withField id v).fields) (q.withField id v).fields = none)
    (acts : actsOnIron (q.withField id v).fields = true) (asks : amendsSettings .iron (q.withField id v).fields = true)
    (present : s.settings.irons[ch].present = true)
    (barred : s.role st ≠ .engineer ∨ s.frameGood.admitsIron st ch (q.withField id v).fields = false) :
    ∃ t, exec i s = .next t ∧ ChangesOnly [.link] s.frameGood t ∧
      Replies t s.settings.part.address q.station .notPermitted none .iron (ch.1 + 1) 0
        (s.frameGood.reads .iron (q.withField id v).index) := by
  have there : actsOnIron (q.withField id v).fields = true → s.frameGood.settings.irons[ch].present = true :=
    fun _ => by rw [State.frameGood_settings, present]
  have shown : s.frameGood.ironShown ch (q.withField id v).fields = s.frameGood.ironFields ch := if_pos acts
  have answer : s.frameGood.amendIron ⟨st, .iron, q.withField id v⟩ ch (limitInOf i) =
      Ask.says ⟨st, .iron, q.withField id v⟩ .notPermitted (s.frameGood.ironFields ch) s.frameGood := by
    cases admits : s.frameGood.admitsIron st ch (q.withField id v).fields with
    | false =>
      rw [State.amendIron_barred (q := ⟨st, .iron, q.withField id v⟩) form there admits, shown]
    | true =>
      have engineer : (s.frameGood.role st != .engineer) = true := by
        rw [State.frameGood_role, bne_iff_ne]
        exact barred.resolve_right (by rw [admits]; decide)
      have stop : s.frameGood.settingsStop ⟨st, .iron, q.withField id v⟩ = some .notPermitted :=
        (State.settingsStop_of asks).trans (if_pos engineer)
      rw [State.amendIron_admitted (q := ⟨st, .iron, q.withField id v⟩) ⟨form, there, admits⟩, stop, shown]
  rw [State.reads_iron index, ← index]
  exact fixed.turned ((State.amendReq_iron index ..).trans answer)

end

/-! ### The channel after an accepted request, every performance DARK (R33, R34, R61) -/

/-- A channel whose recorded fault is cleared (R61). -/
def Iron.clearedFault (x : Iron) : Iron := if x.fault = none then x else { x with fault := none, further := false }

/-- A channel made present or absent (R34, R62). -/
def Iron.presence (cfg : IronSettings) (limitIn pressed : Bool) (now : Nat) : Iron :=
  if cfg.present then Iron.atStart cfg limitIn pressed now else { Iron.absent with sampleAt := now }

section

variable {s : State} (dark : ∀ a, s.phase a = .dark) (ch : Fin 3)
include dark

theorem State.clearIronFault_dark : ChangesOnly [.irons, .stations] s (s.clearIronFault ch) ∧
    (s.clearIronFault ch).irons = put s.irons ch s.irons[ch].clearedFault := by
  unfold Iron.clearedFault
  by_cases sound : s.irons[ch].fault = none
  · rw [State.clearIronFault_none sound, if_pos sound, put_self]
    exact ⟨.refl _ _, rfl⟩
  · rw [State.clearIronFault_some sound, if_neg sound]
    have frame := s.writeIron_changes ch { s.irons[ch] with fault := none, further := false }
    rw [State.evalHolds_dark fun a => by
      unfold State.phase
      rw [(frame.same .perfs (by decide) : (s.writeIron ch _).perfs = s.perfs)]
      exact dark a]
    exact ⟨frame, State.writeIron_irons ..⟩

theorem State.ironPresence_dark (l : Bool) : ChangesOnly [.irons, .stations] s (s.ironPresence ch l) ∧
    (s.ironPresence ch l).irons =
      put s.irons ch (Iron.presence s.settings.irons[ch] l (s.lines.pressed.getLsbD ch.1) s.now) := by
  unfold State.ironPresence
  dsimp only
  rw [← Iron.presence]
  have frame := (s.writeIron_changes ch (Iron.presence s.settings.irons[ch] l (s.lines.pressed.getLsbD ch.1) s.now)).andThen
    (rs := [.irons, .stations]) (State.markIf_changes _ s.settings.irons[ch].present .iron)
  rw [State.evalHolds_dark fun a => by
    unfold State.phase
    rw [(frame.same .perfs (by decide) : (State.markIf _ _ _).perfs = s.perfs)]
    exact dark a]
  refine ⟨frame, ?_⟩
  rw [State.markIf_irons]
  exact State.writeIron_irons ..

/-- A clear fault beside settings: first the fault, then the presence that the settings take away (log entry 27). -/
theorem State.applyIron_clears {fs : List FieldVal} (clears : ClearAsked fs) (present : s.settings.irons[ch].present = true)
    (new : IronSettings) (l : Bool) :
    ChangesOnly [.settings, .store, .irons, .stations] s (s.applyIron ch fs new l) ∧
      SettingsWritten (s.settings.withIron ch new) s (s.applyIron ch fs new l) ∧
      (s.applyIron ch fs new l).irons = put s.irons ch
        (if new.present = false then { Iron.absent with sampleAt := s.now } else s.irons[ch].clearedFault) := by
  rw [State.applyIron_settled]
  dsimp only
  rw [clears.actIron]
  have written := (settingsAt_iron ch).written s new
  have settled := s.settled_changes (s.settings.withIron ch new) (s.settings.irons[ch] != new)
  generalize s.settled (s.settings.withIron ch new) (s.settings.irons[ch] != new) = u at *
  have phases (t : State) (h : t.perfs = s.perfs) (a : Fin 3) : t.phase a = .dark := by
    unfold State.phase; rw [h]; exact dark a
  have irons : u.irons = s.irons := settled.same .irons (by decide)
  have now : u.now = s.now := settled.same .clock (by decide)
  have cfg : u.settings.irons[ch] = new := by rw [written.1]; exact put_same ..
  obtain ⟨cleared, faults⟩ := State.clearIronFault_dark (phases u (settled.same .perfs (by decide))) ch
  rw [irons] at faults
  have perfs := (settled.andThen (rs := [.settings, .store, .irons, .stations]) cleared).same .perfs (by decide)
  have whole := settled.andThen (rs := [.settings, .store, .irons, .stations]) cleared
  have written := written.andThen cleared
  have clock : (u.clearIronFault ch).now = s.now := (cleared.same .clock (by decide) : _ = u.now).trans now
  have cfg : (u.clearIronFault ch).settings.irons[ch] = new := by
    rw [(cleared.same .settings (by decide) : _ = u.settings), cfg]
  generalize u.clearIronFault ch = t at *
  cases there : new.present with
  | true =>
    rw [if_neg (by rw [present]; decide), if_neg (by decide)]
    exact ⟨whole, written, faults⟩
  | false =>
    obtain ⟨frame, iron⟩ := State.ironPresence_dark (phases t perfs) ch l
    rw [if_pos (by rw [present]; decide), if_pos rfl]
    refine ⟨whole.andThen frame, written.andThen frame, ?_⟩
    rw [iron, faults, put_put, cfg, Iron.presence, there, clock]
    rfl

end

section

variable {q : AmendReq} {ch : Fin 3} {st : Fin 8} {s : State}
  (fixed : FixedAsked (.clearFault q) .iron (q.withField 128 1) st s)
  (index : (q.withField 128 1).index.toNat = ch.1 + 1) (present : s.settings.irons[ch].present = true)
  (clears : ClearAsked (q.withField 128 1).fields) (settles : amendsSettings .iron (q.withField 128 1).fields = true)
include fixed index present clears settles

/-- The owner's decision on an ENGINEER's clear fault beside settings, in the order of R194 (log entry 34). -/
theorem clearFault_engineer (engineer : s.role st = .engineer) (l : Bool) :
    s.frameGood.amendIron ⟨st, .iron, q.withField 128 1⟩ ch l =
      match s.frameGood.settingsBar st with
      | some status => Ask.says ⟨st, .iron, q.withField 128 1⟩ status (s.frameGood.ironFields ch) s.frameGood
      | none =>
          if s.irons[ch].motion ≠ .atIn then
            Ask.refuses ⟨st, .iron, q.withField 128 1⟩ .ironNotIn (s.frameGood.ironFields ch) s.frameGood
          else if (s.settings.irons[ch].asked (q.withField 128 1).fields).contradicts = true then
            Ask.says ⟨st, .iron, q.withField 128 1⟩ .badField (s.frameGood.ironFields ch) s.frameGood
          else s.frameGood.acceptIron ⟨st, .iron, q.withField 128 1⟩ ch l := by
  have admitted : IronAdmitted ⟨st, .iron, q.withField 128 1⟩ ch s.frameGood := by
    refine ⟨clears.form, fun _ => by rw [State.frameGood_settings, present], ?_⟩
    rw [clears.admitsIron, State.frameGood_isStageOf, State.frameGood_role, engineer]
    exact Bool.or_true _
  rw [State.amendIron_admitted admitted, State.settingsStop_of settles, State.frameGood_settings,
    IronSettings.foldl_amend fixed.once, State.ironShown, if_pos clears.acts]
  cases s.frameGood.settingsBar st with
  | some status => rfl
  | none =>
    dsimp only
    rw [clears.ironBar, State.frameGood_irons]
    by_cases high : s.irons[ch].motion ≠ .atIn
    · rw [if_pos high, if_pos high]
    · rw [if_neg high, if_neg high]
      exact if_congr (and_iff_right settles) rfl rfl

/-- R194, R33, R61: what turns a clear fault beside settings away. -/
theorem clearFault_beside_turned {status : Status} {why : Option Reason}
    (bar : (match s.lockedOut st with
      | some w => some w
      | none =>
        if s.irons[ch].motion ≠ .atIn then some (.refused, some .ironNotIn)
        else s.settingsClash .iron (q.withField 128 1).index (q.withField 128 1).fields) = some (status, why)) :
    ∃ t, exec (.clearFault q) s = .next t ∧ ChangesOnly [.link] s.frameGood t ∧
      Replies t s.settings.part.address q.station status why .iron (ch.1 + 1) 0
        (s.frameGood.reads .iron (q.withField 128 1).index) := by
  by_cases engineer : s.role st = .engineer
  · have decided := clearFault_engineer fixed index present clears settles engineer (limitInOf (.clearFault q))
    rw [← s.frameGood_lockedOut, State.lockedOut_eq] at bar
    rw [State.reads_iron index, ← index]
    have turned := fixed.turned (status := status) (why := why) (fields := s.frameGood.ironFields ch)
    refine turned ((State.amendReq_iron index ..).trans (decided.trans ?_))
    cases stop : s.frameGood.settingsBar st with
    | some w => rw [stop] at bar; cases bar; rfl
    | none =>
      rw [stop] at bar
      simp only [Option.map_none] at bar ⊢
      by_cases high : s.irons[ch].motion ≠ .atIn
      · rw [if_pos high] at bar ⊢
        cases bar
        rfl
      · rw [if_neg high] at bar ⊢
        unfold State.settingsClash at bar
        rw [entryOf_eq_some index] at bar
        dsimp only [Option.bind_some] at bar
        rw [if_neg fun k => high k.2] at bar
        split at bar
        next contradicts => cases bar; exact if_pos contradicts
        next => cases bar
  · have first : s.lockedOut st = some (.notPermitted, none) := if_pos engineer
    rw [first] at bar
    cases bar
    exact ironAction_notPermitted fixed index clears.form clears.acts settles present (.inl engineer)

/-- R33, R61, R197: what an accepted clear fault beside settings does. -/
theorem clearFault_beside_applied (free : s.lockedOut st = none) (low : s.irons[ch].motion = .atIn)
    (agree : s.settingsClash .iron (q.withField 128 1).index (q.withField 128 1).fields = none) {asked new : Settings}
    (hasked : asked = s.settings.asked .iron (q.withField 128 1).index (q.withField 128 1).fields)
    (hnew : new = asked.ranged .iron (q.withField 128 1).index) :
    ∃ t, exec (.clearFault q) s = .next t ∧
      ChangesOnly [.link, .settings, .store, .irons, .stations] s.frameGood t ∧
      SettingsWritten new s.frameGood t ∧ OnlyAt ch s.frameGood.irons t.irons ∧
      t.irons[ch] = (if new.irons[ch].present = false then { Iron.absent with sampleAt := s.now }
        else if s.irons[ch].fault = none then s.irons[ch] else { s.irons[ch] with fault := none, further := false }) ∧
      Replies t s.settings.part.address q.station (if asked = new then .done else .adjusted) none .iron (ch.1 + 1) 0
        (t.reads .iron (q.withField 128 1).index) := by
  have engineer : s.role st = .engineer := by
    by_contra other
    rw [State.lockedOut, if_pos other] at free
    cases free
  have bars : s.frameGood.settingsBar st = none := by
    rw [← s.frameGood_lockedOut, State.lockedOut_eq, Option.map_eq_none_iff] at free
    exact free
  have dark (a : Fin 3) : s.frameGood.phase a = .dark := by
    rw [State.frameGood_phase]
    by_contra light
    unfold State.lockedOut at free
    rw [if_neg (not_not.2 engineer)] at free
    split at free
    · cases free
    · rw [if_pos (.inl ⟨a, light⟩)] at free
      cases free
  have fits : ¬(s.settings.irons[ch].asked (q.withField 128 1).fields).contradicts = true := by
    unfold State.settingsClash at agree
    rw [entryOf_eq_some index] at agree
    dsimp only [Option.bind_some] at agree
    rw [if_neg fun k => k.2 low] at agree
    intro contradicts
    rw [if_pos contradicts] at agree
    cases agree
  have decided := clearFault_engineer fixed index present clears settles engineer (limitInOf (.clearFault q))
  rw [bars] at decided
  dsimp only at decided
  rw [if_neg (not_not.2 low), if_neg fits, State.acceptIron, settles] at decided
  dsimp only at decided
  rw [if_pos rfl, clears.acts, IronSettings.foldl_amend fixed.once, IronSettings.inRange_eq, State.frameGood_settings,
    (settingsAt_iron ch).okStatus_eq s.settings] at decided
  obtain ⟨a, t, left, run, reply⟩ := fixed.done ((State.amendReq_iron index ..).trans decided)
  have writes := State.applyIron_clears dark ch clears (by rw [State.frameGood_settings, present])
    (s.settings.irons[ch].asked (q.withField 128 1).fields).ranged (limitInOf (.clearFault q))
  have asks : asked = s.settings.withIron ch (s.settings.irons[ch].asked (q.withField 128 1).fields) :=
    hasked.trans (Settings.asked_iron index ..)
  have gets : asked.irons[ch] = s.settings.irons[ch].asked (q.withField 128 1).fields := by rw [asks]; exact put_same ..
  have news : new = s.settings.withIron ch (s.settings.irons[ch].asked (q.withField 128 1).fields).ranged := by
    rw [hnew, Settings.ranged_iron index, gets, asks]
    exact (settingsAt_iron ch).set_set ..
  have present' : new.irons[ch] = (s.settings.irons[ch].asked (q.withField 128 1).fields).ranged := by
    rw [news]; exact put_same ..
  have now : s.frameGood.now = s.now := s.frameGood_changes.same .clock (by decide)
  have irons : s.frameGood.irons = s.irons := s.frameGood_irons
  rw [← asks, ← news, index] at reply
  rw [State.frameGood_settings, ← news, ← present', now, irons] at writes
  rw [← present'] at left reply
  have read := State.reads_iron index t
  rw [left, State.reply_ironFields, ← left] at read
  rw [irons]
  generalize s.frameGood.applyIron ch (q.withField 128 1).fields new.irons[ch] (limitInOf (.clearFault q)) = v at *
  obtain ⟨frame, written, put_⟩ := writes
  have sent : ChangesOnly [.link] v t := left ▸ State.reply_changes ..
  have there : t.irons = put s.irons ch (if new.irons[ch].present = false then { Iron.absent with sampleAt := s.now }
      else s.irons[ch].clearedFault) := (sent.same .irons (by decide) : t.irons = v.irons).trans put_
  refine ⟨t, run, frame.andThen sent, written.andThen sent, there ▸ put_onlyAt _ _ _, ?_, ?_⟩
  · rw [there, put_same]
    rfl
  · rw [read]
    exact reply

end

/-- A demand is no ENGINEER's (R37). -/
theorem State.admitsIron_engineer {u : State} {st : Fin 8} {ch : Fin 3} {fs : List FieldVal}
    (demand : carries fs 37 = true) (engineer : u.role st = .engineer) : u.admitsIron st ch fs = false := by
  obtain ⟨v, asked⟩ := exists_askedFor demand
  have stage : u.isStageOf st ch = false := by
    unfold State.isStageOf
    rw [engineer]
    rfl
  unfold State.admitsIron
  rw [asked, stage, engineer]
  rcases eq_or_ne v 1 with rfl | other
  · rfl
  · simp [other]

/-- R37, R194: a demand beside settings is nobody's. -/
theorem demand_beside {q : AmendReq} {ch : Fin 3} {st : Fin 8} {s : State} {v : Word} {i : Instr}
    (fixed : FixedAsked i .iron (q.withField 37 v) st s) (index : (q.withField 37 v).index.toNat = ch.1 + 1)
    (settles : q.before ++ q.after ≠ []) (way : v.toNat ≤ 1)
    (settings : ∀ f ∈ q.before ++ q.after, 1 ≤ f.id.toNat ∧ f.id.toNat ≤ 11 ∧
      formOf .iron (q.withField 37 v).index (q.withField 37 v).fields f = none) {status : Status}
    (bar : status = if s.settings.irons[ch].present = false then .badField else .notPermitted) :
    ∃ t, exec i s = .next t ∧ ChangesOnly [.link] s.frameGood t ∧
      Replies t s.settings.part.address q.station status none .iron (ch.1 + 1) 0
        (s.frameGood.reads .iron (q.withField 37 v).index) := by
  obtain ⟨form, -, demand⟩ := demandForm_beside settings rfl way
  have acts : actsOnIron (q.withField 37 v).fields = true := by rw [actsOnIron, demand]; rfl
  subst bar
  cases there : s.settings.irons[ch].present with
  | false => exact ironAction_absent fixed index form acts there
  | true =>
    refine ironAction_notPermitted fixed index form acts (amendsSettings_beside (ironSettings_beside settings) settles) there
      ?_
    by_cases engineer : s.role st = .engineer
    · exact .inr (State.admitsIron_engineer demand (by rwa [State.frameGood_role]))
    · exact .inl engineer

/-- Settles O38. -/
theorem clearFaultEmptiesField : Obligations.ClearFaultEmptiesField := by
  unfold Obligations.ClearFaultEmptiesField
  refine ⟨fun q ch st s u x heard hu hx present => ?_,
    fun q r act ch st s u which heard index issue hu listens able once settles settings => ?_⟩
  · subst hu hx
    refine ⟨clearFault_notPermitted heard present, fun role => ?_⟩
    obtain ⟨turned, applied⟩ := clearFault_admitted heard present role
    refine ⟨turned, fun low sound => ?_, fun low faulty => ?_⟩
    · obtain ⟨a, t, left, run, reply⟩ := applied low
      rw [State.clearIronFault_none (by rwa [State.frameGood_irons])] at left
      have record : t.ironFields ch = s.frameGood.ironFields ch := by rw [left, State.reply_ironFields]
      exact ⟨t, run, left ▸ State.reply_changes .., record ▸ reply⟩
    · obtain ⟨a, t, left, run, reply⟩ := applied low
      have faulty' : s.frameGood.irons[ch].fault ≠ none := by rwa [State.frameGood_irons]
      have frame := s.frameGood.clearIronFault_changes ch
      have irons : (s.frameGood.clearIronFault ch).irons =
          put s.frameGood.irons ch { s.irons[ch] with fault := none, further := false } := by
        rw [State.clearIronFault_some faulty']
        refine ((State.evalHolds_changes ..).same .irons (by decide)).trans ?_
        rw [State.writeIron_irons, State.frameGood_irons]
      have holds := fun lawful light => State.clearIronFault_holds (s := s.frameGood) (ch := ch)
        (by rw [State.frameGood_settings, present]) faulty' lawful light
      rw [State.frameGood_perfs, State.frameGood_phase] at holds
      generalize s.frameGood.clearIronFault ch = v at *
      have sent : ChangesOnly [.link] v t := left ▸ State.reply_changes ..
      have there : t.irons = v.irons := sent.same .irons (by decide)
      have held : t.holds = v.holds ∧ t.holdLists = v.holdLists := sent.same .holds (by decide)
      refine ⟨t, run, (frame.andThen (rs := [.link, .irons, .holds, .stations]) sent), ?_, ?_, fun lawful light => ?_, reply⟩
      · rw [there, irons, put_same]
      · rw [there, irons]
        exact put_onlyAt _ _ _
      · unfold State.hold? at holds ⊢
        rw [held.1]
        exact holds lawful light
  · subst hu
    have fixed (i : Instr) (named : requestOf i = some (.amend, .iron, r)) : FixedAsked i .iron r st s :=
      ⟨named, rfl, heard, listens, able, once, by rw [index]; exact ⟨Nat.le_add_left .., ch.isLt⟩, issue⟩
    rcases which with ⟨rfl, rfl⟩ | ⟨rfl, rfl⟩ | ⟨rfl, rfl⟩
    · have clears := clearAsked_beside settings rfl rfl
      have asks := amendsSettings_beside (id := 128) (v := 1) (ironSettings_beside settings) settles
      refine ⟨ironAction_absent (fixed _ rfl) index clears.form clears.acts, fun present => ⟨fun other => absurd rfl other,
        fun _ asked hasked new hnew => ⟨fun status why bar => ?_, fun free low agree => ?_⟩⟩⟩
      · exact clearFault_beside_turned (fixed _ rfl) index present clears asks bar
      · exact clearFault_beside_applied (fixed _ rfl) index present clears asks free low agree hasked hnew
    · exact ⟨fun absent => demand_beside (fixed _ rfl) index settles (by decide) settings (if_pos absent).symm,
        fun present => ⟨fun _ => demand_beside (fixed _ rfl) index settles (by decide) settings
          (if_neg (by rw [present]; decide)).symm, Instr.noConfusion⟩⟩
    · exact ⟨fun absent => demand_beside (fixed _ rfl) index settles (by decide) settings (if_pos absent).symm,
        fun present => ⟨fun _ => demand_beside (fixed _ rfl) index settles (by decide) settings
          (if_neg (by rw [present]; decide)).symm, Instr.noConfusion⟩⟩

end Sys2Proof.Machine
end

section
/-!
PROOFS. The detection zones: what a change of band and the two timers of a zone do (R64, R68..R75).
-/

namespace Sys2Proof.Machine
-- One proof after another: the whole text stays within the memory of one compile.
set_option Elab.async false

/-! ## The condition of a zone (R75) -/

/-- A zone with its condition derived. -/
def Zone.judged (x : Zone) : Zone := { x with condition := x.derived }

section

variable (s : State) (z : Fin 24)

theorem State.deriveCondition_zones : (s.deriveCondition z).zones = put s.zones z s.zones[z].judged := by
  unfold State.deriveCondition Zone.judged
  dsimp only
  split
  next same => rw [← same, put_self]
  · exact ((State.evalHolds_changes ..).same .zones (by decide)).trans (State.writeZone_zones ..)

/-- A zone written and judged again is the only one that changes. -/
theorem State.writeZone_judged (x : Zone) : ((s.writeZone z x).deriveCondition z).zones = put s.zones z x.judged := by
  rw [State.deriveCondition_zones, State.writeZone_zones, put_same, put_put]

end

/-! ## A change of band (R64, R68, R70..R72, R74) -/

section

variable {now : Nat} {cfg : ZoneSettings} {b : Band} {x : Zone}

/-- The confirmation mechanism leaves the band, the isolation, the loop and the incident alone. -/
theorem Zone.confirmation_kept : (x.confirmation now cfg b).band = x.band ∧
    (x.confirmation now cfg b).isolated = x.isolated ∧ (x.confirmation now cfg b).loopFault = x.loopFault ∧
    (x.confirmation now cfg b).incident = x.incident ∧ (x.confirmation now cfg b).loopAt = x.loopAt := by
  unfold Zone.confirmation
  split
  all_goals
    split
    · exact ⟨rfl, rfl, rfl, rfl, rfl⟩
    · exact ⟨rfl, rfl, rfl, rfl, rfl⟩

/-- The loop timer at a band event, and nothing else of the zone (R74). -/
theorem Zone.loopTimer_eq : x.loopTimer now b = { x with loopAt :=
    if x.loopFault = true then (if b = .normal then some (now + 5000) else none)
    else if b = .openLoop ∨ b = .short then
      (if x.band = .openLoop ∨ x.band = .short then x.loopAt else some (now + 5000))
    else none } := by
  have bands (b : Band) : faultBand b = true ↔ b = .openLoop ∨ b = .short := by simp [faultBand]
  unfold Zone.loopTimer
  simp only [bands]
  split
  · rfl
  · split
    · split
      · rfl
      · rfl
    · rfl

theorem Zone.confirmation_starts (idle : x.detection = .normal) (active : b = .active) (free : x.isolated = false) :
    x.confirmation now cfg b = x.startConfirm now cfg.confirmTime := by
  unfold Zone.confirmation
  rw [idle]
  exact if_pos ⟨active, free⟩

theorem Zone.confirmation_idle (idle : x.detection = .normal) (quiet : b ≠ .active ∨ x.isolated = true) :
    x.confirmation now cfg b = x := by
  unfold Zone.confirmation
  rw [idle]
  refine if_neg ?_
  rintro ⟨active, free⟩
  rcases quiet with other | isolated
  · exact other active
  · rw [free] at isolated; cases isolated

theorem Zone.confirmation_ends (pending : x.detection = .pending) (over_ : b ≠ .active) :
    x.confirmation now cfg b = x.transient now := by
  unfold Zone.confirmation
  rw [pending]
  exact if_neg over_

theorem Zone.confirmation_alarm (alarm : x.detection = .alarm) : x.confirmation now cfg b =
    { x with detection := if b = .active ∨ cfg.type = .callpoint then .alarm else .normal } := by
  unfold Zone.confirmation
  rw [alarm]
  dsimp only
  split
  · rw [← alarm]
  · rfl

theorem Zone.confirmation_noise (h : x.detection ≠ .pending ∨ b = .active) :
    (x.confirmation now cfg b).noise = x.noise ∧ (x.confirmation now cfg b).quietAt = x.quietAt := by
  unfold Zone.confirmation
  split
  next => split <;> exact ⟨rfl, rfl⟩
  next pending => rw [if_pos (h.resolve_left (not_not.2 pending))]; exact ⟨rfl, rfl⟩
  next => split <;> exact ⟨rfl, rfl⟩

end

theorem State.bandChanges_none {s : State} {z : Fin 24} {b : Band}
    (h : s.settings.zones[z].present = false ∨ s.zones[z].band = b) :
    s.bandChanges z b = { s with lines := { s.lines with bands := put s.lines.bands z b } } := by
  refine if_pos ?_
  rcases h with absent | same
  · rw [absent]; rfl
  · rw [same, beq_self_eq_true, Bool.or_true]

/-- The line is followed for every zone (R64). -/
theorem State.bandChanges_line (s : State) (z : Fin 24) (b : Band) : (s.bandChanges z b).lines.bands[z] = b := by
  unfold State.bandChanges
  dsimp only
  split
  · exact put_same ..
  · exact (congrArg (fun l : Lines => l.bands[z]) (((State.writeZone_changes ..).andThen (rs := [.zones, .holds, .stations])
      (State.deriveCondition_changes ..)).same .lines (by decide))).trans (put_same ..)

/-- A change of band of a present zone. -/
theorem State.bandChanges_some {s : State} {z : Fin 24} {b : Band} (present : s.settings.zones[z].present = true)
    (moves : s.zones[z].band ≠ b) : (s.bandChanges z b).zones = put s.zones z
      { (s.zones[z].confirmation s.now s.settings.zones[z] b).loopTimer s.now b with band := b }.judged := by
  have taken : ¬(!s.settings.zones[z].present || s.zones[z].band == b) = true := by
    rw [present, beq_false_of_ne moves]; decide
  unfold State.bandChanges
  rw [if_neg taken]
  exact State.writeZone_judged ..

/-- Settles O44. -/
theorem bandEventFollowed : Obligations.BandEventFollowed := by
  unfold Obligations.BandEventFollowed
  intro z b s x cfg powered hcfg hx
  subst hcfg hx
  have run := s.takes_powered (State.bandChanges z b) powered
  have frame := s.bandChanges_changes z b
  have line := s.bandChanges_line z b
  refine ⟨fun h => ⟨_, run, ?_, line⟩, fun present moves => ⟨_, run, frame, ?_⟩⟩
  · rw [State.bandChanges_none h]
    exact s.lines_changes _
  · have zones := State.bandChanges_some present moves
    generalize s.bandChanges z b = t at *
    have here := (congrArg (fun v : Vector Zone 24 => v[z]) zones).trans (put_same ..)
    dsimp only at here
    refine ⟨zones ▸ put_onlyAt _ _ _, line, ?_⟩
    obtain ⟨band, isolated, loopFault, incident, loopAt⟩ :=
      Zone.confirmation_kept (x := s.zones[z]) (now := s.now) (cfg := s.settings.zones[z]) (b := b)
    rw [Zone.loopTimer_eq, loopFault, band, loopAt] at here
    rw [here]
    refine ⟨rfl, isolated, rfl, incident, fun idle active free => ?_, fun idle quiet => ?_, fun pending over_ => ?_,
      fun alarm => ?_, fun h => Zone.confirmation_noise h, rfl, rfl⟩
    · rw [Zone.confirmation_starts idle active free]; exact ⟨rfl, rfl⟩
    · rw [Zone.confirmation_idle idle quiet]; exact ⟨idle, rfl⟩
    · rw [Zone.confirmation_ends pending over_]
      refine ⟨rfl, rfl, rfl, ?_⟩
      exact if_congr (by rw [show Config.noiseTop = 32 from rfl]; omega) rfl rfl
    · rw [Zone.confirmation_alarm alarm]; rfl

/-! ## The timers of a zone (R72, R74) -/

/-- Settles O46. -/
theorem zoneTimersRun : Obligations.ZoneTimersRun := by
  unfold Obligations.ZoneTimersRun
  intro z s x powered hx
  subst hx
  refine ⟨fun d due => ?_, fun d due => ?_, fun idle => State.takes_still ?_, fun idle => State.takes_still ?_⟩
  · have quiet : s.quietRuns z = ((s.reach d).writeZone z { s.zones[z] with
        noise := s.zones[z].noise - 1
        quietAt := if s.zones[z].noise - 1 = 0 then none else some ((s.reach d).now + Config.quietMs) }).deriveCondition z := by
      unfold State.quietRuns
      dsimp only
      rw [due]
    have frame := s.quietRuns_changes z
    have now : (s.quietRuns z).now = max s.now d := by
      rw [quiet]
      exact ((State.writeZone_changes ..).andThen (rs := [.zones, .holds, .stations])
        (State.deriveCondition_changes ..)).same .clock (by decide)
    have zones : (s.quietRuns z).zones = _ := quiet ▸ State.writeZone_judged ..
    refine ⟨_, s.takes_powered (State.quietRuns z) powered, frame, ?_⟩
    generalize s.quietRuns z = t at *
    have here := (congrArg (fun v : Vector Zone 24 => v[z]) zones).trans (put_same ..)
    dsimp only at here
    refine ⟨zones ▸ put_onlyAt _ _ _, now, ?_⟩
    rw [here, now]
    have low : s.zones[z].noise - 1 = 0 ↔ s.zones[z].noise ≤ 1 := by omega
    simp only [low, Zone.judged]
    rfl
  · have loop : s.loopRuns z = ((s.reach d).writeZone z { s.zones[z] with
        loopFault := !s.zones[z].loopFault, loopAt := none }).deriveCondition z := by
      unfold State.loopRuns
      dsimp only
      rw [due]
    have frame := s.loopRuns_changes z
    have now : (s.loopRuns z).now = max s.now d := by
      rw [loop]
      exact ((State.writeZone_changes ..).andThen (rs := [.zones, .holds, .stations])
        (State.deriveCondition_changes ..)).same .clock (by decide)
    have zones : (s.loopRuns z).zones = _ := loop ▸ State.writeZone_judged ..
    refine ⟨_, s.takes_powered (State.loopRuns z) powered, frame, ?_⟩
    generalize s.loopRuns z = t at *
    have here := (congrArg (fun v : Vector Zone 24 => v[z]) zones).trans (put_same ..)
    dsimp only at here
    refine ⟨zones ▸ put_onlyAt _ _ _, now, ?_⟩
    rw [here]
    rfl
  · unfold State.quietRuns
    dsimp only
    rw [idle]
  · unfold State.loopRuns
    dsimp only
    rw [idle]

end Sys2Proof.Machine
end

section
/-!
PROOFS. The timers of a supervised circuit (R157, R158, R160, R161).
-/

namespace Sys2Proof.Machine
-- One proof after another: the whole text stays within the memory of one compile.
set_option Elab.async false

/-! ## A circuit written and its condition announced (R164) -/

/-- A circuit written with nothing changed that marks CIRCUIT (R164). -/
theorem State.writeCircuit_quiet {s : State} {c : Fin 16} {x : Circuit} (condition : x.condition = s.circuits[c].condition)
    (count : x.overloads = s.circuits[c].overloads) (demand : x.demand = s.circuits[c].demand)
    (pattern : x.pattern = s.circuits[c].pattern) (drive : x.drive = s.circuits[c].drive) :
    ChangesOnly [.circuits] s (s.writeCircuit c x) := by
  have whole : s.writeCircuit c x = { s with circuits := put s.circuits c x } := by
    unfold State.writeCircuit
    dsimp only
    rw [condition, count, demand, pattern, drive]
    simp only [bne_self_eq_false, Bool.or_self, Bool.and_false]
    rfl
  rw [whole]
  constructor; intro p hp; cases p <;> simp_all [Part.same]

theorem isChime_of_zoneOfChime {c : Fin 16} {z : Fin 8} (h : zoneOfChime c = some z) : isChime c = true := by
  unfold zoneOfChime at h
  split at h
  next inside => simpa [isChime] using inside
  next => cases h

/-- A change that loses no chime is the circuit's own, and its hold's (R164). -/
theorem State.changeCircuit_own {s : State} {c : Fin 16} {x : Circuit}
    (h : isChime c = false ∨ s.circuits[c].condition ≠ .sound ∨ x.condition = s.circuits[c].condition) :
    ChangesOnly [.circuits, .holds, .stations] s (s.changeCircuit c x) ∧
      (s.changeCircuit c x).circuits = put s.circuits c x := by
  have frame := s.writeCircuit_changes c x
  have written := State.writeCircuit_circuits s c x
  have alone : ChangesOnly [.circuits, .holds, .stations] s (s.writeCircuit c x) := frame.mono (by decide)
  unfold State.changeCircuit State.announceCondition
  dsimp only
  split
  · exact ⟨alone, written⟩
  next changed =>
    split
    · exact ⟨frame.andThen (State.evalHolds_changes ..),
        ((State.evalHolds_changes ..).same .circuits (by decide)).trans written⟩
    · split
      next z chime =>
        rw [written, put_same] at changed
        have unsound : s.circuits[c].condition ≠ .sound := by
          rcases h with other | unsound | same
          · rw [isChime_of_zoneOfChime chime] at other; cases other
          · exact unsound
          · exact absurd same.symm changed
        rw [if_neg unsound]
        exact ⟨alone, written⟩
      · exact ⟨alone, written⟩

/-- Every circuit's condition, count and test time as they were. -/
def JudgedAlike (s t : State) : Prop :=
  ∀ c : Fin 16, t.circuits[c].condition = s.circuits[c].condition ∧ t.circuits[c].overloads = s.circuits[c].overloads ∧
    t.circuits[c].testAt = s.circuits[c].testAt

theorem Circuit.setDrive_kept (now : Nat) (x : Circuit) : (x.setDrive now).condition = x.condition ∧
    (x.setDrive now).overloads = x.overloads ∧ (x.setDrive now).testAt = x.testAt := by
  unfold Circuit.setDrive
  split
  · split
    · exact ⟨rfl, rfl, rfl⟩
    · exact ⟨rfl, rfl, rfl⟩
  · split
    · exact ⟨rfl, rfl, rfl⟩
    · exact ⟨rfl, rfl, rfl⟩

/-- A demand judges nothing (R156). -/
theorem Circuit.demandEvent_kept (now : Nat) (on : Bool) (pat : Pattern) (x : Circuit) :
    (x.demandEvent now on pat).condition = x.condition ∧ (x.demandEvent now on pat).overloads = x.overloads ∧
      (x.demandEvent now on pat).testAt = x.testAt := by
  unfold Circuit.demandEvent
  split
  · exact ⟨rfl, rfl, rfl⟩
  · extract_lets y w
    obtain ⟨condition, count, test⟩ := Circuit.setDrive_kept now y
    split
    · exact ⟨condition, count, test⟩
    · exact ⟨condition, count, test⟩

/-- Bursts judge no circuit. -/
theorem judgedAlike_closed (s : State) : BurstClosed (JudgedAlike s) where
  clock _ h := h
  mark _ h := h
  table _ _ h := h
  czone _ _ _ _ h := h
  chime {t} z on h c := by
    obtain ⟨condition, count, test⟩ := Circuit.demandEvent_kept t.now on .continuous t.circuits[chimeOf z]
    rw [State.demand, State.writeCircuit_circuits]
    by_cases own : c = chimeOf z
    · rw [own, put_same, condition, count, test]
      exact h (chimeOf z)
    · rw [put_other _ _ _ _ own]
      exact h c
  flicker {t} z code h c := by
    rw [(State.flickerRequest_changes t z code).same .circuits (by decide)]
    exact h c

/-- What a change of a circuit announces judges none. -/
theorem State.changeCircuit_judged (s : State) (c : Fin 16) (x : Circuit) :
    JudgedAlike (s.writeCircuit c x) (s.changeCircuit c x) := by
  unfold State.changeCircuit State.announceCondition
  dsimp only
  have still : JudgedAlike (s.writeCircuit c x) (s.writeCircuit c x) := fun _ => ⟨rfl, rfl, rfl⟩
  split
  · exact still
  · split
    · intro d
      rw [(State.evalHolds_changes ..).same .circuits (by decide)]
      exact ⟨rfl, rfl, rfl⟩
    · split
      · split
        · exact (judgedAlike_closed _).chimeLost _ still
        · exact still
      · exact still

/-! ## The timers (R157, R158, R160, R161) -/

/-- The open-load test judges the condition alone (R158). -/
theorem Circuit.tested_eq (x : Circuit) (seen : Bool) : x.tested seen = { x with condition := (x.tested seen).condition } := by
  unfold Circuit.tested
  split
  · rfl
  · split
    · split <;> rfl
    · split <;> rfl
    · rfl
    · rfl

theorem Circuit.tested_condition (x : Circuit) (seen : Bool) : (x.tested seen).condition =
    if x.drive = false ∧ (x.condition = .sound ∨ x.condition = .openLoad) then
      (if seen then .sound else .openLoad) else x.condition := by
  obtain ⟨demand, pattern, drive, condition, overloads, switchedOn, partEnd, retryAt, cleanAt, offAt, testAt⟩ := x
  cases drive with
  | true => rfl
  | false => cases condition <;> cases seen <;> rfl

section

variable {c : Fin 16} {s : State}

theorem patternPartEnd_runs {d onMs offMs : Nat} (powered : s.powered = true) (due : s.circuits[c].partEnd = some d)
    (drive : s.circuits[c].drive = true)
    (pattern : (s.circuits[c].pattern = .fast ∧ onMs = 250 ∧ offMs = 250) ∨
      (s.circuits[c].pattern = .slow ∧ onMs = 500 ∧ offMs = 3500)) :
    ∃ t, exec (.patternPartEnd c) s = .next t ∧ ChangesOnly [.clock, .circuits] s t ∧ t.now = max s.now d ∧
      OnlyAt c s.circuits t.circuits ∧ t.circuits[c] = { s.circuits[c] with
        switchedOn := !s.circuits[c].switchedOn
        partEnd := some (t.now + if s.circuits[c].switchedOn = true then offMs else onMs) } := by
  have runs : s.patternRuns c = (s.reach d).writeCircuit c (s.circuits[c].partEnds (max s.now d)) := by
    unfold State.patternRuns
    dsimp only
    rw [due]
    exact if_pos drive
  have ends : s.circuits[c].partEnds (max s.now d) = { s.circuits[c] with
      switchedOn := !s.circuits[c].switchedOn
      partEnd := some (max s.now d + if s.circuits[c].switchedOn = true then offMs else onMs) } := by
    unfold Circuit.partEnds
    rcases pattern with ⟨kind, rfl, rfl⟩ | ⟨kind, rfl, rfl⟩
    all_goals
      have part : s.circuits[c].pattern.onPart = _ := congrArg Pattern.onPart kind
      have off : s.circuits[c].pattern.offPart = _ := congrArg Pattern.offPart kind
      rw [part]
      dsimp only [Pattern.onPart]
      rw [off]
      cases s.circuits[c].switchedOn <;> rfl
  have quiet : ChangesOnly [.circuits] (s.reach d) (s.patternRuns c) := by
    rw [runs, ends]
    exact State.writeCircuit_quiet rfl rfl rfl rfl rfl
  have circuits : (s.patternRuns c).circuits = put s.circuits c (s.circuits[c].partEnds (max s.now d)) := by
    rw [runs, State.writeCircuit_circuits, State.reach_circuits]
  have now : (s.patternRuns c).now = max s.now d := quiet.same .clock (by decide)
  have frame : ChangesOnly [.clock, .circuits] s (s.patternRuns c) := (s.reach_changes d).andThen quiet
  refine ⟨_, s.takes_powered (State.patternRuns c) powered, frame, now, ?_⟩
  rw [circuits, put_same, now, ends]
  exact ⟨put_onlyAt _ _ _, rfl⟩

theorem testTimerExpiry_runs (seen : Bool) (powered : s.powered = true) :
    ∃ t, exec (.testTimerExpiry c seen) s = .next t ∧
      ChangesOnly ([.clock, .holds] ++ burstParts) s t ∧ t.now = max s.now s.circuits[c].testAt ∧
      t.circuits[c].testAt = t.now + 10000 ∧ t.circuits[c].overloads = s.circuits[c].overloads ∧
      t.circuits[c].condition =
        (if s.circuits[c].drive = false ∧ (s.circuits[c].condition = .sound ∨ s.circuits[c].condition = .openLoad) then
          (if seen then .sound else .openLoad) else s.circuits[c].condition) ∧
      (isChime c = false → OnlyAt c s.circuits t.circuits ∧
        t.circuits[c] = { s.circuits[c] with condition := t.circuits[c].condition, testAt := t.circuits[c].testAt } ∧
        ChangesOnly [.clock, .circuits, .holds, .stations] s t) := by
  have runs : s.testRuns c seen = (s.reach s.circuits[c].testAt).changeCircuit c
      { s.circuits[c].tested seen with testAt := max s.now s.circuits[c].testAt + 10000 } := rfl
  have frame := s.testRuns_changes c seen
  have judged := (s.reach s.circuits[c].testAt).changeCircuit_judged c
    { s.circuits[c].tested seen with testAt := max s.now s.circuits[c].testAt + 10000 } c
  rw [← runs, State.writeCircuit_circuits, put_same] at judged
  obtain ⟨condition, count, test⟩ := judged
  have now : (s.testRuns c seen).now = max s.now s.circuits[c].testAt := by
    rw [runs]
    exact (State.changeCircuit_changes ..).same .clock (by decide)
  have kept := s.circuits[c].tested_eq seen
  have found := s.circuits[c].tested_condition seen
  refine ⟨_, s.takes_powered (State.testRuns c seen) powered, frame, now, ?_, ?_, condition.trans found, fun other => ?_⟩
  · rw [test, now]
  · rw [count, kept]
  · obtain ⟨own, circuits⟩ := State.changeCircuit_own (s := s.reach s.circuits[c].testAt) (c := c)
      (x := { s.circuits[c].tested seen with testAt := max s.now s.circuits[c].testAt + 10000 }) (.inl other)
    rw [← runs] at own circuits
    rw [State.reach_circuits] at circuits
    refine ⟨circuits ▸ put_onlyAt _ _ _, ?_, (s.reach_changes _).andThen own⟩
    rw [circuits, put_same, kept]

/-- R160: the retry drives a demanded circuit again. -/
theorem retryTimerExpiry_runs {d : Nat} (powered : s.powered = true) (due : s.circuits[c].retryAt = some d)
    (lawful : s.circuits[c].lawful) :
    ∃ t, exec (.retryTimerExpiry c) s = .next t ∧ ChangesOnly [.clock, .circuits, .holds, .stations] s t ∧
      t.now = max s.now d ∧ OnlyAt c s.circuits t.circuits ∧ t.circuits[c] =
        (if s.circuits[c].demand = true then { s.circuits[c] with
          retryAt := none, drive := true, switchedOn := true
          cleanAt := some (t.now + 10000), partEnd := s.circuits[c].pattern.onPart.map (t.now + ·) }
        else { s.circuits[c] with retryAt := none }) := by
  have runs : s.retryRuns c = (s.reach d).changeCircuit c (s.circuits[c].retryRun (max s.now d)) := by
    unfold State.retryRuns
    dsimp only
    rw [due]
    rfl
  obtain ⟨drives, -, -, -, waits, -⟩ := lawful
  have overload : s.circuits[c].condition = .overload := waits (by rw [due]; rfl)
  have undriven : s.circuits[c].drive = false := by
    rw [drives, Circuit.wantsDrive, overload, due]
    exact Bool.and_false _
  have retried (n : Nat) : s.circuits[c].retryRun n = if s.circuits[c].demand = true then { s.circuits[c] with
      retryAt := none, drive := true, switchedOn := true
      cleanAt := some (n + 10000), partEnd := s.circuits[c].pattern.onPart.map (n + ·) }
      else { s.circuits[c] with retryAt := none } := by
    have wants : ({ s.circuits[c] with retryAt := none } : Circuit).wantsDrive = s.circuits[c].demand := by
      unfold Circuit.wantsDrive
      dsimp only
      rw [overload]
      exact Bool.and_true _
    unfold Circuit.retryRun Circuit.setDrive
    rw [wants]
    dsimp only
    rw [undriven, if_neg Bool.false_ne_true, if_neg Bool.false_ne_true]
    refine if_congr Iff.rfl ?_ rfl
    unfold Circuit.driveOn Circuit.newPeriod Circuit.inOverload
    dsimp only
    rw [overload]
    rfl
  have condition : (s.circuits[c].retryRun (max s.now d)).condition = s.circuits[c].condition := by
    rw [retried]
    split
    · rfl
    · rfl
  obtain ⟨own, circuits⟩ := State.changeCircuit_own (s := s.reach d) (c := c)
    (x := s.circuits[c].retryRun (max s.now d)) (.inr (.inr condition))
  rw [← runs] at own circuits
  rw [State.reach_circuits] at circuits
  have now : (s.retryRuns c).now = max s.now d := own.same .clock (by decide)
  refine ⟨_, s.takes_powered (State.retryRuns c) powered, (s.reach_changes _).andThen own, now,
    circuits ▸ put_onlyAt _ _ _, ?_⟩
  rw [circuits, put_same, retried, now]

/-- What a circuit judged clean leaves, its chime lost by none (R160, R161). -/
theorem State.changeCircuit_clean (s : State) (c : Fin 16) :
    ChangesOnly [.circuits, .holds, .stations] s (s.changeCircuit c s.circuits[c].judgedClean) ∧
      (s.changeCircuit c s.circuits[c].judgedClean).circuits = put s.circuits c s.circuits[c].judgedClean := by
  refine State.changeCircuit_own (.inr ?_)
  by_cases sound : s.circuits[c].condition = .sound
  · exact .inr sound.symm
  · exact .inl sound

/-- A timer at whose end the circuit is judged clean (R160, R161). -/
theorem clean_runs {d : Nat} {i : Instr} {f : State → State} (powered : s.powered = true) (run : exec i s = s.takes f)
    (runs : f s = (s.reach d).changeCircuit c s.circuits[c].judgedClean) :
    ∃ t, exec i s = .next t ∧ ChangesOnly [.clock, .circuits, .holds, .stations] s t ∧
      t.now = max s.now d ∧ OnlyAt c s.circuits t.circuits ∧ t.circuits[c] =
        { s.circuits[c] with condition := .sound, overloads := 0, retryAt := none, cleanAt := none, offAt := none } := by
  obtain ⟨own, circuits⟩ := (s.reach d).changeCircuit_clean c
  rw [State.reach_circuits, ← runs] at own circuits
  refine ⟨_, run.trans (s.takes_powered f powered), (s.reach_changes _).andThen own, own.same .clock (by decide),
    circuits ▸ put_onlyAt _ _ _, ?_⟩
  rw [circuits, put_same]
  rfl

end

/-- Settles O56. -/
theorem circuitTimersRun : Obligations.CircuitTimersRun := by
  unfold Obligations.CircuitTimersRun
  intro c s x powered hx
  subst hx
  refine ⟨fun d onMs offMs => patternPartEnd_runs powered, fun idle => State.takes_still ?_,
    fun seen => testTimerExpiry_runs seen powered, fun d => retryTimerExpiry_runs powered,
    fun d => ⟨fun due => clean_runs powered rfl ?_, fun due => clean_runs powered rfl ?_⟩, fun idle => State.takes_still ?_,
    fun idle => State.takes_still ?_, fun idle => State.takes_still ?_⟩
  · unfold State.patternRuns
    dsimp only
    split
    · rfl
    next d due =>
      refine if_neg ?_
      rcases idle with none | off
      · rw [due] at none; cases none
      · rw [off]; decide
  · unfold State.cleanRuns
    dsimp only
    rw [due]
  · unfold State.offRuns
    dsimp only
    rw [due]
  · unfold State.retryRuns
    dsimp only
    rw [idle]
  · unfold State.cleanRuns
    dsimp only
    rw [idle]
  · unfold State.offRuns
    dsimp only
    rw [idle]

end Sys2Proof.Machine
end

section
/-!
PROOFS. The supply monitor: mains, the safety supply and the cell by their lines and timers (R168..R172).
-/

namespace Sys2Proof.Machine
-- One proof after another: the whole text stays within the memory of one compile.
set_option Elab.async false

/-! ## Mains and its announcement (R168..R170) -/

/-- A timer of the supply monitor written marks nothing (R167). -/
theorem State.writeSupply_quiet {s : State} {x : Supply} (mains : x.mains = s.supply.mains)
    (safety : x.safetyLow = s.supply.safetyLow) (cell : x.cellLow = s.supply.cellLow)
    (valid : x.retainedValid = s.supply.retainedValid) (cause : x.restartCause = s.supply.restartCause) :
    ChangesOnly [.supply] s (s.writeSupply x) := by
  have whole : s.writeSupply x = { s with supply := x } := by
    unfold State.writeSupply
    dsimp only
    rw [mains, safety, cell, valid, cause]
    simp only [bne_self_eq_false, Bool.or_self]
    rfl
  rw [whole]
  constructor; intro p hp; cases p <;> simp_all [Part.same]

/-- A raise that mains ends (R48, R170). -/
def Iron.supplyLost (x : Iron) : Iron := { x with motion := .stopped, stop := some .supply, restTravel := 0, sawCreep := false }

theorem State.stopRaises_irons (s : State) (ch : Fin 3) : s.stopRaises.irons[ch] =
    if s.irons[ch].motion = .raising then s.irons[ch].supplyLost else s.irons[ch] := by
  have elsewhere (t : State) {i : Fin 3} (other : i ≠ ch) : (if t.irons[i].motion = .raising then
      t.writeIron i (t.irons[i].stopRaise (some .supply)) else t).irons[ch] = t.irons[ch] := by
    split
    · exact (congrArg (fun v : Vector Iron 3 => v[ch]) (State.writeIron_irons ..)).trans (put_other _ _ _ _ other.symm)
    · rfl
  refine forAll_turn (P := fun t => t.irons[ch] = s.irons[ch]) ch (fun i t other same => (elsewhere t other).trans same)
    (fun t same => ?_) (fun i t other same => (elsewhere t other).trans same) s rfl
  rw [same]
  split
  · exact (congrArg (fun v : Vector Iron 3 => v[ch]) (State.writeIron_irons ..)).trans (put_same ..)
  · exact same

/-- A mains state written and announced (R170). -/
structure MainsSet (x : Supply) (s t : State) : Prop where
  frame : ChangesOnly ([.supply, .irons, .holds] ++ lightParts) s t
  supply : t.supply = x
  lights : LightsDerived t
  irons : ∀ ch : Fin 3, t.irons[ch] =
    if s.irons[ch].motion = .raising ∧ x.mains = .lost then s.irons[ch].supplyLost else s.irons[ch]

theorem State.setMains_set (s : State) (x : Supply) : MainsSet x s (s.setMains x) := by
  have written := s.writeSupply_changes x
  have supply := State.writeSupply_supply s x
  have frame := s.setMains_changes x
  unfold State.setMains at frame ⊢
  generalize s.writeSupply x = u at *
  have lit := u.refreshLights_changes
  have lights := LightsFollow.refreshLights_derived u
  unfold State.announceMains at frame ⊢
  dsimp only at frame ⊢
  rw [supply] at frame ⊢
  have irons : u.refreshLights.irons = s.irons :=
    (lit.same .irons (by decide) : _ = u.irons).trans (written.same .irons (by decide))
  have held : u.refreshLights.supply = x := (lit.same .supply (by decide) : _ = u.supply).trans supply
  generalize u.refreshLights = v at *
  by_cases lost : x.mains = .lost
  · rw [if_pos lost] at frame ⊢
    have stopped := v.stopRaises_changes
    have whole := stopped.andThen (rs := [.irons, .holds, .stations]) (State.evalHolds_changes .supply v.stopRaises)
    refine ⟨frame.mono (by decide), (whole.same .supply (by decide) : _ = v.supply).trans held,
      (LightsFollow.of_changes whole).lights lights, fun ch => ?_⟩
    rw [(State.evalHolds_changes .supply v.stopRaises).same .irons (by decide), State.stopRaises_irons, irons]
    exact if_congr (and_iff_left lost).symm rfl rfl
  · rw [if_neg lost] at frame ⊢
    have whole := State.evalHolds_changes .supply v
    refine ⟨frame.mono (by decide), (whole.same .supply (by decide) : _ = v.supply).trans held,
      (LightsFollow.of_changes whole).lights lights, fun ch => ?_⟩
    rw [whole.same .irons (by decide), irons, if_neg fun k => lost k.2]

/-- Mains PRESENT or SETTLING is announced to lights and holds alone (R170). -/
theorem State.setMains_restored (s : State) {x : Supply} (back : x.mains ≠ .lost) :
    ChangesOnly ([.supply, .holds] ++ lightParts) s (s.setMains x) := by
  have written := s.writeSupply_changes x
  have supply := State.writeSupply_supply s x
  unfold State.setMains State.announceMains
  dsimp only
  rw [supply, if_neg back]
  exact (written.andThen (rs := .supply :: lightParts) (State.refreshLights_changes _)).andThen (State.evalHolds_changes ..)

/-- The state with the mains sense line read. -/
def State.sensed (s : State) (present : Bool) : State := { s with lines := { s.lines with mainsPresent := present } }

theorem State.sensed_changes (s : State) (present : Bool) : ChangesOnly [.lines] s (s.sensed present) := s.lines_changes _

/-- The line asks for a mains state other than the one judged without a timer (R168, R169). -/
def movesMains (m : Mains) (present : Bool) : Prop := m = .lost ∧ present = true ∨ m = .settling ∧ present = false

theorem State.mainsLine_moves {s : State} {present : Bool} (new : s.lines.mainsPresent ≠ present)
    (moves : movesMains s.supply.mains present) : s.mainsLine present = (s.sensed present).setMains
      { s.supply with
        mains := if present then .settling else .lost
        settlingAt := if present then some (s.now + 10000) else none } := by
  unfold State.mainsLine
  rw [if_neg new]
  dsimp only
  rcases moves with ⟨mains, rfl⟩ | ⟨mains, rfl⟩
  · rw [mains]; rfl
  · rw [mains]; rfl

/-- Elsewhere the line starts or stops the loss timer, where mains is PRESENT (R168). -/
theorem State.mainsLine_waits {s : State} {present : Bool} (new : s.lines.mainsPresent ≠ present)
    (waits : ¬movesMains s.supply.mains present) :
    ChangesOnly [.lines, .supply] s (s.mainsLine present) ∧ (s.mainsLine present).lines = (s.sensed present).lines ∧
      (s.mainsLine present).supply = { s.supply with lossAt :=
        if s.supply.mains = .present then (if present then none else some (s.now + 500)) else s.supply.lossAt } := by
  have line := s.sensed_changes present
  have written (x : Option Nat) (h : s.mainsLine present = (s.sensed present).writeSupply { s.supply with lossAt := x }) :
      ChangesOnly [.lines, .supply] s (s.mainsLine present) ∧ (s.mainsLine present).lines = (s.sensed present).lines ∧
        (s.mainsLine present).supply = { s.supply with lossAt := x } := by
    rw [h]
    exact ⟨line.andThen (State.writeSupply_quiet rfl rfl rfl rfl rfl), State.writeSupply_lines ..,
      State.writeSupply_supply ..⟩
  have still (h : s.mainsLine present = s.sensed present) :
      ChangesOnly [.lines, .supply] s (s.mainsLine present) ∧ (s.mainsLine present).lines = (s.sensed present).lines ∧
        (s.mainsLine present).supply = { s.supply with lossAt := s.supply.lossAt } := by
    rw [h]
    exact ⟨line.mono (by decide), rfl, rfl⟩
  cases mains : s.supply.mains with
  | present =>
    refine written _ ?_
    unfold State.mainsLine
    rw [if_neg new]
    cases present with
    | true => dsimp only; rw [mains]; rfl
    | false => dsimp only; rw [mains]; rfl
  | lost =>
    refine still ?_
    unfold State.mainsLine
    rw [if_neg new]
    cases present with
    | true => exact absurd (.inl ⟨mains, rfl⟩) waits
    | false => dsimp only; rw [mains]; rfl
  | settling =>
    refine still ?_
    unfold State.mainsLine
    rw [if_neg new]
    cases present with
    | true => dsimp only; rw [mains]; rfl
    | false => exact absurd (.inr ⟨mains, rfl⟩) waits

theorem mainsSenseChange_followed {s : State} {present : Bool} (powered : s.powered = true)
    (new : s.lines.mainsPresent ≠ present) :
    ∃ t, exec (.mainsSenseChange present) s = .next t ∧
      ChangesOnly ([.lines, .supply, .irons, .holds] ++ lightParts) s t ∧
      t.lines = { s.lines with mainsPresent := present } ∧
      t.supply =
        { s.supply with
          mains :=
            if s.supply.mains = .lost ∧ present = true then .settling
            else if s.supply.mains = .settling ∧ present = false then .lost
            else s.supply.mains
          lossAt :=
            if s.supply.mains = .present then (if present then none else some (s.now + 500))
            else s.supply.lossAt
          settlingAt :=
            if s.supply.mains = .lost ∧ present = true then some (s.now + 10000)
            else if s.supply.mains = .settling ∧ present = false then none
            else s.supply.settlingAt } ∧
      (t.supply.mains ≠ s.supply.mains → LightsDerived t) ∧
      (t.supply.mains = s.supply.mains → ChangesOnly [.lines, .supply] s t) ∧
      ∀ ch : Fin 3, t.irons[ch] =
        if s.irons[ch].motion = .raising ∧ s.supply.mains = .settling ∧ present = false then
          { s.irons[ch] with motion := .stopped, stop := some .supply, restTravel := 0, sawCreep := false }
        else s.irons[ch] := by
  have frame := s.mainsLine_changes present
  refine ⟨_, s.takes_powered (State.mainsLine present) powered, frame, ?_⟩
  by_cases moves : movesMains s.supply.mains present
  · obtain ⟨set, supply, lights, irons⟩ := (s.sensed present).setMains_set { s.supply with
      mains := if present then .settling else .lost
      settlingAt := if present then some (s.now + 10000) else none }
    rw [← State.mainsLine_moves new moves] at set supply lights irons
    refine ⟨set.same .lines (by decide), supply.trans ?_, fun _ => lights, fun same => ?_, fun ch => (irons ch).trans ?_⟩
    · rcases moves with ⟨mains, rfl⟩ | ⟨mains, rfl⟩
      · rw [mains]; rfl
      · rw [mains]; rfl
    · rw [supply] at same
      rcases moves with ⟨mains, rfl⟩ | ⟨mains, rfl⟩
      · rw [mains] at same; cases same
      · rw [mains] at same; cases same
    · refine if_congr (and_congr_right fun _ => ?_) rfl rfl
      rcases moves with ⟨mains, rfl⟩ | ⟨mains, rfl⟩
      · rw [mains]; exact ⟨fun k => (by cases k), fun ⟨k, _⟩ => (by cases k)⟩
      · rw [mains]; exact ⟨fun _ => ⟨rfl, rfl⟩, fun _ => rfl⟩
  · obtain ⟨quiet, lines, supply⟩ := State.mainsLine_waits new moves
    have up := fun k => moves (.inl k)
    have down := fun k => moves (.inr k)
    refine ⟨lines, ?_, fun k => absurd (by rw [supply]) k, fun _ => quiet, fun ch => ?_⟩
    · rw [supply, if_neg up, if_neg up, if_neg down, if_neg down]
    · rw [quiet.same .irons (by decide), if_neg fun k => down k.2]

/-! ## The timers and the judged lines (R168..R172) -/

section

variable {s : State} {d : Nat} (powered : s.powered = true)
include powered

theorem lossTimerExpiry_runs (due : s.supply.lossAt = some d) :
    ∃ t, exec .lossTimerExpiry s = .next t ∧
      ChangesOnly ([.clock, .supply, .irons, .holds] ++ lightParts) s t ∧ t.now = max s.now d ∧
      t.supply = { s.supply with mains := .lost, lossAt := none } ∧ LightsDerived t ∧
      ∀ ch : Fin 3, t.irons[ch] =
        if s.irons[ch].motion = .raising then
          { s.irons[ch] with motion := .stopped, stop := some .supply, restTravel := 0, sawCreep := false }
        else s.irons[ch] := by
  have runs : s.lossRuns = (s.reach d).setMains { s.supply with mains := .lost, lossAt := none } := by
    unfold State.lossRuns
    rw [due]
  obtain ⟨set, supply, lights, irons⟩ := (s.reach d).setMains_set { s.supply with mains := .lost, lossAt := none }
  rw [← runs] at set supply lights irons
  exact ⟨_, s.takes_powered State.lossRuns powered, s.lossRuns_changes, set.same .clock (by decide), supply, lights,
    fun ch => (irons ch).trans (if_congr (and_iff_left rfl) rfl rfl)⟩

theorem settlingTimerExpiry_runs (due : s.supply.settlingAt = some d) :
    ∃ t, exec .settlingTimerExpiry s = .next t ∧
      ChangesOnly ([.clock, .supply, .holds] ++ lightParts) s t ∧ t.now = max s.now d ∧
      t.supply = { s.supply with mains := .present, settlingAt := none } ∧ LightsDerived t := by
  have runs : s.settlingRuns = (s.reach d).setMains { s.supply with mains := .present, settlingAt := none } := by
    unfold State.settlingRuns
    rw [due]
  obtain ⟨set, supply, lights, -⟩ := (s.reach d).setMains_set { s.supply with mains := .present, settlingAt := none }
  have back := (s.reach d).setMains_restored (x := { s.supply with mains := .present, settlingAt := none }) Mains.noConfusion
  rw [← runs] at set supply lights back
  exact ⟨_, s.takes_powered State.settlingRuns powered, (s.reach_changes d).andThen back, set.same .clock (by decide),
    supply, lights⟩

theorem safetySupplyTimerExpiry_runs (due : s.supply.safetyAt = some d) :
    ∃ t, exec .safetySupplyTimerExpiry s = .next t ∧ ChangesOnly [.clock, .supply, .holds, .stations] s t ∧
      t.now = max s.now d ∧ t.supply = { s.supply with safetyLow := !s.supply.safetyLow, safetyAt := none } := by
  have runs : s.safetyRuns = ((s.reach d).writeSupply
      { s.supply with safetyLow := !s.supply.safetyLow, safetyAt := none }).evalHolds .supply := by
    unfold State.safetyRuns
    rw [due]
  refine ⟨_, s.takes_powered State.safetyRuns powered, s.safetyRuns_changes, ?_⟩
  rw [runs]
  exact ⟨(State.evalHolds_changes ..).same .clock (by decide) |>.trans (State.writeSupply_now ..),
    (State.evalHolds_changes ..).same .supply (by decide) |>.trans (State.writeSupply_supply ..)⟩

theorem cellTimerExpiry_runs (due : s.supply.cellAt = some d) :
    ∃ t, exec .cellTimerExpiry s = .next t ∧ ChangesOnly [.clock, .supply, .retained, .stations] s t ∧
      t.now = max s.now d ∧
      t.supply = { s.supply with
        cellLow := !s.supply.cellLow, cellAt := none, retainedValid := s.supply.cellLow } ∧
      (s.supply.cellLow = false → t.retained = s.retained) ∧
      (s.supply.cellLow = true → t.retained.checkGood = true ∧ ∀ a : Fin 3,
        t.retained.entries[a] = ⟨s.phase a, s.perfs[a].act, s.perfs[a].ironProved⟩) := by
  refine ⟨_, s.takes_powered State.cellRuns powered, s.cellRuns_changes, ?_⟩
  cases low : s.supply.cellLow with
  | true =>
    have runs : s.cellRuns = (s.reach d).writeRetained.writeSupply
        { s.supply with cellLow := false, cellAt := none, retainedValid := true } := by
      unfold State.cellRuns
      rw [due]
      exact if_pos low
    rw [runs]
    refine ⟨State.writeSupply_now .., State.writeSupply_supply .., Bool.noConfusion, fun _ => ?_⟩
    rw [State.writeSupply_retained]
    refine ⟨rfl, fun a => ?_⟩
    exact tab_get ..
  | false =>
    have runs : s.cellRuns = (s.reach d).writeSupply
        { s.supply with cellLow := true, cellAt := none, retainedValid := false } := by
      unfold State.cellRuns
      rw [due]
      exact if_neg (by rw [low]; decide)
    rw [runs]
    exact ⟨State.writeSupply_now .., State.writeSupply_supply .., fun _ => State.writeSupply_retained .., Bool.noConfusion⟩

theorem supplyLowLineChange_followed {on : Bool} (new : s.lines.supplyLow ≠ on) :
    ∃ t, exec (.supplyLowLineChange on) s = .next t ∧ ChangesOnly [.lines, .supply] s t ∧
      t.lines = { s.lines with supplyLow := on } ∧
      t.supply = { s.supply with safetyAt :=
        if on = s.supply.safetyLow then none else some (s.now + if on then 1000 else 5000) } := by
  have line : s.supplyLine on = ({ s with lines := { s.lines with supplyLow := on } } : State).writeSupply
      { s.supply with safetyAt := judgeTimer s.supply.safetyLow on s.now Config.safetyLowMs Config.safetyGoodMs } :=
    if_neg new
  refine ⟨_, s.takes_powered (State.supplyLine on) powered, ?_⟩
  rw [line]
  refine ⟨(s.lines_changes _).andThen (State.writeSupply_quiet rfl rfl rfl rfl rfl), State.writeSupply_lines ..,
    (State.writeSupply_supply ..).trans ?_⟩
  unfold judgeTimer
  cases on <;> cases s.supply.safetyLow <;> rfl

theorem cellSenseChange_followed {on : Bool} (new : s.lines.cellGood ≠ on) :
    ∃ t, exec (.cellSenseChange on) s = .next t ∧ ChangesOnly [.lines, .supply] s t ∧
      t.lines = { s.lines with cellGood := on } ∧
      t.supply = { s.supply with cellAt :=
        if on = !s.supply.cellLow then none else some (s.now + if on then 5000 else 1000) } := by
  have line : s.cellLine on = ({ s with lines := { s.lines with cellGood := on } } : State).writeSupply
      { s.supply with cellAt := judgeTimer s.supply.cellLow (!on) s.now Config.cellLowMs Config.cellGoodMs } :=
    if_neg new
  refine ⟨_, s.takes_powered (State.cellLine on) powered, ?_⟩
  rw [line]
  refine ⟨(s.lines_changes _).andThen (State.writeSupply_quiet rfl rfl rfl rfl rfl), State.writeSupply_lines ..,
    (State.writeSupply_supply ..).trans ?_⟩
  unfold judgeTimer
  cases on <;> cases s.supply.cellLow <;> rfl

end

/-- What is no event: a line that reads as it did, and a timer that does not run (log entry 4). -/
theorem supply_still (s : State) :
    (∀ b, s.lines.mainsPresent = b → exec (.mainsSenseChange b) s = .next s) ∧
    (∀ b, s.lines.supplyLow = b → exec (.supplyLowLineChange b) s = .next s) ∧
    (∀ b, s.lines.cellGood = b → exec (.cellSenseChange b) s = .next s) ∧
    (s.supply.lossAt = none → exec .lossTimerExpiry s = .next s) ∧
    (s.supply.settlingAt = none → exec .settlingTimerExpiry s = .next s) ∧
    (s.supply.safetyAt = none → exec .safetySupplyTimerExpiry s = .next s) ∧
    (s.supply.cellAt = none → exec .cellTimerExpiry s = .next s) := by
  refine ⟨fun b same => State.takes_still (if_pos same), fun b same => State.takes_still (if_pos same),
    fun b same => State.takes_still (if_pos same), fun idle => State.takes_still ?_, fun idle => State.takes_still ?_,
    fun idle => State.takes_still ?_, fun idle => State.takes_still ?_⟩
  · unfold State.lossRuns
    rw [idle]
  · unfold State.settlingRuns
    rw [idle]
  · unfold State.safetyRuns
    rw [idle]
  · unfold State.cellRuns
    rw [idle]

/-- Settles O58. -/
theorem supplyFollowsLines : Obligations.SupplyFollowsLines := by
  unfold Obligations.SupplyFollowsLines
  exact ⟨fun s present powered new => mainsSenseChange_followed powered new,
    fun s d powered => ⟨lossTimerExpiry_runs powered, settlingTimerExpiry_runs powered,
      safetySupplyTimerExpiry_runs powered, cellTimerExpiry_runs powered⟩,
    fun s on powered => ⟨supplyLowLineChange_followed powered, cellSenseChange_followed powered⟩, supply_still⟩

end Sys2Proof.Machine
end

section
/-!
PROOFS. One step of the fade grid (R110, R113, R114, R124).
-/

namespace Sys2Proof.Machine

-- One declaration at a time: side conditions closed by tactics wait for what stands before them.
set_option Elab.async false

/-! ## The formula of a fade (R110) -/

theorem fadeLevel_up {start target n k : Nat} (up : start ≤ target) :
    fadeLevel start target n k = start + (target - start) * k / n := by
  unfold fadeLevel
  obtain ⟨d, rfl⟩ := Nat.exists_eq_add_of_le up
  rw [show ((start + d : Nat) : Int) - start = (d : Int) by omega, Nat.add_sub_cancel_left]
  exact congrArg Int.toNat (by push_cast; rfl : (start : Int) + Int.tdiv ((d : Int) * k) n = ((start + d * k / n : Nat) : Int))

theorem fadeLevel_down {start target n k : Nat} (down : target ≤ start) :
    fadeLevel start target n k = start - (start - target) * k / n := by
  unfold fadeLevel
  obtain ⟨d, rfl⟩ := Nat.exists_eq_add_of_le down
  rw [show (target : Int) - ((target + d : Nat) : Int) = -(d : Int) by omega, Int.neg_mul, Int.neg_tdiv,
    Nat.add_sub_cancel_left]
  have share : Int.tdiv ((d : Int) * k) n = ((d * k / n : Nat) : Int) := by push_cast; rfl
  rw [share]
  omega

/-- The share of the way that is gone is at most the way. -/
theorem fade_share_le {d n k : Nat} (some_ : 0 < n) (within : k ≤ n) : d * k / n ≤ d :=
  (Nat.div_le_div_right (Nat.mul_le_mul_left d within)).trans (Nat.mul_div_cancel d some_).le

theorem fadeLevel_between {start target n k : Nat} (some_ : 0 < n) (within : k ≤ n) :
    min start target ≤ fadeLevel start target n k ∧ fadeLevel start target n k ≤ max start target := by
  rcases Nat.le_total start target with up | down
  · have share := fade_share_le (d := target - start) some_ within
    rw [fadeLevel_up up, min_eq_left up, max_eq_right up]
    generalize (target - start) * k / n = gone at *
    omega
  · have share := fade_share_le (d := start - target) some_ within
    rw [fadeLevel_down down, min_eq_right down, max_eq_left down]
    generalize (start - target) * k / n = gone at *
    omega

/-- A fade ends at its target. -/
theorem fadeLevel_last {start target n : Nat} (some_ : 0 < n) : fadeLevel start target n n = target := by
  rcases Nat.le_total start target with up | down
  · rw [fadeLevel_up up, Nat.mul_div_cancel _ some_]
    omega
  · rw [fadeLevel_down down, Nat.mul_div_cancel _ some_]
    omega

/-! ## What a step of the grid leaves -/

theorem State.fadeEngineStep_clock (s : State) :
    s.fadeEngineStep.now = s.fadeDue ∧ s.fadeEngineStep.fadeAt = s.fadeDue := by
  unfold State.fadeEngineStep
  refine forAll_keeps (fun t : State => t.now = s.fadeDue ∧ t.fadeAt = s.fadeDue) _ (fun g t h => ?_) _ ⟨rfl, rfl⟩
  have frame := State.stepGroup_changes g t
  exact ⟨(frame.same .clock (by decide) : (t.stepGroup g).now = t.now).trans h.1,
    (frame.same .grid (by decide) : (t.stepGroup g).fadeAt = t.fadeAt).trans h.2⟩

/-- The dip of each call zone is judged at the step (R124). -/
theorem State.onGrid_flicker (s : State) (z : Fin 8) : s.onGrid.flickers[z] =
    { s.flickers[z] with dip := isDip s.flickers[z].code (s.fadeDue - s.flickers[z].start) } := by
  change (tab _ : Vector Flicker 8)[z] = _
  rw [tab_get]

/-- The table of R124: the rate in quarter-hertz and the limit of each code. -/
theorem isDip_iff {code t rate limit : Nat} (row : (code, rate, limit) ∈
    ([(1, 1, 500), (2, 2, 1000), (3, 4, 2000), (4, 8, 2000), (5, 12, 2000), (6, 16, 2000)] : List (Nat × Nat × Nat))) :
    isDip code t = true ↔ t * rate % 4000 < limit := by
  simp only [List.mem_cons, Prod.mk.injEq, List.not_mem_nil, or_false] at row
  rcases row with ⟨rfl, rfl, rfl⟩ | ⟨rfl, rfl, rfl⟩ | ⟨rfl, rfl, rfl⟩ | ⟨rfl, rfl, rfl⟩ | ⟨rfl, rfl, rfl⟩ | ⟨rfl, rfl, rfl⟩ <;>
    exact decide_eq_true_iff

/-- An output is computed afresh from what the group is driven by (R113, R114). -/
theorem State.relit_driven (s : State) (g : Fin 12) (x : LightGroup) :
    (s.relit g x).driven = s.drivenOf g (s.relit g x) ∧
      (s.relit g x).drive = driveOf s.settings.groups[g].law (s.relit g x).driven := ⟨rfl, rfl⟩

/-- A step of the grid reads the settings, the phases and the dips of its moment, and leaves them. -/
theorem State.fadeEngineStep_relit (s : State) (g : Fin 12) (x : LightGroup) :
    s.fadeEngineStep.relit g x = s.onGrid.relit g x := by
  have frame := s.fadeEngineStep_changes
  exact State.relit_of_settings (s := s.onGrid) (by rw [frame.same .settings (by decide)]; rfl)
    (frame.same .perfs (by decide)) s.fadeEngineStep_flickers x

theorem State.fadeEngineStep_present {s : State} {g : Fin 12} (present : s.settings.groups[g].present = true) :
    s.fadeEngineStep.groups[g] = s.fadeEngineStep.relit g s.groups[g].stepFade := by
  rw [s.fadeEngineStep_group, s.fadeEngineStep_relit]
  exact if_pos present

theorem State.fadeEngineStep_absent {s : State} {g : Fin 12} (absent : s.settings.groups[g].present = false) :
    s.fadeEngineStep.groups[g] = s.groups[g] := by
  rw [s.fadeEngineStep_group]
  exact if_neg (by rw [show s.onGrid.settings = s.settings from rfl, absent]; decide)

section

variable {x : LightGroup}

theorem LightGroup.stepFade_steady (steady : x.fading = false) : x.stepFade = x :=
  if_neg (by rw [steady]; decide)

theorem LightGroup.stepFade_fading (fading : x.fading = true) : x.stepFade =
    { x with step := x.step + 1, level := fadeLevel x.start x.target x.steps (x.step + 1),
             fading := Decidable.decide (x.step + 1 < x.steps) } := if_pos fading

/-- What a step of a fade leaves alone. -/
theorem LightGroup.stepFade_keeps (x : LightGroup) : x.stepFade.target = x.target ∧ x.stepFade.start = x.start ∧
    x.stepFade.steps = x.steps ∧ x.stepFade.causes = x.causes := by
  unfold LightGroup.stepFade
  split
  · exact ⟨rfl, rfl, rfl, rfl⟩
  · exact ⟨rfl, rfl, rfl, rfl⟩

/-- The last step of a fade ends it at its target. -/
theorem LightGroup.stepFade_last (fading : x.fading = true) (last : x.step + 1 = x.steps) :
    x.stepFade.level = x.target ∧ x.stepFade.fading = false := by
  rw [LightGroup.stepFade_fading fading]
  dsimp only
  rw [last]
  exact ⟨fadeLevel_last (by omega), decide_eq_false (Nat.lt_irrefl _)⟩

end

/-- R110, R113, R114: a group whose fade takes a step in a state `u` that has the settings of `s`. -/
theorem stepFade_relit {u : State} {g : Fin 12} (x : LightGroup) :
    (u.relit g x.stepFade).target = x.target ∧ (u.relit g x.stepFade).start = x.start ∧
      (u.relit g x.stepFade).steps = x.steps ∧ (u.relit g x.stepFade).causes = x.causes ∧
      (u.relit g x.stepFade).driven = u.drivenOf g (u.relit g x.stepFade) ∧
      (u.relit g x.stepFade).drive = driveOf u.settings.groups[g].law (u.relit g x.stepFade).driven ∧
      (x.fading = false →
        (u.relit g x.stepFade).level = x.level ∧ (u.relit g x.stepFade).step = x.step ∧
          (u.relit g x.stepFade).fading = false) ∧
      (x.fading = true →
        (u.relit g x.stepFade).step = x.step + 1 ∧
        ((u.relit g x.stepFade).fading = true ↔ x.step + 1 < x.steps) ∧
        (((u.relit g x.stepFade).level : Int) =
            max 0 (x.start + Int.tdiv (((x.target : Int) - x.start) * (x.step + 1)) x.steps)) ∧
        (x.step + 1 = x.steps → (u.relit g x.stepFade).level = x.target)) := by
  obtain ⟨driven, drive⟩ := u.relit_driven g x.stepFade
  obtain ⟨target, start, steps, causes⟩ := x.stepFade_keeps
  refine ⟨target, start, steps, causes, driven, drive, fun steady => ?_, fun fading => ?_⟩
  · rw [LightGroup.stepFade_steady steady]
    exact ⟨rfl, rfl, steady⟩
  · have stepped := LightGroup.stepFade_fading fading
    refine ⟨congrArg LightGroup.step stepped, ?_, ?_, fun last => (LightGroup.stepFade_last fading last).1⟩
    · exact (iff_of_eq (congrArg (·.fading = true) stepped)).trans decide_eq_true_iff
    · have level : (u.relit g x.stepFade).level = fadeLevel x.start x.target x.steps (x.step + 1) :=
        congrArg LightGroup.level stepped
      rw [level, fadeLevel, Int.toNat_eq_max, max_comm]
      push_cast
      rfl

/-- Settles O52: the state is the grid's next moment, from which each group is computed, one by one. -/
theorem fadeStepAdvances : Obligations.FadeStepAdvances := by
  unfold Obligations.FadeStepAdvances
  refine ⟨fun s powered => ⟨s.fadeEngineStep, State.takes_powered State.fadeEngineStep powered, s.fadeEngineStep_changes,
    s.fadeEngineStep_clock.1, ?_, fun z => ?_, fun g => ?_⟩, fun g s powered present fading last => ?_,
    fun g s idle => State.takes_still (if_neg ?_), fun start target n k some_ within => fadeLevel_between some_ within⟩
  · rw [s.fadeEngineStep_clock.1, s.fadeEngineStep_clock.2]
  · rw [s.fadeEngineStep_clock.1, s.fadeEngineStep_flickers, s.onGrid_flicker]
    refine ⟨rfl, rfl, fun steady => ?_, fun rate limit row => isDip_iff row⟩
    dsimp only
    rw [steady]
    rfl
  · have settings : s.fadeEngineStep.settings = s.settings := s.fadeEngineStep_changes.same .settings (by decide)
    have stepped := @State.fadeEngineStep_present s g
    refine ⟨State.fadeEngineStep_absent, fun present => ?_⟩
    replace stepped := stepped present
    generalize s.fadeEngineStep = t at *
    rw [stepped, ← settings]
    exact stepFade_relit _
  · obtain ⟨level, ended⟩ := LightGroup.stepFade_last fading last
    have group := State.fadeEngineStep_present present
    have ends : s.fadeEnds g = s.fadeEngineStep := if_pos ⟨present, fading, last.ge⟩
    have taken := State.takes_powered (State.fadeEnds g) powered
    have step := State.takes_powered State.fadeEngineStep powered
    rw [ends] at taken
    generalize s.fadeEngineStep = t at *
    refine ⟨t, taken, step, ?_, ?_⟩
    · rw [group]
      exact ended
    · rw [group]
      exact level
  · rintro ⟨present, fading, last⟩
    rcases idle with absent | steady | early
    · rw [absent] at present
      exact Bool.noConfusion present
    · rw [steady] at fading
      exact Bool.noConfusion fading
    · omega

end Sys2Proof.Machine
end

section
/-!
PROOFS. The target amendment of a group, alone and beside settings (R107, R108, R109).
-/

namespace Sys2Proof.Machine
-- One proof after another: the whole text stays within the memory of one compile.
set_option Elab.async false

/-! ## AMEND of a GROUP record (R105, R107) -/

section

variable {r : Req} {g : Fin 12} (index : r.index.toNat = g.1 + 1)
include index

theorem State.amendReq_group (l : Bool) (st : Fin 8) (u : State) :
    State.amendReq l ⟨st, .group, r⟩ u = u.amendGroup ⟨st, .group, r⟩ g := by
  simp only [State.amendReq, entryOf_eq_some index]

theorem State.reads_group (u : State) : u.reads .group r.index = u.groupFields g := by
  unfold State.reads State.table
  rw [entryOf_eq_some index, State.groupFields_eq]
  rfl

end

section

variable {q : Ask} {g : Fin 12} {u : State}

/-- The request carries a target or a fade time (R107). -/
def actsOnGroup (fs : List FieldVal) : Bool := carries fs 33 || carries fs 128

/-- The record that a refusal of a GROUP request carries: where it asks for a target or names a fade time
(R107; log entry 10). -/
def State.groupShown (u : State) (g : Fin 12) (fs : List FieldVal) : List FieldVal :=
  if actsOnGroup fs then u.groupFields g else []

theorem State.amendGroup_flawed {w : Flaw × FieldVal} (flaw : firstFlaw (groupForm q.req.fields) q.req.fields = some w) :
    u.amendGroup q g = q.flawed w (u.groupShown g q.req.fields) u := by
  simp only [State.amendGroup, flaw]
  rfl

/-- What decides a GROUP request of good form: the group and the role for a target, then the locks for settings, then
the forces for a target (R107, R194). -/
theorem State.amendGroup_formed (form : firstFlaw (groupForm q.req.fields) q.req.fields = none) : u.amendGroup q g =
    if carries q.req.fields 33 = true ∧ u.settings.groups[g].present = false then
      q.says .badField (u.groupShown g q.req.fields) u
    else if carries q.req.fields 33 = true ∧ u.admitsTarget q.st g = false then
      q.says .notPermitted (u.groupShown g q.req.fields) u
    else
      match u.settingsStop q with
      | some status => q.says status (u.groupShown g q.req.fields) u
      | none =>
          match askedFor q.req.fields 33 with
          | some target =>
              if u.groups[g].causes ≠ 0 then q.refuses .forced (u.groupShown g q.req.fields) u
              else u.applyTarget q g target
          | none => if q.req.fields = [] then q.says .done (u.groupFields g) u else u.applyGroup q g := by
  have lacks (b : Bool) : (carries q.req.fields 33 && !b) = true ↔ carries q.req.fields 33 = true ∧ b = false := by
    rw [Bool.and_eq_true, Bool.not_eq_true']
  simp only [State.amendGroup, form, lacks, bne_iff_ne] <;> rfl

end

/-! ## A target amendment (R107, R108) -/

/-- What turns a target away: the group, the role, and its forces (R107). -/
def State.targetBar (u : State) (st : Fin 8) (g : Fin 12) : Option (Status × Option Reason) :=
  if u.settings.groups[g].present = false then some (Status.badField, none)
  else if u.role st ≠ .foh ∧ (u.settings.groups[g].kind = .foyer ∨ u.isStageOf st u.settings.groups[g].aud = false) then
    some (.notPermitted, none)
  else if u.groups[g].causes ≠ 0 then some (.refused, some Reason.forced)
  else none

theorem State.admitsTarget_eq_false {u : State} {st : Fin 8} {g : Fin 12} : u.admitsTarget st g = false ↔
    u.role st ≠ .foh ∧ (u.settings.groups[g].kind = .foyer ∨ u.isStageOf st u.settings.groups[g].aud = false) := by
  unfold State.admitsTarget
  rw [Bool.or_eq_false_iff, beq_eq_false_iff_ne, Bool.and_eq_false_iff, bne_eq_false_iff_eq]

theorem State.frameGood_targetBar (s : State) (st : Fin 8) (g : Fin 12) : s.frameGood.targetBar st g = s.targetBar st g := by
  unfold State.targetBar
  simp only [State.frameGood_settings, State.frameGood_role, State.frameGood_isStageOf, State.frameGood_groups]

/-- The fields of a target amendment without settings: the target and the fade time it asks for, 0 where it names none
(R107). -/
structure TargetAsked (fs : List FieldVal) (target fade : Nat) : Prop where
  form : firstFlaw (groupForm fs) fs = none
  target : askedFor fs 33 = some target
  fade : (askedFor fs 128).getD 0 = fade
  plain : amendsSettings .group fs = false
  once : (fs.map (·.id)).Nodup

namespace TargetAsked

variable {fs : List FieldVal} {target fade : Nat}

theorem carries (h : TargetAsked fs target fade) : carries fs 33 = true := carries_of_askedFor h.target

/-- A target alone, or with a fade time on either side of it. -/
theorem of_fields {q : AmendReq} {v : Word} {asked : Nat} (h : (q.before ++ q.after = [] ∧ asked = 0) ∨
    ∃ w : Word, q.before ++ q.after = [⟨128, w⟩] ∧ asked = w.toNat) : TargetAsked (q.withField 33 v).fields v.toNat asked := by
  obtain ⟨station, index, issue, before, after⟩ := q
  rcases h with ⟨rest, rfl⟩ | ⟨w, rest, rfl⟩
  · obtain ⟨rfl, rfl⟩ := List.append_eq_nil_iff.1 rest
    exact ⟨rfl, rfl, rfl, rfl, by simp [AmendReq.withField]⟩
  · rcases List.append_eq_singleton_iff.1 rest with ⟨rfl, rfl⟩ | ⟨rfl, rfl⟩
    · exact ⟨rfl, rfl, rfl, rfl, by simp [AmendReq.withField]⟩
    · exact ⟨rfl, rfl, rfl, rfl, by simp [AmendReq.withField]⟩

theorem decided {q : Ask} {g : Fin 12} {u : State} (h : TargetAsked q.req.fields target fade) (kind : q.kind = .group) :
    u.amendGroup q g =
      match u.targetBar q.st g with
      | some (status, why) => (q.answer status why (u.groupFields g), u)
      | none => u.applyTarget q g target := by
  have shown : u.groupShown g q.req.fields = u.groupFields g := if_pos (by rw [actsOnGroup, h.carries]; rfl)
  have stop : u.settingsStop q = none := State.settingsStop_of_none (by rw [kind]; exact h.plain)
  rw [State.amendGroup_formed h.form, shown, stop, h.target, h.carries]
  unfold State.targetBar
  simp only [true_and, State.admitsTarget_eq_false]
  split_ifs <;> rfl

end TargetAsked

/-! ## The fade that a target starts (R108, R109, R113) -/

theorem LightGroup.startFade_eq (t d : Nat) (x : LightGroup) : x.startFade t d =
    { x with target := t, start := x.level, steps := 5 * d, step := 0, fading := d != 0,
             level := if d = 0 then t else x.level } := by
  unfold LightGroup.startFade
  split
  next zero => subst zero; rfl
  next some_ => simp only [bne_iff_ne.2 some_]

theorem State.beginFade_group (s : State) (g : Fin 12) (t d : Nat) :
    (s.beginFade g t d).groups[g] = s.relit g (s.groups[g].startFade t d) :=
  (congrArg (fun v : Vector LightGroup 12 => v[g]) (show (s.beginFade g t d).groups = put s.groups g _ from rfl)).trans
    (put_same ..)

theorem State.beginFade_onlyAt (s : State) (g : Fin 12) (t d : Nat) : OnlyAt g s.groups (s.beginFade g t d).groups :=
  put_onlyAt s.groups g _

/-- A group whose output has been computed is driven as it is computed from itself. -/
theorem driven_of_relit {u : State} {g : Fin 12} {x y : LightGroup} (h : x = u.relit g y) :
    x.driven = u.drivenOf g x ∧ x.drive = driveOf u.settings.groups[g].law x.driven := by
  subst h
  exact u.relit_driven g y

/-- A target is brought up to the occupied minimum while the auditorium is occupied and not RUNNING (R108). -/
theorem State.clampTarget_eq (s : State) (g : Fin 12) (v : Nat) : s.clampTarget g v =
    if s.settings.groups[g].kind ≠ .foyer ∧ (s.phase s.settings.groups[g].aud).occupied = true ∧
        s.phase s.settings.groups[g].aud ≠ .running then
      max (min 1000 v) s.settings.perfs[s.settings.groups[g].aud].occupiedMin
    else min 1000 v := by
  unfold State.clampTarget
  dsimp only
  refine if_congr ?_ rfl rfl
  rw [Bool.and_eq_true, Bool.and_eq_true, bne_iff_ne, bne_iff_ne, and_assoc]

theorem okStatus_or_bne (a b c d : Nat) : okStatus (a != b || c != d) = if a = b ∧ c = d then .done else .adjusted := by
  unfold okStatus
  by_cases h : a = b ∧ c = d
  · obtain ⟨rfl, rfl⟩ := h
    simp
  · rw [if_neg h, if_pos]
    rw [Bool.or_eq_true, bne_iff_ne, bne_iff_ne]
    tauto

section

variable {q : AmendReq} {v : Word} {asked : Nat} {g : Fin 12} {st : Fin 8} {s : State}
  (heard : Heard s (q.withField 33 v) st) (index : q.index.toNat = g.1 + 1) (issue : q.issue = 0)
  (listens : s.role st ≠ .none) (able : s.role st ≠ .view)
  (fields : (q.before ++ q.after = [] ∧ asked = 0) ∨ ∃ w : Word, q.before ++ q.after = [⟨128, w⟩] ∧ asked = w.toNat)

theorem target_fixed (heard : Heard s (q.withField 33 v) st) (index : q.index.toNat = g.1 + 1) (issue : q.issue = 0)
    (listens : s.role st ≠ .none) (able : s.role st ≠ .view) (once : ((q.withField 33 v).fields.map (·.id)).Nodup) :
    FixedAsked (.amendTarget q v) .group (q.withField 33 v) st s :=
  ⟨rfl, rfl, heard, listens, able, once,
    ⟨(Nat.le_add_left 1 g.1).trans index.ge, index.le.trans g.2⟩, issue⟩

include heard index issue listens able fields

/-- R107: what turns a target away. -/
theorem target_turned {status : Status} {why : Option Reason} (bar : s.targetBar st g = some (status, why)) :
    ∃ t, exec (.amendTarget q v) s = .next t ∧ ChangesOnly [.link] s.frameGood t ∧
      Replies t s.settings.part.address q.station status why .group (g.1 + 1) 0 (s.frameGood.groupFields g) := by
  have asks := TargetAsked.of_fields (v := v) fields
  have fixed := target_fixed heard index issue listens able asks.once
  have decided := asks.decided (q := ⟨st, .group, q.withField 33 v⟩) (g := g) (u := s.frameGood) rfl
  rw [s.frameGood_targetBar, bar] at decided
  rw [← index]
  exact fixed.turned ((State.amendReq_group index ..).trans decided)

/-- R108, R109: what a target that is taken starts. -/
theorem target_taken (bar : s.targetBar st g = none) :
    ∃ a t, t = (s.frameGood.beginFade g (s.frameGood.clampTarget g v.toNat) (min 6000 asked)).reply
        s.settings.part.address q.station a ∧
      exec (.amendTarget q v) s = .next t ∧
      Replies t s.settings.part.address q.station
        (if s.frameGood.clampTarget g v.toNat = v.toNat ∧ min 6000 asked = asked then .done else .adjusted) none .group
        (g.1 + 1) 0 (t.groupFields g) := by
  have asks := TargetAsked.of_fields (v := v) fields
  have fixed := target_fixed heard index issue listens able asks.once
  have decided := asks.decided (q := ⟨st, .group, q.withField 33 v⟩) (g := g) (u := s.frameGood) rfl
  have fade := asks.fade
  rw [s.frameGood_targetBar, bar] at decided
  unfold State.applyTarget at decided
  dsimp only at decided
  rw [fade, okStatus_or_bne] at decided
  obtain ⟨a, t, left, run, reply⟩ := fixed.done ((State.amendReq_group index ..).trans decided)
  refine ⟨a, t, left, run, ?_⟩
  have shown : t.groupFields g =
      (s.frameGood.beginFade g (s.frameGood.clampTarget g v.toNat) (min 6000 asked)).groupFields g := by rw [left]; rfl
  rw [← index, shown]
  exact reply

end

/-- R107, R108, R109: a target amendment alone or with a fade time. -/
theorem target_asked (q : AmendReq) (v : Word) (asked : Nat) (g : Fin 12) (st : Fin 8) (s u : State) (cfg : GroupSettings)
    (x : LightGroup) (t0 t1 d : Nat) (heard : Heard s (q.withField 33 v) st) (index : q.index.toNat = g.1 + 1)
    (issue : q.issue = 0) (hu : u = s.frameGood) (hcfg : cfg = s.settings.groups[g]) (hx : x = s.groups[g])
    (listens : s.role st ≠ .none) (able : s.role st ≠ .view)
    (fields : (q.before ++ q.after = [] ∧ asked = 0) ∨ ∃ w : Word, q.before ++ q.after = [⟨128, w⟩] ∧ asked = w.toNat)
    (h0 : t0 = min 1000 v.toNat)
    (h1 : t1 = (if cfg.kind ≠ .foyer ∧ (s.phase cfg.aud).occupied = true ∧ s.phase cfg.aud ≠ .running then
        max t0 s.settings.perfs[cfg.aud].occupiedMin else t0))
    (hd : d = min 6000 asked) :
    (∀ status why,
      (if cfg.present = false then some (Status.badField, none)
       else if s.role st ≠ .foh ∧ (cfg.kind = .foyer ∨ s.isStageOf st cfg.aud = false) then
        some (.notPermitted, none)
       else if x.causes ≠ 0 then some (.refused, some Reason.forced)
       else none) = some (status, why) →
      ∃ t, exec (.amendTarget q v) s = .next t ∧ ChangesOnly [.link] u t ∧
        Replies t s.settings.part.address q.station status why .group (g.1 + 1) 0 (u.groupFields g)) ∧
    (cfg.present = true → s.role st = .foh ∨ (cfg.kind ≠ .foyer ∧ s.isStageOf st cfg.aud = true) →
      x.causes = 0 →
      ∃ t, exec (.amendTarget q v) s = .next t ∧ ChangesOnly [.link, .groups, .stations] u t ∧
        OnlyAt g u.groups t.groups ∧ t.groups[g].target = t1 ∧ t.groups[g].start = x.level ∧
        t.groups[g].steps = 5 * d ∧ t.groups[g].step = 0 ∧ t.groups[g].fading = (d != 0) ∧
        t.groups[g].level = (if d = 0 then t1 else x.level) ∧ t.groups[g].causes = 0 ∧
        t.groups[g].driven = t.drivenOf g t.groups[g] ∧
        t.groups[g].drive = driveOf cfg.law t.groups[g].driven ∧
        Replies t s.settings.part.address q.station
          (if t1 = v.toNat ∧ d = asked then .done else .adjusted) none .group (g.1 + 1) 0 (t.groupFields g)) := by
  subst hu hcfg hx h0 hd
  refine ⟨fun status why bar => target_turned heard index issue listens able fields bar, fun present role free => ?_⟩
  have bar : s.targetBar st g = none := by
    unfold State.targetBar
    rw [if_neg (by rw [present]; decide), if_neg (not_and_or.2 ?_), if_neg (not_not.2 free)]
    rcases role with foh | ⟨kind, stage⟩
    · exact .inl (not_not.2 foh)
    · exact .inr (not_or.2 ⟨kind, by rw [stage]; decide⟩)
  have clamped : t1 = s.frameGood.clampTarget g v.toNat := by
    rw [State.clampTarget_eq, h1]
    simp only [State.frameGood_settings, State.frameGood_phase]
  obtain ⟨a, t, left, run, reply⟩ := target_taken heard index issue listens able fields bar
  rw [← clamped] at left reply
  have frame := (s.frameGood.beginFade_changes g t1 (min 6000 asked)).andThen (rs := [.link, .groups, .stations])
    (State.reply_changes _ s.settings.part.address q.station a)
  have only := s.frameGood.beginFade_onlyAt g t1 (min 6000 asked)
  have group : t.groups[g] = t.relit g (s.groups[g].startFade t1 (min 6000 asked)) := by
    have own := s.frameGood.beginFade_group g t1 (min 6000 asked)
    rw [State.frameGood_groups] at own
    rw [left]
    exact own
  have settings : t.settings = s.settings := by
    rw [left]
    exact (frame.same .settings (by decide)).trans s.frameGood_settings
  obtain ⟨driven, drive⟩ := driven_of_relit group
  rw [← left] at frame
  have groups : t.groups = (s.frameGood.beginFade g t1 (min 6000 asked)).groups := by rw [left]; rfl
  rw [← groups] at only
  clear left groups
  rw [settings] at drive
  rw [LightGroup.startFade_eq] at group
  refine ⟨t, run, frame, only, ?_, ?_, ?_, ?_, ?_, ?_, ?_, driven, drive, reply⟩
  all_goals
    rw [group]
  · rfl
  · rfl
  · rfl
  · rfl
  · rfl
  · rfl
  · exact free

/-- A fade time alone is BAD_FIELD, with the record (R107). -/
theorem fadeTime_alone {r : Req} {w : Word} {limitIn : Bool} {g : Fin 12} {st : Fin 8} {s : State} (heard : Heard s r st)
    (index : r.index.toNat = g.1 + 1) (issue : r.issue = 0) (fields : r.fields = [⟨128, w⟩]) (listens : s.role st ≠ .none)
    (able : s.role st ≠ .view) :
    ∃ t, exec (.settingsAmendment .group r limitIn) s = .next t ∧ ChangesOnly [.link] s.frameGood t ∧
      Replies t s.settings.part.address r.station .badField none .group (g.1 + 1) 0 (s.frameGood.groupFields g) := by
  have fixed : FixedAsked (.settingsAmendment .group r limitIn) .group r st s :=
    ⟨rfl, rfl, heard, listens, able, by rw [fields]; exact List.nodup_singleton _, ⟨by omega, index.le.trans g.2⟩, issue⟩
  have flaw : firstFlaw (groupForm r.fields) r.fields = some (.badField, ⟨128, w⟩) := by rw [fields]; rfl
  have flawed := State.amendGroup_flawed (q := ⟨st, .group, r⟩) (g := g) (u := s.frameGood) flaw
  rw [State.groupShown, if_pos (by rw [fields]; rfl)] at flawed
  rw [← index]
  exact fixed.turned ((State.amendReq_group index ..).trans flawed)

/-- A target beside settings is turned away: no role is that of an ENGINEER and one that a target wants (R107, R194). -/
theorem target_beside {q : AmendReq} {v : Word} {g : Fin 12} {st : Fin 8} {s : State} {r : Req} (hr : r = q.withField 33 v)
    (heard : Heard s r st) (index : q.index.toNat = g.1 + 1) (issue : q.issue = 0) (listens : s.role st ≠ .none)
    (able : s.role st ≠ .view) (once : (r.fields.map (·.id)).Nodup)
    (form : ∀ f ∈ r.fields, formOf .group r.index r.fields f = none) (settings : ∃ f ∈ r.fields, f.id.toNat ≤ 10) :
    ∃ t, exec (.amendTarget q v) s = .next t ∧ ChangesOnly [.link] s.frameGood t ∧
      Replies t s.settings.part.address q.station
        (if s.settings.groups[g].present = false then .badField else .notPermitted) none .group (g.1 + 1) 0
        (s.frameGood.reads .group r.index) := by
  subst hr
  have fixed := target_fixed heard index issue listens able once
  have good : firstFlaw (groupForm (q.withField 33 v).fields) (q.withField 33 v).fields = none :=
    firstFlaw_eq_none.2 fun f mem => by rw [← formOf_group]; exact form f mem
  have asks : carries (q.withField 33 v).fields 33 = true := withField_carries q 33 v
  have settles : amendsSettings .group (q.withField 33 v).fields = true := by
    obtain ⟨f, mem, low⟩ := settings
    refine amendsSettings_iff.2 ⟨f, mem, Nat.one_le_iff_ne_zero.2 fun zero => ?_, low⟩
    have flaw := firstFlaw_eq_none.1 good f mem
    unfold groupForm at flaw
    rw [zero] at flaw
    cases flaw
  have shown : s.frameGood.groupShown g (q.withField 33 v).fields = s.frameGood.groupFields g :=
    if_pos (by rw [actsOnGroup, asks]; rfl)
  have decided := State.amendGroup_formed (q := ⟨st, .group, q.withField 33 v⟩) (g := g) (u := s.frameGood) good
  rw [shown, State.settingsStop_of settles, State.frameGood_settings] at decided
  have engineer : s.frameGood.admitsTarget st g = true → s.frameGood.settingsBar st = some .notPermitted := fun admits => by
    refine if_pos (bne_iff_ne.2 fun engineer => ?_)
    have stage : s.frameGood.isStageOf st s.frameGood.settings.groups[g].aud = false := by
      rw [State.isStageOf, engineer]
      rfl
    have barred := State.admitsTarget_eq_false (u := s.frameGood) (st := st) (g := g) |>.2
      ⟨by rw [engineer]; decide, .inr stage⟩
    rw [barred] at admits
    cases admits
  rw [State.reads_group (r := q.withField 33 v) index, ← index]
  refine fixed.turned ((State.amendReq_group index ..).trans (decided.trans ?_))
  rw [if_congr (and_iff_right asks) rfl rfl, if_congr (and_iff_right asks) rfl rfl]
  by_cases absent : s.settings.groups[g].present = false
  · rw [if_pos absent, if_pos absent]
    rfl
  · rw [if_neg absent, if_neg absent]
    cases admits : s.frameGood.admitsTarget st g with
    | false => rfl
    | true =>
      rw [engineer admits]
      rfl

/-- Settles O51. -/
theorem targetFadeStarted : Obligations.TargetFadeStarted := by
  unfold Obligations.TargetFadeStarted
  refine ⟨target_asked, ?_, ?_⟩
  · rintro r w limitIn g st s u heard index issue fields rfl listens able
    exact fadeTime_alone heard index issue fields listens able
  · rintro q v g st s u r hr heard index issue rfl listens able once form settings
    exact target_beside hr heard index issue listens able once form settings

end Sys2Proof.Machine
end

section
/-!
PROOFS. The actions of FIRE and ENGINEER on a zone, alone, together and beside settings (R66, R73, R76, R77, R194).
-/

namespace Sys2Proof.Machine
-- One proof after another: the whole text stays within the memory of one compile.
set_option Elab.async false

/-! ## Settings that a request does not name (R193) -/

/-- A request that names no setting asks for none. -/
theorem askedFor_plain {k : Kind} {fs : List FieldVal} (plain : amendsSettings k fs = false) {id : Nat}
    (inside : 1 ≤ id ∧ id ≤ topSetting k) : askedFor fs id = none := by
  refine askedFor_eq_none.2 (Bool.eq_false_iff.2 fun some_ => ?_)
  obtain ⟨f, mem, rfl⟩ := carries_iff.1 some_
  exact Bool.false_ne_true (plain.symm.trans (amendsSettings_iff.2 ⟨f, mem, inside⟩))

theorem ZoneSettings.asked_plain {fs : List FieldVal} (plain : amendsSettings .zone fs = false) (x : ZoneSettings) :
    x.asked fs = x := by
  have absent {id : Nat} (h : 1 ≤ id ∧ id ≤ topSetting .zone) : askedFor fs id = none := askedFor_plain plain h
  simp only [ZoneSettings.asked, asks, asksYes, asksName, asksSet, absent (id := 1) (by decide), absent (id := 2) (by decide),
    absent (id := 3) (by decide), absent (id := 4) (by decide), absent (id := 5) (by decide), absent (id := 6) (by decide),
    absent (id := 7) (by decide), absent (id := 8) (by decide)]
  rfl

theorem State.settled_self (s : State) (x : Settings) (same : x = s.settings) : s.settled x false = s := by
  subst same
  rfl

/-! ## AMEND of a ZONE record (R66, R77) -/

section

variable {r : Req} {z : Fin 24} (index : r.index.toNat = z.1 + 1)
include index

theorem State.amendReq_zone (l : Bool) (st : Fin 8) (u : State) :
    State.amendReq l ⟨st, .zone, r⟩ u = u.amendZone ⟨st, .zone, r⟩ z := by
  simp only [State.amendReq, entryOf_eq_some index]

theorem State.reads_zone (u : State) : u.reads .zone r.index = u.zoneFields z := by
  unfold State.reads State.table
  rw [entryOf_eq_some index, State.zoneFields_eq]
  rfl

theorem Settings.asked_zone (fs : List FieldVal) (x : Settings) :
    x.asked .zone r.index fs = x.withZone z (x.zones[z].asked fs) := by
  unfold Settings.asked
  rw [entryOf_eq_some index]
  rfl

theorem Settings.ranged_zone (x : Settings) : x.ranged .zone r.index = x.withZone z x.zones[z].ranged := by
  unfold Settings.ranged
  rw [entryOf_eq_some index]
  rfl

/-- What the state of the zone has against its settings (R66). -/
theorem State.settingsClash_zone (s : State) (fs : List FieldVal) : s.settingsClash .zone r.index fs =
    if ((s.settings.zones[z].asked fs).present ≠ s.settings.zones[z].present ∨
          (s.settings.zones[z].asked fs).type ≠ s.settings.zones[z].type) ∧
        (s.zones[z].detection ≠ .normal ∨ s.zones[z].incident ≠ none) then
      some (.refused, some .zoneInAlarm)
    else none := by
  unfold State.settingsClash
  rw [entryOf_eq_some index]
  rfl

end

/-- The settings that an accepted request leaves a zone with: what it asks for, brought into range (R197). -/
def ZoneSettings.given (fs : List FieldVal) (x : ZoneSettings) : ZoneSettings :=
  if amendsSettings .zone fs then (x.asked fs).ranged else x

/-- The zone or its actions refuse the request (R66, R76). -/
theorem State.zoneBar_iff (s : State) (z : Fin 24) (fs : List FieldVal) :
    s.zoneBar z fs (s.settings.zones[z].given fs) = true ↔
      (askedFor fs 36 = some 1 ∧ s.zones[z].detection = .alarm) ∨
      (((s.settings.zones[z].asked fs).present ≠ s.settings.zones[z].present ∨
          (s.settings.zones[z].asked fs).type ≠ s.settings.zones[z].type) ∧
        (s.zones[z].detection ≠ .normal ∨ s.zones[z].incident ≠ none)) := by
  have present : (s.settings.zones[z].given fs).present = (s.settings.zones[z].asked fs).present ∧
      (s.settings.zones[z].given fs).type = (s.settings.zones[z].asked fs).type := by
    unfold ZoneSettings.given
    split
    · exact ⟨rfl, rfl⟩
    next plain => rw [ZoneSettings.asked_plain (Bool.eq_false_iff.2 plain)]; exact ⟨rfl, rfl⟩
  unfold State.zoneBar
  dsimp only
  rw [present.1, present.2, Bool.or_eq_true, Bool.and_eq_true, Bool.or_eq_true, Bool.or_eq_true, Bool.and_eq_true,
    bne_iff_ne, bne_iff_ne, bne_iff_ne, beq_iff_eq, beq_iff_eq, Option.isSome_iff_ne_none, or_comm]

/-- The request isolates the zone, ends its isolation, or resets its noise counter (R77). -/
def actsOnZone (fs : List FieldVal) : Bool := carries fs 36 || carries fs 128

/-- What turns a request with an action on a zone away, in the order of R77 and R194. -/
def State.zoneActionBar (s : State) (st : Fin 8) (z : Fin 24) (fs : List FieldVal) : Option (Status × Option Reason) :=
  if s.settings.zones[z].present = false then some (Status.badField, none)
  else if s.role st ≠ .fire ∧ s.role st ≠ .engineer then some (.notPermitted, none)
  else if amendsSettings .zone fs = true ∧ s.lockedOut st ≠ none then s.lockedOut st
  else if askedFor fs 36 = some 1 ∧ s.zones[z].detection = .alarm then some (.refused, some .zoneInAlarm)
  else if ((s.settings.zones[z].asked fs).present ≠ s.settings.zones[z].present ∨
        (s.settings.zones[z].asked fs).type ≠ s.settings.zones[z].type) ∧
      (s.zones[z].detection ≠ .normal ∨ s.zones[z].incident ≠ none) then
    some (.refused, some .zoneInAlarm)
  else none

section

variable {q : Ask} {z : Fin 24} {u : State}

theorem State.amendZone_flawed {w : Flaw × FieldVal} (flaw : firstFlaw zoneForm q.req.fields = some w) :
    u.amendZone q z = q.flawed w (u.zoneFields z) u := by
  simp only [State.amendZone, flaw]

/-- What decides a ZONE request of good form: the zone and the role for an action, the locks for settings, and the state
of the zone (R66, R77, R194). -/
theorem State.amendZone_formed (once : (q.req.fields.map (·.id)).Nodup) (form : firstFlaw zoneForm q.req.fields = none) :
    u.amendZone q z =
      if actsOnZone q.req.fields = true ∧ u.settings.zones[z].present = false then
        q.says .badField (u.zoneFields z) u
      else if actsOnZone q.req.fields = true ∧ (u.role q.st ≠ .fire ∧ u.role q.st ≠ .engineer) then
        q.says .notPermitted (u.zoneFields z) u
      else
        match u.settingsStop q with
        | some status => q.says status (u.zoneFields z) u
        | none =>
            if u.zoneBar z q.req.fields (u.settings.zones[z].given q.req.fields) = true then
              q.refuses .zoneInAlarm (u.zoneFields z) u
            else
              q.says (okStatus (u.settings.zones[z].asked q.req.fields != u.settings.zones[z].given q.req.fields))
                ((u.applyZone z q.req.fields (u.settings.zones[z].given q.req.fields)).zoneFields z)
                (u.applyZone z q.req.fields (u.settings.zones[z].given q.req.fields)) := by
  have absent : (actsOnZone q.req.fields && !u.settings.zones[z].present) = true ↔
      actsOnZone q.req.fields = true ∧ u.settings.zones[z].present = false := by rw [Bool.and_eq_true, Bool.not_eq_true']
  have other : (actsOnZone q.req.fields && !(u.role q.st == .fire || u.role q.st == .engineer)) = true ↔
      actsOnZone q.req.fields = true ∧ (u.role q.st ≠ .fire ∧ u.role q.st ≠ .engineer) := by
    rw [Bool.and_eq_true, Bool.not_eq_true', Bool.or_eq_false_iff, beq_eq_false_iff_ne, beq_eq_false_iff_ne]
  have fold := ZoneSettings.foldl_amend once (firstFlaw_eq_none.1 form) u.settings.zones[z]
  have given : (if amendsSettings .zone q.req.fields = true then
      (q.req.fields.foldl ZoneSettings.amend u.settings.zones[z]).inRange else u.settings.zones[z]) =
        u.settings.zones[z].given q.req.fields := by rw [fold]; rfl
  unfold actsOnZone at absent other ⊢
  unfold State.amendZone
  simp only [form, absent, other, given, fold] <;> rfl

/-- The owner's decision on a request with an action. -/
theorem State.amendZone_acts (once : (q.req.fields.map (·.id)).Nodup) (form : firstFlaw zoneForm q.req.fields = none)
    (kind : q.kind = .zone) (acts : actsOnZone q.req.fields = true) : u.amendZone q z =
      match u.zoneActionBar q.st z q.req.fields with
      | some (status, why) => (q.answer status why (u.zoneFields z), u)
      | none => q.says (okStatus (u.settings.zones[z].asked q.req.fields != u.settings.zones[z].given q.req.fields))
          ((u.applyZone z q.req.fields (u.settings.zones[z].given q.req.fields)).zoneFields z)
          (u.applyZone z q.req.fields (u.settings.zones[z].given q.req.fields)) := by
  rw [State.amendZone_formed once form, if_congr (and_iff_right acts) rfl rfl, if_congr (and_iff_right acts) rfl rfl]
  unfold State.zoneActionBar
  by_cases absent : u.settings.zones[z].present = false
  · rw [if_pos absent, if_pos absent]
    rfl
  · rw [if_neg absent, if_neg absent]
    by_cases other : u.role q.st ≠ .fire ∧ u.role q.st ≠ .engineer
    · rw [if_pos other, if_pos other]
      rfl
    · rw [if_neg other, if_neg other, if_congr (State.zoneBar_iff u z q.req.fields) rfl rfl, State.lockedOut_eq]
      have stop : u.settingsStop q = if amendsSettings .zone q.req.fields = true then u.settingsBar q.st else none := by
        rw [← kind]; rfl
      rw [stop]
      by_cases locked : amendsSettings .zone q.req.fields = true ∧ (u.settingsBar q.st).map (fun w => (w, (none : Option Reason))) ≠ none
      · rw [if_pos locked, if_pos locked.1]
        obtain ⟨-, locked⟩ := locked
        revert locked
        cases u.settingsBar q.st with
        | none => exact fun h => absurd rfl h
        | some w => exact fun _ => rfl
      · have open_ : (if amendsSettings .zone q.req.fields = true then u.settingsBar q.st else none) = none := by
          split
          next settles =>
            rw [not_and, not_not] at locked
            exact Option.map_eq_none_iff.1 (locked settles)
          · rfl
        rw [if_neg locked, open_]
        dsimp only
        by_cases alarm : askedFor q.req.fields 36 = some 1 ∧ u.zones[z].detection = .alarm
        · rw [if_pos (.inl alarm), if_pos alarm]
          rfl
        · rw [if_neg alarm, if_congr (or_iff_right alarm) rfl rfl]
          split
          · rfl
          · rfl

end

/-! ## What an accepted request leaves (R66, R73, R77) -/

theorem Zone.setIsolated_eq {now confirmTime : Nat} {on : Bool} {y : Zone} (calm : on = true → y.detection ≠ .alarm) :
    y.setIsolated now confirmTime on =
      if y.isolated = on then y
      else if on = true then { y with isolated := true, detection := .normal, confirmAt := none }
      else if y.band = .active ∧ y.detection = .normal then
        { y with isolated := false, detection := .pending, confirmAt := some (now + confirmTime * 100) }
      else { y with isolated := false } := by
  unfold Zone.setIsolated
  refine if_congr Iff.rfl rfl ?_
  cases on with
  | false => rfl
  | true =>
    have kept : (if y.detection = .pending then Detection.normal else y.detection) = .normal := by
      have calm := calm rfl
      cases found : y.detection with
      | alarm => exact absurd found calm
      | normal => rfl
      | pending => rfl
    rw [if_pos rfl, if_pos rfl, Zone.isolate, kept]

/-- The zone after the actions of a request, reset noise before isolation; the condition is not yet derived (R73, R77). -/
theorem Zone.acted_eq {fs : List FieldVal} {now confirmTime : Nat} {x y : Zone}
    (form : ∀ v, askedFor fs 36 = some v → v ≤ 1) (calm : askedFor fs 36 = some 1 → x.detection ≠ .alarm)
    (hy : y = if carries fs 128 = true then { x with noise := 0, quietAt := none } else x) :
    x.acted now confirmTime fs =
      if askedFor fs 36 = none ∨ askedFor fs 36 = some y.isolated.toNat then y
      else if askedFor fs 36 = some 1 then { y with isolated := true, detection := .normal, confirmAt := none }
      else if y.band = .active ∧ y.detection = .normal then
        { y with isolated := false, detection := .pending, confirmAt := some (now + confirmTime * 100) }
      else { y with isolated := false } := by
  have base : (if carries fs 128 = true then x.resetNoise else x) = y := hy.symm
  have calm : askedFor fs 36 = some 1 → y.detection ≠ .alarm := by
    rw [hy]
    split
    · exact calm
    · exact calm
  clear hy
  unfold Zone.acted
  dsimp only
  rw [base]
  cases asks : askedFor fs 36 with
  | none => rw [if_pos (.inl rfl)]
  | some v =>
    have small := form v asks
    rw [asks] at calm
    interval_cases v
    · refine (Zone.setIsolated_eq (on := false) nofun).trans (if_congr ?_ rfl (if_congr (by decide) rfl rfl))
      cases y.isolated <;> decide
    · refine (Zone.setIsolated_eq (on := true) fun _ => calm rfl).trans (if_congr ?_ rfl (if_congr (by decide) rfl rfl))
      cases y.isolated <;> decide

section

variable {s : State} {z : Fin 24} {fs : List FieldVal}

/-- A zone made absent is idle (R66). -/
theorem State.zonePresence_zones (s : State) (z : Fin 24) : (s.zonePresence z).zones =
    put s.zones z (Zone.atStart s.now s.settings.zones[z] s.lines.bands[z]) := by
  have zones : ((s.writeZone z (Zone.atStart s.now s.settings.zones[z] s.lines.bands[z])).mark .zone).zones =
      put s.zones z (Zone.atStart s.now s.settings.zones[z] s.lines.bands[z]) :=
    ((State.mark_changes ..).same .zones (by decide)).trans (State.writeZone_zones ..)
  unfold State.zonePresence
  dsimp only
  split
  · exact zones
  · exact ((State.evalHolds_changes ..).same .zones (by decide)).trans zones

/-- The zone of a request with an action that is accepted: cleared where it is made absent, acted on where it stays. -/
theorem State.actZone_zones (acts : actsOnZone fs = true) {old new : ZoneSettings} (there : old.present = true)
    (cfg : s.settings.zones[z] = new) : (s.actZone z fs old new).zones = put s.zones z
      (if new.present = false then Zone.cleared else (s.zones[z].acted s.now new.confirmTime fs).judged) := by
  unfold State.actZone
  rw [there]
  cases present : new.present with
  | false =>
    rw [if_pos (by decide), if_pos rfl, State.zonePresence_zones, cfg, Zone.atStart, present]
    rfl
  | true =>
    have acted : (carries fs 128 || carries fs 36) = true := by rw [Bool.or_comm]; exact acts
    rw [if_neg (by decide), if_pos acted, State.writeZone_judged, if_neg (by decide)]

/-- What an accepted request with an action leaves. -/
structure ZoneServed (fs : List FieldVal) (z : Fin 24) (new : ZoneSettings) (s t : State) : Prop where
  zones : t.zones = put s.zones z
    (if new.present = false then Zone.cleared else (s.zones[z].acted s.now new.confirmTime fs).judged)
  written : SettingsWritten (s.settings.withZone z new) s t
  plain : new = s.settings.zones[z] → ChangesOnly [.zones, .holds, .stations] s t
  frame : new.alarms = s.settings.zones[z].alarms → new.callZones = s.settings.zones[z].callZones →
    ChangesOnly [.settings, .store, .zones, .holds, .stations] s t
  sounders : new.alarms ≠ s.settings.zones[z].alarms → SoundersDerived t
  silences : new.callZones ≠ s.settings.zones[z].callZones → SilencesDerived t

theorem State.serveZone_same {old new : ZoneSettings} (alarms : new.alarms = old.alarms)
    (zones : new.callZones = old.callZones) : s.serveZone old new = s := by
  unfold State.serveZone
  rw [alarms, zones, bne_self_eq_false, bne_self_eq_false]
  rfl

theorem State.serveZone_sounders {old new : ZoneSettings} (other : new.alarms ≠ old.alarms) :
    SoundersDerived (s.serveZone old new) := by
  unfold State.serveZone
  rw [if_pos (bne_iff_ne.2 other.symm)]
  dsimp only
  split
  · have frame := s.demandSounders.deriveSilences_changes
    have settings : s.demandSounders.deriveSilences.settings = s.demandSounders.settings := frame.same .settings (by decide)
    have asked := State.sounderSet_congr frame.openIncidents fun z => by rw [settings]
    exact s.demandSounders_derived.keep (AlarmsKept.deriveSilences _) fun c => by rw [asked]
  · exact s.demandSounders_derived

theorem State.serveZone_silences {old new : ZoneSettings} (other : new.callZones ≠ old.callZones) :
    SilencesDerived (s.serveZone old new) := by
  unfold State.serveZone
  dsimp only
  rw [if_pos (bne_iff_ne.2 other.symm)]
  exact State.deriveSilences_derived _

theorem State.applyZone_served (acts : actsOnZone fs = true) (there : s.settings.zones[z].present = true)
    (new : ZoneSettings) : ZoneServed fs z new s (s.applyZone z fs new) := by
  rw [State.applyZone_settled]
  have settled := s.settled_changes (s.settings.withZone z new) (s.settings.zones[z] != new)
  have written := (settingsAt_zone z).written s new
  have same : new = s.settings.zones[z] → s.settled (s.settings.withZone z new) (s.settings.zones[z] != new) = s := by
    rintro rfl
    rw [bne_self_eq_false]
    exact s.settled_self _ ((settingsAt_zone z).set_get s.settings)
  generalize s.settled (s.settings.withZone z new) (s.settings.zones[z] != new) = u at *
  have cfg : u.settings.zones[z] = new := by rw [written.1]; exact put_same ..
  have zones := State.actZone_zones (s := u) acts there cfg
  rw [(settled.same .zones (by decide) : u.zones = s.zones), (settled.same .clock (by decide) : u.now = s.now)] at zones
  have acted := u.actZone_changes z fs s.settings.zones[z] new
  have served := (u.actZone z fs s.settings.zones[z] new).serveZone_changes s.settings.zones[z] new
  have keeps : ∀ alarms : new.alarms = s.settings.zones[z].alarms, ∀ zones : new.callZones = s.settings.zones[z].callZones,
      (u.actZone z fs s.settings.zones[z] new).serveZone s.settings.zones[z] new = u.actZone z fs s.settings.zones[z] new :=
    fun alarms zones => State.serveZone_same alarms zones
  refine ⟨(served.same .zones (by decide)).trans zones, (written.andThen acted).andThen served, fun plain => ?_,
    fun alarms zones => ?_, State.serveZone_sounders, State.serveZone_silences⟩
  · rw [keeps (by rw [plain]) (by rw [plain])]
    rw [same plain] at acted ⊢
    exact acted
  · rw [keeps alarms zones]
    exact settled.andThen acted

end

/-! ## A request with an action (R77, R194) -/

theorem State.frameGood_zones (s : State) : s.frameGood.zones = s.zones := s.frameGood_changes.same .zones (by decide)

theorem State.frameGood_now (s : State) : s.frameGood.now = s.now := s.frameGood_changes.same .clock (by decide)

theorem State.frameGood_zoneActionBar (s : State) (st : Fin 8) (z : Fin 24) (fs : List FieldVal) :
    s.frameGood.zoneActionBar st z fs = s.zoneActionBar st z fs := by
  unfold State.zoneActionBar
  simp only [State.frameGood_settings, State.frameGood_role, State.frameGood_lockedOut, State.frameGood_zones]

/-- A request of good form with an action on zone `z`. -/
structure ZoneAsked (act : Instr) (r : Req) (z : Fin 24) (st : Fin 8) (s : State) : Prop where
  fixed : FixedAsked act .zone r st s
  index : r.index.toNat = z.1 + 1
  form : firstFlaw zoneForm r.fields = none
  acts : actsOnZone r.fields = true

namespace ZoneAsked

variable {act : Instr} {r : Req} {z : Fin 24} {st : Fin 8} {s : State}

/-- A value of isolated that passes its check is yes or no. -/
theorem yesNo (h : ZoneAsked act r z st s) (v : Nat) (asks : askedFor r.fields 36 = some v) : v ≤ 1 := by
  obtain ⟨f, mem, id, rfl⟩ := askedFor_eq_some asks
  have good := firstFlaw_eq_none.1 h.form f mem
  unfold zoneForm at good
  rw [id] at good
  by_contra high
  have bad : isYesNo (valOf f) = false := by simpa [isYesNo] using high
  rw [bad] at good
  cases good

theorem turned (h : ZoneAsked act r z st s) {status : Status} {why : Option Reason}
    (bar : s.zoneActionBar st z r.fields = some (status, why)) :
    ∃ t, exec act s = .next t ∧ ChangesOnly [.link] s.frameGood t ∧
      Replies t s.settings.part.address r.station status why .zone (z.1 + 1) 0 (s.frameGood.zoneFields z) := by
  have decided := State.amendZone_acts (q := ⟨st, .zone, r⟩) (z := z) (u := s.frameGood) h.fixed.once h.form rfl h.acts
  rw [s.frameGood_zoneActionBar, bar] at decided
  rw [← h.index]
  exact h.fixed.turned ((State.amendReq_zone h.index ..).trans decided)

/-- What a request that is accepted leaves, and its reply. -/
theorem done (h : ZoneAsked act r z st s) (bar : s.zoneActionBar st z r.fields = none) :
    ∃ a u t, ZoneServed r.fields z (s.settings.zones[z].given r.fields) s.frameGood u ∧
      t = u.reply s.settings.part.address r.station a ∧ exec act s = .next t ∧
      Replies t s.settings.part.address r.station
        (okStatus (s.settings.zones[z].asked r.fields != s.settings.zones[z].given r.fields)) none .zone (z.1 + 1) 0
        (t.zoneFields z) := by
  have there : s.frameGood.settings.zones[z].present = true := by
    rw [State.frameGood_settings]
    unfold State.zoneActionBar at bar
    split at bar
    · cases bar
    next present => simpa using present
  have decided := State.amendZone_acts (q := ⟨st, .zone, r⟩) (z := z) (u := s.frameGood) h.fixed.once h.form rfl h.acts
  rw [s.frameGood_zoneActionBar, bar, State.frameGood_settings] at decided
  have served := State.applyZone_served h.acts there (s.settings.zones[z].given r.fields)
  generalize s.frameGood.applyZone z r.fields (s.settings.zones[z].given r.fields) = u at *
  obtain ⟨a, t, left, run, reply⟩ := h.fixed.done ((State.amendReq_zone h.index ..).trans decided)
  refine ⟨a, u, t, served, left, run, ?_⟩
  have shown : t.zoneFields z = u.zoneFields z := by rw [left]; rfl
  rw [← h.index, shown]
  exact reply

end ZoneAsked

/-! ## One action alone (R73, R76, R77) -/

/-- An action alone is a request of good form. -/
theorem zoneAsked_alone {act : Instr} {q : AmendReq} {id : Byte} {v : Word} {z : Fin 24} {st : Fin 8} {s : State}
    (named : requestOf act = some (.amend, .zone, q.withField id v)) (h : HeardAlone s q st (z.1 + 1) 0)
    (listens : s.role st ≠ .none) (able : s.role st ≠ .view) (form : firstFlaw zoneForm [⟨id, v⟩] = none)
    (acts : actsOnZone [⟨id, v⟩] = true) : ZoneAsked act (q.withField id v) z st s := by
  have fields := h.fields id v
  refine ⟨.alone named rfl h listens able ⟨Nat.le_add_left 1 z.1, z.2⟩, ?_, by rw [fields]; exact form,
    by rw [fields]; exact acts⟩
  obtain ⟨-, -, -, -, -, index, -⟩ := h
  exact index

section

variable {act : Instr} {q : AmendReq} {id : Byte} {v : Word} {z : Fin 24} {st : Fin 8} {s : State}
  (h : ZoneAsked act (q.withField id v) z st s) (fields : (q.withField id v).fields = [⟨id, v⟩])
  (plain : amendsSettings .zone [⟨id, v⟩] = false)
include h fields plain

/-- What turns an action alone away. -/
theorem zoneAlone_bar : s.zoneActionBar st z (q.withField id v).fields =
    if s.settings.zones[z].present = false then some (.badField, none)
    else if s.role st ≠ .fire ∧ s.role st ≠ .engineer then some (.notPermitted, none)
    else if askedFor [⟨id, v⟩] 36 = some 1 ∧ s.zones[z].detection = .alarm then some (.refused, some .zoneInAlarm)
    else none := by
  unfold State.zoneActionBar
  rw [fields, plain, ZoneSettings.asked_plain plain]
  simp only [Bool.false_eq_true, false_and, if_false, ne_eq, not_true_eq_false, or_self]

/-- What an action alone that is accepted leaves. -/
theorem zoneAlone_done (present : s.settings.zones[z].present = true) (role : s.role st = .fire ∨ s.role st = .engineer)
    (calm : askedFor [⟨id, v⟩] 36 = some 1 → s.zones[z].detection ≠ .alarm) :
    ∃ t, exec act s = .next t ∧ ChangesOnly [.link, .zones, .holds, .stations] s.frameGood t ∧
      OnlyAt z s.frameGood.zones t.zones ∧
      t.zones[z] = (s.zones[z].acted s.now s.settings.zones[z].confirmTime [⟨id, v⟩]).judged ∧
      Replies t s.settings.part.address q.station .done none .zone (z.1 + 1) 0 (t.zoneFields z) := by
  have given : s.settings.zones[z].given (q.withField id v).fields = s.settings.zones[z] := by
    rw [fields, ZoneSettings.given, if_neg (by rw [plain]; decide)]
  have bar : s.zoneActionBar st z (q.withField id v).fields = none := by
    rw [zoneAlone_bar h fields plain, if_neg (by rw [present]; decide),
      if_neg (by rintro ⟨fire, engineer⟩; exact role.elim fire engineer), if_neg (fun k => calm k.1 k.2)]
  obtain ⟨a, u, t, served, left, run, reply⟩ := h.done bar
  rw [given] at served reply
  rw [fields, ZoneSettings.asked_plain plain, bne_self_eq_false] at reply
  have frame := served.plain (by rw [State.frameGood_settings])
  have zones := served.zones
  rw [fields, present, if_neg (by decide), State.frameGood_zones, State.frameGood_now] at zones
  have same : t.zones = u.zones := by rw [left]; rfl
  refine ⟨t, run, ?_, ?_, ?_, reply⟩
  · rw [left]
    exact frame.andThen (State.reply_changes ..)
  · rw [same, zones, State.frameGood_zones]
    exact put_onlyAt _ _ _
  · exact (congrArg (fun v : Vector Zone 24 => v[z]) (same.trans zones)).trans (put_same ..)

end

/-- R73, R76, R77: one of the three actions alone. -/
theorem zoneAction_alone (q : AmendReq) (z : Fin 24) (st : Fin 8) (s u : State) (x : Zone)
    (h : HeardAlone s q st (z.1 + 1) 0) (hu : u = s.frameGood) (hx : x = s.zones[z]) (listens : s.role st ≠ .none)
    (able : s.role st ≠ .view) (act : Instr) (which : act = Instr.isolate q ∨ act = .restoreZone q ∨ act = .resetNoise q) :
    (s.settings.zones[z].present = false →
      ∃ t, exec act s = .next t ∧ ChangesOnly [.link] u t ∧
        Replies t s.settings.part.address q.station .badField none .zone (z.1 + 1) 0 (u.zoneFields z)) ∧
    (s.settings.zones[z].present = true → s.role st ≠ .fire → s.role st ≠ .engineer →
      ∃ t, exec act s = .next t ∧ ChangesOnly [.link] u t ∧
        Replies t s.settings.part.address q.station .notPermitted none .zone (z.1 + 1) 0 (u.zoneFields z)) ∧
    (s.settings.zones[z].present = true → s.role st = .fire ∨ s.role st = .engineer →
      (act = .isolate q → x.detection = .alarm →
        ∃ t, exec act s = .next t ∧ ChangesOnly [.link] u t ∧
          Replies t s.settings.part.address q.station .refused (some .zoneInAlarm) .zone (z.1 + 1) 0
            (u.zoneFields z)) ∧
      (act = .isolate q → x.detection ≠ .alarm →
        ∃ t, exec act s = .next t ∧ ChangesOnly [.link, .zones, .holds, .stations] u t ∧
          OnlyAt z u.zones t.zones ∧
          t.zones[z] =
            (if x.isolated = true then { x with condition := x.derived }
             else { x with isolated := true, detection := .normal, confirmAt := none, condition := .isolated }) ∧
          Replies t s.settings.part.address q.station .done none .zone (z.1 + 1) 0 (t.zoneFields z)) ∧
      (act = .restoreZone q →
        ∃ t, exec act s = .next t ∧ ChangesOnly [.link, .zones, .holds, .stations] u t ∧
          OnlyAt z u.zones t.zones ∧ t.zones[z].isolated = false ∧
          t.zones[z].condition = t.zones[z].derived ∧ t.zones[z].noise = x.noise ∧
          t.zones[z].loopFault = x.loopFault ∧ t.zones[z].incident = x.incident ∧
          (x.isolated = true → x.band = .active → x.detection = .normal →
            t.zones[z].detection = .pending ∧
              t.zones[z].confirmAt = some (s.now + s.settings.zones[z].confirmTime * 100)) ∧
          (x.isolated = false ∨ x.band ≠ .active ∨ x.detection ≠ .normal →
            t.zones[z].detection = x.detection ∧ t.zones[z].confirmAt = x.confirmAt) ∧
          Replies t s.settings.part.address q.station .done none .zone (z.1 + 1) 0 (t.zoneFields z)) ∧
      (act = .resetNoise q →
        ∃ t, exec act s = .next t ∧ ChangesOnly [.link, .zones, .holds, .stations] u t ∧
          OnlyAt z u.zones t.zones ∧
          t.zones[z] = { x with noise := 0, quietAt := none, condition := t.zones[z].derived } ∧
          Replies t s.settings.part.address q.station .done none .zone (z.1 + 1) 0 (t.zoneFields z))) := by
  subst hu hx
  have isolate : ZoneAsked (.isolate q) (q.withField 36 1) z st s := zoneAsked_alone rfl h listens able rfl rfl
  have restore : ZoneAsked (.restoreZone q) (q.withField 36 0) z st s := zoneAsked_alone rfl h listens able rfl rfl
  have reset : ZoneAsked (.resetNoise q) (q.withField 128 1) z st s := zoneAsked_alone rfl h listens able rfl rfl
  have isolateBar := zoneAlone_bar isolate (h.fields 36 1) rfl
  have restoreBar := zoneAlone_bar restore (h.fields 36 0) rfl
  have resetBar := zoneAlone_bar reset (h.fields 128 1) rfl
  refine ⟨fun absent => ?_, fun present fire engineer => ?_, fun present role =>
    ⟨fun own alarm => ?_, fun own calm => ?_, fun own => ?_, fun own => ?_⟩⟩
  · rcases which with rfl | rfl | rfl
    · exact isolate.turned (isolateBar.trans (if_pos absent))
    · exact restore.turned (restoreBar.trans (if_pos absent))
    · exact reset.turned (resetBar.trans (if_pos absent))
  · have there : ¬s.settings.zones[z].present = false := by rw [present]; decide
    rcases which with rfl | rfl | rfl
    · exact isolate.turned (isolateBar.trans ((if_neg there).trans (if_pos ⟨fire, engineer⟩)))
    · exact restore.turned (restoreBar.trans ((if_neg there).trans (if_pos ⟨fire, engineer⟩)))
    · exact reset.turned (resetBar.trans ((if_neg there).trans (if_pos ⟨fire, engineer⟩)))
  · subst own
    refine isolate.turned (isolateBar.trans ?_)
    rw [if_neg (by rw [present]; decide), if_neg (by rintro ⟨fire, engineer⟩; exact role.elim fire engineer),
      if_pos ⟨rfl, alarm⟩]
  · subst own
    obtain ⟨t, run, frame, only, zone, reply⟩ := zoneAlone_done isolate (h.fields 36 1) rfl present role fun _ => calm
    refine ⟨t, run, frame, only, zone.trans ?_, reply⟩
    have acted : s.zones[z].acted s.now s.settings.zones[z].confirmTime [⟨36, 1⟩] =
        s.zones[z].setIsolated s.now s.settings.zones[z].confirmTime true := rfl
    rw [acted, Zone.setIsolated_eq fun _ => calm]
    split
    · rfl
    · rfl
  · subst own
    obtain ⟨t, run, frame, only, zone, reply⟩ := zoneAlone_done restore (h.fields 36 0) rfl present role nofun
    have acted : s.zones[z].acted s.now s.settings.zones[z].confirmTime [⟨36, 0⟩] =
        s.zones[z].setIsolated s.now s.settings.zones[z].confirmTime false := rfl
    rw [acted, Zone.setIsolated_eq (on := false) nofun] at zone
    have derives : t.zones[z].condition = t.zones[z].derived := by rw [zone]; rfl
    refine ⟨t, run, frame, only, ?_, derives, ?_⟩
    · rw [zone]
      split
      next free => exact free
      · rw [if_neg (by decide)]
        split
        · rfl
        · rfl
    · rw [zone]
      clear derives zone acted
      cases isolated : s.zones[z].isolated with
      | false => exact ⟨rfl, rfl, rfl, nofun, fun _ => ⟨rfl, rfl⟩, reply⟩
      | true =>
        rw [if_neg (by decide), if_neg (by decide)]
        by_cases confirms : s.zones[z].band = .active ∧ s.zones[z].detection = .normal
        · rw [if_pos confirms]
          refine ⟨rfl, rfl, rfl, fun _ _ _ => ⟨rfl, rfl⟩, fun idle => ?_, reply⟩
          rcases idle with free | other | other
          · cases free
          · exact absurd confirms.1 other
          · exact absurd confirms.2 other
        · rw [if_neg confirms]
          exact ⟨rfl, rfl, rfl, fun _ band idle => absurd ⟨band, idle⟩ confirms, fun _ => ⟨rfl, rfl⟩, reply⟩
  · subst own
    obtain ⟨t, run, frame, only, zone, reply⟩ := zoneAlone_done reset (h.fields 128 1) rfl present role nofun
    refine ⟨t, run, frame, only, ?_, reply⟩
    rw [zone]
    rfl

/-! ## Actions beside each other and beside settings (R66, R77, R194) -/

section

variable {act : Instr} {r : Req} {z : Fin 24} {st : Fin 8} {s : State}

theorem zoneAsked_of (named : requestOf act = some (.amend, .zone, r)) (heard : Heard s r st)
    (index : r.index.toNat = z.1 + 1) (issue : r.issue = 0) (listens : s.role st ≠ .none) (able : s.role st ≠ .view)
    (once : (r.fields.map (·.id)).Nodup) (form : ∀ f ∈ r.fields, formOf .zone r.index r.fields f = none)
    (acts : ∃ f ∈ r.fields, f.id = 36 ∨ f.id = 128) : ZoneAsked act r z st s := by
  refine ⟨⟨named, rfl, heard, listens, able, once, ⟨(Nat.le_add_left 1 z.1).trans index.ge, index.le.trans z.2⟩, issue⟩,
    index, firstFlaw_eq_none.2 fun f mem => ?_, ?_⟩
  · rw [← formOf_zone]
    exact form f mem
  · obtain ⟨f, mem, isolated | reset⟩ := acts
    · exact Bool.or_eq_true_iff.2 (.inl (carries_iff.2 ⟨f, mem, by rw [idOf, isolated]; rfl⟩))
    · exact Bool.or_eq_true_iff.2 (.inr (carries_iff.2 ⟨f, mem, by rw [idOf, reset]; rfl⟩))

/-- Of good fields, those up to 8 are the settings. -/
theorem ZoneAsked.settles (h : ZoneAsked act r z st s) :
    amendsSettings .zone r.fields = true ↔ ∃ f ∈ r.fields, f.id.toNat ≤ 8 := by
  rw [amendsSettings_iff]
  refine exists_congr fun f => and_congr_right fun mem => ⟨fun inside => inside.2, fun low => ⟨?_, low⟩⟩
  refine Nat.one_le_iff_ne_zero.2 fun zero => ?_
  have flaw := firstFlaw_eq_none.1 h.form f mem
  unfold zoneForm at flaw
  rw [zero] at flaw
  cases flaw

/-- The settings that an accepted request leaves, among all. -/
theorem Settings.given_zone (index : r.index.toNat = z.1 + 1) (x : Settings) :
    (if amendsSettings .zone r.fields = true then (x.asked .zone r.index r.fields).ranged .zone r.index else x) =
      x.withZone z (x.zones[z].given r.fields) := by
  unfold ZoneSettings.given
  split
  · rw [Settings.asked_zone index, Settings.ranged_zone index, (settingsAt_zone z).get_set, (settingsAt_zone z).set_set]
  · exact ((settingsAt_zone z).set_get x).symm

end

/-- Settles O47. -/
theorem zoneActionsApplied : Obligations.ZoneActionsApplied := by
  unfold Obligations.ZoneActionsApplied
  refine ⟨zoneAction_alone, ?_⟩
  rintro act r z st s u settles asked new named heard index issue rfl listens able once form acts hsettles rfl hnew
  have asks := zoneAsked_of named heard index issue listens able once form acts
  have same : (settles = true) = (amendsSettings .zone r.fields = true) := propext (hsettles.trans asks.settles.symm)
  have clash := State.settingsClash_zone index s r.fields
  simp only [same, Settings.given_zone index] at hnew ⊢
  have now : new.zones[z] = s.settings.zones[z].given r.fields := by rw [hnew]; exact put_same ..
  refine ⟨fun status why bar => ?_, fun present role locks free calm x hx y hy w hw => ?_⟩
  · rw [clash] at bar
    rw [State.reads_zone index]
    exact asks.turned bar
  · have bar : s.zoneActionBar st z r.fields = none := by
      rw [clash] at free
      unfold State.zoneActionBar
      rw [if_neg (by rw [present]; decide), if_neg (by rintro ⟨fire, engineer⟩; exact role.elim fire engineer),
        if_neg (fun k => k.2 (locks k.1)), if_neg (fun k => calm k.1 k.2)]
      exact free
    obtain ⟨a, v, t, served, left, run, reply⟩ := asks.done bar
    have resets : (∃ f ∈ r.fields, f.id = 128) ↔ carries r.fields 128 = true := by
      rw [carries_iff]
      exact exists_congr fun f => and_congr_right fun _ => ⟨fun e => by rw [idOf, e]; rfl, fun e => BitVec.eq_of_toNat_eq e⟩
    rw [if_congr resets rfl rfl] at hx
    have zones := served.zones
    rw [State.frameGood_zones, State.frameGood_now, Zone.acted_eq asks.yesNo calm hx, ← now, ← hy, Zone.judged, ← hw] at zones
    have replied := State.reply_changes v s.settings.part.address r.station a
    rw [← left] at replied
    have kept : t.zones = v.zones := replied.same .zones (by decide)
    have settings : s.frameGood.settings = s.settings := s.frameGood_settings
    have written := served.written
    rw [settings, ← hnew] at written
    have okay : okStatus (s.settings.zones[z].asked r.fields != s.settings.zones[z].given r.fields) =
        if s.settings.asked .zone r.index r.fields = new then Status.done else .adjusted := by
      rw [(settingsAt_zone z).okStatus_eq s.settings, Settings.asked_zone index, hnew]
    rw [okay] at reply
    obtain ⟨-, -, plain, frame, sounders, silences⟩ := served
    rw [settings, ← now] at plain frame sounders silences
    refine ⟨t, run, ?_, ?_, written.andThen replied, fun none => ?_, fun alarms callZones => ?_, fun other => ?_,
      fun other => ?_, ?_⟩
    · exact (congrArg (fun v : Vector Zone 24 => v[z]) (kept.trans zones)).trans (put_same ..)
    · rw [kept, zones, State.frameGood_zones]
      exact put_onlyAt _ _ _
    · refine (plain ?_).andThen replied
      rw [now, ZoneSettings.given, if_neg]
      rw [← same, none]
      decide
    · exact (frame alarms callZones).andThen replied
    · rw [left]
      exact sounders other
    · rw [left]
      exact silences other
    · rw [State.reads_zone index]
      exact reply

end Sys2Proof.Machine
end

section
/-!
PROOFS. Incidents that are raised or changed and announced (R14, R25, R42, R85..R89), and the station incident (R87,
R88).
-/

namespace Sys2Proof.Machine
-- One proof after another: the whole text stays within the memory of one compile.
set_option Elab.async false

/-! ## The demands evaluated, and the incidents announced -/

/-- What an announcement says of the state before it is read from the performances, the curtains and the settings. -/
theorem Announced.before {ids : List (Fin 25)} {s v t : State} (h : Announced ids v t) (perfs : v.perfs = s.perfs)
    (irons : v.irons = s.irons) (settings : v.settings = s.settings) : Announced ids s t := by
  obtain ⟨halts, releases, derived⟩ := h
  refine ⟨fun a => ?_, fun ch => ?_, derived⟩
  · have phase : v.phase a = s.phase a := by rw [State.phase, State.phase, perfs]
    rw [← phase, ← perfs]
    exact halts a
  · have alike := State.burns_congr (s := s) (t := v) (ch := ch) settings (by rw [irons])
    have released := releases ch
    rw [irons] at released
    simpa only [alike] using released

/-- What follows a change of the incidents: every demand evaluated again, and the incidents `ids` announced. -/
theorem State.demanded_told (v : State) (ids : List (Fin 25)) :
    ChangesOnly alarmParts v (v.demandAll.announceIncidents ids) ∧
      DemandsDerived (v.demandAll.announceIncidents ids) ∧ Announced ids v (v.demandAll.announceIncidents ids) := by
  have demanded := v.demandAll_changes
  refine ⟨demanded.andThen (v.demandAll.announceIncidents_changes ids),
    (AlarmsFollow.announceIncidents ids v.demandAll).demands v.demandAll_derived, ?_⟩
  exact (v.demandAll.announceIncidents_announced ids).before (demanded.same .perfs (by decide))
    (demanded.same .irons (by decide)) (demanded.same .settings (by decide))

/-! ## Slots of the incident list (R81) -/

section

variable (s : State) (i : Fin 25) (x : Incident)

theorem State.fillIncident_slots : (s.fillIncident i x).incidents[i] =
      ⟨if s.incidents[i].issue < 255 then s.incidents[i].issue + 1 else 1, some x⟩ ∧
    OnlyAt i s.incidents (s.fillIncident i x).incidents := by
  rw [← nextIssue_eq]
  exact ⟨put_same .., put_onlyAt s.incidents i _⟩

theorem State.writeIncident_slots : (s.writeIncident i x).incidents[i] = ⟨s.incidents[i].issue, some x⟩ ∧
    OnlyAt i s.incidents (s.writeIncident i x).incidents := by
  rw [State.writeIncident_incidents]
  exact ⟨put_same .., put_onlyAt s.incidents i _⟩

theorem State.editIncident_some {s : State} {i : Fin 25} {x : Incident} (slot : s.incident? i = some x)
    (f : Incident → Incident) : s.editIncident i f = s.writeIncident i (f x) := by
  unfold State.editIncident
  rw [slot]

theorem State.slot_eq {s : State} {i : Fin 25} {x : Incident} (slot : s.incident? i = some x) :
    s.incidents[i] = ⟨s.incidents[i].issue, some x⟩ := by
  rw [← slot]
  rfl

/-- The lowest empty slot (R81). -/
theorem State.freeIncidentSlot_eq {s : State} {i : Fin 25} (free : s.incident? i = none)
    (before : ∀ j : Fin 25, j < i → s.incident? j ≠ none) : s.freeIncidentSlot = some i :=
  firstIx_eq_some (by rw [free]; rfl) fun j lt =>
    Option.isNone_eq_false_iff.2 (Option.isSome_iff_ne_none.2 (before j lt))

end

theorem ChangesOnly.slots {ps : List Part} {s t : State} (h : ChangesOnly ps s t)
    (out : ps.contains .incidents = false := by rfl) :
    t.incidents = s.incidents ∧ t.incidentList = s.incidentList := h.same .incidents (by simpa using out)

/-- An empty slot is not in the list. -/
theorem IncidentsLawful.fresh {s : State} (h : IncidentsLawful s) {i : Fin 25} (free : s.incident? i = none) :
    i ∉ s.incidentList := by
  obtain ⟨-, filled, -⟩ := h
  intro mem
  have listed := filled i
  rw [free, List.contains_iff_mem.2 mem] at listed
  cases listed

/-! ## The station incident (R87, R88) -/

theorem State.stationIncident_eq (s : State) :
    s.stationIncident = s.incidentList.find? fun i => (s.incident? i).any Incident.ofStation := by
  unfold State.stationIncident
  congr 1
  funext i
  cases s.incident? i with
  | none => rfl
  | some x =>
    unfold Incident.ofStation
    dsimp only [Option.any_some]
    split <;> simp only [*]

theorem State.stationIncident_some {s : State} (h : IncidentsLawful s) {i : Fin 25} {x : Incident}
    (slot : s.incident? i = some x) (station : x.ofStation = true) : s.stationIncident = some i := by
  have here : (s.incident? i).any Incident.ofStation = true := by rw [slot]; exact station
  cases found : s.stationIncident with
  | none =>
    rw [State.stationIncident_none h found i] at here
    cases here
  | some j =>
    rw [State.stationIncident_eq] at found
    obtain ⟨-, -, -, alone, -⟩ := h
    have there : (s.incident? j).any Incident.ofStation = true :=
      List.find?_some (p := fun i => (s.incident? i).any Incident.ofStation) found
    rw [alone j i there here]

theorem State.stationIncident_absent {s : State} (absent : ∀ j : Fin 25, (s.incident? j).any Incident.ofStation = false) :
    s.stationIncident = none := by
  rw [State.stationIncident_eq, List.find?_eq_none]
  intro j _
  rw [absent j]
  decide

theorem incidentAsked_set (set : AudSet) (some_ : set ≠ 0) : incidentAsked [⟨33, set.setWidth 16⟩] = some set := by
  have value : valOf ⟨33, set.setWidth 16⟩ = set.toNat := by
    change (set.setWidth 16).toNat = set.toNat
    rw [BitVec.toNat_setWidth, Nat.mod_eq_of_lt (by omega)]
  have whole : setOf 3 set.toNat = some set := by
    unfold setOf
    rw [if_pos set.isLt, BitVec.ofNat_toNat, BitVec.setWidth_eq]
  unfold incidentAsked
  dsimp only
  rw [if_pos (by rfl), value, whole]
  exact if_neg some_

/-- The fields of a RAISE that asks for a set of auditoria (R87). -/
theorem incidentAsked_fields {fs : List FieldVal} {set : AudSet} (asked : incidentAsked fs = some set) :
    set ≠ 0 ∧ fs = [⟨33, set.setWidth 16⟩] := by
  unfold incidentAsked at asked
  split at asked
  next f =>
    split at asked
    next named =>
      unfold setOf at asked
      split at asked
      next found =>
        split at found
        next small =>
          cases found
          split at asked
          · cases asked
          next some_ =>
            cases asked
            refine ⟨some_, congrArg (fun f => [f]) ?_⟩
            obtain ⟨id, value⟩ := f
            obtain rfl : id = 33 := BitVec.eq_of_toNat_eq named
            refine congrArg (FieldVal.mk 33) (BitVec.eq_of_toNat_eq ?_)
            change value.toNat < 8 at small
            change value.toNat = ((BitVec.ofNat 3 value.toNat).setWidth 16).toNat
            rw [BitVec.toNat_setWidth, BitVec.toNat_ofNat]
            omega
        · cases found
      · cases asked
    · cases asked
  · cases asked

section

variable {r : Req} {st : Fin 8} {s : State} (heard : Heard s r st) (index : r.index = 0) (issue : r.issue = 0)
  (listens : s.role st ≠ .none) (able : s.role st ≠ .view)
include heard index issue listens able

/-- A RAISE of an INCIDENT that asks for no set of auditoria (R87). -/
theorem raiseIncident_bad (bad : incidentAsked r.fields = none) :
    ∃ t, exec (.raiseIncident r) s = .next t ∧ ChangesOnly [.link] s.frameGood t ∧
      Replies t s.settings.part.address r.station .badField none .incident 0 0 [] := by
  have turned (decided : State.decide .raise .incident r State.raiseIncidentReq st s.frameGood =
      (Ask.answer ⟨st, .incident, r⟩ .badField none [], s.frameGood)) :
      ∃ t, exec (.raiseIncident r) s = .next t ∧ ChangesOnly [.link] s.frameGood t ∧
        Replies t s.settings.part.address r.station .badField none .incident 0 0 [] := by
    have run := exec_turned (i := .raiseIncident r) rfl (by decide) heard decided
    rw [index, issue] at run
    exact run
  apply turned
  unfold State.decide
  by_cases once : (r.fields.map (·.id)).Nodup
  · rw [State.linkStop_raise (by rwa [State.frameGood_role]) (by rwa [State.frameGood_role]) rfl index issue once]
    simp only [State.raiseIncidentReq, bad] <;> rfl
  · have stop : s.frameGood.linkStop st .raise .incident r = some .badField := by
      rw [State.linkStop_eq, if_neg (by simp [State.frameGood_role, listens, able]), if_neg (by simp [index, issue]),
        if_neg (by simp), if_pos (.inr once)]
    rw [stop]
    rfl

variable {set : AudSet} (some_ : set ≠ 0) (fields : r.fields = [⟨33, set.setWidth 16⟩])
include some_ fields

theorem raiseIncident_stop : s.frameGood.linkStop st .raise .incident r = none :=
  State.linkStop_raise (by rwa [State.frameGood_role]) (by rwa [State.frameGood_role]) rfl index issue
    (by rw [fields]; exact List.nodup_singleton _)

theorem raiseIncident_barred (fire : s.role st ≠ .fire) (foh : s.role st ≠ .foh) :
    ∃ t, exec (.raiseIncident r) s = .next t ∧ ChangesOnly [.link] s.frameGood t ∧
      Replies t s.settings.part.address r.station .notPermitted none .incident 0 0 [] := by
  have stop := raiseIncident_stop heard index issue listens able some_ fields
  have barred : (!(s.frameGood.role st == .fire || s.frameGood.role st == .foh)) = true := by
    rw [State.frameGood_role, beq_false_of_ne fire, beq_false_of_ne foh]
    rfl
  have run := exec_says (i := .raiseIncident r) rfl (by decide) heard stop (status := .notPermitted) (why := none)
    (fields := []) (by
      change State.raiseIncidentReq ⟨st, .incident, r⟩ s.frameGood = _
      unfold State.raiseIncidentReq
      dsimp only
      rw [fields, incidentAsked_set set some_]
      exact if_pos barred)
  rw [index, issue] at run
  exact run

/-- The owner's decision on a RAISE from a station of the role (R87, R88). -/
theorem raiseIncidentReq_admitted (role : s.role st = .fire ∨ s.role st = .foh) :
    State.raiseIncidentReq ⟨st, .incident, r⟩ s.frameGood =
      match s.frameGood.stationIncident with
      | some i => Ask.names ⟨st, .incident, r⟩ .adjusted (oneUp i) (s.frameGood.widenIncident i set).incidents[i].issue
          ((((s.frameGood.widenIncident i set).incident? i).map (s.frameGood.widenIncident i set).incidentFields).getD [])
          (s.frameGood.widenIncident i set)
      | none =>
          match s.frameGood.freeIncidentSlot with
          | none => Ask.says ⟨st, .incident, r⟩ .full [] s.frameGood
          | some i =>
              Ask.names ⟨st, .incident, r⟩ .done (oneUp i) (s.frameGood.raiseStationIncident st set i).incidents[i].issue
                ((((s.frameGood.raiseStationIncident st set i).incident? i).map
                  (s.frameGood.raiseStationIncident st set i).incidentFields).getD [])
                (s.frameGood.raiseStationIncident st set i) := by
  have admitted : ¬(!(s.frameGood.role st == .fire || s.frameGood.role st == .foh)) = true := by
    rw [State.frameGood_role]
    rcases role with role | role <;> rw [role] <;> decide
  unfold State.raiseIncidentReq
  dsimp only
  rw [fields, incidentAsked_set set some_]
  dsimp only
  exact if_neg admitted

/-- R87: a station incident is raised in the lowest free slot. -/
theorem stationIncident_raised (role : s.role st = .fire ∨ s.role st = .foh) (lawful : IncidentsLawful s) {i : Fin 25}
    (absent : ∀ j : Fin 25, (s.incident? j).any Incident.ofStation = false) (free : s.incident? i = none)
    (before : ∀ j : Fin 25, j < i → s.incident? j ≠ none) :
    ∃ t y, exec (.raiseIncident r) s = .next t ∧ ChangesOnly (.link :: incidentParts) s.frameGood t ∧
      y = { source := .station st, auds := set, stage := .general, cause := some .station, ackBy := none,
            silenced := false, reactivations := 0, raisedAt := s.now, timerAt := none } ∧
      t.incidents[i] = ⟨if s.incidents[i].issue < 255 then s.incidents[i].issue + 1 else 1, some y⟩ ∧
      OnlyAt i s.incidents t.incidents ∧ t.incidentList = s.incidentList ++ [i] ∧
      DemandsDerived t ∧ Announced [i] s.frameGood t ∧
      Replies t s.settings.part.address r.station .done none .incident (i.1 + 1) t.incidents[i].issue
        (t.incidentFields y) := by
  have stop := raiseIncident_stop heard index issue listens able some_ fields
  have good := s.frameGood_changes
  have same (j : Fin 25) : s.frameGood.incident? j = s.incident? j := good.incident? j
  obtain ⟨slots, list⟩ := good.slots
  have decided := raiseIncidentReq_admitted heard index issue listens able some_ fields role
  have freeSlot : s.frameGood.freeIncidentSlot = some i :=
    State.freeIncidentSlot_eq ((same i).trans free) fun j lt => by rw [same]; exact before j lt
  rw [State.stationIncident_absent fun j => by rw [same]; exact absent j, freeSlot] at decided
  dsimp only at decided
  obtain ⟨a, t, left, run, reply⟩ := exec_names (i := .raiseIncident r) rfl (by decide) heard stop decided
  unfold State.raiseStationIncident at left reply
  have now : s.frameGood.now = s.now := s.frameGood_now
  rw [now] at left reply
  have filled := s.frameGood.fillIncident_changes i ⟨.station st, set, .general, some .station, none, false, 0,
    s.now, none⟩
  have slot := s.frameGood.fillIncident_slots i ⟨.station st, set, .general, some .station, none, false, 0,
    s.now, none⟩
  have order : (s.frameGood.fillIncident i ⟨.station st, set, .general, some .station, none, false, 0, s.now,
      none⟩).incidentList = s.incidentList ++ [i] := by
    rw [State.fillIncident_list, list, List.erase_of_not_mem (lawful.fresh free)]
  generalize s.frameGood.fillIncident i ⟨.station st, set, .general, some .station, none, false, 0, s.now,
    none⟩ = v at *
  obtain ⟨frame, demands, announced⟩ := v.demanded_told [i]
  generalize v.demandAll.announceIncidents [i] = w at *
  have told := announced.before (filled.same .perfs (by decide)) (filled.same .irons (by decide))
    (filled.same .settings (by decide))
  have slotsW := frame.slots
  have replied := State.reply_changes w s.settings.part.address r.station a
  have whole := (filled.andThen (rs := .link :: incidentParts) frame).andThen (rs := .link :: incidentParts) replied
  have here : w.incidents[i] = ⟨if s.incidents[i].issue < 255 then s.incidents[i].issue + 1 else 1,
      some ⟨.station st, set, .general, some .station, none, false, 0, s.now, none⟩⟩ := by
    rw [slotsW.1, slot.1, slots]
  refine ⟨t, _, run, by rw [left]; exact whole, rfl, by rw [left]; exact here, ?_, ?_, by rw [left]; exact demands,
    by rw [left]; exact told, ?_⟩
  · rw [left]
    change OnlyAt i s.incidents w.incidents
    rw [slotsW.1, ← slots]
    exact slot.2
  · rw [left]
    exact slotsW.2.trans order
  · have open_ : w.incident? i = some ⟨.station st, set, .general, some .station, none, false, 0, s.now,
        none⟩ := by rw [State.incident?, here]
    rw [open_] at reply
    have shown (y : Incident) : t.incidentFields y = w.incidentFields y := by rw [left]; rfl
    have issues : t.incidents[i].issue = w.incidents[i].issue := by rw [left]; rfl
    rw [shown, issues]
    exact reply

/-- R88: the open station incident is widened and unsilenced, and announced where its set has grown. -/
theorem stationIncident_widened (role : s.role st = .fire ∨ s.role st = .foh) (lawful : IncidentsLawful s) {i : Fin 25}
    {x y : Incident} (slot : s.incident? i = some x) (station : x.ofStation = true)
    (hy : y = { x with auds := x.auds ||| set, silenced := false }) :
    ∃ t, exec (.raiseIncident r) s = .next t ∧ ChangesOnly (.link :: incidentParts) s.frameGood t ∧
      t.incidents[i] = ⟨s.incidents[i].issue, some y⟩ ∧ OnlyAt i s.incidents t.incidents ∧
      t.incidentList = s.incidentList ∧ DemandsDerived t ∧
      (y.auds ≠ x.auds → Announced [i] s.frameGood t) ∧
      (y.auds = x.auds → ChangesOnly [.link, .incidents, .circuits, .stations] s.frameGood t) ∧
      Replies t s.settings.part.address r.station .adjusted none .incident (i.1 + 1)
        s.incidents[i].issue (t.incidentFields y) := by
  have stop := raiseIncident_stop heard index issue listens able some_ fields
  have good := s.frameGood_changes
  have open_ : s.frameGood.incident? i = some x := (good.incident? i).trans slot
  obtain ⟨slots, list⟩ := good.slots
  have decided := raiseIncidentReq_admitted heard index issue listens able some_ fields role
  rw [State.stationIncident_some (lawful.of_changes good) open_ station] at decided
  dsimp only at decided
  obtain ⟨a, t, left, run, reply⟩ := exec_names (i := .raiseIncident r) rfl (by decide) heard stop decided
  have widened : s.frameGood.widenIncident i set =
      if y.auds = x.auds then (s.frameGood.writeIncident i y).demandAll
      else (s.frameGood.writeIncident i y).demandAll.announceIncidents [i] := by
    unfold State.widenIncident
    rw [open_]
    subst hy
    rfl
  have written := s.frameGood.writeIncident_changes i y
  have here := s.frameGood.writeIncident_slots i y
  have order : (s.frameGood.writeIncident i y).incidentList = s.incidentList := by
    rw [State.writeIncident_incidentList, list]
  generalize s.frameGood.writeIncident i y = v at *
  have told : ∀ w, w = s.frameGood.widenIncident i set →
      ChangesOnly incidentParts s.frameGood w ∧ w.incidents = v.incidents ∧ w.incidentList = v.incidentList ∧
        DemandsDerived w ∧ (y.auds ≠ x.auds → Announced [i] s.frameGood w) ∧
        (y.auds = x.auds → ChangesOnly [.incidents, .circuits, .stations] s.frameGood w) := by
    rintro w rfl
    rw [widened]
    by_cases same : y.auds = x.auds
    · have demanded := v.demandAll_changes
      have kept := written.andThen (rs := [.incidents, .circuits, .stations]) demanded
      rw [if_pos same]
      exact ⟨kept.mono, demanded.slots.1, demanded.slots.2, v.demandAll_derived, fun grown => absurd same grown,
        fun _ => kept⟩
    · obtain ⟨frame, demands, announced⟩ := v.demanded_told [i]
      rw [if_neg same]
      exact ⟨written.andThen frame, frame.slots.1, frame.slots.2, demands,
        fun _ => announced.before (written.same .perfs (by decide)) (written.same .irons (by decide))
          (written.same .settings (by decide)), fun k => absurd k same⟩
  obtain ⟨frame, slotsW, listW, demands, announced, kept⟩ := told _ rfl
  generalize s.frameGood.widenIncident i set = w at *
  have replied := State.reply_changes w s.settings.part.address r.station a
  have hereW : w.incidents[i] = ⟨s.incidents[i].issue, some y⟩ := by rw [slotsW, here.1, slots]
  refine ⟨t, run, by rw [left]; exact frame.andThen replied, by rw [left]; exact hereW, ?_, ?_,
    by rw [left]; exact demands, fun grown => by rw [left]; exact announced grown, fun same => ?_, ?_⟩
  · rw [left]
    change OnlyAt i s.incidents w.incidents
    rw [slotsW, ← slots]
    exact here.2
  · rw [left]
    exact listW.trans order
  · rw [left]
    exact (kept same).andThen replied
  · have openW : w.incident? i = some y := by rw [State.incident?, hereW]
    rw [openW, hereW] at reply
    have shown : t.incidentFields y = w.incidentFields y := by rw [left]; rfl
    rw [shown]
    exact reply

end

/-- Settles O48. -/
theorem stationIncidentRaised : Obligations.StationIncidentRaised := by
  unfold Obligations.StationIncidentRaised
  rintro r st s u heard index issue rfl listens able
  refine ⟨fun bad => raiseIncident_bad heard index issue listens able ?_, fun set some_ fields =>
    ⟨raiseIncident_barred heard index issue listens able some_ fields, fun role lawful => ⟨fun i absent free before =>
      stationIncident_raised heard index issue listens able some_ fields role lawful absent free before,
      fun i x y slot station hy =>
        stationIncident_widened heard index issue listens able some_ fields role lawful slot station hy⟩⟩⟩
  cases asked : incidentAsked r.fields with
  | none => rfl
  | some set =>
    obtain ⟨some_, fields⟩ := incidentAsked_fields asked
    exact absurd fields (bad set some_)

end Sys2Proof.Machine
end

section
/-!
PROOFS. A confirmation raises an incident at its stage, or reactivates its own (R69, R81, R85, R86, R98).
-/

namespace Sys2Proof.Machine
-- One proof after another: the whole text stays within the memory of one compile.
set_option Elab.async false

/-! ## Changing several incidents (R86) -/

theorem State.editIncident_slot (s : State) (i j : Fin 25) (f : Incident → Incident) :
    (s.editIncident i f).incidents[j] =
      if j = i then ⟨s.incidents[i].issue, (s.incident? i).map f⟩ else s.incidents[j] := by
  cases slot : s.incident? i with
  | none =>
    have same : s.editIncident i f = s := by
      unfold State.editIncident
      rw [slot]
    rw [same]
    by_cases e : j = i
    · subst e
      rw [if_pos rfl, Option.map_none, ← slot]
      rfl
    · rw [if_neg e]
  | some x =>
    rw [State.editIncident_some slot, State.writeIncident_incidents, put_get]
    rfl

/-- A change that is the same made once or twice, of every incident of a list. -/
theorem State.editAll_slot {f : Incident → Incident} (twice : ∀ x, f (f x) = f x) (ids : List (Fin 25)) (s : State)
    (j : Fin 25) : (ids.foldl (fun s j => s.editIncident j f) s).incidents[j] =
      if j ∈ ids then ⟨s.incidents[j].issue, (s.incident? j).map f⟩ else s.incidents[j] := by
  induction ids generalizing s with
  | nil => rfl
  | cons i ids ih =>
    rw [List.foldl_cons, ih, State.editIncident_incident?, State.editIncident_slot]
    by_cases here : j = i
    · subst here
      rw [if_pos rfl, if_pos rfl, if_pos List.mem_cons_self, Option.map_map]
      have same : f ∘ f = f := funext twice
      rw [same]
      split
      · rfl
      · rfl
    · rw [if_neg here, if_neg here]
      exact if_congr (by simp [here]) rfl rfl

theorem Incident.escalate_staff {x : Incident} (why : EscalationCause) (staff : x.stage = .staff) :
    x.escalate why = { x with stage := .general, cause := some why, timerAt := none } := if_pos staff

theorem Incident.escalate_twice (why : EscalationCause) (x : Incident) : (x.escalate why).escalate why = x.escalate why := by
  cases stage : x.stage with
  | staff =>
    rw [Incident.escalate_staff why stage]
    rfl
  | general =>
    have same : x.escalate why = x := if_neg (by rw [stage]; decide)
    rw [same, same]

theorem State.editAll_changes (f : Incident → Incident) (ids : List (Fin 25)) (s : State) :
    ChangesOnly [.incidents, .stations] s (ids.foldl (fun s j => s.editIncident j f) s) ∧
      (ids.foldl (fun s j => s.editIncident j f) s).incidentList = s.incidentList := by
  refine foldl_keeps (fun t => ChangesOnly [.incidents, .stations] s t ∧ t.incidentList = s.incidentList) _
    (fun t j h => ⟨h.1.andThen (State.editIncident_changes ..), ?_⟩) _ _ ⟨.refl _ _, rfl⟩
  rw [State.editIncident_list, h.2]

/-! ## The starting stage (R85, R86) -/

/-- Why a zone incident starts at GENERAL, if it does (R85, R86). -/
def State.startCause (s : State) (z : Fin 24) : Option EscalationCause :=
  if s.settings.zones[z].directGeneral = true then some .direct
  else if ∀ a : Fin 3, has s.settings.zones[z].auds a = true → (s.phase a).occupied = false then some .unoccupied
  else if ∃ j ∈ s.openIncidents, meets j.auds s.settings.zones[z].auds = true then some .secondZone
  else none

theorem State.unoccupied_iff (s : State) (set : AudSet) :
    s.unoccupied set = true ↔ ∀ a : Fin 3, has set a = true → (s.phase a).occupied = false := by
  unfold State.unoccupied
  rw [Bool.not_eq_true', ← Bool.not_eq_true, someIx_iff, not_exists]
  refine forall_congr' fun a => ?_
  rw [Bool.and_eq_true, not_and, Bool.not_eq_true]

theorem State.mem_sharing {s : State} {set : AudSet} {i : Fin 25} : i ∈ s.sharing set ↔
    i ∈ s.incidentList ∧ ∃ x, s.incident? i = some x ∧ meets x.auds set = true := by
  unfold State.sharing
  rw [List.mem_filter]
  refine and_congr_right fun _ => ?_
  cases s.incident? i with
  | none => simp
  | some x => simp

theorem State.sharing_some (s : State) (set : AudSet) :
    (s.sharing set != []) = true ↔ ∃ x ∈ s.openIncidents, meets x.auds set = true := by
  rw [bne_iff_ne]
  constructor
  · intro some_
    obtain ⟨i, mem⟩ := List.exists_mem_of_ne_nil _ some_
    obtain ⟨listed, x, slot, shares⟩ := State.mem_sharing.1 mem
    exact ⟨x, mem_openIncidents.2 ⟨i, listed, slot⟩, shares⟩
  · rintro ⟨x, mem, shares⟩
    obtain ⟨i, listed, slot⟩ := mem_openIncidents.1 mem
    exact List.ne_nil_of_mem (State.mem_sharing.2 ⟨listed, x, slot, shares⟩)

theorem State.startStage_eq (s : State) (z : Fin 24) :
    s.startStage z = (if s.startCause z = none then .staff else .general, s.startCause z) := by
  unfold State.startStage State.startCause
  dsimp only
  rw [if_congr (s.unoccupied_iff _) rfl rfl, if_congr (s.sharing_some _) rfl rfl]
  split
  · rfl
  · split
    · rfl
    · split
      · rfl
      · rfl

theorem State.newZoneIncident_eq (s : State) (z : Fin 24) : s.newZoneIncident z =
    { source := .zone z, auds := s.settings.zones[z].auds,
      stage := if s.startCause z = none then .staff else .general, cause := s.startCause z, ackBy := none,
      silenced := false, reactivations := 0, raisedAt := s.now,
      timerAt := if s.startCause z = none then some (s.now + s.settings.part.ackTime * 100) else none } := by
  unfold State.newZoneIncident
  rw [State.startStage_eq]
  cases s.startCause z with
  | none => rfl
  | some why => rfl

/-- A starting cause is read from the phases, the open incidents and the settings. -/
theorem State.startCause_congr {s t : State} (perfs : t.perfs = s.perfs) (incidents : t.openIncidents = s.openIncidents)
    (settings : t.settings = s.settings) (z : Fin 24) : t.startCause z = s.startCause z := by
  unfold State.startCause State.phase
  rw [perfs, incidents, settings]

/-! ## Raising (R69, R81, R85, R86) -/

/-- The STAFF incidents that share an auditorium with the set (R86). -/
def State.staffSharing (s : State) (set : AudSet) : List (Fin 25) :=
  s.incidentList.filter fun j => (s.incident? j).any fun v => v.stage == .staff && meets v.auds set

theorem State.mem_staffSharing {s : State} {set : AudSet} {j : Fin 25} {v : Incident} (slot : s.incident? j = some v)
    (listed : j ∈ s.incidentList) : j ∈ s.staffSharing set ↔ v.stage = .staff ∧ meets v.auds set = true := by
  unfold State.staffSharing
  rw [List.mem_filter, slot, Option.any_some, Bool.and_eq_true, beq_iff_eq]
  exact and_iff_right listed

theorem State.sharing_staff (s : State) (set : AudSet) :
    (s.sharing set).filter (fun j => ((s.incident? j).map (·.stage)) == some .staff) = s.staffSharing set := by
  unfold State.sharing State.staffSharing
  rw [List.filter_filter]
  refine List.filter_congr fun j _ => ?_
  cases s.incident? j with
  | none => rfl
  | some x => rfl

/-- What a confirmation makes of the incident list and of its zone before the demands follow (R81, R86). -/
structure ZoneRaised (z : Fin 24) (i : Fin 25) (shared : List (Fin 25)) (y : Incident) (s v : State) : Prop where
  frame : ChangesOnly [.zones, .incidents, .stations] s v
  zones : v.zones = put s.zones z { s.zones[z] with incident := some i }
  list : v.incidentList = s.incidentList.erase i ++ [i]
  own : v.incidents[i] = ⟨if s.incidents[i].issue < 255 then s.incidents[i].issue + 1 else 1, some y⟩
  shares : ∀ j ∈ shared, j ≠ i → v.incidents[j] =
    ⟨s.incidents[j].issue, (s.incident? j).map (Incident.escalate .secondZone)⟩
  others : ∀ j ∉ shared, j ≠ i → v.incidents[j] = s.incidents[j]

theorem State.raiseZoneIncident_told {s : State} {z : Fin 24} {i : Fin 25} (fresh : i ∉ s.incidentList) :
    ∃ v, ZoneRaised z i (s.staffSharing s.settings.zones[z].auds) (s.newZoneIncident z) s v ∧
      s.raiseZoneIncident z i = v.demandAll.announceIncidents (i :: s.staffSharing s.settings.zones[z].auds) := by
  have staff : (s.sharing (s.newZoneIncident z).auds).filter
      (fun j => ((s.incident? j).map (·.stage)) == some .staff) = s.staffSharing s.settings.zones[z].auds :=
    s.sharing_staff _
  have fresh : i ∉ s.staffSharing s.settings.zones[z].auds := fun mem => fresh (List.mem_of_mem_filter mem)
  unfold State.raiseZoneIncident
  dsimp only
  rw [staff]
  clear staff
  generalize s.staffSharing s.settings.zones[z].auds = shared at *
  generalize s.newZoneIncident z = y at *
  refine ⟨_, ?_, rfl⟩
  have filled := s.fillIncident_changes i y
  have own := s.fillIncident_slots i y
  have list := s.fillIncident_list i y
  have zone : (s.fillIncident i y).zones = s.zones := filled.same .zones (by decide)
  have open_ (j : Fin 25) := s.fillIncident_incident? i j y
  generalize s.fillIncident i y = v at *
  have written := v.writeZone_changes z { v.zones[z] with incident := some i }
  have zones := v.writeZone_zones z { v.zones[z] with incident := some i }
  have same (j : Fin 25) := written.incident? j
  obtain ⟨slotsW, listW⟩ := written.slots
  generalize v.writeZone z { v.zones[z] with incident := some i } = w at *
  obtain ⟨edited, listE⟩ := State.editAll_changes (Incident.escalate .secondZone) shared w
  have slot := State.editAll_slot (Incident.escalate_twice .secondZone) shared w
  generalize shared.foldl (fun s j => s.editIncident j (Incident.escalate .secondZone)) w = u at *
  refine ⟨(filled.andThen (rs := [.zones, .incidents, .stations]) written).andThen edited, ?_, ?_, ?_,
    fun j mem ne => ?_, fun j out ne => ?_⟩
  · rw [(edited.same .zones (by decide) : u.zones = w.zones), zones, zone]
  · rw [listE, listW, list]
  · rw [slot, if_neg fresh, slotsW, own.1]
  · rw [slot, if_pos mem, slotsW, same, open_, if_neg ne, own.2 j ne]
  · rw [slot, if_neg out, slotsW, own.2 j ne]

/-! ## The confirmation (R69, R98) -/

/-- The state in which a zone's alarm has been confirmed, before any incident hears of it (R69). -/
def State.alarmed (s : State) (z : Fin 24) (d : Nat) : State :=
  (s.reach d).writeZone z { s.zones[z] with detection := .alarm, confirmAt := none }

section

variable (s : State) (z : Fin 24) (d : Nat)

theorem State.alarmed_changes : ChangesOnly [.clock, .zones, .stations] s (s.alarmed z d) :=
  (s.reach_changes d).andThen (State.writeZone_changes ..)

theorem State.alarmed_now : (s.alarmed z d).now = max s.now d :=
  (State.writeZone_changes ..).same .clock (by decide)

theorem State.alarmed_zones :
    (s.alarmed z d).zones = put s.zones z { s.zones[z] with detection := .alarm, confirmAt := none } :=
  State.writeZone_zones ..

theorem State.alarmed_zone : (s.alarmed z d).zones[z] = { s.zones[z] with detection := .alarm, confirmAt := none } :=
  (congrArg (fun v : Vector Zone 24 => v[z]) (s.alarmed_zones z d)).trans (put_same ..)

end

section

variable {s : State} {z : Fin 24} {d : Nat}

theorem State.confirms_eq (pending : s.zones[z].detection = .pending) (due : s.zones[z].confirmAt = some d) :
    s.confirms z =
      match s.zones[z].incident, s.settings.zones[z].type with
      | none, _ =>
          match (s.alarmed z d).freeIncidentSlot with
          | some i => .next ((s.alarmed z d).raiseZoneIncident z i)
          | none => .fault .incidentListFull
      | some i, .detector => .next ((s.alarmed z d).reactivate i)
      | some _, .callpoint => .next (s.alarmed z d)
      | some _, .interface => .next (s.alarmed z d) := by
  unfold State.confirms
  dsimp only
  rw [pending, due]
  rfl

variable (powered : s.powered = true) (pending : s.zones[z].detection = .pending)
  (due : s.zones[z].confirmAt = some d)
include powered pending due

theorem confirmTimerExpiry_raises (unnamed : s.zones[z].incident = none) : exec (.confirmTimerExpiry z) s =
    match (s.alarmed z d).freeIncidentSlot with
    | some i => .next ((s.alarmed z d).raiseZoneIncident z i)
    | none => .fault .incidentListFull := by
  refine (if_pos powered : exec (.confirmTimerExpiry z) s = s.confirms z).trans ?_
  rw [State.confirms_eq pending due, unnamed]

theorem confirmTimerExpiry_own {i : Fin 25} (own : s.zones[z].incident = some i) : exec (.confirmTimerExpiry z) s =
    .next (if s.settings.zones[z].type = .detector then (s.alarmed z d).reactivate i else s.alarmed z d) := by
  refine (if_pos powered : exec (.confirmTimerExpiry z) s = s.confirms z).trans ?_
  rw [State.confirms_eq pending due, own]
  cases s.settings.zones[z].type with
  | detector => rfl
  | callpoint => rfl
  | interface => rfl

end

theorem confirmTimerExpiry_still {s : State} {z : Fin 24}
    (idle : s.zones[z].detection ≠ .pending ∨ s.zones[z].confirmAt = none) : exec (.confirmTimerExpiry z) s = .next s := by
  have still : s.confirms z = .next s := by
    unfold State.confirms
    dsimp only
    split
    next time pending running =>
      rcases idle with other | none
      · exact absurd pending other
      · rw [none] at running; cases running
    · rfl
  change (if s.powered then s.confirms z else .next s) = _
  rw [still]
  exact ite_self _

/-- R69, R81, R85, R86: a confirmation raises an incident in the lowest free slot. -/
theorem confirmation_raises {s : State} {z : Fin 24} {d : Nat} {i : Fin 25} (powered : s.powered = true)
    (pending : s.zones[z].detection = .pending) (due : s.zones[z].confirmAt = some d) (unnamed : s.zones[z].incident = none)
    (lawful : IncidentsLawful s) (free : s.incident? i = none) (before : ∀ j : Fin 25, j < i → s.incident? j ≠ none) :
    ∃ v t, ZoneRaised z i (s.staffSharing s.settings.zones[z].auds) ((s.alarmed z d).newZoneIncident z) (s.alarmed z d) v ∧
      exec (.confirmTimerExpiry z) s = .next t ∧ ChangesOnly alarmParts v t ∧ DemandsDerived t ∧
      Announced (i :: s.staffSharing s.settings.zones[z].auds) s t := by
  have alarm := s.alarmed_changes z d
  have run := confirmTimerExpiry_raises powered pending due unnamed
  have settings : (s.alarmed z d).settings = s.settings := alarm.same .settings (by decide)
  have same (j : Fin 25) := alarm.incident? j
  obtain ⟨-, list⟩ := alarm.slots
  generalize s.alarmed z d = w at *
  have shared : w.staffSharing w.settings.zones[z].auds = s.staffSharing s.settings.zones[z].auds := by
    unfold State.staffSharing
    simp only [settings, list, same]
  have slot : w.freeIncidentSlot = some i :=
    State.freeIncidentSlot_eq ((same i).trans free) fun j lt => by rw [same]; exact before j lt
  have fresh : i ∉ w.incidentList := by rw [list]; exact lawful.fresh free
  obtain ⟨v, raised, told⟩ := State.raiseZoneIncident_told (z := z) fresh
  rw [shared] at raised told
  rw [slot] at run
  dsimp only at run
  rw [told] at run
  obtain ⟨frame, demands, announced⟩ := v.demanded_told (i :: s.staffSharing s.settings.zones[z].auds)
  have whole := alarm.andThen (rs := [.clock, .zones, .incidents, .stations]) raised.frame
  exact ⟨v, _, raised, run, frame, demands, announced.before (whole.same .perfs (by decide))
    (whole.same .irons (by decide)) (whole.same .settings (by decide))⟩

/-- Settles O45. -/
theorem confirmRaisesIncident : Obligations.ConfirmRaisesIncident := by
  unfold Obligations.ConfirmRaisesIncident
  refine ⟨?_, ?_, fun z s idle => confirmTimerExpiry_still idle, fun z s powered pending running unnamed full => ?_⟩
  · rintro z s x cfg d i powered rfl rfl pending due unnamed lawful free before shared hshared
    obtain ⟨v, t, raised, run, frame, demands, announced⟩ :=
      confirmation_raises powered pending due unnamed lawful free before
    have alarm := s.alarmed_changes z d
    have now := s.alarmed_now z d
    have zones := s.alarmed_zones z d
    have zone := s.alarmed_zone z d
    have settings : (s.alarmed z d).settings = s.settings := alarm.same .settings (by decide)
    have cause := State.startCause_congr (alarm.same .perfs (by decide)) alarm.openIncidents settings z
    have y := (s.alarmed z d).newZoneIncident_eq z
    rw [cause, settings, now] at y
    have same (j : Fin 25) := alarm.incident? j
    obtain ⟨slots, list⟩ := alarm.slots
    generalize (s.alarmed z d).newZoneIncident z = y0 at *
    generalize s.alarmed z d = w at *
    obtain ⟨rises, zonesV, listV, own, shares, others⟩ := raised
    obtain ⟨slotsT, listT⟩ := frame.slots
    have whole := (alarm.andThen (rs := [.clock, .zones, .incidents, .stations]) rises).andThen
      (rs := [.clock, .zones] ++ incidentParts) frame
    have clock : t.now = max s.now d := by
      rw [(frame.same .clock (by decide) : t.now = v.now), (rises.same .clock (by decide) : v.now = w.now), now]
    have zonesT : t.zones = put s.zones z { s.zones[z] with detection := .alarm, confirmAt := none, incident := some i } := by
      rw [(frame.same .zones (by decide) : t.zones = v.zones), zonesV, zone, zones, put_put]
    subst hshared
    refine ⟨t, y0, run, whole, clock, ?_, ?_, ?_, ?_, by rw [y], by rw [y], by rw [y], by rw [y], by rw [y],
      by rw [y, clock], by rw [y]; rfl, by rw [y], by rw [y, clock], ?_, demands, announced⟩
    · exact (congrArg (fun v : Vector Zone 24 => v[z]) zonesT).trans (put_same ..)
    · rw [zonesT]
      exact put_onlyAt _ _ _
    · rw [listT, listV, list, List.erase_of_not_mem (lawful.fresh free)]
    · rw [slotsT, own, slots]
    · intro j u slot
      have listed : j ∈ s.incidentList := by
        have filled := lawful.2.1 j
        rw [slot] at filled
        exact List.contains_iff_mem.1 filled.symm
      have ne : j ≠ i := fun e => by rw [e, free] at slot; cases slot
      have shared := State.mem_staffSharing (set := s.settings.zones[z].auds) slot listed
      rw [slotsT]
      by_cases staff : u.stage = .staff ∧ meets u.auds s.settings.zones[z].auds = true
      · rw [shares j (shared.2 staff) ne, if_pos staff, slots, same, slot, Option.map_some,
          Incident.escalate_staff _ staff.1]
      · rw [others j (mt shared.1 staff) ne, if_neg staff, slots]
        exact State.slot_eq slot
  · rintro z s x d i v powered rfl pending due own slot
    have run := confirmTimerExpiry_own powered pending due own
    have alarm := s.alarmed_changes z d
    have now := s.alarmed_now z d
    have zone := s.alarmed_zone z d
    have zones := s.alarmed_zones z d
    have open_ := (alarm.incident? i).trans slot
    obtain ⟨slots, list⟩ := alarm.slots
    generalize s.alarmed z d = w at *
    have only : OnlyAt z s.zones w.zones := by
      rw [zones]
      exact put_onlyAt _ _ _
    refine ⟨fun detector => ?_, fun other => ?_⟩
    · rw [if_pos detector] at run
      have frame := w.reactivate_changes i
      have reactivated : w.reactivate i = ((w.writeIncident i { v with
          reactivations := if v.reactivations ≥ 255 then 255 else v.reactivations + 1
          silenced := false }).demandAll).mark .incident := by
        unfold State.reactivate
        rw [State.editIncident_some open_]
      have bounded : (if v.reactivations ≥ 255 then 255 else v.reactivations + 1) = min 255 (v.reactivations + 1) := by
        split <;> omega
      rw [bounded] at reactivated
      have here := w.writeIncident_slots i { v with reactivations := min 255 (v.reactivations + 1), silenced := false }
      have listI : (w.writeIncident i { v with reactivations := min 255 (v.reactivations + 1), silenced := false }).incidentList
          = w.incidentList := State.writeIncident_incidentList ..
      generalize w.writeIncident i { v with reactivations := min 255 (v.reactivations + 1), silenced := false } = u at *
      have follows := u.demandAll_changes.andThen (rs := [.circuits, .stations]) (u.demandAll.mark_changes .incident)
      have demands : DemandsDerived (u.demandAll.mark .incident) :=
        (AlarmsFollow.of_changes (u.demandAll.mark_changes .incident)).demands u.demandAll_derived
      rw [← reactivated] at follows demands
      generalize w.reactivate i = t at *
      obtain ⟨slotsT, listT⟩ := follows.slots
      refine ⟨t, run, alarm.andThen frame, ?_, ?_, ?_, ?_, ?_, ?_, demands⟩
      · rw [(frame.same .clock (by decide) : t.now = w.now), now]
      · rw [(frame.same .zones (by decide) : t.zones = w.zones), zone]
      · rw [(frame.same .zones (by decide) : t.zones = w.zones)]
        exact only
      · rw [slotsT, here.1, slots]
      · rw [slotsT, ← slots]
        exact here.2
      · rw [listT, listI, list]
    · rw [if_neg other] at run
      exact ⟨w, run, alarm, now, zone, only⟩
  · obtain ⟨d, due⟩ := Option.ne_none_iff_exists'.1 running
    rw [confirmTimerExpiry_raises powered pending due unnamed]
    have free : (s.alarmed z d).freeIncidentSlot = none := firstIx_eq_none fun i => by
      rw [(s.alarmed_changes z d).incident? i]
      exact Option.isNone_eq_false_iff.2 (Option.isSome_iff_ne_none.2 (full i))
    rw [free]

end Sys2Proof.Machine
end

section
/-!
PROOFS. An AMEND of an incident: acknowledgement, stage and silence; and the two timers of an incident (R81, R89..R93,
R97, R99).
-/

namespace Sys2Proof.Machine
-- One proof after another: the whole text stays within the memory of one compile.
set_option Elab.async false

/-! ## The first field at fault (R185, R201) -/

theorem firstFlaw_of_find {judge : FieldVal → Option Flaw} {fs : List FieldVal} {f : FieldVal} {w : Flaw}
    (first : fs.find? (fun f => judge f != none) = some f) (flaw : judge f = some w) : firstFlaw judge fs = some (w, f) := by
  induction fs with
  | nil => cases first
  | cons x fs ih =>
    rw [List.find?_cons] at first
    unfold firstFlaw at ih ⊢
    rw [List.findSome?_cons]
    cases judged : judge x with
    | none =>
      rw [judged] at first
      exact ih first
    | some v =>
      rw [judged] at first
      cases first
      rw [judged] at flaw
      cases flaw
      rfl

/-- A field at fault gives the reply, the record following where a refusal carries it. -/
theorem Ask.flawed_eq (q : Ask) (w : Flaw × FieldVal) (shown : List FieldVal) (u : State) : q.flawed w shown u =
    (q.answer (match w.1 with | .badField => .badField | .notAmendable => .refused)
      (match w.1 with | .badField => none | .notAmendable => some .notAmendable)
      (match w.1 with | .badField => shown | .notAmendable => w.2 :: shown), u) := by
  obtain ⟨flaw, f⟩ := w
  cases flaw with
  | badField => rfl
  | notAmendable => rfl

theorem repliesFlaw_of {t : State} {address : Nat} {station : Byte} {w : Flaw} {f : FieldVal} {k : Kind} {index issue : Nat}
    {shown : List FieldVal} (h : Replies t address station
      (match w with | .badField => .badField | .notAmendable => .refused)
      (match w with | .badField => none | .notAmendable => some .notAmendable) k index issue
      (match w with | .badField => shown | .notAmendable => f :: shown)) :
    RepliesFlaw t address station w f k index issue shown := by
  constructor
  · rintro rfl
    exact h
  · rintro rfl
    exact h

/-- An INCIDENT field's form is what the list of its kind says of it, a second action being refused (R99). -/
theorem formOf_incident (index : Byte) (fs : List FieldVal) (f : FieldVal) :
    formOf .incident index fs f = incidentForm fs f := by
  have clash (mine other third : Nat) (h : ∀ n, 128 ≤ n ∧ n ≤ 130 ↔ n = mine ∨ n = other ∨ n = third)
      (own : idOf f = mine) :
      clashes .incident fs f = (carriedBefore fs mine other || carriedBefore fs mine third) := by
    have high : 128 ≤ f.id.toNat := by
      have := (h mine).2 (.inl rfl)
      change 128 ≤ idOf f
      omega
    have before (n : Nat) := before_contains fs f n
    rw [own] at before
    rw [← before, ← before]
    simp only [clashes, beq_self_eq_true, Bool.true_and, beq_false_of_ne (show Kind.incident ≠ Kind.iron by decide),
      beq_false_of_ne (show Kind.incident ≠ Kind.group by decide), Bool.false_and, Bool.or_false, Bool.false_or,
      decide_eq_true high]
    have absent : mine ∉ (fs.takeWhile fun g => g.id != f.id).map fun g => g.id.toNat := by
      intro mem
      obtain ⟨g, early, id⟩ := List.mem_map.1 mem
      have differs := List.mem_takeWhile_imp early
      rw [bne_iff_ne] at differs
      exact differs (BitVec.eq_of_toNat_eq (id.trans own.symm))
    generalize (fs.takeWhile fun g => g.id != f.id).map (fun g => g.id.toNat) = ids at *
    rw [Bool.eq_iff_iff, List.any_eq_true, Bool.or_eq_true, List.contains_iff_mem, List.contains_iff_mem]
    constructor
    · rintro ⟨n, mem, inside⟩
      rw [Bool.and_eq_true, decide_eq_true_iff, decide_eq_true_iff, h] at inside
      rcases inside with rfl | rfl | rfl
      · exact absurd mem absent
      · exact .inl mem
      · exact .inr mem
    · rintro (mem | mem)
      · exact ⟨other, mem, by rw [Bool.and_eq_true, decide_eq_true_iff, decide_eq_true_iff, h]; exact .inr (.inl rfl)⟩
      · exact ⟨third, mem, by rw [Bool.and_eq_true, decide_eq_true_iff, decide_eq_true_iff, h]; exact .inr (.inr rfl)⟩
  have once : ((amendable .incident 0).map (·.1)).Nodup := by decide
  have list : amendable .incident index = amendable .incident 0 := rfl
  rw [formOf_eq, list]
  unfold incidentForm
  split
  case h_4 =>
    refine listedForm_of_absent f ?_
    simp only [amendable, List.forall_mem_cons, List.not_mem_nil, false_implies, implies_true, and_true]
    and_intros <;> assumption
  all_goals rename_i named
  case h_1 =>
    rw [clash 128 129 130 (fun n => by omega) named,
      listedForm_of_mem (low := 1) (high := 1) f once (by rw [named]; decide)]
    exact (orBad_eq (by
      rw [Bool.and_eq_true, beq_iff_eq, Bool.not_eq_true', Nat.le_antisymm_iff]
      tauto)).symm
  case h_2 =>
    rw [clash 129 128 130 (fun n => by omega) named,
      listedForm_of_mem (low := 0) (high := 1) f once (by rw [named]; decide)]
    exact (orBad_eq (by simp)).symm
  case h_3 =>
    rw [clash 130 128 129 (fun n => by omega) named,
      listedForm_of_mem (low := 1) (high := 1) f once (by rw [named]; decide)]
    exact (orBad_eq (by
      rw [Bool.and_eq_true, beq_iff_eq, Bool.not_eq_true', Nat.le_antisymm_iff]
      tauto)).symm

/-! ## The incident that a request names (R81) -/

section

variable {r : Req} {i : Fin 25} (index : r.index.toNat = i.1 + 1)
include index

theorem State.namedIncident_open {s : State} {x : Incident} (issue : r.issue ≠ 0)
    (slot : s.incidents[i] = ⟨r.issue.toNat, some x⟩) : s.namedIncident r = some (i, x) := by
  have occupied : namesOccupant r s.incidents[i].issue = true := namesOccupant_iff.2 ⟨issue, by rw [slot]⟩
  have open_ : s.incident? i = some x := by rw [State.incident?, slot]
  unfold State.namedIncident
  rw [entryOf_eq_some index, Option.bind_some, if_pos occupied, open_]
  rfl

theorem State.namedIncident_none {s : State}
    (absent : s.incident? i = none ∨ r.issue = 0 ∨ s.incidents[i].issue ≠ r.issue.toNat) : s.namedIncident r = none := by
  unfold State.namedIncident
  rw [entryOf_eq_some index, Option.bind_some]
  split
  next occupied =>
    obtain ⟨issue, same⟩ := namesOccupant_iff.1 occupied
    rcases absent with none | zero | other
    · rw [none]; rfl
    · exact absurd zero issue
    · exact absurd same other
  · rfl

theorem State.reads_incident {s : State} {x : Incident} (slot : s.incident? i = some x) :
    s.reads .incident r.index = s.incidentFields x := by
  unfold State.reads State.table
  rw [entryOf_eq_some index, Option.bind_some, slot, State.incidentFields_eq]
  rfl

end

/-! ## AMEND of an INCIDENT (R99) -/

/-- An AMEND of slot `i` of the incident list that is heard, from a station that may amend (R184). -/
structure IncidentAsked (act : Instr) (r : Req) (i : Fin 25) (st : Fin 8) (s : State) : Prop where
  named : requestOf act = some (.amend, .incident, r)
  heard : Heard s r st
  listens : s.role st ≠ .none
  able : s.role st ≠ .view
  once : (r.fields.map (·.id)).Nodup
  index : r.index.toNat = i.1 + 1

namespace IncidentAsked

variable {act : Instr} {r : Req} {i : Fin 25} {st : Fin 8} {s : State}

theorem handled (h : IncidentAsked act r i st s) : handlerOf act = State.amendReq (limitInOf act) := by
  obtain ⟨named, -⟩ := h
  cases act with
  | amendHold => cases named
  | amendCall => cases named
  | settingsAmendment => rfl
  | _ => first | rfl | cases named

theorem stop (h : IncidentAsked act r i st s) : s.frameGood.linkStop st .amend .incident r = none := by
  have index := h.index
  refine State.linkStop_amend (by rw [State.frameGood_role]; exact h.listens) (by rw [State.frameGood_role]; exact h.able)
    ?_ (.inl rfl) h.once
  change 1 ≤ r.index.toNat ∧ r.index.toNat ≤ 25
  omega

section

variable {status : Status} {why : Option Reason} {fields : List FieldVal} {u : State}

theorem turned (h : IncidentAsked act r i st s) (answer : s.frameGood.amendIncidentReq ⟨st, .incident, r⟩ =
      (Ask.answer ⟨st, .incident, r⟩ status why fields, s.frameGood)) :
    ∃ t, exec act s = .next t ∧ ChangesOnly [.link] s.frameGood t ∧
      Replies t s.settings.part.address r.station status why .incident (i.1 + 1) r.issue.toNat fields := by
  rw [← h.index]
  refine exec_says h.named (by decide) h.heard h.stop ?_
  rw [h.handled]
  exact answer

theorem done (h : IncidentAsked act r i st s) (answer : s.frameGood.amendIncidentReq ⟨st, .incident, r⟩ =
      (Ask.answer ⟨st, .incident, r⟩ status why fields, u)) :
    ∃ a t, t = u.reply s.settings.part.address r.station a ∧ exec act s = .next t ∧
      Replies t s.settings.part.address r.station status why .incident (i.1 + 1) r.issue.toNat fields := by
  rw [← h.index]
  refine exec_done h.named (by decide) h.heard h.stop ?_
  rw [h.handled]
  exact answer

end

/-- A slot that is empty, or is named by another issue (R81). -/
theorem noRecord (h : IncidentAsked act r i st s)
    (absent : s.incident? i = none ∨ r.issue = 0 ∨ s.incidents[i].issue ≠ r.issue.toNat) :
    ∃ t, exec act s = .next t ∧ ChangesOnly [.link] s.frameGood t ∧
      Replies t s.settings.part.address r.station .noRecord none .incident (i.1 + 1) r.issue.toNat [] := by
  obtain ⟨slots, -⟩ := s.frameGood_changes.slots
  have named := State.namedIncident_none (s := s.frameGood) h.index
    (by rw [State.incident?, slots]; exact absent)
  refine h.turned ?_
  unfold State.amendIncidentReq
  dsimp only
  rw [named]
  rfl

end IncidentAsked

/-- An AMEND of the open incident `x` in slot `i`, by its issue. -/
structure IncidentNamed (act : Instr) (r : Req) (i : Fin 25) (x : Incident) (st : Fin 8) (s : State) : Prop
    extends IncidentAsked act r i st s where
  issue : r.issue ≠ 0
  slot : s.incidents[i] = ⟨r.issue.toNat, some x⟩

namespace IncidentNamed

variable {act : Instr} {r : Req} {i : Fin 25} {x : Incident} {st : Fin 8} {s : State}

theorem slotGood (h : IncidentNamed act r i x st s) : s.frameGood.incidents[i] = ⟨r.issue.toNat, some x⟩ := by
  rw [s.frameGood_changes.slots.1]
  exact h.slot

theorem open_ (h : IncidentNamed act r i x st s) : s.frameGood.incident? i = some x := by
  rw [State.incident?, h.slotGood]

theorem found (h : IncidentNamed act r i x st s) : s.frameGood.namedIncident r = some (i, x) :=
  State.namedIncident_open h.index h.issue h.slotGood

theorem flawed (h : IncidentNamed act r i x st s) {w : Flaw × FieldVal}
    (flaw : firstFlaw (incidentForm r.fields) r.fields = some w) :
    ∃ t, exec act s = .next t ∧ ChangesOnly [.link] s.frameGood t ∧
      RepliesFlaw t s.settings.part.address r.station w.1 w.2 .incident (i.1 + 1) r.issue.toNat
        (s.frameGood.incidentFields x) := by
  have decided : s.frameGood.amendIncidentReq ⟨st, .incident, r⟩ =
      Ask.flawed ⟨st, .incident, r⟩ w (s.frameGood.incidentFields x) s.frameGood := by
    unfold State.amendIncidentReq
    dsimp only
    rw [h.found]
    dsimp only
    rw [flaw]
  rw [Ask.flawed_eq] at decided
  obtain ⟨t, run, frame, reply⟩ := h.turned decided
  exact ⟨t, run, frame, repliesFlaw_of reply⟩

/-- What decides an AMEND of good form: role, stage, and then the action (R91, R93, R97, R99). -/
theorem decided (h : IncidentNamed act r i x st s) (form : firstFlaw (incidentForm r.fields) r.fields = none) :
    s.frameGood.amendIncidentReq ⟨st, .incident, r⟩ =
      if s.frameGood.admitsIncident st x r.fields = false then
        Ask.says ⟨st, .incident, r⟩ .notPermitted (s.frameGood.incidentFields x) s.frameGood
      else if wrongStage x r.fields = true then
        Ask.refuses ⟨st, .incident, r⟩ .wrongStage (s.frameGood.incidentFields x) s.frameGood
      else
        Ask.says ⟨st, .incident, r⟩ .done
          ((((s.frameGood.actIncident i x st r.fields).incident? i).map
            (s.frameGood.actIncident i x st r.fields).incidentFields).getD [])
          (s.frameGood.actIncident i x st r.fields) := by
  unfold State.amendIncidentReq
  dsimp only
  rw [h.found]
  dsimp only
  rw [form]
  dsimp only
  exact if_congr (iff_of_eq (Bool.not_eq_true' _)) rfl rfl

/-- An action that changes nothing is DONE with the record. -/
theorem kept (h : IncidentNamed act r i x st s) (form : firstFlaw (incidentForm r.fields) r.fields = none)
    (admits : s.frameGood.admitsIncident st x r.fields = true) (stage : wrongStage x r.fields = false)
    (still : s.frameGood.actIncident i x st r.fields = s.frameGood) :
    ∃ t, exec act s = .next t ∧ ChangesOnly [.link] s.frameGood t ∧
      Replies t s.settings.part.address r.station .done none .incident (i.1 + 1) r.issue.toNat
        (s.frameGood.incidentFields x) := by
  have decided := h.decided form
  rw [if_neg (by rw [admits]; decide), if_neg (by rw [stage]; decide), still, h.open_] at decided
  exact h.turned decided

/-- An action that leaves the incident `y` open is DONE with it. -/
theorem acts (h : IncidentNamed act r i x st s) (form : firstFlaw (incidentForm r.fields) r.fields = none)
    (admits : s.frameGood.admitsIncident st x r.fields = true) (stage : wrongStage x r.fields = false) {y : Incident}
    {u : State} (acted : s.frameGood.actIncident i x st r.fields = u) (slot : u.incidents[i] = ⟨r.issue.toNat, some y⟩) :
    ∃ a t, t = u.reply s.settings.part.address r.station a ∧ exec act s = .next t ∧
      Replies t s.settings.part.address r.station .done none .incident (i.1 + 1) r.issue.toNat (t.incidentFields y) := by
  have decided := h.decided form
  have open_ : u.incident? i = some y := by rw [State.incident?, slot]
  rw [if_neg (by rw [admits]; decide), if_neg (by rw [stage]; decide), acted, open_] at decided
  obtain ⟨a, t, left, run, reply⟩ := h.done decided
  have shown : t.incidentFields y = u.incidentFields y := by rw [left]; rfl
  refine ⟨a, t, left, run, ?_⟩
  rw [shown]
  exact reply

end IncidentNamed

/-! ## Escalation (R89) -/

/-- An escalation: the incident is GENERAL with its cause and no timer, the demands follow, and it is announced. -/
structure Escalated (i : Fin 25) (y : Incident) (s t : State) : Prop where
  frame : ChangesOnly incidentParts s t
  slot : t.incidents[i] = ⟨s.incidents[i].issue, some y⟩
  only : OnlyAt i s.incidents t.incidents
  list : t.incidentList = s.incidentList
  demands : DemandsDerived t
  announced : Announced [i] s t

theorem State.escalateIncident_escalated {s : State} {i : Fin 25} {x : Incident} (slot : s.incident? i = some x)
    (staff : x.stage = .staff) (why : EscalationCause) :
    Escalated i { x with stage := .general, cause := some why, timerAt := none } s (s.escalateIncident i why) := by
  unfold State.escalateIncident
  rw [State.editIncident_some slot, Incident.escalate_staff why staff]
  have written := s.writeIncident_changes i { x with stage := .general, cause := some why, timerAt := none }
  have here := s.writeIncident_slots i { x with stage := .general, cause := some why, timerAt := none }
  have list : (s.writeIncident i { x with stage := .general, cause := some why, timerAt := none }).incidentList =
      s.incidentList := State.writeIncident_incidentList ..
  generalize s.writeIncident i { x with stage := .general, cause := some why, timerAt := none } = v at *
  obtain ⟨frame, demands, announced⟩ := v.demanded_told [i]
  generalize v.demandAll.announceIncidents [i] = t at *
  obtain ⟨slotsT, listT⟩ := frame.slots
  refine ⟨written.andThen frame, by rw [slotsT]; exact here.1, by rw [slotsT]; exact here.2, listT.trans list, demands, ?_⟩
  exact announced.before (written.same .perfs (by decide)) (written.same .irons (by decide))
    (written.same .settings (by decide))

/-! ## The actions, alone (R91, R93) -/

theorem State.concerned_iff {s : State} {st : Fin 8} {auds : AudSet} : s.concerned st auds = true ↔
    s.role st = .foh ∨ s.role st = .fire ∨ ∃ a : Fin 3, has auds a = true ∧ s.isStageOf st a = true := by
  unfold State.concerned
  rw [Bool.or_eq_true, Bool.or_eq_true, beq_iff_eq, beq_iff_eq, someIx_iff, or_assoc]
  simp only [Bool.and_eq_true]

theorem State.frameGood_concerned (s : State) (st : Fin 8) (auds : AudSet) :
    s.frameGood.concerned st auds = s.concerned st auds := by
  unfold State.concerned
  simp only [State.frameGood_role, State.frameGood_isStageOf]

/-- An action alone on the open incident in slot `i`. -/
theorem incidentNamed_alone {act : Instr} {q : AmendReq} {id : Byte} {v : Word} {i : Fin 25} {x : Incident} {st : Fin 8}
    {s : State} {issue : Nat} (named : requestOf act = some (.amend, .incident, q.withField id v))
    (h : HeardAlone s q st (i.1 + 1) issue) (slot : s.incidents[i] = ⟨issue, some x⟩) (some_ : issue ≠ 0)
    (listens : s.role st ≠ .none) (able : s.role st ≠ .view) : IncidentNamed act (q.withField id v) i x st s := by
  have heard := h.heard id v
  have fields := h.fields id v
  obtain ⟨-, -, -, -, -, index, same⟩ := h
  have issues : (q.withField id v).issue.toNat = issue := same
  refine ⟨⟨named, heard, listens, able, by rw [fields]; exact List.nodup_singleton _, index⟩, fun zero => some_ ?_,
    by rw [issues]; exact slot⟩
  rw [← issues, zero]
  rfl

section

variable {q : AmendReq} {i : Fin 25} {x : Incident} {st : Fin 8} {s : State} {issue : Nat}
  (h : HeardAlone s q st (i.1 + 1) issue) (slot : s.incidents[i] = ⟨issue, some x⟩) (some_ : issue ≠ 0)
  (listens : s.role st ≠ .none) (able : s.role st ≠ .view)
include h slot some_ listens able

theorem acknowledge_named : IncidentNamed (.acknowledge q) (q.withField 128 1) i x st s :=
  incidentNamed_alone rfl h slot some_ listens able

theorem stage_named (v : Word) : IncidentNamed (.amendIncidentStage q v) (q.withField 129 v) i x st s :=
  incidentNamed_alone rfl h slot some_ listens able

omit slot some_ listens able

theorem acknowledge_form : firstFlaw (incidentForm (q.withField 128 1).fields) (q.withField 128 1).fields = none := by
  rw [h.fields 128 1]
  rfl

theorem stage_form {v : Word} (small : v.toNat ≤ 1) :
    firstFlaw (incidentForm (q.withField 129 v).fields) (q.withField 129 v).fields = none := by
  rw [h.fields 129 v]
  refine firstFlaw_eq_none.2 fun f mem => ?_
  obtain rfl := List.mem_singleton.1 mem
  have form : incidentForm [⟨129, v⟩] ⟨129, v⟩ = orBad (decide (v.toNat ≤ 1)) :=
    congrArg orBad (Bool.and_true _)
  rw [form, decide_eq_true small]
  rfl

theorem acknowledge_admits (u : State) : u.admitsIncident st x (q.withField 128 1).fields = u.concerned st x.auds := by
  rw [h.fields 128 1]
  exact Bool.and_true _

theorem stage_admits (u : State) (v : Word) :
    u.admitsIncident st x (q.withField 129 v).fields = u.concerned st x.auds := by
  rw [h.fields 129 v]
  exact Bool.and_true _

include slot some_ listens able

/-- A station that the incident does not concern (R91, R93). -/
theorem incident_barred (barred : s.concerned st x.auds = false) (act : Instr) (v : Word)
    (which : act = Instr.acknowledge q ∨ (act = .amendIncidentStage q v ∧ v.toNat ≤ 1)) :
    ∃ t, exec act s = .next t ∧ ChangesOnly [.link] s.frameGood t ∧
      Replies t s.settings.part.address q.station .notPermitted none .incident (i.1 + 1) issue
        (s.frameGood.incidentFields x) := by
  have issues : q.issue.toNat = issue := h.2.2.2.2.2.2
  rw [← s.frameGood_concerned] at barred
  rw [← issues]
  rcases which with rfl | ⟨rfl, small⟩
  · have asks := acknowledge_named h slot some_ listens able
    refine asks.turned ((asks.decided (acknowledge_form h)).trans (if_pos ?_))
    rw [acknowledge_admits h]
    exact barred
  · have asks := stage_named h slot some_ listens able v
    refine asks.turned ((asks.decided (stage_form h small)).trans (if_pos ?_))
    rw [stage_admits h]
    exact barred

/-- An acknowledgement or a stage STAFF asked of a GENERAL incident (R91, R93). -/
theorem incident_wrongStage (mine : s.concerned st x.auds = true) (general : x.stage = .general) (act : Instr)
    (which : act = Instr.acknowledge q ∨ act = .amendIncidentStage q 0) :
    ∃ t, exec act s = .next t ∧ ChangesOnly [.link] s.frameGood t ∧
      Replies t s.settings.part.address q.station .refused (some .wrongStage) .incident (i.1 + 1) issue
        (s.frameGood.incidentFields x) := by
  have issues : q.issue.toNat = issue := h.2.2.2.2.2.2
  rw [← s.frameGood_concerned] at mine
  rw [← issues]
  rcases which with rfl | rfl
  · have asks := acknowledge_named h slot some_ listens able
    refine asks.turned ((asks.decided (acknowledge_form h)).trans ((if_neg ?_).trans (if_pos ?_)))
    · rw [acknowledge_admits h, mine]
      decide
    · rw [h.fields 128 1, wrongStage, general]
      rfl
  · have asks := stage_named h slot some_ listens able 0
    refine asks.turned ((asks.decided (stage_form h (by decide))).trans ((if_neg ?_).trans (if_pos ?_)))
    · rw [stage_admits h, mine]
      decide
    · rw [h.fields 129 0, wrongStage, general]
      rfl

/-- What comes twice or asks for the stage that is changes nothing (R91, R93). -/
theorem incident_kept (mine : s.concerned st x.auds = true) (act : Instr)
    (which : (act = Instr.acknowledge q ∧ x.stage = .staff ∧ x.ackBy ≠ none) ∨
      (act = .amendIncidentStage q 0 ∧ x.stage = .staff) ∨ (act = .amendIncidentStage q 1 ∧ x.stage = .general)) :
    ∃ t, exec act s = .next t ∧ ChangesOnly [.link] s.frameGood t ∧
      Replies t s.settings.part.address q.station .done none .incident (i.1 + 1) issue (s.frameGood.incidentFields x) := by
  have issues : q.issue.toNat = issue := h.2.2.2.2.2.2
  rw [← s.frameGood_concerned] at mine
  rw [← issues]
  rcases which with ⟨rfl, staff, twice⟩ | ⟨rfl, staff⟩ | ⟨rfl, general⟩
  · have asks := acknowledge_named h slot some_ listens able
    refine asks.kept (acknowledge_form h) ((acknowledge_admits h _).trans mine) ?_ ?_
    · rw [h.fields 128 1, wrongStage, staff]
      rfl
    · rw [h.fields 128 1]
      exact (if_pos rfl).trans (if_neg (by rwa [Option.isNone_iff_eq_none]))
  · have asks := stage_named h slot some_ listens able 0
    refine asks.kept (stage_form h (by decide)) ((stage_admits h _ _).trans mine) ?_ ?_
    · rw [h.fields 129 0, wrongStage, staff]
      rfl
    · rw [h.fields 129 0]
      rfl
  · have asks := stage_named h slot some_ listens able 1
    refine asks.kept (stage_form h (by decide)) ((stage_admits h _ _).trans mine) ?_ ?_
    · rw [h.fields 129 1, wrongStage, general]
      rfl
    · rw [h.fields 129 1]
      exact (if_neg (by decide)).trans ((if_pos rfl).trans (if_neg (by rw [general]; decide)))

/-- R91: an acknowledgement names the station and starts the investigation timer. -/
theorem incident_acknowledged (mine : s.concerned st x.auds = true) (staff : x.stage = .staff) (first : x.ackBy = none) :
    ∃ t y, exec (.acknowledge q) s = .next t ∧ ChangesOnly [.link, .incidents, .circuits, .stations] s.frameGood t ∧
      y = { x with ackBy := some st, timerAt := some (s.now + s.settings.part.investTime * 100) } ∧
      t.incidents[i] = ⟨issue, some y⟩ ∧ OnlyAt i s.incidents t.incidents ∧
      t.incidentList = s.incidentList ∧ (DemandsDerived s.frameGood → DemandsDerived t) ∧
      Replies t s.settings.part.address q.station .done none .incident (i.1 + 1) issue (t.incidentFields y) := by
  have issues : q.issue.toNat = issue := h.2.2.2.2.2.2
  have asks := acknowledge_named h slot some_ listens able
  have admits := (acknowledge_admits h (x := x) s.frameGood).trans ((s.frameGood_concerned st x.auds).trans mine)
  have stage : wrongStage x (q.withField 128 1).fields = false := by
    rw [h.fields 128 1, wrongStage, staff]
    rfl
  have acted : s.frameGood.actIncident i x st (q.withField 128 1).fields = s.frameGood.acknowledgeIncident i st := by
    rw [h.fields 128 1]
    exact (if_pos rfl).trans (if_pos (by rw [first]; rfl))
  have frame := s.frameGood.acknowledgeIncident_changes i st
  have follows := AlarmsFollow.acknowledgeIncident s.frameGood i st
  have edited : s.frameGood.acknowledgeIncident i st = (s.frameGood.writeIncident i
      { x with ackBy := some st, timerAt := some (s.now + s.settings.part.investTime * 100) }).demandAlert := by
    unfold State.acknowledgeIncident
    rw [State.editIncident_some asks.open_, State.frameGood_now, State.frameGood_settings]
    rfl
  have slots : (s.frameGood.acknowledgeIncident i st).incidents[i] = ⟨issue, some
        { x with ackBy := some st, timerAt := some (s.now + s.settings.part.investTime * 100) }⟩ ∧
      OnlyAt i s.incidents (s.frameGood.acknowledgeIncident i st).incidents ∧
      (s.frameGood.acknowledgeIncident i st).incidentList = s.incidentList := by
    have good := s.frameGood_changes.slots
    have here := s.frameGood.writeIncident_slots i
      { x with ackBy := some st, timerAt := some (s.now + s.settings.part.investTime * 100) }
    have demanded := (State.demandAlert_changes (s.frameGood.writeIncident i
      { x with ackBy := some st, timerAt := some (s.now + s.settings.part.investTime * 100) })).slots
    rw [edited, demanded.1, demanded.2, State.writeIncident_incidentList, good.2, here.1, good.1, slot]
    exact ⟨rfl, good.1 ▸ here.2, rfl⟩
  clear edited
  generalize s.frameGood.acknowledgeIncident i st = u at *
  obtain ⟨here, only, list⟩ := slots
  obtain ⟨a, t, left, run, reply⟩ := asks.acts (acknowledge_form h) admits stage acted
    (here.trans (by rw [← issues]; rfl))
  have replied := State.reply_changes u s.settings.part.address (q.withField 128 1).station a
  rw [← left] at replied
  obtain ⟨slotsT, listT⟩ := replied.slots
  refine ⟨t, _, run, frame.andThen replied, rfl, by rw [slotsT]; exact here, by rw [slotsT]; exact only,
    by rw [listT]; exact list, fun d => ?_, ?_⟩
  · rw [left]
    exact follows.demands d
  · rw [← issues]
    exact reply

/-- R93: a stage amendment escalates with cause MANUAL. -/
theorem incident_manual (mine : s.concerned st x.auds = true) (staff : x.stage = .staff) :
    ∃ t y, exec (.amendIncidentStage q 1) s = .next t ∧ ChangesOnly (.link :: incidentParts) s.frameGood t ∧
      y = { x with stage := .general, cause := some .manual, timerAt := none } ∧
      t.incidents[i] = ⟨issue, some y⟩ ∧ OnlyAt i s.incidents t.incidents ∧
      t.incidentList = s.incidentList ∧ DemandsDerived t ∧ Announced [i] s.frameGood t ∧
      Replies t s.settings.part.address q.station .done none .incident (i.1 + 1) issue (t.incidentFields y) := by
  have issues : q.issue.toNat = issue := h.2.2.2.2.2.2
  have asks := stage_named h slot some_ listens able 1
  have admits := (stage_admits h (x := x) s.frameGood 1).trans ((s.frameGood_concerned st x.auds).trans mine)
  have stage : wrongStage x (q.withField 129 1).fields = false := by
    rw [h.fields 129 1, wrongStage, staff]
    rfl
  have acted : s.frameGood.actIncident i x st (q.withField 129 1).fields = s.frameGood.escalateIncident i .manual := by
    rw [h.fields 129 1]
    exact (if_neg (by decide)).trans ((if_pos rfl).trans (if_pos staff))
  obtain ⟨frame, here, only, list, demands, announced⟩ :=
    State.escalateIncident_escalated asks.open_ staff .manual
  have good := s.frameGood_changes.slots
  rw [good.1, slot] at here
  rw [good.1] at only
  rw [good.2] at list
  generalize s.frameGood.escalateIncident i .manual = u at *
  obtain ⟨a, t, left, run, reply⟩ := asks.acts (stage_form h (by decide)) admits stage acted
    (here.trans (by rw [← issues]; rfl))
  have replied := State.reply_changes u s.settings.part.address (q.withField 129 1).station a
  rw [← left] at replied
  obtain ⟨slotsT, listT⟩ := replied.slots
  refine ⟨t, _, run, frame.andThen replied, rfl, by rw [slotsT]; exact here, by rw [slotsT]; exact only,
    by rw [listT]; exact list, by rw [left]; exact demands, by rw [left]; exact announced, ?_⟩
  rw [← issues]
  exact reply

/-- A stage that is no stage (R93, R201). -/
theorem incident_badStage {v : Word} (high : 1 < v.toNat) :
    ∃ t, exec (.amendIncidentStage q v) s = .next t ∧ ChangesOnly [.link] s.frameGood t ∧
      Replies t s.settings.part.address q.station .badField none .incident (i.1 + 1) issue
        (s.frameGood.incidentFields x) := by
  have issues : q.issue.toNat = issue := h.2.2.2.2.2.2
  have asks := stage_named h slot some_ listens able v
  have flaw : firstFlaw (incidentForm (q.withField 129 v).fields) (q.withField 129 v).fields =
      some (.badField, ⟨129, v⟩) := by
    rw [h.fields 129 v]
    have form : incidentForm [⟨129, v⟩] ⟨129, v⟩ = orBad (decide (v.toNat ≤ 1)) := congrArg orBad (Bool.and_true _)
    unfold firstFlaw
    rw [List.findSome?_cons, form, decide_eq_false (by omega)]
    rfl
  obtain ⟨t, run, frame, reply⟩ := asks.flawed flaw
  rw [← issues]
  exact ⟨t, run, frame, reply.1 rfl⟩

end

/-! ## The timers of an incident (R90, R92) -/

theorem State.ackRunsOut_due {s : State} {i : Fin 25} {x : Incident} {d : Nat} (slot : s.incident? i = some x)
    (staff : x.stage = .staff) (first : x.ackBy = none) (due : x.timerAt = some d) :
    s.ackRunsOut i = (s.reach d).escalateIncident i .ackTimeout := by
  unfold State.ackRunsOut
  rw [slot]
  dsimp only
  rw [staff, first, due]

theorem State.investigationRunsOut_due {s : State} {i : Fin 25} {x : Incident} {d : Nat} (slot : s.incident? i = some x)
    (staff : x.stage = .staff) (acknowledged : x.ackBy ≠ none) (due : x.timerAt = some d) :
    s.investigationRunsOut i = (s.reach d).escalateIncident i .investigationTimeout := by
  obtain ⟨st, by_⟩ := Option.ne_none_iff_exists'.1 acknowledged
  unfold State.investigationRunsOut
  rw [slot]
  dsimp only
  rw [staff, by_, due]

theorem State.ackRunsOut_still {s : State} {i : Fin 25} {x : Incident} (slot : s.incident? i = some x)
    (idle : x.stage = .general ∨ x.ackBy ≠ none) : s.ackRunsOut i = s := by
  unfold State.ackRunsOut
  rw [slot]
  dsimp only
  split
  next staff first running =>
    rcases idle with general | acknowledged
    · rw [staff] at general; cases general
    · exact absurd first acknowledged
  · rfl

theorem State.investigationRunsOut_still {s : State} {i : Fin 25} {x : Incident} (slot : s.incident? i = some x)
    (idle : x.stage = .general ∨ x.ackBy = none) : s.investigationRunsOut i = s := by
  unfold State.investigationRunsOut
  rw [slot]
  dsimp only
  split
  next staff by_ running =>
    rcases idle with general | first
    · rw [staff] at general; cases general
    · rw [by_] at first; cases first
  · rfl

/-- R90, R92: a timer that runs out escalates with its own cause. -/
theorem incidentTimer_escalates {s : State} {i : Fin 25} {x : Incident} {d : Nat} {act : Instr} {why : EscalationCause}
    (run : exec act s = .next ((s.reach d).escalateIncident i why)) (slot : s.incident? i = some x)
    (staff : x.stage = .staff) :
    ∃ t, exec act s = .next t ∧ ChangesOnly (.clock :: incidentParts) s t ∧ t.now = max s.now d ∧
      t.incidents[i] = ⟨s.incidents[i].issue, some { x with stage := .general, timerAt := none, cause := some why }⟩ ∧
      OnlyAt i s.incidents t.incidents ∧ t.incidentList = s.incidentList ∧ DemandsDerived t ∧ Announced [i] s t := by
  obtain ⟨frame, here, only, list, demands, announced⟩ :=
    State.escalateIncident_escalated (s := s.reach d) slot staff why
  have reached := s.reach_changes d
  refine ⟨_, run, reached.andThen frame, ?_, here, only, list, demands, announced⟩
  exact (frame.same .clock (by decide) : _ = (s.reach d).now)

/-- Settles O49. -/
theorem incidentStagesMove : Obligations.IncidentStagesMove := by
  unfold Obligations.IncidentStagesMove
  refine ⟨?_, fun i s x d powered slot staff due => ?_, fun i s x slot =>
    ⟨fun idle => State.takes_still (State.ackRunsOut_still slot idle),
      fun idle => State.takes_still (State.investigationRunsOut_still slot idle)⟩, ?_⟩
  · rintro q i st s u x issue mine h rfl slot some_ listens able hmine
    have concerned : s.concerned st x.auds = mine := by
      rw [Bool.eq_iff_iff, State.concerned_iff, hmine]
    refine ⟨fun barred act v which => ?_, fun mine => ⟨fun general act which => ?_, fun act which => ?_,
      fun staff first => ?_, fun staff => ?_⟩, fun v high => incident_badStage h slot some_ listens able high⟩
    · exact incident_barred h slot some_ listens able (concerned.trans barred) act v which
    · exact incident_wrongStage h slot some_ listens able (concerned.trans mine) general act which
    · exact incident_kept h slot some_ listens able (concerned.trans mine) act which
    · exact incident_acknowledged h slot some_ listens able (concerned.trans mine) staff first
    · exact incident_manual h slot some_ listens able (concerned.trans mine) staff
  · by_cases first : x.ackBy = none
    · rw [if_pos first, if_pos first]
      refine incidentTimer_escalates ?_ slot staff
      rw [← State.ackRunsOut_due slot staff first due]
      exact State.takes_powered (State.ackRunsOut i) powered
    · rw [if_neg first, if_neg first]
      refine incidentTimer_escalates ?_ slot staff
      rw [← State.investigationRunsOut_due slot staff first due]
      exact State.takes_powered (State.investigationRunsOut i) powered
  · rintro act r i st s u named heard index rfl listens able once
    have asks : IncidentAsked act r i st s := ⟨named, heard, listens, able, once, index⟩
    refine ⟨asks.noRecord, fun x slot issue same => ?_⟩
    have named : IncidentNamed act r i x st s := ⟨asks, issue, by rw [← same]; exact State.slot_eq slot⟩
    rw [State.reads_incident index named.open_]
    refine ⟨fun f first w flaw => ?_, fun none => ?_⟩
    · simp only [formOf_incident] at first flaw
      exact named.flawed (firstFlaw_of_find first flaw)
    · refine named.kept (by rw [none]; rfl) ?_ (by rw [none]; rfl) (by rw [none]; rfl)
      rw [none]
      rfl

end Sys2Proof.Machine
end

section
/-!
PROOFS. One call zone and its arbiter (R140..R145): what an operation on one zone leaves to the others, what the
arbiter reads, and what it does.
-/

namespace Sys2Proof.Machine
-- One proof after another: the whole text stays within the memory of one compile.
set_option Elab.async false

/-! ## What stands through the operations on one zone -/

/-- What is seen of a call in one zone: its terms, where it goes, and its delivery there. -/
structure CallSight where
  terms : Call
  zones : List (Fin 8)
  delivery : Option Delivery

/-- The call without its deliveries and what has become of it. -/
def Call.terms (x : Call) : Call := { x with finished := false, outcome := none, deliveries := [] }

def Call.sight (z : Fin 8) (x : Call) : CallSight := ⟨x.terms, x.targets, x.delivery? z⟩

/-- `P` stands through each write that an operation on zone `z` is made of; what it says of a call is what is seen of
it in the other zones. -/
structure ZoneClosed (z : Fin 8) (P : State → Prop) : Prop where
  mark : ∀ {s : State} (k : Kind), P s → P (s.mark k)
  call : ∀ {s : State} (c : Fin 32) (x y : Call), s.call? c = some x →
    y.terms = x.terms →
    (∀ j : Fin 8, j ≠ z → y.sight j = x.sight j) → P s →
    P { s with calls := put s.calls c { s.calls[c] with call := some y } }
  czone : ∀ {s : State} (x : CallZone), P s → P { s with czones := put s.czones z x }
  chime : ∀ {s : State} (on : Bool), P s → P (s.demand (chimeOf z) on .continuous)
  flicker : ∀ {s : State} (code : Nat), P s → P (s.flickerRequest z code)

theorem Call.editDelivery_sight {z j : Fin 8} (ne : j ≠ z) {f : Delivery → Delivery} (zone : ∀ d, (f d).zone = d.zone)
    (x : Call) : (x.editDelivery z f).sight j = x.sight j := by
  have zones : (x.editDelivery z f).targets = x.targets := Call.editDelivery_targets x z f zone
  have delivery := Call.editDelivery_delivery? x z j f zone
  rw [if_neg ne] at delivery
  unfold Call.sight
  rw [zones, delivery]
  rfl

namespace ZoneClosed

variable {z : Fin 8} {P : State → Prop} {s : State}

theorem markIf (h : ZoneClosed z P) (b : Bool) (k : Kind) (hs : P s) : P (s.markIf b k) := by
  cases b
  · exact hs
  · exact h.mark k hs

theorem writeCZone (h : ZoneClosed z P) (x : CallZone) (hs : P s) : P (s.writeCZone z x) :=
  h.markIf _ _ (h.czone x hs)

theorem editDelivery (h : ZoneClosed z P) (c : Fin 32) {f : Delivery → Delivery} (zone : ∀ d, (f d).zone = d.zone)
    (hs : P s) : P (s.editDelivery c z f) := by
  unfold State.editDelivery
  split
  · exact hs
  next x found => exact h.markIf _ _ (h.call c x _ found rfl (fun j ne => Call.editDelivery_sight ne zone x) hs)

theorem finishCall (h : ZoneClosed z P) (c : Fin 32) (hs : P s) : P (s.finishCall c) := by
  unfold State.finishCall
  split
  · exact hs
  next x found =>
    split
    · exact hs
    · exact h.markIf _ _ (h.call c x _ found rfl (fun _ _ => rfl) hs)

theorem endDelivery (h : ZoneClosed z P) (c : Fin 32) (st : DeliveryState) (hs : P s) : P (s.endDelivery c z st) :=
  h.finishCall c (h.editDelivery c (fun _ => rfl) hs)

theorem joinQueue (h : ZoneClosed z P) (c : Fin 32) (hs : P s) : P (s.joinQueue z c) := h.writeCZone _ hs

theorem leaveQueue (h : ZoneClosed z P) (c : Fin 32) (hs : P s) : P (s.leaveQueue z c) := h.writeCZone _ hs

theorem beginStroke (h : ZoneClosed z P) (hs : P s) : P (s.beginStroke z) := h.chime true (h.writeCZone _ hs)

theorem handFlicker (h : ZoneClosed z P) (code : Nat) (hs : P s) : P (s.handFlicker z code) :=
  h.flicker code (h.writeCZone _ hs)

theorem startBurst (h : ZoneClosed z P) (c : Fin 32) (m : BurstMode) (code : Nat) (hs : P s) :
    P (s.startBurst z c m code) := by
  unfold State.startBurst
  have edited := h.editDelivery c (f := fun d => { d with state := .sounding, resumes := false }) (fun _ => rfl) hs
  dsimp only
  split
  · exact h.beginStroke (h.writeCZone _ edited)
  · exact h.beginStroke (h.handFlicker _ (h.writeCZone _ edited))
  · exact h.handFlicker _ (h.writeCZone _ edited)

theorem lookFor (h : ZoneClosed z P) (fuel : Nat) (hs : P s) : P (s.lookFor z fuel) := by
  induction fuel generalizing s with
  | zero => exact hs
  | succ n ih =>
    unfold State.lookFor
    dsimp only
    split
    · exact hs
    · split
      · exact hs
      · split
        · exact h.startBurst _ _ _ hs
        · exact ih (h.endDelivery _ _ (h.leaveQueue _ hs))

theorem arbitrate (h : ZoneClosed z P) (hs : P s) : P (s.arbitrate z) := h.lookFor _ hs

theorem endSignals (h : ZoneClosed z P) (hs : P s) : P (s.endSignals z) := by
  have silent := h.chime false hs
  unfold State.endSignals
  dsimp only
  split
  · exact silent
  · exact h.handFlicker 0 silent

theorem stopBurst (h : ZoneClosed z P) (hs : P s) : P (s.stopBurst z) := h.writeCZone _ (h.endSignals hs)

theorem countBurst (h : ZoneClosed z P) (hs : P s) : P (s.countBurst z) := by
  unfold State.countBurst
  dsimp only
  split
  · exact hs
  · refine h.arbitrate ?_
    split
    · exact h.joinQueue _ (h.editDelivery _ (fun _ => rfl) (h.stopBurst hs))
    · exact h.finishCall _ (h.editDelivery _ (fun _ => rfl) (h.stopBurst hs))

theorem litLost (h : ZoneClosed z P) (hs : P s) : P (s.litLost z) := by
  unfold State.litLost
  dsimp only
  split
  · exact h.handFlicker 0 (h.writeCZone _ hs)
  · exact h.countBurst hs
  · exact hs
  · exact hs

theorem dropZone (h : ZoneClosed z P) (st : DeliveryState) (hs : P s) : P (s.dropZone z st) := by
  unfold State.dropZone
  dsimp only
  refine BurstClosed.foldl (fun t c ht => h.endDelivery _ _ (h.leaveQueue _ ht)) _ ?_
  split
  · exact h.endDelivery _ _ (h.stopBurst hs)
  · exact hs

theorem withdraw (h : ZoneClosed z P) (c : Fin 32) (hs : P s) : P (s.withdraw c z) := by
  unfold State.withdraw
  split
  · exact h.stopBurst hs
  · exact h.leaveQueue _ hs

theorem suppress (h : ZoneClosed z P) (hs : P s) : P (s.suppress z) := by
  unfold State.suppress
  dsimp only
  split
  · exact h.writeCZone _ hs
  · exact h.joinQueue _ (h.editDelivery _ (fun _ => rfl) (h.stopBurst (h.writeCZone _ hs)))

theorem bar (h : ZoneClosed z P) (hs : P s) : P (s.bar z) := h.dropZone _ (h.writeCZone _ hs)

theorem deriveSilence (h : ZoneClosed z P) (hs : P s) : P (s.deriveSilence z) := by
  unfold State.deriveSilence
  split
  · exact hs
  · extract_lets cz b p s1 cz1 s2
    have barred : P s1 := by
      unfold s1
      split
      · exact h.bar hs
      · split
        · exact h.writeCZone _ hs
        · exact hs
    have suppressed : P s2 := by
      unfold s2
      split
      · exact h.suppress barred
      · split
        · exact h.writeCZone _ barred
        · exact barred
    split
    · exact h.arbitrate suppressed
    · exact suppressed

end ZoneClosed

/-! ## What the arbiter of a zone reads -/

/-- What the arbiter of a zone reads (R140, R141). -/
structure ZoneSight where
  settings : Settings
  now : Nat
  lit : Bool
  chime : CircuitCondition
  czone : CallZone
  calls : Fin 32 → Option CallSight

def State.sight (s : State) (z : Fin 8) : ZoneSight :=
  ⟨s.settings, s.now, s.litNow z, s.circuits[chimeOf z].condition, s.czones[z],
    fun c => (s.call? c).map (Call.sight z)⟩

/-- Zone `z`, what its arbiter reads and what its burst has on are left. -/
structure Aside (z : Fin 8) (s t : State) : Prop where
  sight : t.sight z = s.sight z
  causes : ∀ g : Fin 12, t.groups[g].causes = s.groups[g].causes
  demand : t.circuits[chimeOf z].demand = s.circuits[chimeOf z].demand
  flicker : t.flickers[z] = s.flickers[z]
  order : t.callList = s.callList
  issues : ∀ c : Fin 32, t.calls[c].issue = s.calls[c].issue

namespace Aside

variable {z y : Fin 8} {s t u : State}

theorem refl (z : Fin 8) (s : State) : Aside z s s := ⟨rfl, fun _ => rfl, rfl, rfl, rfl, fun _ => rfl⟩

theorem trans (h : Aside z s t) (k : Aside z t u) : Aside z s u :=
  ⟨k.sight.trans h.sight, fun g => (k.causes g).trans (h.causes g), k.demand.trans h.demand, k.flicker.trans h.flicker,
    k.order.trans h.order, fun c => (k.issues c).trans (h.issues c)⟩

theorem czone (h : Aside z s t) : t.czones[z] = s.czones[z] := congrArg ZoneSight.czone h.sight

theorem of_changes {ps : List Part} (h : ChangesOnly ps s t)
    (out : ps.all (fun p => !([.clock, .settings, .czones, .calls, .circuits, .groups, .flickers] : List Part).contains p) = true
      := by rfl) : Aside z s t := by
  have same (p : Part) (mem : p ∈ ([.clock, .settings, .czones, .calls, .circuits, .groups, .flickers] : List Part)) :
      p.same s t := h.same p fun inside => by
    have := List.all_eq_true.1 out p inside
    simp only [Bool.not_eq_true', List.contains_eq_mem, decide_eq_false_iff_not] at this
    exact this mem
  have now : t.now = s.now := same .clock (by simp)
  have settings : t.settings = s.settings := same .settings (by simp)
  have czones : t.czones = s.czones := same .czones (by simp)
  obtain ⟨calls, order⟩ : t.calls = s.calls ∧ t.callList = s.callList := same .calls (by simp)
  have circuits : t.circuits = s.circuits := same .circuits (by simp)
  have groups : t.groups = s.groups := same .groups (by simp)
  have flickers : t.flickers = s.flickers := same .flickers (by simp)
  exact ⟨by simp only [State.sight, State.litNow, State.call?, now, settings, czones, calls, circuits, groups],
    fun _ => by rw [groups], by rw [circuits], by rw [flickers], order, fun _ => by rw [calls]⟩

end Aside

theorem chimeOf_ne {y z : Fin 8} (ne : z ≠ y) : chimeOf z ≠ chimeOf y := fun e => ne (Fin.ext (by
  have : 6 + z.1 = 6 + y.1 := congrArg Fin.val e
  omega))

/-- An operation on one zone is aside of every other. -/
theorem aside_closed {y z : Fin 8} (ne : z ≠ y) (s : State) : ZoneClosed y (Aside z s) where
  mark k h := h.trans (.of_changes (State.mark_changes ..))
  call {t} c x x' found _ same h := by
    refine h.trans ⟨?_, fun _ => rfl, rfl, rfl, rfl, fun b => ?_⟩
    rotate_left
    · by_cases own : b = c
      · subst own
        exact (congrArg CallSlot.issue (put_same t.calls b { t.calls[b] with call := some x' }) : _)
      · exact (congrArg CallSlot.issue (put_other t.calls c b { t.calls[c] with call := some x' } own) : _)
    have calls : (fun b => (State.call? { t with calls := put t.calls c { t.calls[c] with call := some x' } } b).map
        (Call.sight z)) = fun b => (t.call? b).map (Call.sight z) := by
      funext b
      unfold State.call?
      by_cases own : b = c
      · subst own
        have old : t.calls[b].call = some x := found
        dsimp only
        rw [put_same, old]
        exact congrArg some (same z ne)
      · dsimp only
        rw [put_other _ _ _ _ own]
    unfold State.sight
    rw [calls]
    rfl
  czone {t} x h := by
    refine h.trans ⟨?_, fun _ => rfl, rfl, rfl, rfl, fun _ => rfl⟩
    unfold State.sight
    rw [show (put t.czones y x)[z] = t.czones[z] from put_other _ _ _ _ ne]
    rfl
  chime {t} on h := by
    have frame := t.demand_changes (chimeOf y) on .continuous
    have other := t.demand_other (chimeOf y) on .continuous (chimeOf_ne ne)
    refine h.trans ⟨?_, fun g => by rw [frame.same .groups (by decide)], by rw [other], ?_, ?_, ?_⟩
    · have lit : (t.demand (chimeOf y) on .continuous).litNow z = t.litNow z :=
        State.litNow_congr (frame.same .settings (by decide)) (fun g => by rw [frame.same .groups (by decide)]) z
      have calls : (t.demand (chimeOf y) on .continuous).calls = t.calls := (frame.same .calls (by decide)).1
      unfold State.sight State.call?
      rw [lit, other, calls, (frame.same .settings (by decide) : _ = _), (frame.same .clock (by decide) : _ = _),
        (frame.same .czones (by decide) : _ = _)]
    · rw [(frame.same .flickers (by decide) : _ = _)]
    · exact (frame.same .calls (by decide)).2
    · exact fun c => by rw [(frame.same .calls (by decide)).1]
  flicker {t} code h := by
    have frame := t.flickerRequest_changes y code
    have causes (g : Fin 12) : (t.flickerRequest y code).groups[g].causes = t.groups[g].causes :=
      (Sounded.flicker t y code).causes g
    have circuits : (t.flickerRequest y code).circuits = t.circuits := frame.same .circuits (by decide)
    refine h.trans ⟨?_, causes, by rw [circuits], ?_, (frame.same .calls (by decide)).2,
      fun c => by rw [(frame.same .calls (by decide)).1]⟩
    · have lit : (t.flickerRequest y code).litNow z = t.litNow z :=
        State.litNow_congr (frame.same .settings (by decide)) causes z
      have calls : (t.flickerRequest y code).calls = t.calls := (frame.same .calls (by decide)).1
      unfold State.sight State.call?
      rw [lit, circuits, calls, (frame.same .settings (by decide) : _ = _), (frame.same .clock (by decide) : _ = _),
        (frame.same .czones (by decide) : _ = _)]
    · rw [State.flickerRequest_flickers]
      exact put_other _ _ _ _ ne

/-- The terms of the calls and the issues of their slots are kept. -/
structure TermsKept (s t : State) : Prop where
  terms : ∀ c : Fin 32, (t.call? c).map Call.terms = (s.call? c).map Call.terms
  issues : ∀ c : Fin 32, t.calls[c].issue = s.calls[c].issue

theorem TermsKept.refl (s : State) : TermsKept s s := ⟨fun _ => rfl, fun _ => rfl⟩

theorem TermsKept.trans {s t u : State} (h : TermsKept s t) (k : TermsKept t u) : TermsKept s u :=
  ⟨fun c => (k.terms c).trans (h.terms c), fun c => (k.issues c).trans (h.issues c)⟩

theorem TermsKept.of_changes {ps : List Part} {s t : State} (h : ChangesOnly ps s t)
    (out : ps.contains .calls = false := by rfl) : TermsKept s t := by
  obtain ⟨calls, -⟩ : t.calls = s.calls ∧ t.callList = s.callList := h.same .calls (by simpa using out)
  exact ⟨fun c => by rw [h.call? out], fun c => by rw [calls]⟩

/-- The operations on a zone change no terms of a call (R132). -/
theorem termsKept_closed (z : Fin 8) (s : State) : ZoneClosed z (TermsKept s) where
  mark k h := h.trans (.of_changes (State.mark_changes ..))
  call {t} c x y found terms _ h := by
    refine h.trans ⟨fun b => ?_, fun b => ?_⟩
    · by_cases own : b = c
      · subst own
        have new : State.call? { t with calls := put t.calls b { t.calls[b] with call := some y } } b = some y :=
          congrArg CallSlot.call (put_same t.calls b { t.calls[b] with call := some y })
        rw [new, found]
        exact congrArg some terms
      · have old : State.call? { t with calls := put t.calls c { t.calls[c] with call := some y } } b = t.call? b :=
          congrArg CallSlot.call (put_other t.calls c b { t.calls[c] with call := some y } own)
        rw [old]
    · by_cases own : b = c
      · subst own
        exact (congrArg CallSlot.issue (put_same t.calls b { t.calls[b] with call := some y }) : _)
      · exact (congrArg CallSlot.issue (put_other t.calls c b { t.calls[c] with call := some y } own) : _)
  czone x h := h.trans ⟨fun _ => rfl, fun _ => rfl⟩
  chime on h := h.trans (.of_changes (State.demand_changes ..))
  flicker code h := h.trans (.of_changes (State.flickerRequest_changes ..))

/-- The other zones are as they were after what leaves them aside. -/
theorem onlyAt_of_aside {z : Fin 8} {s t : State} (h : ∀ j : Fin 8, j ≠ z → Aside j s t) : OnlyAt z s.czones t.czones :=
  fun j ne => (h j ne).czone

end Sys2Proof.Machine
end

section
/-!
PROOFS. What the arbiter of a call zone does (R140, R141).
-/

namespace Sys2Proof.Machine
-- One proof after another: the whole text stays within the memory of one compile.
set_option Elab.async false

/-! ## Deliveries and who is due -/

theorem State.delivery?_of_calls {s t : State} (h : t.calls = s.calls) (c : Fin 32) (z : Fin 8) :
    t.delivery? c z = s.delivery? c z := by
  simp only [State.delivery?, State.call?, h]

theorem ChangesOnly.delivery? {ps : List Part} {s t : State} (h : ChangesOnly ps s t)
    (out : ps.contains .calls = false := by rfl) (c : Fin 32) (z : Fin 8) : t.delivery? c z = s.delivery? c z := by
  simp only [State.delivery?, h.call? out c]

theorem State.editDelivery_delivery? (s : State) (c j : Fin 32) (z w : Fin 8) {f : Delivery → Delivery}
    (zone : ∀ d, (f d).zone = d.zone) : (s.editDelivery c z f).delivery? j w =
      if j = c ∧ w = z then (s.delivery? c z).map f else s.delivery? j w := by
  unfold State.delivery?
  rw [State.editDelivery_call?]
  by_cases own : j = c
  · subst own
    rw [if_pos rfl]
    cases s.call? j with
    | none => simp
    | some x =>
      simp only [Option.map_some, Option.bind_some, Call.editDelivery_delivery? _ _ _ _ zone, true_and]
      split
      next at_ => rw [at_]
      next => rfl
  · rw [if_neg own, if_neg fun h => own h.1]

theorem Call.finish_delivery? (x : Call) (z : Fin 8) : x.finish.delivery? z = x.delivery? z := by
  simp only [Call.delivery?, Call.finish_deliveries]

theorem State.finishCall_delivery? (s : State) (c j : Fin 32) (z : Fin 8) :
    (s.finishCall c).delivery? j z = s.delivery? j z := by
  unfold State.delivery?
  rw [State.finishCall_call?]
  split
  next own =>
    rw [own]
    cases s.call? c with
    | none => rfl
    | some x => exact x.finish_delivery? z
  next => rfl

theorem State.endDelivery_delivery? (s : State) (c j : Fin 32) (z w : Fin 8) (st : DeliveryState) :
    (s.endDelivery c z st).delivery? j w =
      if j = c ∧ w = z then (s.delivery? c z).map (Delivery.endedAs st) else s.delivery? j w :=
  (State.finishCall_delivery? ..).trans (State.editDelivery_delivery? _ _ _ _ _ fun _ => rfl)

/-- Who is due depends on the delivery and the clock (R140). -/
theorem State.isDue_congr {s t : State} {z : Fin 8} {c : Fin 32} (delivery : t.delivery? c z = s.delivery? c z)
    (now : t.now = s.now) : t.isDue z c = s.isDue z c := by
  simp only [State.isDue, delivery, now]

/-! ## The states from which the arbiter does the same -/


section

variable {z : Fin 8} {v w s t : State}

theorem call?_of_sight (same : v.sight z = w.sight z) {c : Fin 32} {x : Call} (h : w.call? c = some x) :
    ∃ y, v.call? c = some y ∧ y.sight z = x.sight z := by
  have calls : (v.call? c).map (Call.sight z) = (w.call? c).map (Call.sight z) :=
    congrFun (congrArg ZoneSight.calls same) c
  rw [h] at calls
  exact Option.map_eq_some_iff.1 calls

theorem delivery?_of_sight (same : v.sight z = w.sight z) (c : Fin 32) : v.delivery? c z = w.delivery? c z := by
  have calls : (v.call? c).map (Call.sight z) = (w.call? c).map (Call.sight z) :=
    congrFun (congrArg ZoneSight.calls same) c
  have read (o : Option Call) : o.bind (·.delivery? z) = (o.map (Call.sight z)).bind (·.delivery) := by
    cases o <;> rfl
  unfold State.delivery?
  rw [read, calls, ← read]

theorem isDue_of_sight (same : v.sight z = w.sight z) (c : Fin 32) : v.isDue z c = w.isDue z c :=
  State.isDue_congr (delivery?_of_sight same c) (congrArg ZoneSight.now same)

theorem BurstStarts.of_sight {c : Fin 32} {m : BurstMode} {code : Nat} (same : v.sight z = w.sight z)
    (h : BurstStarts z c m code v t) : BurstStarts z c m code w t := by
  have now : v.now = w.now := congrArg ZoneSight.now same
  have settings : v.settings = w.settings := congrArg ZoneSight.settings same
  have czone : v.czones[z] = w.czones[z] := congrArg ZoneSight.czone same
  unfold BurstStarts at h ⊢
  rw [now, settings, czone, delivery?_of_sight same] at h
  obtain ⟨sounding, queue, mode, start, on, gap, terms, rest⟩ := h
  refine ⟨sounding, queue, mode, start, on, gap, fun x found => ?_, rest⟩
  obtain ⟨y, found', sight⟩ := call?_of_sight same found
  have strokes : y.strokes = x.strokes := congrArg (fun v : CallSight => v.terms.strokes) sight
  rw [← strokes]
  exact terms y found'

/-- The arbiter does the same from states it reads alike. -/
theorem ArbiterLooks.of_sight (same : v.sight z = w.sight z) (h : ArbiterLooks z v t) : ArbiterLooks z w t := by
  have settings : v.settings = w.settings := congrArg ZoneSight.settings same
  have czone : v.czones[z] = w.czones[z] := congrArg ZoneSight.czone same
  have lit : v.litNow z = w.litNow z := congrArg ZoneSight.lit same
  have chime : v.circuits[chimeOf z].condition = w.circuits[chimeOf z].condition := congrArg ZoneSight.chime same
  have due : v.isDue z = w.isDue z := funext (isDue_of_sight same)
  unfold ArbiterLooks at h ⊢
  rw [settings, czone, due, lit, chime] at h
  obtain ⟨opens, still⟩ := h
  refine ⟨fun present free unbarred c first x found => ?_, still⟩
  obtain ⟨y, found', sight⟩ := call?_of_sight same found
  obtain ⟨starts, silent⟩ := opens present free unbarred c first y found'
  have flicker : y.flicker = x.flicker := congrArg (fun v : CallSight => v.terms.flicker) sight
  rw [flicker] at starts
  exact ⟨fun m code mode => (starts m code mode).of_sight same, silent⟩

/-- What leaves the zone aside leaves what its arbiter has done. -/
theorem ArbiterLooks.aside (h : ArbiterLooks z w s) (k : Aside z s t) : ArbiterLooks z w t := by
  have deliveries := delivery?_of_sight k.sight
  unfold ArbiterLooks BurstStarts at h ⊢
  simp only [k.czone, k.demand, k.flicker, deliveries]
  exact h

end

/-! ## A burst starts (R141, R142) -/

theorem State.startBurst_delivery? (s : State) (z w : Fin 8) (c j : Fin 32) (m : BurstMode) (code : Nat) :
    (s.startBurst z c m code).delivery? j w =
      if j = c ∧ w = z then (s.delivery? c z).map Delivery.begun else s.delivery? j w := by
  rw [← State.editDelivery_delivery? _ _ _ _ _ (f := Delivery.begun) fun _ => rfl]
  simp only [State.delivery?, State.startBurst_call?, State.editDelivery_call?]

/-- The zone in which a burst has begun, before its signals (R142). -/
def State.burstBegun (s : State) (z : Fin 8) (c : Fin 32) (m : BurstMode) : CallZone :=
  s.czones[z].begun c m s.now (((s.call? c).map (·.strokes)).getD 0) s.settings.czones[z].strokeOn
    s.settings.czones[z].strokeGap

/-- A burst's delivery sounds and its zone is written, its signals still off (R142). -/
def State.placeBurst (z : Fin 8) (c : Fin 32) (m : BurstMode) (s : State) : State :=
  (s.editDelivery c z Delivery.begun).writeCZone z (s.burstBegun z c m)

theorem State.placeBurst_now (s : State) (z : Fin 8) (c : Fin 32) (m : BurstMode) : (s.placeBurst z c m).now = s.now :=
  ((s.editDelivery_changes c z _).andThen (rs := [.calls, .czones, .stations]) (State.writeCZone_changes ..)).same .clock
    (by decide)

theorem State.startBurst_eq (s : State) (z : Fin 8) (c : Fin 32) (m : BurstMode) (code : Nat) :
    s.startBurst z c m code = match m with
      | .chime => (s.placeBurst z c m).beginStroke z
      | .chimeFlicker => ((s.placeBurst z c m).handFlicker z code).beginStroke z
      | .flicker => (s.placeBurst z c m).handFlicker z code := by
  have edited : (s.editDelivery c z Delivery.begun).czones = s.czones := (State.editDelivery_changes ..).same .czones (by decide)
  unfold State.placeBurst State.burstBegun
  rw [← edited]
  cases m <;> rfl

theorem State.placeBurst_czone (s : State) (z : Fin 8) (c : Fin 32) (m : BurstMode) :
    (s.placeBurst z c m).czones[z] = s.burstBegun z c m := (State.writeCZone_czone ..).trans (if_pos rfl)

theorem State.beginStroke_czone (s : State) (z : Fin 8) : (s.beginStroke z).czones[z] = s.czones[z].stroke s.now :=
  congrArg ZoneView.czone (Seen.refl s z).beginStroke.here

theorem State.beginStroke_demand (s : State) (z : Fin 8) : (s.beginStroke z).circuits[chimeOf z].demand = true :=
  congrArg ZoneView.demand (Seen.refl s z).beginStroke.here

theorem State.handFlicker_czone (s : State) (z : Fin 8) (code : Nat) :
    (s.handFlicker z code).czones[z] = { s.czones[z] with flickerCode := code } := by
  have written : (s.handFlicker z code).czones = put s.czones z { s.czones[z] with flickerCode := code } :=
    ((State.flickerRequest_changes ..).same .czones (by decide)).trans (State.writeCZone_czones ..)
  rw [written, put_same]

theorem State.handFlicker_flicker (s : State) (z : Fin 8) (code : Nat) :
    (s.handFlicker z code).flickers[z] = { code := code, start := s.now, dip := isDip code 0 } := by
  unfold State.handFlicker
  dsimp only
  rw [State.flickerRequest_flickers, put_same, State.writeCZone_now]

theorem State.handFlicker_now (s : State) (z : Fin 8) (code : Nat) : (s.handFlicker z code).now = s.now :=
  (State.handFlicker_changes ..).same .clock (by decide)

theorem State.beginStroke_flickers (s : State) (z : Fin 8) : (s.beginStroke z).flickers = s.flickers :=
  (State.beginStroke_changes ..).same .flickers (by decide)

theorem State.startBurst_chime (s : State) (z : Fin 8) (c : Fin 32) (code : Nat) :
    (s.startBurst z c .chime code).czones[z] = (s.burstBegun z c .chime).stroke s.now ∧
      (s.startBurst z c .chime code).circuits[chimeOf z].demand = true := by
  have whole : s.startBurst z c .chime code = (s.placeBurst z c .chime).beginStroke z := s.startBurst_eq z c .chime code
  rw [whole, State.beginStroke_czone, State.placeBurst_czone, State.placeBurst_now]
  exact ⟨rfl, State.beginStroke_demand ..⟩

theorem State.startBurst_chimeFlicker (s : State) (z : Fin 8) (c : Fin 32) (code : Nat) :
    (s.startBurst z c .chimeFlicker code).czones[z] =
        ({ s.burstBegun z c .chimeFlicker with flickerCode := code } : CallZone).stroke s.now ∧
      (s.startBurst z c .chimeFlicker code).circuits[chimeOf z].demand = true ∧
      (s.startBurst z c .chimeFlicker code).flickers[z] = { code := code, start := s.now, dip := isDip code 0 } := by
  have whole : s.startBurst z c .chimeFlicker code = ((s.placeBurst z c .chimeFlicker).handFlicker z code).beginStroke z :=
    s.startBurst_eq z c .chimeFlicker code
  rw [whole, State.beginStroke_czone, State.beginStroke_flickers, State.handFlicker_flicker, State.handFlicker_czone,
    State.handFlicker_now, State.placeBurst_czone, State.placeBurst_now]
  exact ⟨rfl, State.beginStroke_demand .., rfl⟩

theorem State.startBurst_flicker (s : State) (z : Fin 8) (c : Fin 32) (code : Nat) :
    (s.startBurst z c .flicker code).czones[z] = { s.burstBegun z c .flicker with flickerCode := code } ∧
      (s.startBurst z c .flicker code).flickers[z] = { code := code, start := s.now, dip := isDip code 0 } := by
  have whole : s.startBurst z c .flicker code = (s.placeBurst z c .flicker).handFlicker z code :=
    s.startBurst_eq z c .flicker code
  rw [whole, State.handFlicker_flicker, State.handFlicker_czone, State.placeBurst_czone, State.placeBurst_now]
  exact ⟨rfl, rfl⟩

theorem State.startBurst_starts (s : State) (z : Fin 8) (c : Fin 32) (m : BurstMode) (code : Nat) :
    BurstStarts z c m code s (s.startBurst z c m code) := by
  have delivery := s.startBurst_delivery? z z c c m code
  rw [if_pos ⟨rfl, rfl⟩] at delivery
  have strokes (x : Call) (found : s.call? c = some x) : ((s.call? c).map (·.strokes)).getD 0 = x.strokes := by
    rw [found]; rfl
  unfold BurstStarts
  cases m with
  | chime =>
    obtain ⟨zone, demand⟩ := s.startBurst_chime z c code
    rw [zone]
    exact ⟨rfl, rfl, rfl, rfl, rfl, rfl, fun x found => by rw [← strokes x found]; exact ⟨rfl, rfl⟩, rfl, rfl, rfl,
      fun _ => demand, fun ne => absurd rfl ne, delivery⟩
  | chimeFlicker =>
    obtain ⟨zone, demand, signals⟩ := s.startBurst_chimeFlicker z c code
    rw [zone, signals]
    exact ⟨rfl, rfl, rfl, rfl, rfl, rfl, fun x found => by rw [← strokes x found]; exact ⟨rfl, rfl⟩, rfl, rfl, rfl,
      fun _ => demand, fun _ => ⟨rfl, rfl, rfl⟩, delivery⟩
  | flicker =>
    obtain ⟨zone, signals⟩ := s.startBurst_flicker z c code
    rw [zone, signals]
    exact ⟨rfl, rfl, rfl, rfl, rfl, rfl, fun x found => by rw [← strokes x found]; exact ⟨rfl, rfl⟩, rfl, rfl, rfl,
      fun ne => absurd rfl ne, fun _ => ⟨rfl, rfl, rfl⟩, delivery⟩

end Sys2Proof.Machine
end

section
/-!
PROOFS. What the arbiter of a call zone does, over the deliveries it passes (R140, R141).
-/

namespace Sys2Proof.Machine
-- One proof after another: the whole text stays within the memory of one compile.
set_option Elab.async false

/-- The arbiter of the zone may look: present, free, neither suppressed nor barred (R140). -/
structure State.Looking (s : State) (z : Fin 8) : Prop where
  present : s.settings.czones[z].present = true
  free : s.czones[z].sounding = none
  unsuppressed : s.czones[z].suppressed = false
  unbarred : s.czones[z].barred = false

section

variable {s : State} {z : Fin 8}

theorem State.lookFor_shut (h : ¬ s.Looking z) (fuel : Nat) : s.lookFor z fuel = s := by
  cases fuel with
  | zero => rfl
  | succ n =>
    unfold State.lookFor
    dsimp only
    refine if_pos ?_
    by_contra shut
    simp only [Bool.or_eq_true, Bool.not_eq_true', not_or, Bool.not_eq_true, Option.isSome_eq_false_iff,
      Option.isNone_iff_eq_none, Bool.not_eq_false] at shut
    obtain ⟨⟨⟨present, free⟩, suppressed⟩, barred⟩ := shut
    exact h ⟨present, free, suppressed, barred⟩

theorem State.lookFor_looking (h : s.Looking z) (n : Nat) : s.lookFor z (n + 1) =
    match s.czones[z].queue.find? (s.isDue z) with
    | none => s
    | some c =>
        match burstMode (s.chimeSound z) (s.litNow z) (((s.call? c).map (·.flicker)).getD 0) with
        | some (mode, code) => s.startBurst z c mode code
        | none => ((s.leaveQueue z c).endDelivery c z .undelivered).lookFor z n := by
  obtain ⟨present, free, suppressed, barred⟩ := h
  rw [State.lookFor]
  rw [present, free, suppressed, barred]
  exact if_neg Bool.false_ne_true

theorem State.lookFor_idle (idle : s.czones[z].queue.find? (s.isDue z) = none) (fuel : Nat) : s.lookFor z fuel = s := by
  by_cases h : s.Looking z
  · cases fuel with
    | zero => rfl
    | succ n => rw [State.lookFor_looking h, idle]
  · exact State.lookFor_shut h fuel

theorem burstMode_silent (code : Nat) : burstMode false false code = none := rfl

theorem burstMode_some {chime lit : Bool} (h : chime = true ∨ lit = true) (code : Nat) :
    ∃ m n, burstMode chime lit code = some (m, n) := by
  cases chime with
  | true =>
    cases lit with
    | true =>
      by_cases dark : code = 0
      · exact ⟨.chime, 0, if_pos dark⟩
      · exact ⟨.chimeFlicker, code, if_neg dark⟩
    | false => exact ⟨.chime, 0, rfl⟩
  | false =>
    cases lit with
    | true => exact ⟨.flicker, _, rfl⟩
    | false => exact absurd h (by decide)

/-! ## In a zone that cannot sound at all (R141) -/

/-- A delivery that is passed over leaves the queue UNDELIVERED (R141). -/
def State.passOver (z : Fin 8) (c : Fin 32) (s : State) : State := (s.leaveQueue z c).endDelivery c z .undelivered

theorem State.passOver_czone (s : State) (z : Fin 8) (c : Fin 32) :
    (s.passOver z c).czones[z] = { s.czones[z] with queue := s.czones[z].queue.erase c } := by
  have kept : (s.passOver z c).czones = (s.leaveQueue z c).czones := (State.endDelivery_changes ..).same .czones (by decide)
  rw [kept]
  exact (State.writeCZone_czone ..).trans (if_pos rfl)

theorem State.passOver_delivery? (s : State) (z : Fin 8) (c b : Fin 32) : (s.passOver z c).delivery? b z =
    if b = c then (s.delivery? c z).map (Delivery.endedAs .undelivered) else s.delivery? b z := by
  have kept (j : Fin 32) : (s.leaveQueue z c).delivery? j z = s.delivery? j z :=
    (State.writeCZone_changes ..).delivery? rfl j z
  refine (State.endDelivery_delivery? ..).trans ?_
  rw [kept, kept]
  simp only [and_true]

theorem State.passOver_changes (s : State) (z : Fin 8) (c : Fin 32) :
    ChangesOnly [.calls, .czones, .stations] s (s.passOver z c) :=
  (State.writeCZone_changes ..).andThen (State.endDelivery_changes ..)

theorem State.passOver_isDue (s : State) (z : Fin 8) (c b : Fin 32) :
    (s.passOver z c).isDue z b = (s.isDue z b && b != c) := by
  have now : (s.passOver z c).now = s.now := (s.passOver_changes z c).same .clock (by decide)
  by_cases own : b = c
  · subst own
    have ended := s.passOver_delivery? z b b
    rw [if_pos rfl] at ended
    rw [bne_self_eq_false, Bool.and_false]
    unfold State.isDue
    rw [ended]
    cases s.delivery? b z <;> rfl
  · have other := s.passOver_delivery? z c b
    rw [if_neg own] at other
    rw [State.isDue_congr other now, bne_iff_ne.2 own, Bool.and_true]

/-- The chime is not SOUND and the zone is not lit. -/
def State.silentZone (s : State) (z : Fin 8) : Prop := s.chimeSound z = false ∧ s.litNow z = false

theorem State.passOver_silentZone (c : Fin 32) (h : s.silentZone z) : (s.passOver z c).silentZone z := by
  have frame := s.passOver_changes z c
  refine ⟨?_, ?_⟩
  · unfold State.chimeSound
    rw [(frame.same .circuits (by decide) : _ = _)]
    exact h.1
  · rw [State.litNow_congr (frame.same .settings (by decide)) fun g => by rw [frame.same .groups (by decide)]]
    exact h.2

theorem State.passOver_looking (c : Fin 32) (h : s.Looking z) : (s.passOver z c).Looking z := by
  have settings : (s.passOver z c).settings = s.settings := (s.passOver_changes z c).same .settings (by decide)
  obtain ⟨present, free, suppressed, barred⟩ := h
  constructor
  · rw [settings]; exact present
  · rw [State.passOver_czone]; exact free
  · rw [State.passOver_czone]; exact suppressed
  · rw [State.passOver_czone]; exact barred

/-- What the arbiter leaves of a zone that cannot sound at all: every due delivery has left the queue UNDELIVERED. -/
structure PassedOver (z : Fin 8) (s t : State) : Prop where
  frame : ChangesOnly [.calls, .czones, .stations] s t
  czone : t.czones[z] = { s.czones[z] with queue := t.czones[z].queue }
  queue : s.czones[z].queue.Nodup → t.czones[z].queue = s.czones[z].queue.filter fun b => !s.isDue z b
  due : ∀ b ∈ s.czones[z].queue, s.isDue z b = true → (t.delivery? b z).map (·.state) = some .undelivered
  others : ∀ b, s.isDue z b = false → t.delivery? b z = s.delivery? b z

theorem PassedOver.free {t : State} (h : PassedOver z s t) (free : s.czones[z].sounding = none) :
    t.czones[z].sounding = none := by
  rw [h.czone]; exact free

theorem State.delivery?_of_isDue {b : Fin 32} (h : s.isDue z b = true) :
    ∃ d, s.delivery? b z = some d ∧ d.state = .waiting ∧ d.notBefore ≤ s.now := by
  unfold State.isDue at h
  cases found : s.delivery? b z with
  | none => rw [found] at h; cases h
  | some d =>
    rw [found] at h
    simpa using h

theorem State.lookFor_passesOver (n : Nat) (s : State) (long : s.czones[z].queue.length < n) (h : s.Looking z)
    (silent : s.silentZone z) : PassedOver z s (s.lookFor z n) := by
  induction n generalizing s with
  | zero => exact absurd long (Nat.not_lt_zero _)
  | succ n ih =>
    cases first : s.czones[z].queue.find? (s.isDue z) with
    | none =>
      have idle := List.find?_eq_none.1 first
      rw [State.lookFor_idle first]
      refine ⟨ChangesOnly.refl _ s, rfl, fun _ => ?_, fun b mem due => absurd due (idle b mem), fun _ _ => rfl⟩
      exact (List.filter_eq_self.2 fun b mem => by simpa using idle b mem).symm
    | some c =>
      have due : s.isDue z c = true := List.find?_some first
      have listed : c ∈ s.czones[z].queue := List.mem_of_find?_eq_some first
      have passes : s.lookFor z (n + 1) = (s.passOver z c).lookFor z n := by
        rw [State.lookFor_looking h, first, silent.1, silent.2]
        rfl
      have queue : (s.passOver z c).czones[z].queue = s.czones[z].queue.erase c := by rw [State.passOver_czone]
      have shorter : (s.passOver z c).czones[z].queue.length < n := by
        have some_ := List.length_pos_of_mem listed
        rw [queue, List.length_erase_of_mem listed]
        omega
      have zone := s.passOver_czone z c
      have frame := s.passOver_changes z c
      obtain ⟨frame', zone', rest, ended, others⟩ := ih (s.passOver z c) shorter (State.passOver_looking c h)
        (State.passOver_silentZone c silent)
      rw [passes]
      generalize (s.passOver z c).lookFor z n = t at *
      refine ⟨frame.andThen frame', by rw [zone', zone], fun nodup => ?_, fun b mem due' => ?_, fun b undue => ?_⟩
      · rw [rest (by rw [queue]; exact nodup.erase c), queue, nodup.erase_eq_filter, List.filter_filter]
        refine List.filter_congr fun b _ => ?_
        rw [State.passOver_isDue]
        cases own : b != c with
        | true => simp
        | false =>
          have own : b = c := by simpa using own
          rw [own, due]
          rfl
      · by_cases own : b = c
        · subst own
          obtain ⟨d, found, -⟩ := State.delivery?_of_isDue due
          rw [others b (by rw [State.passOver_isDue]; simp), State.passOver_delivery?, if_pos rfl, found]
          rfl
        · refine ended b (by rw [queue]; exact (List.mem_erase_of_ne own).2 mem) ?_
          rw [State.passOver_isDue, due', bne_iff_ne.2 own]
          rfl
      · have ne : b ≠ c := by
          rintro rfl
          rw [due] at undue
          cases undue
        rw [others b (by rw [State.passOver_isDue, undue]; rfl), State.passOver_delivery?, if_neg ne]

/-! ## What the arbiter does (R140, R141) -/

/-- What becomes of a zone whose arbiter looks, with the delivery it starts. -/
theorem State.arbitrate_starts (h : s.Looking z) {c : Fin 32} {m : BurstMode} {code : Nat}
    (first : s.czones[z].queue.find? (s.isDue z) = some c)
    (mode : burstMode (s.chimeSound z) (s.litNow z) (((s.call? c).map (·.flicker)).getD 0) = some (m, code)) :
    s.arbitrate z = s.startBurst z c m code := by
  unfold State.arbitrate
  rw [State.lookFor_looking h, first]
  dsimp only
  rw [mode]

theorem State.arbitrate_looks (free : s.czones[z].sounding = none) : ArbiterLooks z s (s.arbitrate z) := by
  refine ⟨fun present unsuppressed unbarred c first x found => ?_, fun shut => ?_⟩
  · have looking : s.Looking z := ⟨present, free, unsuppressed, unbarred⟩
    have flicker : ((s.call? c).map (·.flicker)).getD 0 = x.flicker := by rw [found]; rfl
    refine ⟨fun m code mode => ?_, fun unsound dark => ?_⟩
    · rw [← flicker] at mode
      rw [State.arbitrate_starts looking first mode]
      exact State.startBurst_starts ..
    · have silent : s.silentZone z := ⟨by unfold State.chimeSound; simpa using unsound, dark⟩
      have passed := State.lookFor_passesOver (z := z) _ s (Nat.lt_succ_self _) looking silent
      exact ⟨passed.free free, passed.queue, passed.due⟩
  · have still : s.arbitrate z = s := by
      rcases shut with absent | suppressed | barred | idle
      · exact State.lookFor_shut (fun h => by rw [h.present] at absent; cases absent) _
      · exact State.lookFor_shut (fun h => by rw [h.unsuppressed] at suppressed; cases suppressed) _
      · exact State.lookFor_shut (fun h => by rw [h.unbarred] at barred; cases barred) _
      · exact State.lookFor_idle idle _
    rw [still]

/-- The three things an arbiter that looks can do: nothing, a burst, or to pass over all that is due. -/
theorem State.arbitrate_cases (s : State) (z : Fin 8) : s.arbitrate z = s ∨
    (∃ c m code, s.Looking z ∧ s.czones[z].queue.find? (s.isDue z) = some c ∧ s.arbitrate z = s.startBurst z c m code) ∨
    (s.Looking z ∧ PassedOver z s (s.arbitrate z)) := by
  by_cases looking : s.Looking z
  · cases first : s.czones[z].queue.find? (s.isDue z) with
    | none => exact .inl (State.lookFor_idle first _)
    | some c =>
      by_cases sounds : s.chimeSound z = true ∨ s.litNow z = true
      · obtain ⟨m, code, mode⟩ := burstMode_some sounds (((s.call? c).map (·.flicker)).getD 0)
        exact .inr (.inl ⟨c, m, code, looking, rfl, State.arbitrate_starts looking first mode⟩)
      · simp only [not_or, Bool.not_eq_true] at sounds
        exact .inr (.inr ⟨looking, State.lookFor_passesOver _ s (Nat.lt_succ_self _) looking sounds⟩)
  · exact .inl (State.lookFor_shut looking _)

theorem State.startBurst_sounding (s : State) (z : Fin 8) (c : Fin 32) (m : BurstMode) (code : Nat) :
    (s.startBurst z c m code).czones[z].sounding = some c := by
  obtain ⟨sounding, -⟩ := s.startBurst_starts z c m code
  exact sounding

/-- The arbiter leaves the calls whose deliveries it does not find due. -/
theorem State.lookFor_undue {b : Fin 32} (n : Nat) (s : State) (undue : s.isDue z b = false) :
    (s.lookFor z n).call? b = s.call? b := by
  induction n generalizing s with
  | zero => rfl
  | succ n ih =>
    by_cases h : s.Looking z
    · rw [State.lookFor_looking h]
      cases first : s.czones[z].queue.find? (s.isDue z) with
      | none => rfl
      | some c =>
        have ne : b ≠ c := by
          rintro rfl
          rw [List.find?_some first] at undue
          cases undue
        dsimp only
        split
        · rw [State.startBurst_call?, if_neg ne]
        · refine (ih (s.passOver z c) (by rw [State.passOver_isDue, undue]; rfl)).trans ?_
          refine (State.endDelivery_call? ..).trans ?_
          rw [if_neg ne]
          exact State.writeCZone_call? ..
    · rw [State.lookFor_shut h]

end

end Sys2Proof.Machine
end

section
/-!
PROOFS. A burst that ends and is counted (R143, R152).
-/

namespace Sys2Proof.Machine
-- One proof after another: the whole text stays within the memory of one compile.
set_option Elab.async false

/-! ## One delivery of a call -/

/-- A call for each zone at most once: its delivery there is the only one an edit in the zone reaches. -/
theorem Call.editDelivery_eq {x : Call} {z : Fin 8} {d : Delivery} (once : x.targets.Nodup)
    (found : x.delivery? z = some d) (f : Delivery → Delivery) : x.editDelivery z f = x.editDelivery z fun _ => f d := by
  have alone (e : Delivery) (mem : e ∈ x.deliveries) (at_ : e.zone = z) : e = d := by
    have here : d.zone = z := by simpa using List.find?_some found
    have listed : d ∈ x.deliveries := List.mem_of_find?_eq_some found
    exact List.inj_on_of_nodup_map once mem listed (at_.trans here.symm)
  unfold Call.editDelivery
  refine congrArg (fun l => { x with deliveries := l }) (List.map_congr_left fun e mem => ?_)
  split
  next at_ => rw [alone e mem at_]
  next => rfl

theorem State.withDelivery_changes (s : State) (c : Fin 32) (z : Fin 8) (e : Delivery) :
    ChangesOnly [.calls] s (s.withDelivery c z e) := by
  unfold State.withDelivery
  split
  · exact .refl _ _
  · constructor; intro p hp; cases p <;> simp_all [Part.same]

theorem State.withDelivery_call? {s : State} {c : Fin 32} {x : Call} (found : s.call? c = some x) (z : Fin 8)
    (e : Delivery) (j : Fin 32) :
    (s.withDelivery c z e).call? j = if j = c then some (x.editDelivery z fun _ => e) else s.call? j := by
  unfold State.withDelivery
  rw [found]
  dsimp only
  split
  next own =>
    subst own
    exact congrArg CallSlot.call (put_same s.calls j ⟨s.calls[j].issue, some (x.editDelivery z fun _ => e)⟩)
  next other =>
    exact congrArg CallSlot.call (put_other s.calls c j ⟨s.calls[c].issue, some (x.editDelivery z fun _ => e)⟩ other)

theorem State.withDelivery_callList (s : State) (c : Fin 32) (z : Fin 8) (e : Delivery) :
    (s.withDelivery c z e).callList = s.callList := by
  unfold State.withDelivery
  split
  · rfl
  · rfl

/-- The place in a queue is a matter of the calls and their order (R137). -/
theorem State.queuePlace_congr {s t : State} (calls : ∀ c, t.call? c = s.call? c) (order : t.callList = s.callList)
    (z : Fin 8) (c : Fin 32) (q : List (Fin 32)) : t.queuePlace z c q = s.queuePlace z c q := by
  have ahead (a b : Fin 32) : t.ahead z a b = s.ahead z a b := by
    unfold State.ahead State.delivery? State.callAge
    rw [calls, calls, order]
  simp only [State.queuePlace, ahead]

/-! ## What the arbiter reads of a zone that is written -/

theorem State.writeCZone_sight (s : State) (z : Fin 8) (x : CallZone) :
    (s.writeCZone z x).sight z = { s.sight z with czone := x } := by
  have frame := s.writeCZone_changes z x
  have lit : (s.writeCZone z x).litNow z = s.litNow z :=
    State.litNow_congr (frame.same .settings (by decide)) (fun g => by rw [frame.same .groups (by decide)]) z
  have czone : (s.writeCZone z x).czones[z] = x := (State.writeCZone_czone ..).trans (if_pos rfl)
  unfold State.sight
  rw [lit, czone, (frame.same .settings (by decide) : _ = _), (frame.same .clock (by decide) : _ = _),
    (frame.same .circuits (by decide) : _ = _)]
  simp only [frame.call? rfl]

/-- Deliveries apart, an edited table is read as it was: what is read of the calls is what is seen of them. -/
theorem State.sight_of_calls {s t : State} (frame : ChangesOnly [.calls, .stations] s t) (z : Fin 8) :
    t.sight z = { s.sight z with calls := fun c => (t.call? c).map (Call.sight z) } := by
  have lit : t.litNow z = s.litNow z :=
    State.litNow_congr (frame.same .settings (by decide)) (fun g => by rw [frame.same .groups (by decide)]) z
  unfold State.sight
  rw [lit, (frame.same .settings (by decide) : _ = _), (frame.same .clock (by decide) : _ = _),
    (frame.same .circuits (by decide) : _ = _), (frame.same .czones (by decide) : _ = _)]

/-- That a call is FINISHED is nothing to an arbiter. -/
theorem State.finishCall_sight (s : State) (c : Fin 32) (z : Fin 8) : (s.finishCall c).sight z = s.sight z := by
  rw [State.sight_of_calls (State.finishCall_changes s c)]
  have seen (x : Call) : x.finish.sight z = x.sight z := by
    unfold Call.finish
    split <;> rfl
  have calls : (fun j => ((s.finishCall c).call? j).map (Call.sight z)) = fun j => (s.call? j).map (Call.sight z) := by
    funext j
    rw [State.finishCall_call?]
    split
    next own =>
      rw [own]
      cases s.call? c with
      | none => rfl
      | some x => exact congrArg some (seen x)
    next => rfl
  rw [calls]
  rfl

/-! ## What a stopped burst leaves -/

theorem State.stopBurst_frame (s : State) (z : Fin 8) :
    ChangesOnly [.czones, .circuits, .groups, .flickers, .stations] s (s.stopBurst z) := by
  have ended : ChangesOnly [.czones, .circuits, .groups, .flickers, .stations] s (s.endSignals z) := by
    unfold State.endSignals
    dsimp only
    split
    · exact (State.demand_changes ..).mono (by decide)
    · exact (State.demand_changes ..).andThen (State.handFlicker_changes ..)
  exact ended.andThen (State.writeCZone_changes ..)

theorem State.stopBurst_demand (s : State) (z : Fin 8) : (s.stopBurst z).circuits[chimeOf z].demand = false := by
  have signals : (s.endSignals z).circuits[chimeOf z].demand = false := by
    have off := (s.demand_demand (chimeOf z) false .continuous).1
    unfold State.endSignals
    dsimp only
    generalize s.demand (chimeOf z) false .continuous = u at off
    have kept : (u.handFlicker z 0).circuits = u.circuits := (State.handFlicker_changes ..).same .circuits (by decide)
    split
    · exact off
    · exact (congrArg (fun v : Vector Circuit 16 => v[chimeOf z].demand) kept).trans off
  have kept : (s.stopBurst z).circuits = (s.endSignals z).circuits := State.writeCZone_circuits ..
  exact (congrArg (fun v : Vector Circuit 16 => v[chimeOf z].demand) kept).trans signals

theorem State.stopBurst_czone (s : State) (z : Fin 8) :
    (s.stopBurst z).czones[z] = CallZone.freed s.czones[z].queue s.czones[z] := by
  rw [State.stopBurst_czones]
  exact put_same ..

theorem State.stopBurst_sounded (s : State) (z : Fin 8) : Sounded s (s.stopBurst z) :=
  (Sounded.lights s).stopBurst z (.refl s)

/-- A burst that is stopped leaves what its zone's arbiter reads but for the zone (R143). -/
theorem State.stopBurst_sight (s : State) (z : Fin 8) :
    (s.stopBurst z).sight z = { s.sight z with czone := CallZone.freed s.czones[z].queue s.czones[z] } := by
  have frame := s.stopBurst_frame z
  have sounded := s.stopBurst_sounded z
  have lit : (s.stopBurst z).litNow z = s.litNow z :=
    State.litNow_congr (frame.same .settings (by decide)) sounded.causes z
  unfold State.sight
  rw [lit, sounded.conditions, State.stopBurst_czone, (frame.same .settings (by decide) : _ = _),
    (frame.same .clock (by decide) : _ = _)]
  simp only [State.call?, (State.stopBurst_calls s z).1]

/-! ## A burst that is over (R143) -/

/-- The burst has been stopped, its delivery changed by `f`, and the delivery waits again in its place or has ended;
the arbiter has not looked yet (R143). -/
def State.burstOver (z : Fin 8) (c : Fin 32) (f : Delivery → Delivery) (s : State) : State :=
  let s1 := (s.stopBurst z).editDelivery c z f
  if (s1.delivery? c z).map (·.state) = some .waiting then s1.joinQueue z c else s1.finishCall c

theorem State.countBurst_eq {s : State} {z : Fin 8} {c : Fin 32} (sounding : s.czones[z].sounding = some c) :
    s.countBurst z = (s.burstOver z c (Delivery.counted (s.czones[z].burstStart.getD s.now)
      (((s.call? c).map (·.interval)).getD 0) (s.czones[z].mode == some .flicker))).arbitrate z := by
  unfold State.countBurst State.burstOver
  dsimp only
  rw [sounding]

section

variable {s : State} {z : Fin 8} {c : Fin 32} {x : Call} {d e : Delivery} {f : Delivery → Delivery}

/-- The zone as the burst that is over leaves it, the arbiter aside. -/
def State.overZone (s : State) (z : Fin 8) (c : Fin 32) (e : Delivery) : CallZone :=
  CallZone.freed (if e.state = .waiting then (s.withDelivery c z e).queuePlace z c (s.czones[z].queue.erase c)
    else s.czones[z].queue) s.czones[z]

theorem State.stopped_call? (found : s.call? c = some x) (once : x.targets.Nodup) (at_ : x.delivery? z = some d)
    (changed : f d = e) (j : Fin 32) :
    ((s.stopBurst z).editDelivery c z f).call? j = (s.withDelivery c z e).call? j := by
  have kept (b : Fin 32) : (s.stopBurst z).call? b = s.call? b := State.call?_of_calls (State.stopBurst_calls s z).1 b
  rw [State.editDelivery_call?, kept, kept, found, State.withDelivery_call? found]
  refine if_congr Iff.rfl ?_ rfl
  rw [Option.map_some, Call.editDelivery_eq once at_, changed]

theorem State.stopped_delivery? (zone : ∀ d, (f d).zone = d.zone) (found : s.call? c = some x)
    (at_ : x.delivery? z = some d) : ((s.stopBurst z).editDelivery c z f).delivery? c z = some (f d) := by
  have kept : (s.stopBurst z).delivery? c z = some d := by
    rw [State.delivery?_of_calls (State.stopBurst_calls s z).1, State.delivery?, found]
    exact at_
  rw [State.editDelivery_delivery? _ _ _ _ _ zone, if_pos ⟨rfl, rfl⟩, kept]
  rfl

theorem State.burstOver_delivery? (zone : ∀ d, (f d).zone = d.zone) (found : s.call? c = some x)
    (at_ : x.delivery? z = some d) : (s.burstOver z c f).delivery? c z = some (f d) := by
  have delivery := State.stopped_delivery? zone found at_
  unfold State.burstOver
  dsimp only
  split
  · exact ((State.writeCZone_changes ..).delivery? rfl c z).trans delivery
  · exact (State.finishCall_delivery? ..).trans delivery

theorem State.burstOver_changes (s : State) (z : Fin 8) (c : Fin 32) (f : Delivery → Delivery) :
    ChangesOnly burstParts s (s.burstOver z c f) := by
  have edited : ChangesOnly burstParts s ((s.stopBurst z).editDelivery c z f) :=
    (s.stopBurst_frame z).andThen (State.editDelivery_changes ..)
  unfold State.burstOver
  dsimp only
  split
  · exact edited.andThen (State.writeCZone_changes ..)
  · exact edited.andThen (State.finishCall_changes ..)

/-- What the arbiter reads of a zone whose burst is over (R137, R143). -/
theorem State.burstOver_sight (zone : ∀ d, (f d).zone = d.zone) (found : s.call? c = some x) (once : x.targets.Nodup)
    (at_ : x.delivery? z = some d) (changed : f d = e) :
    (s.burstOver z c f).sight z = { (s.withDelivery c z e).sight z with czone := s.overZone z c e } := by
  have calls := State.stopped_call? (f := f) found once at_ changed
  have delivery := State.stopped_delivery? zone found at_
  have stopped := s.stopBurst_sight z
  have order : ((s.stopBurst z).editDelivery c z f).callList = (s.withDelivery c z e).callList := by
    rw [(State.editDelivery_callTable _ c z f zone).list, (State.stopBurst_calls s z).2, State.withDelivery_callList]
  have zones : ((s.stopBurst z).editDelivery c z f).czones[z] = CallZone.freed s.czones[z].queue s.czones[z] := by
    have kept : ((s.stopBurst z).editDelivery c z f).czones = (s.stopBurst z).czones :=
      (State.editDelivery_changes ..).same .czones (by decide)
    exact (congrArg (fun v : Vector CallZone 8 => v[z]) kept).trans (State.stopBurst_czone s z)
  have edited : ((s.stopBurst z).editDelivery c z f).sight z =
      { (s.withDelivery c z e).sight z with czone := CallZone.freed s.czones[z].queue s.czones[z] } := by
    rw [State.sight_of_calls (State.editDelivery_changes ..), stopped,
      State.sight_of_calls ((s.withDelivery_changes c z e).mono (by decide))]
    simp only [calls]
  unfold State.burstOver State.overZone
  dsimp only
  rw [delivery, changed, Option.map_some]
  generalize (s.stopBurst z).editDelivery c z f = u at *
  by_cases waits : e.state = .waiting
  · rw [if_pos (congrArg some waits), if_pos waits]
    unfold State.joinQueue
    rw [State.writeCZone_sight, edited, zones, State.queuePlace_congr calls order]
    rfl
  · rw [if_neg (fun h => waits (Option.some.inj h)), if_neg waits, State.finishCall_sight, edited]

/-- A call whose last delivery has ended is FINISHED (R152). -/
theorem State.burstOver_finishes (found : s.call? c = some x) (once : x.targets.Nodup) (zone : ∀ d, (f d).zone = d.zone)
    (at_ : x.delivery? z = some d) (changed : f d = e) (ended : e.unended = false) (fresh : x.finished = false)
    (others : x.deliveries.all (fun g => g.zone == z || !g.unended) = true) :
    ∃ y, (s.burstOver z c f).call? c = some y ∧ y.finished = true ∧ y.outcome = some (outcomeOf y.deliveries) := by
  have calls := State.stopped_call? (f := f) found once at_ changed c
  have delivery := State.stopped_delivery? zone found at_
  rw [State.withDelivery_call? found, if_pos rfl] at calls
  have finished : e.state ≠ .waiting := by
    intro waits
    simp [Delivery.unended, waits] at ended
  have closed : (x.editDelivery z fun _ => e).deliveries.any Delivery.unended = false := by
    refine List.any_eq_false.2 fun g mem => ?_
    obtain ⟨g0, mem0, rfl⟩ := List.mem_map.1 mem
    have old := List.all_eq_true.1 others g0 mem0
    by_cases here : g0.zone = z
    · rw [if_pos here, ended]; decide
    · rw [if_neg here]
      simpa [here] using old
  refine ⟨{ (x.editDelivery z fun _ => e) with
    finished := true, outcome := some (outcomeOf (x.editDelivery z fun _ => e).deliveries) }, ?_, rfl, rfl⟩
  unfold State.burstOver
  dsimp only
  rw [delivery, changed, Option.map_some, if_neg (fun h => finished (Option.some.inj h)), State.finishCall_call?, if_pos rfl, calls,
    Option.map_some]
  unfold Call.finish
  rw [closed, show (x.editDelivery z fun _ => e).finished = false from fresh]
  rfl

end

/-! ## A burst that is counted (R143) -/

theorem Delivery.counted_eq (d : Delivery) (start interval : Nat) (byFlicker : Bool) :
    d.counted start interval byFlicker = { d with
      burstsLeft := d.burstsLeft - 1, lastStart := some start, degraded := d.degraded || byFlicker
      state := if d.burstsLeft ≤ 1 then .done else .waiting
      notBefore := if d.burstsLeft ≤ 1 then d.notBefore else start + interval * 100 } := by
  have last : (d.burstsLeft - 1 = 0) = (d.burstsLeft ≤ 1) := propext (by omega)
  unfold Delivery.counted
  simp only [last]
  rfl

/-- What a zone free after its arbiter has looked has kept: it was free, and its signals are as they were. -/
theorem State.arbitrate_free {s : State} {z : Fin 8} (free : (s.arbitrate z).czones[z].sounding = none) :
    (s.arbitrate z).circuits = s.circuits ∧
      (s.arbitrate z).czones[z] = { s.czones[z] with queue := (s.arbitrate z).czones[z].queue } := by
  obtain still | ⟨c, m, code, -, -, starts⟩ | ⟨-, passed⟩ := s.arbitrate_cases z
  · rw [still]; exact ⟨rfl, rfl⟩
  · rw [starts, State.startBurst_sounding] at free
    cases free
  · exact ⟨passed.frame.same .circuits (by decide), passed.czone⟩

/-- What the arbiter neither starts nor passes over keeps its delivery. -/
theorem State.arbitrate_others {s : State} {z : Fin 8} {c : Fin 32} (other : (s.arbitrate z).czones[z].sounding ≠ some c)
    (kept : ¬(s.isDue z c = true ∧ (s.arbitrate z).czones[z].sounding = none)) :
    (s.arbitrate z).delivery? c z = s.delivery? c z := by
  obtain still | ⟨b, m, code, -, -, starts⟩ | ⟨looking, passed⟩ := s.arbitrate_cases z
  · rw [still]
  · rw [starts, State.startBurst_sounding] at other
    rw [starts, State.startBurst_delivery?, if_neg fun h => other (by rw [h.1])]
  · refine passed.others c ?_
    simpa using fun due => kept ⟨due, passed.free looking.free⟩

theorem State.burstOver_demand (s : State) (z : Fin 8) (c : Fin 32) (f : Delivery → Delivery) :
    (s.burstOver z c f).circuits[chimeOf z].demand = false := by
  have edited : ((s.stopBurst z).editDelivery c z f).circuits = (s.stopBurst z).circuits :=
    (State.editDelivery_changes ..).same .circuits (by decide)
  have kept : (s.burstOver z c f).circuits = (s.stopBurst z).circuits := by
    unfold State.burstOver
    dsimp only
    split
    · exact (State.writeCZone_circuits ..).trans edited
    · exact ((State.finishCall_changes ..).same .circuits (by decide)).trans edited
  exact (congrArg (fun v : Vector Circuit 16 => v[chimeOf z].demand) kept).trans (s.stopBurst_demand z)

theorem State.sight_put (s : State) (v : Vector CallZone 8) (z : Fin 8) (x : CallZone) :
    ({ s with czones := put v z x } : State).sight z = { s.sight z with czone := x } := by
  unfold State.sight
  rw [show ({ s with czones := put v z x } : State).czones[z] = x from put_same v z x]
  rfl

theorem State.countBurst_counted (s : State) (z : Fin 8) :
    BurstCounted z (s.czones[z].mode == some .flicker) s (s.countBurst z) := by
  intro c sounding x found d at_ b0 began once e he v hv w hw
  have now : (s.countBurst z).now = s.now := (State.countBurst_changes ..).same .clock (by decide)
  have here : ({ s with now := (s.countBurst z).now } : State) = s := by rw [now]
  rw [here] at hv
  have changed : d.counted b0 x.interval (s.czones[z].mode == some .flicker) = e := by rw [he, Delivery.counted_eq]
  have runs : s.countBurst z = (s.burstOver z c (Delivery.counted b0 x.interval
      (s.czones[z].mode == some .flicker))).arbitrate z := by
    rw [State.countBurst_eq sounding, began, found]
    rfl
  have sight := State.burstOver_sight (s := s)
    (f := Delivery.counted b0 x.interval (s.czones[z].mode == some .flicker)) (fun _ => rfl) found once at_ changed
  have finishes := State.burstOver_finishes (s := s)
    (f := Delivery.counted b0 x.interval (s.czones[z].mode == some .flicker)) found once (fun _ => rfl) at_ changed
  have delivery := State.burstOver_delivery? (s := s) (z := z)
    (f := Delivery.counted b0 x.interval (s.czones[z].mode == some .flicker)) (fun _ => rfl) found at_
  rw [changed] at delivery
  have silent := s.burstOver_demand z c (Delivery.counted b0 x.interval (s.czones[z].mode == some .flicker))
  have others : OnlyAt z s.czones (s.countBurst z).czones :=
    onlyAt_of_aside fun j ne => (aside_closed ne s).countBurst (.refl j s)
  rw [runs] at others ⊢
  clear runs here now changed
  generalize s.burstOver z c (Delivery.counted b0 x.interval (s.czones[z].mode == some .flicker)) = o at *
  have zone : o.czones[z] = s.overZone z c e := congrArg ZoneSight.czone sight
  have state : e.state = if d.burstsLeft ≤ 1 then .done else .waiting := by rw [he]
  have alike : o.sight z = w.sight z := by
    rw [sight, hw, hv, State.sight_put]
    unfold State.overZone
    rw [state]
    by_cases last : d.burstsLeft ≤ 1
    · simp only [if_pos last, if_neg (show DeliveryState.done ≠ .waiting by decide)]
    · simp only [if_neg last, if_pos]
  have free : o.czones[z].sounding = none := by rw [zone]; rfl
  refine ⟨(State.arbitrate_looks free).of_sight alike, others, fun free' => ?_, fun other kept => ?_,
    fun last fresh ended => ?_⟩
  · obtain ⟨circuits, left⟩ := State.arbitrate_free free'
    rw [left, zone]
    exact ⟨(congrArg (fun v : Vector Circuit 16 => v[chimeOf z].demand) circuits).trans silent, rfl, rfl, rfl, rfl⟩
  · rw [← isDue_of_sight alike] at kept
    rw [State.arbitrate_others other kept, delivery]
  · have done : e.state = .done := by rw [state, if_pos last]
    obtain ⟨y, found', finished, outcome⟩ := finishes (by simp [Delivery.unended, done]) fresh ended
    have undue : o.isDue z c = false := by
      unfold State.isDue
      rw [delivery]
      dsimp only
      rw [done]
      rfl
    exact ⟨y, (State.lookFor_undue _ o undue).trans found', finished, outcome⟩

end Sys2Proof.Machine
end

section
/-!
PROOFS. What cuts a burst (R143, R147, R149): the zone that is suppressed, and the zone that is barred.
-/

namespace Sys2Proof.Machine
-- One proof after another: the whole text stays within the memory of one compile.
set_option Elab.async false

/-! ## Deliveries dropped one after another (R149) -/

/-- Ending a delivery twice is ending it once. -/
theorem Call.ended_ended (x : Call) (z : Fin 8) (st : DeliveryState) : (x.ended z st).ended z st = x.ended z st := by
  have again : (x.ended z st).deliveries.map (fun d => if d.zone = z then Delivery.endedAs st d else d) =
      (x.ended z st).deliveries := by
    unfold Call.ended
    rw [Call.finish_deliveries]
    unfold Call.editDelivery
    rw [List.map_map]
    refine List.map_congr_left fun d _ => ?_
    rw [Function.comp_apply]
    by_cases here : d.zone = z
    · rw [if_pos here]
      exact if_pos here
    · rw [if_neg here, if_neg here]
  have edited : (x.ended z st).editDelivery z (Delivery.endedAs st) = x.ended z st := by
    unfold Call.editDelivery
    rw [again]
  have finished : (x.ended z st).finish = x.ended z st := by
    refine if_pos ?_
    obtain finished | still := Call.finish_finished (x.editDelivery z (Delivery.endedAs st))
    · exact Bool.or_eq_true_iff.2 (.inl finished)
    · exact Bool.or_eq_true_iff.2 (.inr still)
  exact (congrArg Call.finish edited).trans finished

/-- The turn of one call of a zone's queue when the zone is dropped (R149). -/
def State.dropCall (z : Fin 8) (st : DeliveryState) (s : State) (c : Fin 32) : State :=
  (s.leaveQueue z c).endDelivery c z st

theorem State.dropCall_call? (s : State) (z : Fin 8) (st : DeliveryState) (c j : Fin 32) :
    (s.dropCall z st c).call? j = if j = c then (s.call? j).map (Call.ended z st) else s.call? j := by
  have kept (b : Fin 32) : (s.leaveQueue z c).call? b = s.call? b := State.writeCZone_call? ..
  refine (State.endDelivery_call? ..).trans ?_
  rw [kept, kept]
  split
  next own => rw [own]
  next => rfl

theorem State.dropCall_changes (s : State) (z : Fin 8) (st : DeliveryState) (c : Fin 32) :
    ChangesOnly [.calls, .czones, .stations] s (s.dropCall z st c) :=
  (State.writeCZone_changes ..).andThen (State.endDelivery_changes ..)

theorem State.dropCall_czone (s : State) (z : Fin 8) (st : DeliveryState) (c : Fin 32) :
    (s.dropCall z st c).czones[z] = { s.czones[z] with queue := s.czones[z].queue.erase c } := by
  have kept : (s.dropCall z st c).czones = (s.leaveQueue z c).czones :=
    (State.endDelivery_changes ..).same .czones (by decide)
  exact (congrArg (fun v : Vector CallZone 8 => v[z]) kept).trans ((State.writeCZone_czone ..).trans (if_pos rfl))

theorem State.dropQueue_call? (z : Fin 8) (st : DeliveryState) (j : Fin 32) (l : List (Fin 32)) (s : State) :
    (l.foldl (State.dropCall z st) s).call? j = if j ∈ l then (s.call? j).map (Call.ended z st) else s.call? j := by
  induction l generalizing s with
  | nil => simp
  | cons c l ih =>
    rw [List.foldl_cons, ih, State.dropCall_call?]
    by_cases own : j = c
    · subst own
      rw [if_pos rfl, if_pos (List.mem_cons_self ..), Option.map_map]
      have twice : Call.ended z st ∘ Call.ended z st = Call.ended z st := funext fun x => x.ended_ended z st
      rw [twice, ite_self]
    · rw [if_neg own]
      refine if_congr ?_ rfl rfl
      rw [List.mem_cons, or_iff_right own]

theorem State.dropQueue_changes (z : Fin 8) (st : DeliveryState) (l : List (Fin 32)) (s : State) :
    ChangesOnly [.calls, .czones, .stations] s (l.foldl (State.dropCall z st) s) :=
  .foldl (fun t c => t.dropCall_changes z st c) l s

theorem State.dropQueue_czone (z : Fin 8) (st : DeliveryState) (l : List (Fin 32)) (s : State) :
    (l.foldl (State.dropCall z st) s).czones[z] = { s.czones[z] with queue := l.foldl List.erase s.czones[z].queue } := by
  induction l generalizing s with
  | nil => rfl
  | cons c l ih => rw [List.foldl_cons, ih, State.dropCall_czone]; rfl

theorem foldl_erase_self (l : List (Fin 32)) : l.foldl List.erase l = [] := by
  rw [← List.diff_eq_foldl]
  induction l with
  | nil => rfl
  | cons a l ih => rw [List.diff_cons, List.erase_cons_head, ih]

/-! ## A zone dropped (R129, R149) -/

/-- The burst of a zone that is dropped, cut. -/
def State.dropBurst (z : Fin 8) (st : DeliveryState) (s : State) : State :=
  match s.czones[z].sounding with
  | some c => (s.stopBurst z).endDelivery c z st
  | none => s

theorem State.dropZone_eq (s : State) (z : Fin 8) (st : DeliveryState) :
    s.dropZone z st = s.czones[z].queue.foldl (State.dropCall z st) (s.dropBurst z st) := rfl

theorem State.dropBurst_call? (s : State) (z : Fin 8) (st : DeliveryState) (j : Fin 32) : (s.dropBurst z st).call? j =
    if s.czones[z].sounding = some j then (s.call? j).map (Call.ended z st) else s.call? j := by
  unfold State.dropBurst
  cases sounding : s.czones[z].sounding with
  | none => rfl
  | some c =>
    have kept (b : Fin 32) : (s.stopBurst z).call? b = s.call? b := State.call?_of_calls (State.stopBurst_calls s z).1 b
    dsimp only
    rw [State.endDelivery_call?, kept, kept]
    by_cases own : j = c
    · rw [if_pos own, own, if_pos rfl]
    · rw [if_neg own, if_neg fun h => own (Option.some.inj h).symm]

/-- Every call that sounds or waits in the zone that is dropped has its delivery there ended (R149). -/
theorem State.dropZone_call? (s : State) (z : Fin 8) (st : DeliveryState) (j : Fin 32) : (s.dropZone z st).call? j =
    if s.czones[z].sounding = some j ∨ j ∈ s.czones[z].queue then (s.call? j).map (Call.ended z st) else s.call? j := by
  rw [State.dropZone_eq, State.dropQueue_call?, State.dropBurst_call?]
  by_cases sounding : s.czones[z].sounding = some j
  · rw [if_pos sounding, Option.map_map]
    have twice : Call.ended z st ∘ Call.ended z st = Call.ended z st := funext fun x => x.ended_ended z st
    rw [twice, ite_self, if_pos (Or.inl sounding)]
  · rw [if_neg sounding]
    exact if_congr (or_iff_right sounding).symm rfl rfl

/-- The zone that is dropped is free with nothing waiting; what had no burst keeps what else it had (R149). -/
theorem State.dropZone_czone (s : State) (z : Fin 8) (st : DeliveryState) : (s.dropZone z st).czones[z] =
    if s.czones[z].sounding.isSome then CallZone.freed [] s.czones[z] else { s.czones[z] with queue := [] } := by
  rw [State.dropZone_eq, State.dropQueue_czone]
  unfold State.dropBurst
  cases sounding : s.czones[z].sounding with
  | none =>
    dsimp only
    rw [foldl_erase_self]
    rfl
  | some c =>
    have kept : ((s.stopBurst z).endDelivery c z st).czones[z] = CallZone.freed s.czones[z].queue s.czones[z] :=
      (congrArg (fun v : Vector CallZone 8 => v[z]) ((State.endDelivery_changes ..).same .czones (by decide))).trans
        (s.stopBurst_czone z)
    dsimp only
    rw [kept]
    have emptied : s.czones[z].queue.foldl List.erase (CallZone.freed s.czones[z].queue s.czones[z]).queue = [] :=
      foldl_erase_self _
    rw [emptied]
    rfl

theorem State.dropZone_demand {s : State} {z : Fin 8} {c : Fin 32} (st : DeliveryState)
    (sounding : s.czones[z].sounding = some c) : (s.dropZone z st).circuits[chimeOf z].demand = false := by
  have dropped : s.dropBurst z st = (s.stopBurst z).endDelivery c z st := by
    unfold State.dropBurst
    rw [sounding]
  have kept : (s.dropZone z st).circuits = (s.stopBurst z).circuits := by
    rw [State.dropZone_eq, (State.dropQueue_changes ..).same .circuits (by decide), dropped]
    exact (State.endDelivery_changes ..).same .circuits (by decide)
  exact (congrArg (fun v : Vector Circuit 16 => v[chimeOf z].demand) kept).trans (s.stopBurst_demand z)

/-! ## A zone suppressed (R147) -/

/-- A delivery cut by a suppression waits, to resume (R147). -/
def Delivery.cut (d : Delivery) : Delivery := { d with state := .waiting, resumes := true }

/-- Where the calls are seen alike in the zone and are in the same order, a delivery has the same place (R137). -/
theorem State.queuePlace_of_sight {s t : State} {z : Fin 8}
    (seen : ∀ b : Fin 32, (t.call? b).map (Call.sight z) = (s.call? b).map (Call.sight z))
    (order : t.callList = s.callList) (c : Fin 32) (q : List (Fin 32)) :
    t.queuePlace z c q = s.queuePlace z c q := by
  have readPriority (o : Option Call) : o.map (·.priority) = (o.map (Call.sight z)).map (·.terms.priority) := by
    cases o <;> rfl
  have readDelivery (o : Option Call) : o.bind (·.delivery? z) = (o.map (Call.sight z)).bind (·.delivery) := by
    cases o <;> rfl
  have priority (b : Fin 32) : (t.call? b).map (·.priority) = (s.call? b).map (·.priority) := by
    rw [readPriority, seen, ← readPriority]
  have delivery (b : Fin 32) : t.delivery? b z = s.delivery? b z := by
    unfold State.delivery?
    rw [readDelivery, seen, ← readDelivery]
  have ahead (a b : Fin 32) : t.ahead z a b = s.ahead z a b := by
    unfold State.ahead State.callAge
    rw [priority, priority, delivery, delivery, order]
  simp only [State.queuePlace, ahead]

/-- Of the call edited, and of that given the delivery the edit makes, the same is seen in the zone. -/
theorem Call.editDelivery_seen {x : Call} {z : Fin 8} {d : Delivery} {f : Delivery → Delivery}
    (zone : ∀ d, (f d).zone = d.zone) (at_ : x.delivery? z = some d) :
    (x.editDelivery z f).sight z = (x.editDelivery z fun _ => f d).sight z := by
  have here : d.zone = z := by simpa using List.find?_some at_
  have mine : (f d).zone = z := (zone d).trans here
  have delivery : (x.editDelivery z fun _ => f d).delivery? z = some (f d) := by
    unfold Call.delivery? at at_ ⊢
    unfold Call.editDelivery
    rw [List.find?_map]
    have same : ((fun e : Delivery => e.zone == z) ∘ fun e => if e.zone = z then f d else e) = fun e => e.zone == z := by
      funext e
      rw [Function.comp_apply]
      split <;> simp [mine, *]
    rw [same, at_, Option.map_some, if_pos here]
  have targets : (x.editDelivery z fun _ => f d).targets = x.targets := by
    simp only [Call.targets, Call.editDelivery, List.map_map]
    refine List.map_congr_left fun e _ => ?_
    rw [Function.comp_apply]
    split
    next own => rw [mine, own]
    next => rfl
  unfold Call.sight
  rw [delivery, targets, Call.editDelivery_targets x z f zone, Call.editDelivery_delivery? x z z f zone, if_pos rfl, at_]
  rfl

theorem State.suppress_free {s : State} {z : Fin 8} (free : s.czones[z].sounding = none) :
    s.suppress z = s.writeCZone z { s.czones[z] with suppressed := true } := by
  unfold State.suppress
  dsimp only
  rw [free]

section

variable {s : State} {z : Fin 8} {c : Fin 32} {d : Delivery}

/-- A burst stopped with its delivery cut, but not yet in the queue (R147). -/
def State.cutBurst (z : Fin 8) (c : Fin 32) (s : State) : State := (s.stopBurst z).editDelivery c z Delivery.cut

theorem State.cutBurst_czone (s : State) (z : Fin 8) (c : Fin 32) :
    (s.cutBurst z c).czones[z] = CallZone.freed s.czones[z].queue s.czones[z] := by
  have kept : (s.cutBurst z c).czones = (s.stopBurst z).czones := (State.editDelivery_changes ..).same .czones (by decide)
  exact (congrArg (fun v : Vector CallZone 8 => v[z]) kept).trans (s.stopBurst_czone z)

theorem State.cutBurst_demand (s : State) (z : Fin 8) (c : Fin 32) :
    (s.cutBurst z c).circuits[chimeOf z].demand = false := by
  have kept : (s.cutBurst z c).circuits = (s.stopBurst z).circuits :=
    (State.editDelivery_changes ..).same .circuits (by decide)
  exact (congrArg (fun v : Vector Circuit 16 => v[chimeOf z].demand) kept).trans (s.stopBurst_demand z)

/-- The zone suppressed, its burst stopped and its delivery cut, but not yet in the queue (R147). -/
def State.suppressCut (z : Fin 8) (c : Fin 32) (s : State) : State :=
  (s.writeCZone z { s.czones[z] with suppressed := true }).cutBurst z c

theorem State.suppress_eq (sounding : s.czones[z].sounding = some c) : s.suppress z = (s.suppressCut z c).joinQueue z c := by
  unfold State.suppress
  unfold State.suppressCut State.cutBurst
  dsimp only
  rw [sounding]
  rfl

theorem State.suppressCut_czone (s : State) (z : Fin 8) (c : Fin 32) : (s.suppressCut z c).czones[z] =
    { CallZone.freed s.czones[z].queue s.czones[z] with suppressed := true } := by
  have written : (s.writeCZone z { s.czones[z] with suppressed := true }).czones[z] =
      { s.czones[z] with suppressed := true } := (State.writeCZone_czone ..).trans (if_pos rfl)
  unfold State.suppressCut
  rw [State.cutBurst_czone, written]
  rfl

theorem State.suppressCut_call? (s : State) (z : Fin 8) (c j : Fin 32) : (s.suppressCut z c).call? j =
    if j = c then (s.call? c).map (Call.editDelivery z Delivery.cut) else s.call? j := by
  have kept (b : Fin 32) : ((s.writeCZone z { s.czones[z] with suppressed := true }).stopBurst z).call? b = s.call? b :=
    (State.call?_of_calls (State.stopBurst_calls _ z).1 b).trans (State.writeCZone_call? ..)
  unfold State.suppressCut State.cutBurst
  rw [State.editDelivery_call?, kept, kept]

theorem State.suppressCut_place (at_ : s.delivery? c z = some d) (q : List (Fin 32)) :
    (s.suppressCut z c).queuePlace z c q = (s.withDelivery c z d.cut).queuePlace z c q := by
  obtain ⟨x, found, delivered⟩ := Option.bind_eq_some_iff.1 at_
  have order : (s.suppressCut z c).callList = (s.withDelivery c z d.cut).callList := by
    unfold State.suppressCut State.cutBurst
    rw [(State.editDelivery_callTable _ c z Delivery.cut fun _ => rfl).list, (State.stopBurst_calls _ z).2,
      State.writeCZone_callList, State.withDelivery_callList]
  have calls (j : Fin 32) : ((s.suppressCut z c).call? j).map (Call.sight z) =
      ((s.withDelivery c z d.cut).call? j).map (Call.sight z) := by
    rw [State.suppressCut_call?, State.withDelivery_call? found, found]
    split
    · exact congrArg some (Call.editDelivery_seen (f := Delivery.cut) (fun _ => rfl) delivered)
    · rfl
  exact State.queuePlace_of_sight calls order c q

theorem State.suppressCut_demand (s : State) (z : Fin 8) (c : Fin 32) :
    (s.suppressCut z c).circuits[chimeOf z].demand = false := by
  unfold State.suppressCut
  exact State.cutBurst_demand ..

/-- R147: the burst of a zone that is suppressed is stopped uncounted, and its delivery waits in its place. -/
theorem State.suppress_stops (sounding : s.czones[z].sounding = some c) (at_ : s.delivery? c z = some d) :
    BurstStopped z Delivery.cut ((s.withDelivery c z d.cut).queuePlace z c (s.czones[z].queue.erase c)) s (s.suppress z) := by
  intro b sounds
  obtain rfl : c = b := Option.some.inj (sounding.symm.trans sounds)
  have demand := s.suppressCut_demand z c
  have zone := s.suppressCut_czone z c
  have place := State.suppressCut_place at_ (s.czones[z].queue.erase c)
  have delivery : (s.suppressCut z c).delivery? c z = (s.delivery? c z).map Delivery.cut := by
    obtain ⟨x, found, -⟩ := Option.bind_eq_some_iff.1 at_
    unfold State.delivery?
    rw [State.suppressCut_call?, if_pos rfl, found]
    exact (Call.editDelivery_delivery? x z z Delivery.cut fun _ => rfl).trans (if_pos rfl)
  rw [State.suppress_eq sounding]
  generalize s.suppressCut z c = u at *
  have joined : (u.joinQueue z c).czones[z] = { u.czones[z] with queue := u.queuePlace z c (u.czones[z].queue.erase c) } :=
    (State.writeCZone_czone ..).trans (if_pos rfl)
  have kept : (u.joinQueue z c).circuits = u.circuits := State.writeCZone_circuits ..
  have queue : u.czones[z].queue = s.czones[z].queue := by rw [zone]; rfl
  rw [joined, queue, place, zone]
  exact ⟨rfl, rfl, rfl, rfl, rfl, rfl, rfl, rfl,
    (congrArg (fun v : Vector Circuit 16 => v[chimeOf z].demand) kept).trans demand,
    ((State.writeCZone_changes ..).delivery? rfl c z).trans delivery⟩

/-- What stands before a delivery in its place is what it is not ahead of (R137). -/
theorem takeWhile_queuePlace {v : State} {b : Fin 32} {q : List (Fin 32)}
    (h : b ∈ (v.queuePlace z c q).takeWhile fun b => b != c) : v.ahead z c b = false ∧ b ∈ q := by
  unfold State.queuePlace at h
  have within : b ∈ q.takeWhile fun b => !v.ahead z c b := by
    generalize q.takeWhile (fun b => !v.ahead z c b) = l at h
    induction l with
    | nil => simp at h
    | cons a l ih =>
      rw [List.cons_append, List.takeWhile_cons] at h
      split at h
      · rcases List.mem_cons.1 h with rfl | later
        · exact List.mem_cons_self ..
        · exact List.mem_cons_of_mem _ (ih later)
      · cases h
  exact ⟨by simpa using List.mem_takeWhile_imp within, (List.takeWhile_prefix _).subset within⟩

/-- A delivery that has been cut stands first among its priority, where no other of the queue resumes (R137, R147). -/
theorem State.cut_first {b : Fin 32} {x y : Call} {q : List (Fin 32)} (at_ : s.delivery? c z = some d)
    (alone : ∀ b ∈ q, ∀ f, s.delivery? b z = some f → f.resumes = false)
    (before : b ∈ ((s.withDelivery c z d.cut).queuePlace z c (q.erase c)).takeWhile fun b => b != c) (ne : b ≠ c)
    (found : s.call? c = some x) (found' : s.call? b = some y) : x.priority < y.priority := by
  obtain ⟨x0, found0, at0⟩ := Option.bind_eq_some_iff.1 at_
  obtain rfl : x0 = x := Option.some.inj (found0.symm.trans found)
  have calls := State.withDelivery_call? found0 z d.cut
  have cut := Call.editDelivery_seen (f := Delivery.cut) (fun _ => rfl) at0
  generalize s.withDelivery c z d.cut = v at *
  have ahead : v.ahead z c b = false ∧ b ∈ q.erase c := takeWhile_queuePlace before
  have mine : v.delivery? c z = some d.cut := by
    have edited := Call.editDelivery_delivery? x0 z z Delivery.cut fun _ => rfl
    rw [if_pos rfl, at0] at edited
    unfold State.delivery?
    rw [calls, if_pos rfl]
    exact (congrArg CallSight.delivery cut).symm.trans edited
  have theirs : v.call? b = s.call? b := (calls b).trans (if_neg ne)
  obtain ⟨behind, listed⟩ := ahead
  have resumes : ((s.delivery? b z).map (·.resumes)).getD false = false := by
    cases other : s.delivery? b z with
    | none => rfl
    | some f => exact alone b (List.mem_of_mem_erase listed) f other
  have delivery : v.delivery? b z = s.delivery? b z := by
    unfold State.delivery?
    rw [theirs]
  unfold State.ahead at behind
  rw [delivery, resumes, mine, theirs, found', calls, if_pos rfl] at behind
  dsimp only [Option.map_some, Option.getD_some] at behind
  rw [show (x0.editDelivery z fun _ => d.cut).priority = x0.priority from rfl,
    show d.cut.resumes = true from rfl] at behind
  by_cases same : x0.priority = y.priority
  · rw [same, bne_self_eq_false] at behind
    cases behind
  · rw [if_pos (bne_iff_ne.2 same)] at behind
    have : ¬ y.priority < x0.priority := by simpa using behind
    omega

end

end Sys2Proof.Machine
end

section
/-!
PROOFS. The suppressions and bars derived for one zone (R146..R149).
-/

namespace Sys2Proof.Machine
-- One proof after another: the whole text stays within the memory of one compile.
set_option Elab.async false

theorem CallZone.suppressed_eta {x : CallZone} {p : Bool} (h : x.suppressed = p) : { x with suppressed := p } = x := by
  subst h; rfl

theorem CallZone.barred_eta {x : CallZone} {b : Bool} (h : x.barred = b) : { x with barred := b } = x := by
  subst h; rfl

/-! ## The two turns of a derivation (R148) -/

/-- The bar of a zone follows: `was` what it was, `now` what is derived (R149). -/
def State.followBar (z : Fin 8) (now was : Bool) (s : State) : State :=
  if now && !was then s.bar z
  else if !now && was then s.writeCZone z { s.czones[z] with barred := false } else s

/-- The suppression of a zone follows (R146, R147). -/
def State.followSuppression (z : Fin 8) (now was : Bool) (s : State) : State :=
  if now && !was then s.suppress z
  else if !now && was then s.writeCZone z { s.czones[z] with suppressed := false } else s

theorem State.deriveSilence_eq {s : State} {z : Fin 8} (present : s.settings.czones[z].present = true) :
    s.deriveSilence z =
      if (s.czones[z].barred && !s.barredNow z) || (s.czones[z].suppressed && !s.suppressedNow z) then
        ((s.followBar z (s.barredNow z) s.czones[z].barred).followSuppression z (s.suppressedNow z)
          s.czones[z].suppressed).arbitrate z
      else (s.followBar z (s.barredNow z) s.czones[z].barred).followSuppression z (s.suppressedNow z)
        s.czones[z].suppressed := by
  unfold State.deriveSilence
  rw [present]
  rfl

section

variable {s : State} {z : Fin 8}

@[simp] theorem State.followBar_kept (b : Bool) : s.followBar z b b = s := by cases b <;> rfl

@[simp] theorem State.followBar_on : s.followBar z true false = s.bar z := rfl

@[simp] theorem State.followBar_off : s.followBar z false true = s.writeCZone z { s.czones[z] with barred := false } := rfl

@[simp] theorem State.followSuppression_kept (p : Bool) : s.followSuppression z p p = s := by cases p <;> rfl

@[simp] theorem State.followSuppression_on : s.followSuppression z true false = s.suppress z := rfl

@[simp] theorem State.followSuppression_off :
    s.followSuppression z false true = s.writeCZone z { s.czones[z] with suppressed := false } := rfl

/-- In a free zone the suppression is only written. -/
theorem State.followSuppression_sight (free : s.czones[z].sounding = none) (now was : Bool)
    (h : s.czones[z].suppressed = was) :
    (s.followSuppression z now was).sight z = { s.sight z with czone := { s.czones[z] with suppressed := now } } := by
  have still (p : Bool) (same : s.czones[z].suppressed = p) :
      s.sight z = { s.sight z with czone := { s.czones[z] with suppressed := p } } := by
    rw [CallZone.suppressed_eta same]
    rfl
  cases now with
  | true =>
    cases was with
    | true => rw [State.followSuppression_kept]; exact still true h
    | false => rw [State.followSuppression_on, State.suppress_free free, State.writeCZone_sight]
  | false =>
    cases was with
    | true => rw [State.followSuppression_off, State.writeCZone_sight]
    | false => rw [State.followSuppression_kept]; exact still false h

theorem State.deriveSilence_still (h : s.settings.czones[z].present = false ∨
    (s.czones[z].barred = s.barredNow z ∧ s.czones[z].suppressed = s.suppressedNow z)) : s.deriveSilence z = s := by
  by_cases present : s.settings.czones[z].present = true
  · obtain absent | ⟨barred, suppressed⟩ := h
    · rw [present] at absent; cases absent
    · rw [State.deriveSilence_eq present, barred, suppressed, State.followBar_kept, State.followSuppression_kept,
        Bool.and_not_self, Bool.and_not_self]
      exact if_neg Bool.false_ne_true
  · unfold State.deriveSilence
    exact if_pos (by simpa using present)

theorem State.deriveSilence_suppresses (present : s.settings.czones[z].present = true)
    (barred : s.czones[z].barred = s.barredNow z) (was : s.czones[z].suppressed = false)
    (now : s.suppressedNow z = true) : s.deriveSilence z = s.suppress z := by
  rw [State.deriveSilence_eq present, barred, was, now, State.followBar_kept, State.followSuppression_on, Bool.and_not_self]
  exact if_neg Bool.false_ne_true

/-- R149: a barred zone is free, and nothing waits in it. -/
theorem State.bar_czone (s : State) (z : Fin 8) : (s.bar z).czones[z].barred = true ∧
    (s.bar z).czones[z].suppressed = s.czones[z].suppressed ∧
    (s.bar z).czones[z].sounding = none ∧ (s.bar z).czones[z].queue = [] := by
  have written : (s.writeCZone z { s.czones[z] with barred := true }).czones[z] = { s.czones[z] with barred := true } :=
    (State.writeCZone_czone ..).trans (if_pos rfl)
  have dropped := (s.writeCZone z { s.czones[z] with barred := true }).dropZone_czone z .abandoned
  rw [written] at dropped
  unfold State.bar
  dsimp only
  rw [dropped]
  dsimp only
  split
  · exact ⟨rfl, rfl, rfl, rfl⟩
  next free => exact ⟨rfl, rfl, by simpa using free, rfl⟩

/-- The zone that is barred is left so, with its suppression as derived and nothing else touched. -/
theorem State.deriveSilence_bars (present : s.settings.czones[z].present = true) (was : s.czones[z].barred = false)
    (now : s.barredNow z = true) : s.deriveSilence z = (s.bar z).followSuppression z (s.suppressedNow z)
      s.czones[z].suppressed := by
  obtain ⟨barred, suppressed, free, -⟩ := s.bar_czone z
  have sight := State.followSuppression_sight free (s.suppressedNow z) _ suppressed
  have shut : ((s.bar z).followSuppression z (s.suppressedNow z) s.czones[z].suppressed).arbitrate z =
      (s.bar z).followSuppression z (s.suppressedNow z) s.czones[z].suppressed := by
    refine State.lookFor_shut (fun looking => ?_) _
    have kept : ((s.bar z).followSuppression z (s.suppressedNow z) s.czones[z].suppressed).czones[z].barred =
        (s.bar z).czones[z].barred := congrArg (fun v : ZoneSight => v.czone.barred) sight
    rw [looking.unbarred, barred] at kept
    cases kept
  rw [State.deriveSilence_eq present, was, now, State.followBar_on, shut, ite_self]

/-- The end of a bar, or of a suppression, has the arbiter of a free zone look (R140). -/
theorem State.deriveSilence_lifts (present : s.settings.czones[z].present = true)
    (lifts : (s.czones[z].barred = true ∧ s.barredNow z = false) ∨ (s.czones[z].barred = s.barredNow z ∧
      s.czones[z].suppressed = true ∧ s.suppressedNow z = false)) (free : s.czones[z].sounding = none) :
    ∃ u : State, s.deriveSilence z = u.arbitrate z ∧ u.sight z = { s.sight z with
      czone := { s.czones[z] with barred := s.barredNow z, suppressed := s.suppressedNow z } } := by
  refine ⟨(s.followBar z (s.barredNow z) s.czones[z].barred).followSuppression z (s.suppressedNow z)
    s.czones[z].suppressed, ?_, ?_⟩
  · rw [State.deriveSilence_eq present]
    refine if_pos ?_
    rcases lifts with ⟨was, now⟩ | ⟨-, was, now⟩
    · rw [was, now]; rfl
    · rw [was, now]; exact Bool.or_true _
  have bar : (s.followBar z (s.barredNow z) s.czones[z].barred).sight z =
      { s.sight z with czone := { s.czones[z] with barred := s.barredNow z } } := by
    rcases lifts with ⟨was, now⟩ | ⟨barred, -, -⟩
    · rw [was, now, State.followBar_off, State.writeCZone_sight]
    · rw [barred, State.followBar_kept, CallZone.barred_eta barred]
      rfl
  have zone : (s.followBar z (s.barredNow z) s.czones[z].barred).czones[z] =
      { s.czones[z] with barred := s.barredNow z } := congrArg ZoneSight.czone bar
  rw [State.followSuppression_sight (by rw [zone]; exact free) _ _ (by rw [zone]), bar, zone]

end

end Sys2Proof.Machine
end

section
/-!
PROOFS. What runs and ends a burst (R140..R149).
-/

namespace Sys2Proof.Machine
-- One proof after another: the whole text stays within the memory of one compile.
set_option Elab.async false

/-! ## A burst that is counted, seen from before its last change (R144, R145) -/

/-- A burst counted from one state is counted from another that differs only in what the end of a burst clears. -/
theorem BurstCounted.of_alike {z : Fin 8} {byFlicker : Bool} {s s' t : State} (h : BurstCounted z byFlicker s' t)
    (calls : s'.calls = s.calls) (order : s'.callList = s.callList)
    (sight : s.sight z = { s'.sight z with czone := s.czones[z] })
    (others : ∀ j : Fin 8, j ≠ z → s'.czones[j] = s.czones[j])
    (sounding : s'.czones[z].sounding = s.czones[z].sounding) (start : s'.czones[z].burstStart = s.czones[z].burstStart)
    (freed : ∀ q, CallZone.freed q s'.czones[z] = CallZone.freed q s.czones[z])
    (queue : s'.czones[z].queue = s.czones[z].queue) : BurstCounted z byFlicker s t := by
  intro c sounds x found d at_ b0 began once e he v hv w hw
  have found' : ({ s' with now := t.now } : State).call? c = some x := (State.call?_of_calls calls c).trans found
  have table (j : Fin 32) : (({ s' with now := t.now } : State).withDelivery c z e).call? j = v.call? j := by
    rw [hv, State.withDelivery_call? found', State.withDelivery_call? (s := { s with now := t.now }) found]
    exact if_congr Iff.rfl rfl (State.call?_of_calls calls j)
  have listed : (({ s' with now := t.now } : State).withDelivery c z e).callList = v.callList := by
    rw [hv, State.withDelivery_callList, State.withDelivery_callList]
    exact order
  have seen : v.sight z = { (({ s' with now := t.now } : State).withDelivery c z e).sight z with czone := s.czones[z] } := by
    have mine : v.sight z = { ({ s.sight z with now := t.now } : ZoneSight) with
        calls := fun j => (v.call? j).map (Call.sight z) } := by
      rw [hv, State.sight_of_calls ((State.withDelivery_changes ..).mono (by decide))]
      rfl
    have theirs : (({ s' with now := t.now } : State).withDelivery c z e).sight z =
        { ({ s'.sight z with now := t.now } : ZoneSight) with calls := fun j => (v.call? j).map (Call.sight z) } := by
      rw [State.sight_of_calls ((State.withDelivery_changes ..).mono (by decide))]
      simp only [table]
      rfl
    rw [mine, theirs, sight]
  obtain ⟨w', hw'⟩ : ∃ w' : State, w' = { ({ s' with now := t.now } : State).withDelivery c z e with
      czones := put s'.czones z (CallZone.freed (if d.burstsLeft ≤ 1 then s'.czones[z].queue
        else (({ s' with now := t.now } : State).withDelivery c z e).queuePlace z c (s'.czones[z].queue.erase c))
        s'.czones[z]) } := ⟨_, rfl⟩
  obtain ⟨looks, only, free, kept, ends⟩ := h c (sounding.trans sounds) x ((State.call?_of_calls calls c).trans found) d
    at_ b0 (start.trans began) once e he _ rfl w' hw'
  have same : w'.sight z = w.sight z := by
    rw [hw', hw, State.sight_put, State.sight_put, seen, freed, queue, State.queuePlace_congr table listed]
  refine ⟨looks.of_sight same, fun j ne => (only j ne).trans (others j ne), free, fun other undue => ?_, ends⟩
  rw [← isDue_of_sight same] at undue
  exact kept other undue

/-! ## One zone ceases to be lit (R125, R145) -/

theorem State.announceLit_one {s : State} {z : Fin 8} (was : s.lit[z] = true) (now : s.litNow z = false)
    (others : ∀ y : Fin 8, y ≠ z → s.lit[y] = s.litNow y) :
    s.announceLit = ({ s with lit := put s.lit z false } : State).litLost z := by
  have lost : ChangesOnly burstParts ({ s with lit := put s.lit z false } : State)
      (({ s with lit := put s.lit z false } : State).litLost z) := State.litLost_changes ..
  have sounded : Sounded s (({ s with lit := put s.lit z false } : State).litLost z) :=
    (Sounded.lights s).litLost z (Sounded.of_same rfl rfl rfl rfl rfl)
  have lit : (({ s with lit := put s.lit z false } : State).litLost z).lit = put s.lit z false :=
    lost.same .lit (by decide)
  have settings : (({ s with lit := put s.lit z false } : State).litLost z).settings = s.settings :=
    lost.same .settings (by decide)
  have idle (i : Fin 8) (u : State) (h : u.lit[i] = u.litNow i) : u.announceLitOf i = u := by
    unfold State.announceLitOf
    dsimp only
    rw [← h, put_self, Bool.and_not_self]
    rfl
  have turn : s.announceLitOf z = ({ s with lit := put s.lit z false } : State).litLost z := by
    unfold State.announceLitOf
    dsimp only
    rw [was, now]
    rfl
  rw [State.announceLit_eq]
  refine forAll_turn (P := fun u => u = s) (Q := fun u => u = ({ s with lit := put s.lit z false } : State).litLost z) z
    (fun i u ne hu => ?_) (fun u hu => ?_) (fun i u ne hu => ?_) s rfl
  · rw [hu]
    exact idle i s (others i ne)
  · rw [hu]
    exact turn
  · rw [hu]
    refine idle i _ ?_
    rw [State.litNow_congr settings sounded.causes, lit, put_other _ _ _ _ ne]
    exact others i ne

/-! ## The events of a burst (R140..R143) -/

theorem State.startBurst_calls (s : State) (z : Fin 8) (c : Fin 32) (m : BurstMode) (code : Nat) :
    OnlyAt c s.calls (s.startBurst z c m code).calls := by
  have issues := ((termsKept_closed z s).startBurst c m code (.refl s)).issues
  intro j ne
  have call := s.startBurst_call? z c j m code
  rw [if_neg ne] at call
  have issue := issues j
  unfold State.call? at call
  generalize (s.startBurst z c m code).calls[j] = new at *
  generalize s.calls[j] = old at *
  cases new
  cases old
  simp_all

section

variable {s : State} {z : Fin 8} {c : Fin 32}

theorem State.arbitrate_shut (shut : s.czones[z].sounding ≠ none ∨ s.settings.czones[z].present = false ∨
    s.czones[z].suppressed = true ∨ s.czones[z].barred = true ∨ s.czones[z].queue.find? (s.isDue z) = none) :
    s.arbitrate z = s := by
  rcases shut with busy | absent | suppressed | barred | idle
  · exact State.lookFor_shut (fun h => busy h.free) _
  · exact State.lookFor_shut (fun h => Bool.false_ne_true (absent.symm.trans h.present)) _
  · exact State.lookFor_shut (fun h => Bool.false_ne_true (h.unsuppressed.symm.trans suppressed)) _
  · exact State.lookFor_shut (fun h => Bool.false_ne_true (h.unbarred.symm.trans barred)) _
  · exact State.lookFor_idle idle _

theorem notBeforeDue_looks {d : Delivery} (powered : s.powered = true) (found : s.delivery? c z = some d)
    (waits : d.state = .waiting) :
    ∃ t, exec (.notBeforeDue c z) s = .next t ∧ ChangesOnly (.clock :: burstParts) s t ∧
      t.now = max s.now d.notBefore ∧ OnlyAt z s.czones t.czones ∧
      (∀ w : State, w = { s with now := t.now } →
        (s.czones[z].sounding = none → ArbiterLooks z w t) ∧
        (s.czones[z].sounding ≠ none ∨ s.settings.czones[z].present = false ∨ s.czones[z].suppressed = true ∨
            s.czones[z].barred = true ∨ s.czones[z].queue.find? (w.isDue z) = none →
          ChangesOnly [.clock] s t)) ∧
      (s.czones[z].sounding = none → ∀ b, t.czones[z].sounding = some b → OnlyAt b s.calls t.calls) := by
  have passes : s.notBeforePasses c z = (s.reach d.notBefore).arbitrate z := by
    unfold State.notBeforePasses
    rw [found]
    exact if_pos waits
  have frame := State.arbitrate_changes (s.reach d.notBefore) z
  have now : ((s.reach d.notBefore).arbitrate z).now = max s.now d.notBefore := frame.same .clock (by decide)
  refine ⟨_, s.takes_powered (State.notBeforePasses c z) powered, ?_⟩
  rw [passes]
  have others : OnlyAt z s.czones ((s.reach d.notBefore).arbitrate z).czones :=
    onlyAt_of_aside (s := s.reach d.notBefore) fun j ne => (aside_closed ne _).arbitrate (.refl j _)
  refine ⟨(s.reach_changes d.notBefore).andThen frame, now, others, fun w hw => ?_, fun free b sounds => ?_⟩
  · rw [now] at hw
    obtain rfl : w = s.reach d.notBefore := hw
    refine ⟨fun free => State.arbitrate_looks free, fun shut => ?_⟩
    rw [State.arbitrate_shut (s := s.reach d.notBefore) shut]
    exact s.reach_changes _
  · obtain still | ⟨a, m, code, -, -, starts⟩ | ⟨-, passed⟩ := (s.reach d.notBefore).arbitrate_cases z
    · rw [still] at sounds
      exact absurd (free.symm.trans sounds) nofun
    · rw [starts, State.startBurst_sounding] at sounds
      obtain rfl := Option.some.inj sounds
      rw [starts]
      exact State.startBurst_calls (s.reach d.notBefore) z a m code
    · rw [passed.free free] at sounds
      cases sounds

theorem State.demand_onlyAt (s : State) (c : Fin 16) (on : Bool) (p : Pattern) :
    OnlyAt c s.circuits (s.demand c on p).circuits := fun _ ne => s.demand_other c on p ne

theorem strokeOnElapsed_gap {d : Nat} (powered : s.powered = true) (due : s.czones[z].strokeEnd = some d) :
    ∃ t, exec (.strokeOnElapsed z) s = .next t ∧ ChangesOnly [.clock, .czones, .circuits, .stations] s t ∧
      t.now = max s.now d ∧
      t.czones[z] = { s.czones[z] with strokeEnd := none, gapEnd := some (t.now + s.czones[z].strokeGap) } ∧
      t.circuits[chimeOf z].demand = false ∧ OnlyAt z s.czones t.czones ∧
      OnlyAt (chimeOf z) s.circuits t.circuits := by
  have runs : s.strokeOnRuns z = ((s.reach d).writeCZone z { s.czones[z] with
      strokeEnd := none, gapEnd := some (max s.now d + s.czones[z].strokeGap) }).demand (chimeOf z) false .continuous := by
    unfold State.strokeOnRuns
    dsimp only
    rw [due]
    rfl
  have written := State.writeCZone_changes (s.reach d) z { s.czones[z] with
    strokeEnd := none, gapEnd := some (max s.now d + s.czones[z].strokeGap) }
  have czones := State.writeCZone_czones (s.reach d) z { s.czones[z] with
    strokeEnd := none, gapEnd := some (max s.now d + s.czones[z].strokeGap) }
  refine ⟨_, s.takes_powered (State.strokeOnRuns z) powered, ?_⟩
  rw [runs]
  generalize (s.reach d).writeCZone z _ = u at *
  have demanded := u.demand_changes (chimeOf z) false .continuous
  have now : (u.demand (chimeOf z) false .continuous).now = max s.now d :=
    (demanded.same .clock (by decide)).trans (written.same .clock (by decide))
  have zones : (u.demand (chimeOf z) false .continuous).czones = put s.czones z { s.czones[z] with
      strokeEnd := none, gapEnd := some (max s.now d + s.czones[z].strokeGap) } :=
    (demanded.same .czones (by decide)).trans czones
  have circuits : u.circuits = s.circuits := written.same .circuits (by decide)
  rw [now, zones, put_same]
  exact ⟨((s.reach_changes d).andThen (rs := [.clock, .czones, .stations]) written).andThen demanded, rfl, rfl,
    (u.demand_demand _ _ _).1, put_onlyAt _ _ _, circuits ▸ u.demand_onlyAt (chimeOf z) false .continuous⟩

theorem strokeGapElapsed_stroke {d : Nat} (powered : s.powered = true) (due : s.czones[z].gapEnd = some d)
    (more : s.czones[z].strokesSounded < s.czones[z].strokes) :
    ∃ t, exec (.strokeGapElapsed z) s = .next t ∧ ChangesOnly [.clock, .czones, .circuits, .stations] s t ∧
      t.now = max s.now d ∧
      t.czones[z] = { s.czones[z] with
        strokesSounded := s.czones[z].strokesSounded + 1
        strokeEnd := some (t.now + s.czones[z].strokeOn), gapEnd := none } ∧
      t.circuits[chimeOf z].demand = true ∧ OnlyAt z s.czones t.czones ∧
      OnlyAt (chimeOf z) s.circuits t.circuits := by
  have runs : s.strokeGapRuns z = (s.reach d).beginStroke z := by
    unfold State.strokeGapRuns
    dsimp only
    rw [due]
    exact if_pos more
  have frame := State.beginStroke_changes (s.reach d) z
  have now : ((s.reach d).beginStroke z).now = max s.now d := frame.same .clock (by decide)
  have zone := State.beginStroke_czone (s.reach d) z
  have others : OnlyAt z s.czones ((s.reach d).beginStroke z).czones :=
    onlyAt_of_aside (s := s.reach d) fun j ne => (aside_closed ne _).beginStroke (.refl j _)
  have circuits : OnlyAt (chimeOf z) s.circuits ((s.reach d).beginStroke z).circuits := by
    intro j ne
    refine (State.demand_other _ _ _ _ ne).trans ?_
    rw [State.writeCZone_circuits]
    rfl
  refine ⟨_, s.takes_powered (State.strokeGapRuns z) powered, ?_⟩
  rw [runs, now, zone]
  exact ⟨(s.reach_changes d).andThen frame, rfl, rfl, State.beginStroke_demand .., others, circuits⟩

theorem burstEnd_counts {b : Nat} (powered : s.powered = true) (due : s.czones[z].burstEnd = some b) :
    ∃ t, exec (.burstEnd z) s = .next t ∧ ChangesOnly (.clock :: burstParts) s t ∧ t.now = max s.now b ∧
      BurstCounted z (s.czones[z].mode == some .flicker) s t := by
  have runs : s.burstRuns z = (s.reach b).countBurst z := by
    unfold State.burstRuns
    rw [due]
  have frame := State.countBurst_changes (s.reach b) z
  have counted := State.countBurst_counted (s.reach b) z
  refine ⟨_, s.takes_powered (State.burstRuns z) powered, ?_⟩
  rw [runs]
  exact ⟨(s.reach_changes b).andThen frame, frame.same .clock (by decide), counted⟩

/-! ## Light lost, suppressions and bars (R145..R149) -/

theorem announceLit_loses {t : State} (was : s.lit[z] = true) (now : s.litNow z = false)
    (others : ∀ y : Fin 8, y ≠ z → s.lit[y] = s.litNow y) (ht : t = s.announceLit) :
    t.lit[z] = false ∧ OnlyAt z s.lit t.lit ∧ ChangesOnly lightParts s t ∧
      (s.czones[z].mode = some .chimeFlicker →
        t.czones[z] = { s.czones[z] with mode := some .chime, flickerCode := 0 } ∧ t.flickers[z].code = 0 ∧
          OnlyAt z s.czones t.czones ∧ t.calls = s.calls ∧ t.circuits = s.circuits) ∧
      (s.czones[z].mode = some .flicker → BurstCounted z true s t) ∧
      (s.czones[z].mode = some .chime ∨ s.czones[z].mode = none → ChangesOnly [.lit] s t) := by
  have frame := s.announceLit_changes
  rw [State.announceLit_one was now others] at ht frame
  have kept : ChangesOnly [.lit] s ({ s with lit := put s.lit z false } : State) := by
    constructor; intro p hp; cases p <;> simp_all [Part.same]
  have lit : (({ s with lit := put s.lit z false } : State).litLost z).lit = put s.lit z false :=
    (State.litLost_changes ..).same .lit (by decide)
  subst ht
  rw [lit, put_same]
  refine ⟨rfl, put_onlyAt _ _ _, frame, fun mode => ?_, fun mode => ?_, fun mode => ?_⟩
  · have lost : ({ s with lit := put s.lit z false } : State).litLost z =
        (({ s with lit := put s.lit z false } : State).writeCZone z { s.czones[z] with mode := some .chime }).handFlicker
          z 0 := by
      unfold State.litLost
      dsimp only
      rw [mode]
    have others : OnlyAt z s.czones (({ s with lit := put s.lit z false } : State).litLost z).czones :=
      onlyAt_of_aside (s := { s with lit := put s.lit z false }) fun j ne => (aside_closed ne _).litLost (.refl j _)
    have written := State.writeCZone_changes ({ s with lit := put s.lit z false } : State) z
      { s.czones[z] with mode := some .chime }
    have zone : (({ s with lit := put s.lit z false } : State).writeCZone z
        { s.czones[z] with mode := some .chime }).czones[z] = { s.czones[z] with mode := some .chime } :=
      (State.writeCZone_czone ..).trans (if_pos rfl)
    rw [lost] at others ⊢
    generalize ({ s with lit := put s.lit z false } : State).writeCZone z _ = u at *
    have handed := u.handFlicker_changes z 0
    rw [State.handFlicker_czone, State.handFlicker_flicker, zone, (handed.same .calls (by decide)).1,
      (written.same .calls (by decide)).1, (handed.same .circuits (by decide) : _ = _),
      (written.same .circuits (by decide) : _ = _)]
    exact ⟨rfl, rfl, others, rfl, rfl⟩
  · have lost : ({ s with lit := put s.lit z false } : State).litLost z =
        ({ s with lit := put s.lit z false } : State).countBurst z := by
      unfold State.litLost
      dsimp only
      rw [mode]
    have counted := State.countBurst_counted ({ s with lit := put s.lit z false } : State) z
    rw [show ({ s with lit := put s.lit z false } : State).czones[z].mode = some .flicker from mode] at counted
    rw [lost]
    exact counted.of_alike rfl rfl rfl (fun _ _ => rfl) rfl rfl (fun _ => rfl) rfl
  · have lost : ({ s with lit := put s.lit z false } : State).litLost z = { s with lit := put s.lit z false } := by
      unfold State.litLost
      dsimp only
      rcases mode with chime | none_
      · rw [chime]
      · rw [none_]
    rw [lost]
    exact kept

/-- The zone as a suppression that finds no burst leaves it (R147). -/
theorem State.suppress_idle (free : s.czones[z].sounding = none) :
    (s.suppress z).czones[z] = { s.czones[z] with suppressed := true } ∧ ChangesOnly [.czones, .stations] s (s.suppress z) := by
  rw [State.suppress_free free]
  exact ⟨(State.writeCZone_czone ..).trans (if_pos rfl), State.writeCZone_changes ..⟩

/-- What a bar leaves of a call that sounded or waited in the zone (R149). -/
theorem State.bar_call {x : Call} (here : s.czones[z].sounding = some c ∨ c ∈ s.czones[z].queue)
    (found : s.call? c = some x) : (s.bar z).call? c = some (x.ended z .abandoned) := by
  have kept (j : Fin 32) : (s.writeCZone z { s.czones[z] with barred := true }).call? j = s.call? j :=
    State.writeCZone_call? ..
  have zone : (s.writeCZone z { s.czones[z] with barred := true }).czones[z] = { s.czones[z] with barred := true } :=
    (State.writeCZone_czone ..).trans (if_pos rfl)
  unfold State.bar
  dsimp only
  rw [State.dropZone_call?, kept, zone, if_pos here, found]
  rfl

/-- A call whose other deliveries have all ended finishes with the one that ends (R152). -/
theorem Call.ended_finished {x : Call} {st : DeliveryState} (final : st ≠ .waiting ∧ st ≠ .sounding)
    (others : x.deliveries.all (fun f => f.zone == z || !f.unended) = true) : (x.ended z st).finished = true := by
  obtain finished | still := Call.finish_finished (x.editDelivery z (Delivery.endedAs st))
  · exact finished
  · exfalso
    obtain ⟨d, mem, open_⟩ := List.any_eq_true.1 still
    obtain ⟨-, state⟩ | ⟨ne, old⟩ := Call.mem_ended (x := x) (z := z) (st := st) mem
    · simp [Delivery.unended, state, final] at open_
    · have ended := List.all_eq_true.1 others d old
      simp [ne, open_] at ended

/-- R149: a bar stops the burst and ends the deliveries. -/
theorem State.bar_stops (s : State) (z : Fin 8) : BurstStopped z (Delivery.endedAs .abandoned) [] s (s.bar z) := by
  intro c sounding
  have zone : (s.writeCZone z { s.czones[z] with barred := true }).czones[z] = { s.czones[z] with barred := true } :=
    (State.writeCZone_czone ..).trans (if_pos rfl)
  have dropped := (s.writeCZone z { s.czones[z] with barred := true }).dropZone_czone z .abandoned
  have silent := State.dropZone_demand (s := s.writeCZone z { s.czones[z] with barred := true }) (z := z) (c := c) .abandoned
    (by rw [zone]; exact sounding)
  have delivery : (s.bar z).delivery? c z = (s.delivery? c z).map (Delivery.endedAs .abandoned) := by
    unfold State.delivery?
    cases found : s.call? c with
    | none =>
      have still : ((s.bar z).call? c) = none := by
        have kept (j : Fin 32) : (s.writeCZone z { s.czones[z] with barred := true }).call? j = s.call? j :=
          State.writeCZone_call? ..
        unfold State.bar
        dsimp only
        rw [State.dropZone_call?, kept, found]
        exact ite_self _
      rw [still]
      rfl
    | some x =>
      rw [State.bar_call (.inl sounding) found]
      exact (Call.ended_delivery? x z z .abandoned).trans (if_pos rfl)
  rw [zone, show ({ s.czones[z] with barred := true } : CallZone).sounding = some c from sounding] at dropped
  unfold State.bar at delivery ⊢
  dsimp only at delivery ⊢
  rw [dropped]
  exact ⟨rfl, rfl, rfl, rfl, rfl, rfl, rfl, rfl, silent, delivery⟩

theorem State.followSuppression_changes (free : s.czones[z].sounding = none) (now was : Bool) :
    ChangesOnly [.czones, .stations] s (s.followSuppression z now was) := by
  unfold State.followSuppression
  split
  · rw [State.suppress_free free]
    exact State.writeCZone_changes ..
  · split
    · exact State.writeCZone_changes ..
    · exact .refl _ _

/-- R148, R149: what a bar that begins leaves, whatever the suppression does. -/
theorem deriveSilence_barred (present : s.settings.czones[z].present = true) (was : s.czones[z].barred = false)
    (now : s.barredNow z = true) :
    (s.deriveSilence z).czones[z].sounding = none ∧ (s.deriveSilence z).czones[z].queue = [] ∧
      BurstStopped z (fun d => { d with state := .abandoned, resumes := false }) [] s (s.deriveSilence z) ∧
      ∀ c : Fin 32, s.czones[z].sounding = some c ∨ c ∈ s.czones[z].queue → ∀ x, s.call? c = some x →
        (s.deriveSilence z).delivery? c z =
          (x.delivery? z).map (fun d => { d with state := .abandoned, resumes := false }) ∧
        (x.deliveries.all (fun f => f.zone == z || !f.unended) = true →
          ∃ y, (s.deriveSilence z).call? c = some y ∧ y.finished = true) := by
  obtain ⟨-, suppressed, free, queue⟩ := s.bar_czone z
  have stopped := s.bar_stops z
  have frame := State.followSuppression_changes free (s.suppressedNow z) s.czones[z].suppressed
  have zone : ((s.bar z).followSuppression z (s.suppressedNow z) s.czones[z].suppressed).czones[z] =
      { (s.bar z).czones[z] with suppressed := s.suppressedNow z } :=
    congrArg ZoneSight.czone (State.followSuppression_sight free (s.suppressedNow z) _ suppressed)
  have ended (c : Fin 32) (here : s.czones[z].sounding = some c ∨ c ∈ s.czones[z].queue) (x : Call)
      (found : s.call? c = some x) := State.bar_call here found
  rw [State.deriveSilence_bars present was now]
  generalize (s.bar z).followSuppression z (s.suppressedNow z) s.czones[z].suppressed = t at *
  generalize s.bar z = u at *
  rw [zone]
  refine ⟨free, queue, fun c sounding => ?_, fun c here x found => ?_⟩
  · obtain ⟨h1, h2, h3, h4, h5, h6, h7, h8, silent, delivery⟩ := stopped c sounding
    have circuits : t.circuits = u.circuits := frame.same .circuits (by decide)
    rw [zone]
    exact ⟨h1, h2, h3, h4, h5, h6, h7, h8,
      (congrArg (fun v : Vector Circuit 16 => v[chimeOf z].demand) circuits).trans silent,
      (frame.delivery? rfl c z).trans delivery⟩
  · have call : t.call? c = some (x.ended z .abandoned) := (frame.call? rfl c).trans (ended c here x found)
    refine ⟨?_, fun others => ⟨_, call, Call.ended_finished (by decide) others⟩⟩
    unfold State.delivery?
    rw [call]
    exact (Call.ended_delivery? x z z .abandoned).trans (if_pos rfl)

end

/-- Settles O55. -/
theorem burstTimersRun : Obligations.BurstTimersRun := by
  unfold Obligations.BurstTimersRun
  refine ⟨fun z c s d powered found waits => notBeforeDue_looks powered found waits, fun z c s ended => State.takes_still ?_,
    fun z s d => strokeOnElapsed_gap, fun z s d powered due => ⟨strokeGapElapsed_stroke powered due, fun last =>
      State.takes_still ?_⟩, fun z s b => burstEnd_counts, fun z s => ⟨fun idle => State.takes_still ?_,
      fun idle => State.takes_still ?_, fun idle => State.takes_still ?_⟩, fun z s t => announceLit_loses,
    fun z s t present barred suppressed ht hp hb hs => ?_⟩
  · unfold State.notBeforePasses
    split
    · rfl
    next d found => exact if_neg (ended d found)
  · unfold State.strokeGapRuns
    dsimp only
    rw [due]
    exact if_neg (Nat.not_lt.2 last)
  · unfold State.strokeOnRuns
    dsimp only
    rw [idle]
  · unfold State.strokeGapRuns
    dsimp only
    rw [idle]
  · unfold State.burstRuns
    rw [idle]
  subst ht hp hb hs
  refine ⟨s.deriveSilence_changes z, onlyAt_of_aside fun j ne => (aside_closed ne s).deriveSilence (.refl j s),
    fun present => ?_, State.deriveSilence_still, fun present barred was now c sounding d found v hv => ?_,
    deriveSilence_barred, fun present barred was now free => ?_, fun present lifts free w hw => ?_⟩
  · have derived := SilencedAs.deriveSilence s z present
    exact ⟨derived.barred, derived.suppressed⟩
  · subst hv
    rw [State.deriveSilence_suppresses present barred was now]
    refine ⟨State.suppress_stops sounding found, fun alone b before ne x found' y found'' => ?_⟩
    obtain ⟨-, queue, -⟩ := State.suppress_stops sounding found c sounding
    rw [queue] at before
    exact State.cut_first found alone before ne found' found''
  · rw [State.deriveSilence_suppresses present barred was now]
    exact State.suppress_idle free
  · obtain ⟨u, runs, sight⟩ := State.deriveSilence_lifts present lifts free
    have alike : u.sight z = w.sight z := by rw [sight, hw, State.sight_put]
    have zone : u.czones[z] = { s.czones[z] with barred := s.barredNow z, suppressed := s.suppressedNow z } :=
      congrArg ZoneSight.czone sight
    rw [runs]
    exact (State.arbitrate_looks (by rw [zone]; exact free)).of_sight alike

end Sys2Proof.Machine
end

section
/-!
PROOFS. Overloads of a supervised circuit, the chime lost to one, and the station's reset (R144, R159, R162, R163).
-/

namespace Sys2Proof.Machine
-- One proof after another: the whole text stays within the memory of one compile.
set_option Elab.async false

/-! ## A trip (R159, R162) -/

/-- A circuit that has tripped: out of drive, with `retry` its retry time, and no demand drives it (R156, R159). -/
structure Circuit.Tripped (retry : Option Nat) (x : Circuit) : Prop where
  barred : x.condition = .failed ∨ (x.condition = .overload ∧ retry ≠ none)
  drive : x.drive = false
  output : x.switchedOn = false
  clean : x.cleanAt = none
  retries : x.retryAt = retry

theorem Circuit.Tripped.unwanted {retry : Option Nat} {x : Circuit} (h : x.Tripped retry) : x.wantsDrive = false := by
  obtain ⟨barred, -, -, -, retries⟩ := h
  unfold Circuit.wantsDrive
  rcases barred with failed | ⟨overload, waits⟩
  · rw [failed]; exact Bool.and_false _
  · rw [overload, retries, Option.isNone_eq_false_iff.2 (Option.isSome_iff_ne_none.2 waits)]; exact Bool.and_false _

theorem Circuit.Tripped.demandEvent {retry : Option Nat} {x : Circuit} (h : x.Tripped retry) (now : Nat) (on : Bool)
    (pat : Pattern) : (x.demandEvent now on pat).Tripped retry := by
  unfold Circuit.demandEvent
  split
  · exact h
  · extract_lets y w
    have tripped : y.Tripped retry := ⟨h.barred, h.drive, h.output, h.clean, h.retries⟩
    have still : w = y := by
      unfold w Circuit.setDrive
      rw [tripped.unwanted, tripped.drive]
      rfl
    rw [h.drive, still]
    exact tripped

/-- Bursts leave a circuit tripped. -/
theorem tripped_closed (c : Fin 16) (retry : Option Nat) : BurstClosed fun s => s.circuits[c].Tripped retry where
  clock _ h := h
  mark _ h := h
  table _ _ h := h
  czone _ _ _ _ h := h
  chime {s} z on h := by
    rw [State.demand_circuit]
    split
    next own => subst own; exact h.demandEvent ..
    next => exact h
  flicker {s} z code h := by
    rw [(State.flickerRequest_changes s z code).same .circuits (by decide)]
    exact h

/-- What a change of a circuit announces leaves it tripped. -/
theorem State.changeCircuit_tripped {s : State} {c : Fin 16} {x : Circuit} {retry : Option Nat} (h : x.Tripped retry) :
    (s.changeCircuit c x).circuits[c].Tripped retry := by
  have written : (s.writeCircuit c x).circuits[c].Tripped retry := by
    rw [State.writeCircuit_circuits, put_same]
    exact h
  unfold State.changeCircuit State.announceCondition
  dsimp only
  split
  · exact written
  · split
    · have kept : ((s.writeCircuit c x).evalHolds .system).circuits = (s.writeCircuit c x).circuits :=
        (State.evalHolds_changes ..).same .circuits (by decide)
      exact (congrArg (fun v : Vector Circuit 16 => v[c].Tripped retry) kept).mpr written
    · split
      · split
        · exact (tripped_closed c retry).chimeLost _ written
        · exact written
      · exact written

theorem Circuit.trip_eq {x : Circuit} {now : Nat} {retry final : Bool} (last : final = true ↔ 4 ≤ x.overloads + 1 ∨ retry = false) :
    (x.trip now retry).condition = (if final then .failed else .overload) ∧
      (x.trip now retry).overloads = x.overloads + 1 ∧ (x.trip now retry).demand = x.demand ∧
      (x.trip now retry).Tripped (if final then none else some (now + 5000)) := by
  have trips : (x.overloads + 1 ≥ Config.tripLimit ∨ retry = false) ↔ final = true := last.symm
  unfold Circuit.trip
  dsimp only
  cases final with
  | true =>
    rw [if_pos (trips.2 rfl)]
    exact ⟨rfl, rfl, rfl, .inl rfl, rfl, rfl, rfl, rfl⟩
  | false =>
    rw [if_neg (fun h => Bool.false_ne_true (trips.1 h))]
    exact ⟨rfl, rfl, rfl, .inr ⟨rfl, nofun⟩, rfl, rfl, rfl, rfl⟩

theorem zoneOfChime_chimeOf (z : Fin 8) : zoneOfChime (chimeOf z) = some z := by
  revert z; decide

/-- A chime that leaves SOUND is lost to its zone (R144, R164). -/
theorem State.changeCircuit_chime {s : State} {z : Fin 8} {x : Circuit} (was : s.circuits[chimeOf z].condition = .sound)
    (now : x.condition ≠ .sound) :
    s.changeCircuit (chimeOf z) x = (s.writeCircuit (chimeOf z) x).chimeLost z := by
  have written : (s.writeCircuit (chimeOf z) x).circuits[chimeOf z] = x := by
    rw [State.writeCircuit_circuits, put_same]
  unfold State.changeCircuit State.announceCondition
  dsimp only
  rw [written, was, if_neg now.symm, if_neg (show ¬(chimeOf z).1 < 6 from Nat.not_lt.2 (Nat.le_add_right 6 z.1)),
    zoneOfChime_chimeOf]
  exact if_pos rfl

/-! ## A chime lost in a burst (R144) -/

/-- The zone whose chime is lost, the burst going on as flicker (R144). -/
def State.chimeSilent (z : Fin 8) (s : State) : State :=
  (s.writeCZone z { s.czones[z] with mode := some .flicker, strokeEnd := none, gapEnd := none }).demand
    (chimeOf z) false .continuous

section

variable {s : State} {z : Fin 8}

theorem State.chimeSilent_changes (s : State) (z : Fin 8) :
    ChangesOnly [.czones, .circuits, .stations] s (s.chimeSilent z) :=
  (State.writeCZone_changes ..).andThen (State.demand_changes ..)

theorem State.chimeSilent_czones (s : State) (z : Fin 8) : (s.chimeSilent z).czones =
    put s.czones z { s.czones[z] with mode := some .flicker, strokeEnd := none, gapEnd := none } :=
  ((State.demand_changes ..).same .czones (by decide)).trans (State.writeCZone_czones ..)

theorem State.chimeSilent_demand (s : State) (z : Fin 8) : (s.chimeSilent z).circuits[chimeOf z].demand = false :=
  (State.demand_demand ..).1

theorem State.chimeLost_chimeFlicker (mode : s.czones[z].mode = some .chimeFlicker) : s.chimeLost z = s.chimeSilent z := by
  unfold State.chimeLost State.chimeSilent
  dsimp only
  rw [mode]

theorem State.chimeLost_lit (mode : s.czones[z].mode = some .chime) (lit : s.litNow z = true) : s.chimeLost z =
    (s.chimeSilent z).handFlicker z (if ((s.czones[z].sounding.bind s.call?).map (·.flicker)).getD 0 = 0 then 3
      else ((s.czones[z].sounding.bind s.call?).map (·.flicker)).getD 0) := by
  unfold State.chimeLost State.chimeSilent
  dsimp only
  rw [mode]
  exact if_pos lit

theorem State.chimeLost_dark (mode : s.czones[z].mode = some .chime) (dark : s.litNow z = false) :
    s.chimeLost z = (s.chimeSilent z).countBurst z := by
  unfold State.chimeLost State.chimeSilent
  dsimp only
  rw [mode]
  exact if_neg (by rw [dark]; exact Bool.false_ne_true)

/-- R144: in a zone that is not lit the burst ends, counted as one of flicker. -/
theorem State.chimeLost_counted {u : State} (frame : ChangesOnly [.circuits, .stations] s u)
    (mode : s.czones[z].mode = some .chime) (dark : s.litNow z = false) :
    BurstCounted z true { s with circuits := (u.chimeLost z).circuits } (u.chimeLost z) := by
  have czones : u.czones = s.czones := frame.same .czones (by decide)
  have lit : u.litNow z = s.litNow z :=
    State.litNow_congr (frame.same .settings (by decide)) (fun g => by rw [frame.same .groups (by decide)]) z
  have calls : u.calls = s.calls ∧ u.callList = s.callList := frame.same .calls (by decide)
  rw [State.chimeLost_dark (by rw [czones]; exact mode) (lit.trans dark)]
  have counted := State.countBurst_counted (u.chimeSilent z) z
  have conditions := (Sounded.lights (u.chimeSilent z)).countBurst z (.refl _)
  have silent := u.chimeSilent_changes z
  have zones := u.chimeSilent_czones z
  rw [czones] at zones
  have zone : (u.chimeSilent z).czones[z] =
      { s.czones[z] with mode := some .flicker, strokeEnd := none, gapEnd := none } := by rw [zones, put_same]
  rw [show (u.chimeSilent z).czones[z].mode = some .flicker by rw [zone]] at counted
  have still : (u.chimeSilent z).litNow z = s.litNow z :=
    (State.litNow_congr (silent.same .settings (by decide)) (fun g => by rw [silent.same .groups (by decide)]) z).trans lit
  have kept : (u.chimeSilent z).calls = s.calls ∧ (u.chimeSilent z).callList = s.callList := by
    obtain ⟨h1, h2⟩ : (u.chimeSilent z).calls = u.calls ∧ (u.chimeSilent z).callList = u.callList :=
      silent.same .calls (by decide)
    exact ⟨h1.trans calls.1, h2.trans calls.2⟩
  have settings : (u.chimeSilent z).settings = s.settings :=
    (silent.same .settings (by decide)).trans (frame.same .settings (by decide))
  have now : (u.chimeSilent z).now = s.now := (silent.same .clock (by decide)).trans (frame.same .clock (by decide))
  generalize (u.chimeSilent z) = v at *
  have condition := conditions.conditions (chimeOf z)
  generalize v.countBurst z = t at *
  refine counted.of_alike kept.1 kept.2 ?_ (fun j ne => ?_) ?_ ?_ (fun q => ?_) ?_
  · unfold State.sight
    rw [still, settings, now, ← condition]
    simp only [State.call?, kept.1]
    rfl
  · rw [zones]
    exact put_other _ _ _ _ ne
  · rw [zone]
  · rw [zone]
  · rw [zone]; rfl
  · rw [zone]

/-- The chime is lost in a burst by chime in a lit zone (R144). -/
theorem State.chimeLost_flickers {u : State} (frame : ChangesOnly [.circuits, .stations] s u)
    (mode : s.czones[z].mode = some .chime) (lit : s.litNow z = true) :
    (u.chimeLost z).czones[z].mode = some .flicker ∧ (u.chimeLost z).czones[z].sounding = s.czones[z].sounding ∧
      (u.chimeLost z).czones[z].burstEnd = s.czones[z].burstEnd ∧ (u.chimeLost z).circuits[chimeOf z].demand = false ∧
      (u.chimeLost z).flickers[z].start = s.now ∧
      (u.chimeLost z).flickers[z].code = (u.chimeLost z).czones[z].flickerCode ∧
      ∀ k y, s.czones[z].sounding = some k → s.call? k = some y →
        (u.chimeLost z).czones[z].flickerCode = if y.flicker = 0 then 3 else y.flicker := by
  have czones : u.czones = s.czones := frame.same .czones (by decide)
  have still : u.litNow z = s.litNow z :=
    State.litNow_congr (frame.same .settings (by decide)) (fun g => by rw [frame.same .groups (by decide)]) z
  have now : (u.chimeSilent z).now = s.now :=
    ((u.chimeSilent_changes z).same .clock (by decide)).trans (frame.same .clock (by decide))
  have demand := u.chimeSilent_demand z
  have zones := u.chimeSilent_czones z
  rw [czones] at zones
  have zone : (u.chimeSilent z).czones[z] =
      { s.czones[z] with mode := some .flicker, strokeEnd := none, gapEnd := none } := by rw [zones, put_same]
  have calls := frame.call? rfl
  rw [State.chimeLost_lit (by rw [czones]; exact mode) (still.trans lit)]
  generalize u.chimeSilent z = v at *
  generalize code : (if ((u.czones[z].sounding.bind u.call?).map (·.flicker)).getD 0 = 0 then 3
      else ((u.czones[z].sounding.bind u.call?).map (·.flicker)).getD 0) = n
  have circuits : (v.handFlicker z n).circuits = v.circuits := (v.handFlicker_changes z n).same .circuits (by decide)
  rw [State.handFlicker_czone, State.handFlicker_flicker, zone, now]
  refine ⟨rfl, rfl, rfl, (congrArg (fun v : Vector Circuit 16 => v[chimeOf z].demand) circuits).trans demand, rfl, rfl,
    fun k y sounding found => ?_⟩
  have read : ((u.czones[z].sounding.bind u.call?).map (·.flicker)).getD 0 = y.flicker := by
    rw [czones, sounding, Option.bind_some, calls, found]
    rfl
  rw [read] at code
  exact code.symm

end

/-- R159: an overload event of a driven circuit whose output is on. -/
theorem overloadEvent_trips {c : Fin 16} {s : State} {final : Bool} (powered : s.powered = true)
    (drive : s.circuits[c].drive = true) (on : s.circuits[c].switchedOn = true)
    (last : final = true ↔ 4 ≤ s.circuits[c].overloads + 1 ∨ s.settings.circuits[c].retry = false) :
    ∃ t, exec (.overloadEvent c) s = .next t ∧ ChangesOnly (.holds :: burstParts) s t ∧
      t.circuits[c].condition = (if final then .failed else .overload) ∧
      t.circuits[c].overloads = s.circuits[c].overloads + 1 ∧ t.circuits[c].drive = false ∧
      t.circuits[c].switchedOn = false ∧ t.circuits[c].cleanAt = none ∧
      t.circuits[c].retryAt = (if final then none else some (s.now + 5000)) ∧
      (isChime c = false → OnlyAt c s.circuits t.circuits ∧ t.circuits[c].demand = s.circuits[c].demand ∧
        ChangesOnly [.circuits, .holds, .stations] s t) ∧
      (∀ z : Fin 8, c = chimeOf z → s.circuits[c].condition = .sound → s.czones[z].mode = some .chimeFlicker →
        t.czones[z] = { s.czones[z] with mode := some .flicker, strokeEnd := none, gapEnd := none } ∧
          t.circuits[c].demand = false) ∧
      (∀ z : Fin 8, c = chimeOf z → s.circuits[c].condition = .sound → s.czones[z].mode = some .chime →
        s.litNow z = true →
        t.czones[z].mode = some .flicker ∧ t.czones[z].sounding = s.czones[z].sounding ∧
          t.czones[z].burstEnd = s.czones[z].burstEnd ∧ t.circuits[c].demand = false ∧
          t.flickers[z].start = s.now ∧ t.flickers[z].code = t.czones[z].flickerCode ∧
          ∀ k y, s.czones[z].sounding = some k → s.call? k = some y →
            t.czones[z].flickerCode = if y.flicker = 0 then 3 else y.flicker) ∧
      (∀ z : Fin 8, c = chimeOf z → s.circuits[c].condition = .sound → s.czones[z].mode = some .chime →
        s.litNow z = false → BurstCounted z true { s with circuits := t.circuits } t) := by
  obtain ⟨condition, count, demand, tripped⟩ := Circuit.trip_eq (x := s.circuits[c]) (now := s.now) last
  have runs : s.overloads c = s.changeCircuit c (s.circuits[c].trip s.now s.settings.circuits[c].retry) := by
    unfold State.overloads
    dsimp only
    rw [drive, on]
    rfl
  generalize s.circuits[c].trip s.now s.settings.circuits[c].retry = y at *
  have frame := s.overloads_changes c
  rw [runs] at frame
  obtain ⟨judged, counted, -⟩ := s.changeCircuit_judged c y c
  have written := s.writeCircuit_changes c y
  obtain ⟨-, drive', output, clean, retries⟩ := State.changeCircuit_tripped (s := s) (c := c) tripped
  rw [State.writeCircuit_circuits, put_same] at judged counted
  have unsound : y.condition ≠ .sound := by
    rw [condition]
    cases final <;> decide
  refine ⟨_, s.takes_powered (State.overloads c) powered, ?_⟩
  rw [runs]
  refine ⟨frame, judged.trans condition, counted.trans count, drive', output, clean, retries, fun other => ?_,
    fun z own was mode => ?_, fun z own was mode lit => ?_, fun z own was mode dark => ?_⟩
  · obtain ⟨alone, circuits⟩ := State.changeCircuit_own (s := s) (c := c) (x := y) (.inl other)
    rw [circuits, put_same]
    exact ⟨put_onlyAt _ _ _, demand, alone⟩
  · subst own
    rw [State.changeCircuit_chime was unsound]
    have czones : (s.writeCircuit (chimeOf z) y).czones = s.czones := written.same .czones (by decide)
    rw [State.chimeLost_chimeFlicker (by rw [czones]; exact mode), State.chimeSilent_czones, put_same, czones]
    exact ⟨rfl, State.chimeSilent_demand ..⟩
  · subst own
    rw [State.changeCircuit_chime was unsound]
    exact State.chimeLost_flickers written mode lit
  · subst own
    rw [State.changeCircuit_chime was unsound]
    exact State.chimeLost_counted written mode dark

end Sys2Proof.Machine
end

section
/-!
PROOFS. AMEND of a CIRCUIT record: a station's reset, alone and beside settings (R163, R164, R194).
-/

namespace Sys2Proof.Machine
-- One proof after another: the whole text stays within the memory of one compile.
set_option Elab.async false

/-! ## The reset of one circuit (R163) -/

theorem Circuit.resetByStation_idle {x : Circuit} (h : x.condition = .sound ∨ x.condition = .openLoad) (now : Nat) :
    x.resetByStation now = x := by
  unfold Circuit.resetByStation
  rcases h with sound | open_
  · rw [sound]
  · rw [open_]

/-- A circuit that had tripped is SOUND and driven from its demand (R163). -/
structure Circuit.Reset (x y : Circuit) : Prop where
  condition : y.condition = .sound
  overloads : y.overloads = 0
  retry : y.retryAt = none
  clean : y.cleanAt = none
  off : y.offAt = none
  demand : y.demand = x.demand
  drive : y.drive = x.demand
  output : x.drive = false → y.switchedOn = (x.demand || x.switchedOn)

theorem Circuit.resetByStation_tripped {x : Circuit} (h : x.condition = .overload ∨ x.condition = .failed) (now : Nat) :
    x.Reset (x.resetByStation now) := by
  have clean : x.resetByStation now = x.judgedClean.setDrive now := by
    unfold Circuit.resetByStation
    rcases h with overload | failed
    · rw [overload]
    · rw [failed]
  have wants : x.judgedClean.wantsDrive = x.demand := Bool.and_true _
  rw [clean]
  unfold Circuit.setDrive
  rw [wants]
  cases demand : x.demand with
  | true =>
    rw [if_pos rfl]
    split
    next driven =>
      exact ⟨rfl, rfl, rfl, rfl, rfl, rfl, driven.trans demand.symm, fun idle => absurd (idle.symm.trans driven) nofun⟩
    next => exact ⟨rfl, rfl, rfl, rfl, rfl, rfl, demand.symm, fun _ => by rw [demand]; rfl⟩
  | false =>
    rw [if_neg Bool.false_ne_true]
    split
    next driven =>
      exact ⟨rfl, rfl, rfl, rfl, rfl, rfl, demand.symm, fun idle => absurd (idle.symm.trans driven) nofun⟩
    next idle =>
      exact ⟨rfl, rfl, rfl, rfl, rfl, rfl, (Bool.eq_false_iff.2 idle).trans demand.symm, fun _ => by rw [demand]; rfl⟩

/-- A circuit changed to what it is is no change (R164). -/
theorem State.changeCircuit_self (s : State) (c : Fin 16) : s.changeCircuit c s.circuits[c] = s := by
  have written : s.writeCircuit c s.circuits[c] = s := by
    unfold State.writeCircuit
    dsimp only
    rw [put_self]
    simp only [bne_self_eq_false, Bool.or_self, Bool.and_false]
    rfl
  unfold State.changeCircuit
  rw [written]
  exact if_pos rfl

/-- A reset changes the circuit and the hold it raises (R163, R164). -/
theorem State.changeCircuit_reset (s : State) (c : Fin 16) (now : Nat) :
    ChangesOnly [.circuits, .holds, .stations] s (s.changeCircuit c (s.circuits[c].resetByStation now)) ∧
      (s.changeCircuit c (s.circuits[c].resetByStation now)).circuits =
        put s.circuits c (s.circuits[c].resetByStation now) := by
  refine State.changeCircuit_own (.inr ?_)
  by_cases sound : s.circuits[c].condition = .sound
  · rw [Circuit.resetByStation_idle (.inl sound)]
    exact .inr rfl
  · exact .inl sound

/-- In DARK no hold follows (R20). -/
theorem State.changeCircuit_dark {s : State} (dark : ∀ a, s.phase a = .dark) {c : Fin 16} {x : Circuit}
    (h : s.circuits[c].condition ≠ .sound ∨ x.condition = s.circuits[c].condition) :
    s.changeCircuit c x = s.writeCircuit c x := by
  have perfs : (s.writeCircuit c x).perfs = s.perfs := (s.writeCircuit_changes c x).same .perfs (by decide)
  have written : (s.writeCircuit c x).circuits[c] = x := by rw [State.writeCircuit_circuits, put_same]
  unfold State.changeCircuit State.announceCondition
  dsimp only
  rw [written]
  split
  · rfl
  next changed =>
    split
    · exact State.evalHolds_dark (fun a => by rw [State.phase, perfs]; exact dark a) _
    · split
      · rcases h with unsound | same
        · exact if_neg unsound
        · exact absurd same.symm changed
      · rfl

/-! ## AMEND of a CIRCUIT record (R163, R194) -/

section

variable {r : Req} {c : Fin 16} (index : r.index.toNat = c.1 + 1)
include index

theorem State.amendReq_circuit (l : Bool) (st : Fin 8) (u : State) :
    State.amendReq l ⟨st, .circuit, r⟩ u = u.amendCircuit ⟨st, .circuit, r⟩ c := by
  simp only [State.amendReq, entryOf_eq_some index]

theorem State.reads_circuit (u : State) : u.reads .circuit r.index = u.circuitFields c := by
  unfold State.reads State.table
  rw [entryOf_eq_some index, State.circuitFields_eq]
  rfl

theorem Settings.asked_circuit (fs : List FieldVal) (x : Settings) :
    x.asked .circuit r.index fs = x.withCircuit c (x.circuits[c].asked fs) := by
  unfold Settings.asked
  rw [entryOf_eq_some index]
  rfl

end

section

variable {q : Ask} {c : Fin 16} {u : State}

theorem State.amendCircuit_flawed {w : Flaw × FieldVal} (flaw : firstFlaw (circuitForm c) q.req.fields = some w) :
    u.amendCircuit q c = q.flawed w (u.circuitFields c) u := by
  simp only [State.amendCircuit, flaw]

/-- A CIRCUIT request of good form: the role for a reset, the locks for settings (R163, R194). -/
theorem State.amendCircuit_formed (form : firstFlaw (circuitForm c) q.req.fields = none) : u.amendCircuit q c =
    if carries q.req.fields 128 = true ∧ (u.role q.st ≠ .fire ∧ u.role q.st ≠ .engineer) then
      q.says .notPermitted (u.circuitFields c) u
    else
      match u.settingsStop q with
      | some status => q.says status (u.circuitFields c) u
      | none => q.says .done ((u.applyCircuit c q.req.fields).circuitFields c) (u.applyCircuit c q.req.fields) := by
  have other : (carries q.req.fields 128 && !(u.role q.st == .fire || u.role q.st == .engineer)) = true ↔
      carries q.req.fields 128 = true ∧ (u.role q.st ≠ .fire ∧ u.role q.st ≠ .engineer) := by
    rw [Bool.and_eq_true, Bool.not_eq_true', Bool.or_eq_false_iff, beq_eq_false_iff_ne, beq_eq_false_iff_ne]
  unfold State.amendCircuit
  simp only [form, other] <;> rfl

end

theorem State.frameGood_circuits (s : State) : s.frameGood.circuits = s.circuits :=
  s.frameGood_changes.same .circuits (by decide)

section

variable {s : State} {c : Fin 16} {fs : List FieldVal}

theorem State.serveCircuit_same (x : CircuitSettings) : s.serveCircuit x x = s := by
  unfold State.serveCircuit
  rw [bne_self_eq_false]
  rfl

/-- An accepted reset alone (R163). -/
theorem State.applyCircuit_alone : s.applyCircuit c [⟨128, 1⟩] = s.changeCircuit c (s.circuits[c].resetByStation s.now) := by
  have plain : [(⟨128, 1⟩ : FieldVal)].foldl CircuitSettings.amend s.settings.circuits[c] = s.settings.circuits[c] := rfl
  rw [State.applyCircuit_settled, plain]
  dsimp only
  rw [bne_self_eq_false, s.settled_self _ ((settingsAt_circuit c).set_get s.settings), State.serveCircuit_same]
  rfl

/-- Settings of a circuit accepted, in DARK, with or without a reset (R163, R164, R193). -/
theorem State.applyCircuit_dark (once : (fs.map (·.id)).Nodup) (form : ∀ f ∈ fs, circuitForm c f = none)
    (dark : ∀ a, s.phase a = .dark) :
    ChangesOnly [.settings, .store, .circuits, .stations] s (s.applyCircuit c fs) ∧
      SettingsWritten (s.settings.withCircuit c (s.settings.circuits[c].asked fs)) s (s.applyCircuit c fs) ∧
      (s.applyCircuit c fs).circuits = put s.circuits c
        (if carries fs 128 = true then s.circuits[c].resetByStation s.now else s.circuits[c]) := by
  have fold : fs.foldl CircuitSettings.amend s.settings.circuits[c] = s.settings.circuits[c].asked fs :=
    CircuitSettings.foldl_amend once form _
  rw [State.applyCircuit_settled, fold]
  dsimp only
  generalize s.settings.circuits[c].asked fs = new
  have settled := s.settled_changes (s.settings.withCircuit c new) (s.settings.circuits[c] != new)
  have written := (settingsAt_circuit c).written s new
  generalize s.settled (s.settings.withCircuit c new) (s.settings.circuits[c] != new) = t at *
  have darkOf {u : State} (perfs : u.perfs = s.perfs) (a : Fin 3) : u.phase a = .dark := by
    rw [State.phase, perfs]
    exact dark a
  have perfs : t.perfs = s.perfs := settled.same .perfs (by decide)
  have served : ChangesOnly [.stations] t (t.serveCircuit s.settings.circuits[c] new) := by
    unfold State.serveCircuit
    split
    · have marked := t.mark_changes .circuit
      rw [State.evalHolds_dark (darkOf ((marked.same .perfs (by decide)).trans perfs))]
      exact marked
    · exact .refl _ _
  have circuits : (t.serveCircuit s.settings.circuits[c] new).circuits = s.circuits :=
    (served.same .circuits (by decide)).trans (settled.same .circuits (by decide))
  have now : (t.serveCircuit s.settings.circuits[c] new).now = s.now :=
    (served.same .clock (by decide)).trans (settled.same .clock (by decide))
  have perfs' : (t.serveCircuit s.settings.circuits[c] new).perfs = s.perfs := (served.same .perfs (by decide)).trans perfs
  have kept := written.andThen served
  have frame : ChangesOnly [.settings, .store, .stations] s (t.serveCircuit s.settings.circuits[c] new) :=
    settled.andThen served
  generalize t.serveCircuit s.settings.circuits[c] new = v at *
  unfold State.resetCircuit
  split
  next resets =>
    have reset : v.changeCircuit c (v.circuits[c].resetByStation v.now) =
        v.writeCircuit c (v.circuits[c].resetByStation v.now) := by
      refine State.changeCircuit_dark (darkOf perfs') ?_
      by_cases sound : v.circuits[c].condition = .sound
      · exact .inr (by rw [Circuit.resetByStation_idle (.inl sound)])
      · exact .inl sound
    rw [reset]
    have wrote := v.writeCircuit_changes c (v.circuits[c].resetByStation v.now)
    refine ⟨frame.andThen wrote, kept.andThen wrote, ?_⟩
    rw [State.writeCircuit_circuits, circuits, now]
  next =>
    refine ⟨frame.mono (by decide), kept, ?_⟩
    rw [put_self, circuits]

end

/-! ## The reset as a request (R163, R194) -/

/-- A request of good form for a circuit. -/
structure CircuitAsked (act : Instr) (r : Req) (c : Fin 16) (st : Fin 8) (s : State) : Prop where
  fixed : FixedAsked act .circuit r st s
  index : r.index.toNat = c.1 + 1
  form : firstFlaw (circuitForm c) r.fields = none

namespace CircuitAsked

variable {act : Instr} {r : Req} {c : Fin 16} {st : Fin 8} {s : State}

/-- The owner's decision on a request of good form. -/
theorem decided (h : CircuitAsked act r c st s) : State.amendReq (limitInOf act) ⟨st, .circuit, r⟩ s.frameGood =
    if carries r.fields 128 = true ∧ (s.role st ≠ .fire ∧ s.role st ≠ .engineer) then
      Ask.says ⟨st, .circuit, r⟩ .notPermitted (s.frameGood.circuitFields c) s.frameGood
    else
      match s.frameGood.settingsStop ⟨st, .circuit, r⟩ with
      | some status => Ask.says ⟨st, .circuit, r⟩ status (s.frameGood.circuitFields c) s.frameGood
      | none => Ask.says ⟨st, .circuit, r⟩ .done ((s.frameGood.applyCircuit c r.fields).circuitFields c)
          (s.frameGood.applyCircuit c r.fields) := by
  rw [State.amendReq_circuit h.index, State.amendCircuit_formed h.form, State.frameGood_role] <;> rfl

theorem turned (h : CircuitAsked act r c st s) {status : Status}
    (answer : State.amendReq (limitInOf act) ⟨st, .circuit, r⟩ s.frameGood =
      Ask.says ⟨st, .circuit, r⟩ status (s.frameGood.circuitFields c) s.frameGood) :
    ∃ t, exec act s = .next t ∧ ChangesOnly [.link] s.frameGood t ∧
      Replies t s.settings.part.address r.station status none .circuit (c.1 + 1) 0 (s.frameGood.circuitFields c) := by
  rw [← h.index]
  exact h.fixed.turned answer

theorem done (h : CircuitAsked act r c st s)
    (answer : State.amendReq (limitInOf act) ⟨st, .circuit, r⟩ s.frameGood =
      Ask.says ⟨st, .circuit, r⟩ .done ((s.frameGood.applyCircuit c r.fields).circuitFields c)
        (s.frameGood.applyCircuit c r.fields)) :
    ∃ a t, t = (s.frameGood.applyCircuit c r.fields).reply s.settings.part.address r.station a ∧ exec act s = .next t ∧
      Replies t s.settings.part.address r.station .done none .circuit (c.1 + 1) 0 (t.circuitFields c) := by
  obtain ⟨a, t, left, run, reply⟩ := h.fixed.done answer
  have shown : t.circuitFields c = (s.frameGood.applyCircuit c r.fields).circuitFields c := by rw [left]; rfl
  refine ⟨a, t, left, run, ?_⟩
  rw [← h.index, shown]
  exact reply

/-- R194: settings are turned away by the checks on role, store and locks. -/
theorem locked (h : CircuitAsked act r c st s) (settles : amendsSettings .circuit r.fields = true) {status : Status}
    {why : Option Reason} (locks : s.lockedOut st = some (status, why)) :
    ∃ t, exec act s = .next t ∧ ChangesOnly [.link] s.frameGood t ∧
      Replies t s.settings.part.address r.station status why .circuit (c.1 + 1) 0 (s.frameGood.circuitFields c) := by
  have decided := h.decided
  rw [State.settingsStop_of settles] at decided
  by_cases other : carries r.fields 128 = true ∧ (s.role st ≠ .fire ∧ s.role st ≠ .engineer)
  · rw [if_pos other] at decided
    obtain ⟨-, -, role⟩ := other
    rw [State.lockedOut, if_pos role] at locks
    cases locks
    exact h.turned decided
  · rw [if_neg other] at decided
    rw [← s.frameGood_lockedOut, State.lockedOut_eq] at locks
    obtain ⟨w, bar, same⟩ := Option.map_eq_some_iff.1 locks
    cases same
    rw [bar] at decided
    exact h.turned decided

/-- R163, R193, R194: settings accepted are applied whole, with a reset beside them. -/
theorem applied (h : CircuitAsked act r c st s) (locks : s.lockedOut st = none) :
    ∃ a t, t = (s.frameGood.applyCircuit c r.fields).reply s.settings.part.address r.station a ∧ exec act s = .next t ∧
      (∀ a, s.frameGood.phase a = .dark) ∧
      Replies t s.settings.part.address r.station .done none .circuit (c.1 + 1) 0 (t.circuitFields c) := by
  have free : s.frameGood.settingsBar st = none := by
    rw [← s.frameGood_lockedOut, State.lockedOut_eq] at locks
    exact Option.map_eq_none_iff.1 locks
  have stop : s.frameGood.settingsStop ⟨st, .circuit, r⟩ = none := by
    cases settles : amendsSettings .circuit r.fields with
    | true => rw [State.settingsStop_of settles]; exact free
    | false => exact State.settingsStop_of_none settles
  unfold State.lockedOut at locks
  split at locks
  · cases locks
  next engineer =>
    split at locks
    · cases locks
    · split at locks
      · cases locks
      next open_ =>
        have decided := h.decided
        rw [if_neg (fun k => engineer k.2.2), stop] at decided
        obtain ⟨a, t, left, run, reply⟩ := h.done decided
        refine ⟨a, t, left, run, fun p => ?_, reply⟩
        rw [State.frameGood_phase]
        by_contra lit
        exact open_ (.inl ⟨p, lit⟩)

end CircuitAsked

/-- R163: a reset alone. -/
theorem resetCircuit_alone (q : AmendReq) (c : Fin 16) (st : Fin 8) (s u : State) (x : Circuit)
    (h : HeardAlone s q st (c.1 + 1) 0) (hu : u = s.frameGood) (hx : x = s.circuits[c]) (listens : s.role st ≠ .none)
    (able : s.role st ≠ .view) :
    (s.role st ≠ .fire → s.role st ≠ .engineer →
      ∃ t, exec (.resetCircuit q) s = .next t ∧ ChangesOnly [.link] u t ∧
        Replies t s.settings.part.address q.station .notPermitted none .circuit (c.1 + 1) 0 (u.circuitFields c)) ∧
    (s.role st = .fire ∨ s.role st = .engineer →
      (x.condition = .sound ∨ x.condition = .openLoad →
        ∃ t, exec (.resetCircuit q) s = .next t ∧ ChangesOnly [.link] u t ∧
          Replies t s.settings.part.address q.station .done none .circuit (c.1 + 1) 0 (u.circuitFields c)) ∧
      (x.condition = .overload ∨ x.condition = .failed →
        ∃ t, exec (.resetCircuit q) s = .next t ∧ ChangesOnly [.link, .circuits, .holds, .stations] u t ∧
          OnlyAt c u.circuits t.circuits ∧ t.circuits[c].condition = .sound ∧
          t.circuits[c].overloads = 0 ∧ t.circuits[c].retryAt = none ∧ t.circuits[c].cleanAt = none ∧
          t.circuits[c].offAt = none ∧ t.circuits[c].demand = x.demand ∧ t.circuits[c].drive = x.demand ∧
          (x.drive = false → t.circuits[c].switchedOn = (x.demand || x.switchedOn)) ∧
          Replies t s.settings.part.address q.station .done none .circuit (c.1 + 1) 0 (t.circuitFields c))) := by
  subst hu hx
  have fields := h.fields 128 1
  have asks : CircuitAsked (.resetCircuit q) (q.withField 128 1) c st s := by
    refine ⟨.alone rfl rfl h listens able ⟨Nat.le_add_left .., c.isLt⟩, ?_, by rw [fields]; rfl⟩
    obtain ⟨-, -, -, -, -, index, -⟩ := h
    exact index
  have decided := asks.decided
  rw [fields, State.settingsStop_of_none (by rw [fields]; rfl)] at decided
  refine ⟨fun fire engineer => ?_, fun role => ?_⟩
  · rw [if_pos ⟨rfl, fire, engineer⟩] at decided
    exact asks.turned decided
  rw [if_neg (fun k => role.elim k.2.1 k.2.2), ← fields] at decided
  obtain ⟨a, t, left, run, reply⟩ := asks.done decided
  rw [fields, State.applyCircuit_alone] at left
  refine ⟨fun idle => ?_, fun tripped => ?_⟩
  · rw [Circuit.resetByStation_idle (by rw [State.frameGood_circuits]; exact idle), State.changeCircuit_self] at left
    refine ⟨t, run, by rw [left]; exact State.reply_changes .., ?_⟩
    have shown : t.circuitFields c = s.frameGood.circuitFields c := by rw [left]; rfl
    rw [← shown]
    exact reply
  · obtain ⟨frame, circuits⟩ := s.frameGood.changeCircuit_reset c s.frameGood.now
    have reset := Circuit.resetByStation_tripped tripped s.frameGood.now
    have left' : t.circuits = put s.frameGood.circuits c (s.frameGood.circuits[c].resetByStation s.frameGood.now) := by
      rw [left]; exact circuits
    have here : t.circuits[c] = s.circuits[c].resetByStation s.frameGood.now := by
      rw [left', put_same, State.frameGood_circuits]
    refine ⟨t, run, by rw [left]; exact frame.andThen (State.reply_changes ..), left' ▸ put_onlyAt _ _ _, ?_⟩
    rw [here]
    exact ⟨reset.condition, reset.overloads, reset.retry, reset.clean, reset.off, reset.demand, reset.drive, reset.output,
      reply⟩

/-- Settles O57. -/
theorem overloadTripsAndReset : Obligations.OverloadTripsAndReset := by
  unfold Obligations.OverloadTripsAndReset
  refine ⟨fun c s x powered hx => ?_, resetCircuit_alone, ?_⟩
  · subst hx
    refine ⟨fun idle => State.takes_still ?_, fun drive on final last => overloadEvent_trips powered drive on last⟩
    unfold State.overloads
    dsimp only
    rcases idle with undriven | off
    · rw [undriven]; rfl
    · rw [off, Bool.and_false]; rfl
  · rintro q r c st s u rfl heard index issue rfl listens able once some_ settings
    have form (f : FieldVal) (mem : f ∈ (q.withField 128 1).fields) : circuitForm c f = none := by
      rcases mem_withField.1 mem with rfl | mem
      · rfl
      · rw [← formOf_circuit (q.withField 128 1).index (q.withField 128 1).fields f index]
        exact (settings f mem).2
    have low : ∀ f ∈ q.before ++ q.after, 1 ≤ idOf f ∧ idOf f ≤ topSetting .circuit := fun f mem => by
      refine ⟨Nat.one_le_iff_ne_zero.2 fun zero => ?_, (settings f mem).1⟩
      have good := form f (mem_withField.2 (.inr mem))
      unfold circuitForm at good
      rw [zero] at good
      cases good
    have settles : amendsSettings .circuit (q.withField 128 1).fields = true := amendsSettings_beside low some_
    have asks : CircuitAsked (.resetCircuit q) (q.withField 128 1) c st s :=
      ⟨⟨rfl, rfl, heard, listens, able, once, ⟨(Nat.le_add_left 1 c.1).trans index.ge, index.le.trans c.2⟩, issue⟩, index,
        firstFlaw_eq_none.2 form⟩
    refine ⟨fun status why locks => ?_, fun locks => ?_⟩
    · rw [State.reads_circuit index]
      exact asks.locked settles locks
    · obtain ⟨a, t, left, run, dark, reply⟩ := asks.applied locks
      obtain ⟨frame, written, circuits⟩ := State.applyCircuit_dark (c := c) once form dark
      rw [if_pos (show carries (q.withField 128 1).fields 128 = true from withField_carries q 128 1), State.frameGood_circuits] at circuits
      have left' : t.circuits = put s.circuits c (s.circuits[c].resetByStation s.frameGood.now) := by
        rw [left]; exact circuits
      have here : t.circuits[c] = s.circuits[c].resetByStation s.frameGood.now := by rw [left', put_same]
      rw [Settings.asked_circuit index, State.frameGood_circuits]
      refine ⟨t, run, by rw [left]; exact frame.andThen (State.reply_changes ..), ?_, left' ▸ put_onlyAt _ _ _,
        fun idle => here.trans (Circuit.resetByStation_idle idle _), fun tripped => ?_,
        by rw [State.reads_circuit index]; exact reply⟩
      · rw [← State.frameGood_settings, left]
        exact written
      · have reset := Circuit.resetByStation_tripped tripped s.frameGood.now
        rw [here]
        exact ⟨reset.condition, reset.overloads, reset.retry, reset.clean, reset.off, reset.demand, reset.drive⟩

end Sys2Proof.Machine
end

section
/-!
PROOFS. Silencing an incident and retiring it (R78, R81, R97, R100, R101).
-/

namespace Sys2Proof.Machine
-- One proof after another: the whole text stays within the memory of one compile.
set_option Elab.async false

/-! ## A call that neither sounds nor waits (R101) -/

/-- Call `c` neither sounds nor waits in a queue, and its slot is the one it has in `s₀`. -/
structure Untouched (c : Fin 32) (s₀ s : State) : Prop where
  sounding : ∀ z : Fin 8, s.czones[z].sounding ≠ some c
  queue : ∀ z : Fin 8, c ∉ s.czones[z].queue
  slot : s.calls[c] = s₀.calls[c]

namespace Untouched

variable {c j : Fin 32} {z : Fin 8} {s₀ s t : State}

theorem of_changes {ps : List Part} (h : Untouched c s₀ s) (frame : ChangesOnly ps s t)
    (out : ps.all (fun p => !([.czones, .calls] : List Part).contains p) = true := by rfl) : Untouched c s₀ t := by
  have same (p : Part) (mem : p ∈ ([.czones, .calls] : List Part)) : p.same s t := frame.same p fun inside => by
    have := List.all_eq_true.1 out p inside
    simp only [Bool.not_eq_true', List.contains_eq_mem, decide_eq_false_iff_not] at this
    exact this mem
  have czones : t.czones = s.czones := same .czones (by simp)
  obtain ⟨calls, -⟩ : t.calls = s.calls ∧ t.callList = s.callList := same .calls (by simp)
  exact ⟨fun z => by rw [czones]; exact h.sounding z, fun z => by rw [czones]; exact h.queue z, by rw [calls]; exact h.slot⟩

theorem writeCZone (h : Untouched c s₀ s) (z : Fin 8) (x : CallZone) (sounding : x.sounding ≠ some c) (queue : c ∉ x.queue) :
    Untouched c s₀ (s.writeCZone z x) := by
  have here := put_same s.czones z x
  have others := put_onlyAt s.czones z x
  rw [← State.writeCZone_czones] at here others
  have calls : (s.writeCZone z x).calls = s.calls := ((s.writeCZone_changes z x).same .calls (by decide)).1
  generalize s.writeCZone z x = t at *
  refine ⟨fun y => ?_, fun y => ?_, by rw [calls]; exact h.slot⟩
  · by_cases own : y = z
    · rw [own, here]; exact sounding
    · rw [others y own]; exact h.sounding y
  · by_cases own : y = z
    · rw [own, here]; exact queue
    · rw [others y own]; exact h.queue y

/-- A write of a zone that keeps its burst and its queue. -/
theorem keepCZone (h : Untouched c s₀ s) (z : Fin 8) {x : CallZone} (sounding : x.sounding = s.czones[z].sounding := by rfl)
    (queue : x.queue = s.czones[z].queue := by rfl) : Untouched c s₀ (s.writeCZone z x) :=
  h.writeCZone z x (sounding ▸ h.sounding z) (queue ▸ h.queue z)

theorem writeCall (h : Untouched c s₀ s) (ne : j ≠ c) (x : Call) : Untouched c s₀ (s.writeCall j x) := by
  have czones : (s.writeCall j x).czones = s.czones := (s.writeCall_changes j x).same .czones (by decide)
  have slot : (s.writeCall j x).calls[c] = s.calls[c] := by
    rw [State.writeCall_calls]
    exact put_other _ _ _ _ ne.symm
  generalize s.writeCall j x = t at *
  exact ⟨fun z => by rw [czones]; exact h.sounding z, fun z => by rw [czones]; exact h.queue z, slot.trans h.slot⟩

theorem editDelivery (h : Untouched c s₀ s) (ne : j ≠ c) (f : Delivery → Delivery) :
    Untouched c s₀ (s.editDelivery j z f) := by
  unfold State.editDelivery
  split
  · exact h
  · exact h.writeCall ne _

theorem finishCall (h : Untouched c s₀ s) (ne : j ≠ c) : Untouched c s₀ (s.finishCall j) := by
  unfold State.finishCall
  split
  · exact h
  · split
    · exact h
    · exact h.writeCall ne _

theorem endDelivery (h : Untouched c s₀ s) (ne : j ≠ c) (st : DeliveryState) : Untouched c s₀ (s.endDelivery j z st) :=
  (h.editDelivery ne _).finishCall ne

theorem joinQueue (h : Untouched c s₀ s) (ne : j ≠ c) : Untouched c s₀ (s.joinQueue z j) := by
  refine h.writeCZone z _ (h.sounding z) fun mem => ?_
  unfold State.queuePlace at mem
  rcases List.mem_append.1 mem with front | back
  · exact h.queue z (List.mem_of_mem_erase ((List.takeWhile_sublist _).subset front))
  · rcases List.mem_cons.1 back with same | back
    · exact ne same.symm
    · exact h.queue z (List.mem_of_mem_erase ((List.dropWhile_sublist _).subset back))

theorem leaveQueue (h : Untouched c s₀ s) : Untouched c s₀ (s.leaveQueue z j) :=
  h.writeCZone z _ (h.sounding z) fun mem => h.queue z (List.mem_of_mem_erase mem)

theorem beginStroke (h : Untouched c s₀ s) : Untouched c s₀ (s.beginStroke z) := by
  unfold State.beginStroke
  exact (h.keepCZone z).of_changes (State.demand_changes ..)

theorem handFlicker (h : Untouched c s₀ s) (code : Nat) : Untouched c s₀ (s.handFlicker z code) := by
  unfold State.handFlicker
  exact (h.keepCZone z).of_changes (State.flickerRequest_changes ..)

theorem startBurst (h : Untouched c s₀ s) (ne : j ≠ c) (m : BurstMode) (code : Nat) :
    Untouched c s₀ (s.startBurst z j m code) := by
  unfold State.startBurst
  have edited := h.editDelivery (z := z) ne fun d => { d with state := .sounding, resumes := false }
  extract_lets cfg strokes s1 cz s2
  have begun : Untouched c s₀ s2 :=
    edited.writeCZone z _ (fun same => ne (Option.some.inj same)) fun mem => edited.queue z (List.mem_of_mem_erase mem)
  split
  · exact begun.beginStroke
  · exact (begun.handFlicker _).beginStroke
  · exact begun.handFlicker _

theorem queued_ne (h : Untouched c s₀ s) (mem : j ∈ s.czones[z].queue) : j ≠ c := by
  rintro rfl
  exact h.queue z mem

theorem sounding_ne (h : Untouched c s₀ s) (sounds : s.czones[z].sounding = some j) : j ≠ c := by
  rintro rfl
  exact h.sounding z sounds

theorem arbitrate (h : Untouched c s₀ s) : Untouched c s₀ (s.arbitrate z) := by
  unfold State.arbitrate
  generalize s.czones[z].queue.length + 1 = fuel
  induction fuel generalizing s with
  | zero => exact h
  | succ n ih =>
    unfold State.lookFor
    dsimp only
    split
    · exact h
    · split
      · exact h
      next first =>
        have ne := h.queued_ne (List.mem_of_find?_eq_some first)
        split
        · exact h.startBurst ne _ _
        · exact ih (h.leaveQueue.endDelivery ne _)

theorem endSignals (h : Untouched c s₀ s) : Untouched c s₀ (s.endSignals z) := by
  unfold State.endSignals
  have silent := h.of_changes (s.demand_changes (chimeOf z) false .continuous)
  dsimp only
  split
  · exact silent
  · exact silent.handFlicker 0

theorem stopBurst (h : Untouched c s₀ s) : Untouched c s₀ (s.stopBurst z) :=
  h.endSignals.writeCZone z _ (fun same => nomatch same) (h.endSignals.queue z)

theorem countBurst (h : Untouched c s₀ s) : Untouched c s₀ (s.countBurst z) := by
  unfold State.countBurst
  dsimp only
  split
  · exact h
  next sounds =>
    have ne := h.sounding_ne sounds
    refine arbitrate ?_
    split
    · exact (h.stopBurst.editDelivery ne _).joinQueue ne
    · exact (h.stopBurst.editDelivery ne _).finishCall ne

theorem litLost (h : Untouched c s₀ s) : Untouched c s₀ (s.litLost z) := by
  unfold State.litLost
  dsimp only
  split
  · exact (h.keepCZone z).handFlicker 0
  · exact h.countBurst
  · exact h
  · exact h

theorem announceLit (h : Untouched c s₀ s) : Untouched c s₀ s.announceLit := by
  unfold State.announceLit
  refine forAll_keeps _ _ (fun z t told => ?_) s h
  have noted : Untouched c s₀ { t with lit := put t.lit z (t.litNow z) } := ⟨told.sounding, told.queue, told.slot⟩
  dsimp only
  split
  · exact noted.litLost
  · exact noted

theorem refreshLights (h : Untouched c s₀ s) : Untouched c s₀ s.refreshLights :=
  (h.of_changes s.refreshGroups_changes).announceLit

theorem dropZone (h : Untouched c s₀ s) (st : DeliveryState) : Untouched c s₀ (s.dropZone z st) := by
  unfold State.dropZone
  dsimp only
  refine List.foldlRecOn (motive := Untouched c s₀) _ _ ?_ fun t told j mem =>
    told.leaveQueue.endDelivery (h.queued_ne mem) _
  split
  next sounds => exact h.stopBurst.endDelivery (h.sounding_ne sounds) _
  · exact h

theorem suppress (h : Untouched c s₀ s) : Untouched c s₀ (s.suppress z) := by
  have noted := h.keepCZone z (x := { s.czones[z] with suppressed := true })
  unfold State.suppress
  dsimp only
  split
  · exact noted
  next sounds =>
    have ne := h.sounding_ne sounds
    exact (noted.stopBurst.editDelivery ne _).joinQueue ne

theorem bar (h : Untouched c s₀ s) : Untouched c s₀ (s.bar z) := by
  unfold State.bar
  exact (h.keepCZone z).dropZone _

theorem deriveSilence (h : Untouched c s₀ s) : Untouched c s₀ (s.deriveSilence z) := by
  unfold State.deriveSilence
  split
  · exact h
  · extract_lets cz b p s1 cz1 s2
    have barred : Untouched c s₀ s1 := by
      unfold s1
      split
      · exact h.bar
      · split
        · exact h.keepCZone z
        · exact h
    have suppressed : Untouched c s₀ s2 := by
      unfold s2
      split
      · exact barred.suppress
      · split
        · exact barred.keepCZone z
        · exact barred
    split
    · exact suppressed.arbitrate
    · exact suppressed

theorem deriveSilences (h : Untouched c s₀ s) : Untouched c s₀ s.deriveSilences :=
  forAll_keeps _ _ (fun _ _ told => told.deriveSilence) s h

end Untouched

/-! ## Silencing (R97) -/

section

variable {q : AmendReq} {i : Fin 25} {x : Incident} {st : Fin 8} {s : State} {issue : Nat}
  (h : HeardAlone s q st (i.1 + 1) issue) (slot : s.incidents[i] = ⟨issue, some x⟩) (some_ : issue ≠ 0)
  (listens : s.role st ≠ .none) (able : s.role st ≠ .view)

theorem State.silence_admits {fs : List FieldVal} (u : State) (only : fs = [⟨130, 1⟩]) :
    u.admitsIncident st x fs = true ↔ u.role st = .fire ∨ u.role st = .foh := by
  rw [only]
  have admits : u.admitsIncident st x [⟨130, 1⟩] = (u.role st == .fire || u.role st == .foh) := rfl
  rw [admits, Bool.or_eq_true, beq_iff_eq, beq_iff_eq]

include h

theorem silence_form : firstFlaw (incidentForm (q.withField 130 1).fields) (q.withField 130 1).fields = none := by
  rw [h.fields 130 1]
  rfl

include slot some_ listens able

theorem silence_named : IncidentNamed (.silence q) (q.withField 130 1) i x st s :=
  incidentNamed_alone rfl h slot some_ listens able

theorem silence_barred (notFire : s.role st ≠ .fire) (notFoh : s.role st ≠ .foh) :
    ∃ t, exec (.silence q) s = .next t ∧ ChangesOnly [.link] s.frameGood t ∧
      Replies t s.settings.part.address q.station .notPermitted none .incident (i.1 + 1) issue
        (s.frameGood.incidentFields x) := by
  have issues : q.issue.toNat = issue := h.2.2.2.2.2.2
  have asks := silence_named h slot some_ listens able
  rw [← issues]
  refine asks.turned ((asks.decided (silence_form h)).trans (if_pos ?_))
  rw [← Bool.not_eq_true, State.silence_admits _ (h.fields 130 1), State.frameGood_role]
  rintro (fire | foh)
  · exact notFire fire
  · exact notFoh foh

section

variable (may : s.role st = .fire ∨ s.role st = .foh)
include may

omit slot some_ listens able in
theorem silence_allowed : s.frameGood.admitsIncident st x (q.withField 130 1).fields = true := by
  rw [State.silence_admits _ (h.fields 130 1), State.frameGood_role]
  exact may

theorem silence_staff (staff : x.stage = .staff) :
    ∃ t, exec (.silence q) s = .next t ∧ ChangesOnly [.link] s.frameGood t ∧
      Replies t s.settings.part.address q.station .refused (some .wrongStage) .incident (i.1 + 1) issue
        (s.frameGood.incidentFields x) := by
  have issues : q.issue.toNat = issue := h.2.2.2.2.2.2
  have asks := silence_named h slot some_ listens able
  rw [← issues]
  refine asks.turned ((asks.decided (silence_form h)).trans ((if_neg ?_).trans (if_pos ?_)))
  · rw [silence_allowed h may]
    decide
  · rw [h.fields 130 1, wrongStage, staff]
    rfl

omit h slot some_ listens able may in
/-- The brigade relay is not one of the sounders (R96, R97). -/
theorem State.silenceIncident_brigade (s : State) (i : Fin 25) :
    (s.silenceIncident i).circuits[brigadeRelay] = s.circuits[brigadeRelay] := by
  unfold State.silenceIncident
  have edited : (s.editIncident i fun x => { x with silenced := true }).circuits = s.circuits :=
    (State.editIncident_changes ..).same .circuits (by decide)
  rw [State.demandSounders_other _ (by decide), edited]

omit h slot some_ listens able may in
theorem State.silenceIncident_slots {s : State} {i : Fin 25} {x : Incident} (slot : s.incident? i = some x) :
    (s.silenceIncident i).incidents[i] = ⟨s.incidents[i].issue, some { x with silenced := true }⟩ ∧
      OnlyAt i s.incidents (s.silenceIncident i).incidents ∧ (s.silenceIncident i).incidentList = s.incidentList := by
  unfold State.silenceIncident
  rw [State.editIncident_some slot]
  have here := s.writeIncident_slots i { x with silenced := true }
  have list : (s.writeIncident i { x with silenced := true }).incidentList = s.incidentList :=
    State.writeIncident_incidentList ..
  generalize s.writeIncident i { x with silenced := true } = v at *
  obtain ⟨slots, order⟩ := v.demandSounders_changes.slots
  rw [slots, order]
  exact ⟨here.1, here.2, list⟩

theorem silence_general (general : x.stage = .general) :
    ∃ t, exec (.silence q) s = .next t ∧
      ChangesOnly [.link, .incidents, .circuits, .stations] s.frameGood t ∧
      t.incidents[i] = ⟨issue, some { x with silenced := true }⟩ ∧ OnlyAt i s.incidents t.incidents ∧
      t.incidentList = s.incidentList ∧ (DemandsDerived s.frameGood → DemandsDerived t) ∧
      (x.silenced = true → ChangesOnly [.link] s.frameGood t) ∧
      t.circuits[brigadeRelay].demand = s.circuits[brigadeRelay].demand ∧
      Replies t s.settings.part.address q.station .done none .incident (i.1 + 1) issue
        (t.incidentFields { x with silenced := true }) := by
  have issues : q.issue.toNat = issue := h.2.2.2.2.2.2
  have asks := silence_named h slot some_ listens able
  have stage : wrongStage x (q.withField 130 1).fields = false := by
    rw [h.fields 130 1, wrongStage, general]
    rfl
  have acts : s.frameGood.actIncident i x st (q.withField 130 1).fields =
      if x.silenced = true then s.frameGood else s.frameGood.silenceIncident i := by
    rw [h.fields 130 1]
    exact (if_neg (by decide)).trans ((if_neg (by decide)).trans (if_pos rfl))
  have good := s.frameGood_changes.slots
  have circuits : s.frameGood.circuits = s.circuits := s.frameGood_changes.same .circuits (by decide)
  obtain ⟨u, acted, frame, same, here, only, list, follows, brigade⟩ : ∃ u,
      s.frameGood.actIncident i x st (q.withField 130 1).fields = u ∧
      ChangesOnly [.incidents, .circuits, .stations] s.frameGood u ∧ (x.silenced = true → u = s.frameGood) ∧
      u.incidents[i] = ⟨issue, some { x with silenced := true }⟩ ∧ OnlyAt i s.incidents u.incidents ∧
      u.incidentList = s.incidentList ∧ AlarmsFollow s.frameGood u ∧
      u.circuits[brigadeRelay] = s.circuits[brigadeRelay] := by
    by_cases already : x.silenced = true
    · have still : ({ x with silenced := true } : Incident) = x := by rw [← already]
      refine ⟨s.frameGood, acts.trans (if_pos already), ChangesOnly.refl _ _, fun _ => rfl, ?_, ?_, good.2,
        .refl _, by rw [circuits]⟩
      · rw [good.1, slot, still]
      · rw [good.1]
        exact fun _ _ => rfl
    · have silenced := State.silenceIncident_slots asks.open_
      have frame := s.frameGood.silenceIncident_changes i
      have follows := AlarmsFollow.silenceIncident s.frameGood i
      have brigade := State.silenceIncident_brigade s.frameGood i
      rw [if_neg already] at acts
      generalize s.frameGood.silenceIncident i = u at *
      rw [good.1, good.2, slot] at silenced
      exact ⟨u, acts, frame, fun a => absurd a already, silenced.1, silenced.2.1, silenced.2.2, follows,
        by rw [brigade, circuits]⟩
  obtain ⟨a, t, left, run, reply⟩ := asks.acts (silence_form h) (silence_allowed h may) stage acted
    (here.trans (by rw [← issues]; rfl))
  have replied := State.reply_changes u s.settings.part.address (q.withField 130 1).station a
  rw [← left] at replied
  obtain ⟨slotsT, listT⟩ := replied.slots
  have circuitsT : t.circuits = u.circuits := replied.same .circuits (by decide)
  refine ⟨t, run, frame.andThen replied, by rw [slotsT]; exact here, by rw [slotsT]; exact only,
    by rw [listT]; exact list, fun d => ?_, fun already => ?_, by rw [circuitsT, brigade], ?_⟩
  · rw [left]
    exact follows.demands d
  · rw [← same already]
    exact replied
  · rw [← issues]
    exact reply

end

end

end Sys2Proof.Machine
end

section
/-!
PROOFS. The retirement of an incident (R78, R81, R100, R101).
-/

namespace Sys2Proof.Machine
-- One proof after another: the whole text stays within the memory of one compile.
set_option Elab.async false

/-! ## The slot and the zone of a retired incident (R78, R81) -/

/-- The incident `x` has left slot `i`, and the zone it came from has been told. -/
def State.incidentGone (i : Fin 25) (x : Incident) (s : State) : State :=
  match x.source with
  | .zone z => (s.emptyIncident i).demandAll.zoneRetired z
  | .station _ => (s.emptyIncident i).demandAll

theorem State.retireIncidentAt_eq {s : State} {i : Fin 25} {x : Incident} (slot : s.incident? i = some x) :
    s.retireIncidentAt i = (((s.incidentGone i x).evalHolds .fire).refreshLights).deriveSilences := by
  obtain ⟨source⟩ := x
  unfold State.retireIncidentAt
  rw [slot]
  cases source with
  | zone z => rfl
  | station st => rfl

/-- What becomes of the slot and of the zone. -/
structure Gone (ps : List Part) (i : Fin 25) (x : Incident) (s t : State) : Prop where
  frame : ChangesOnly ps s t
  slot : t.incidents[i] = { s.incidents[i] with incident := none }
  only : OnlyAt i s.incidents t.incidents
  list : t.incidentList = s.incidentList.erase i
  zone : ∀ z, x.source = .zone z → OnlyAt z s.zones t.zones ∧
    t.zones[z] = { s.zones[z] with
      incident := none
      detection :=
        if s.settings.zones[z].type = .callpoint ∧ s.zones[z].detection = .alarm then .normal else s.zones[z].detection }
  station : x.ofStation = true → t.zones = s.zones
  demands : DemandsDerived t

theorem State.incidentGone_gone (s : State) (i : Fin 25) (x : Incident) :
    Gone [.zones, .incidents, .circuits, .stations] i x s (s.incidentGone i x) := by
  have emptied : ChangesOnly [.incidents, .circuits, .stations] s (s.emptyIncident i).demandAll :=
    (State.emptyIncident_changes s i).andThen (State.demandAll_changes _)
  have slots : (s.emptyIncident i).demandAll.incidents = put s.incidents i { s.incidents[i] with incident := none } ∧
      (s.emptyIncident i).demandAll.incidentList = s.incidentList.erase i := (s.emptyIncident i).demandAll_changes.slots
  have demands := (s.emptyIncident i).demandAll_derived
  have zones : (s.emptyIncident i).demandAll.zones = s.zones := emptied.same .zones (by decide)
  have settings : (s.emptyIncident i).demandAll.settings = s.settings := emptied.same .settings (by decide)
  have here := put_same s.incidents i { s.incidents[i] with incident := none }
  have others := put_onlyAt s.incidents i { s.incidents[i] with incident := none }
  unfold State.incidentGone
  generalize (s.emptyIncident i).demandAll = u at *
  rw [← slots.1] at here others
  split
  next z source =>
    have told : ChangesOnly [.zones, .stations] u (u.zoneRetired z) := State.zoneRetired_changes ..
    have written : (u.zoneRetired z).zones = put u.zones z
        { u.zones[z] with
          incident := none
          detection :=
            if u.settings.zones[z].type = .callpoint ∧ u.zones[z].detection = .alarm then .normal
            else u.zones[z].detection } := by
      unfold State.zoneRetired
      rw [State.mark_zones, State.writeZone_zones]
    have follows := (AlarmsFollow.of_changes told).demands demands
    generalize u.zoneRetired z = t at *
    refine ⟨emptied.andThen told, by rw [told.slots.1]; exact here, by rw [told.slots.1]; exact others,
      told.slots.2.trans slots.2, fun w source' => ?_, fun station => ?_, follows⟩
    · rw [source] at source'
      cases source'
      rw [written, zones, settings]
      exact ⟨put_onlyAt _ _ _, put_same ..⟩
    · rw [Incident.ofStation, source] at station
      cases station
  next st source =>
    refine ⟨emptied.mono, here, others, slots.2, fun w source' => ?_, fun _ => zones, demands⟩
    rw [source] at source'
    cases source'

/-! ## What follows a retirement (R25, R101, R115, R146, R149) -/

theorem HoldDue.transport {ps : List Part} {c : HoldCause} {a : Fin 3} {s t : State} (h : HoldDue c a s)
    (frame : ChangesOnly ps s t) (holds : ps.contains .holds = false) (perfs : ps.contains .perfs = false)
    (reason : t.holdReason a c = s.holdReason a c) : HoldDue c a t := by
  have slots : t.holds = s.holds ∧ t.holdLists = s.holdLists := frame.same .holds (by simpa using holds)
  have phases : t.perfs = s.perfs := frame.same .perfs (by simpa using perfs)
  unfold HoldDue State.hold? State.phase at *
  rw [slots.1, phases, reason]
  exact h

/-- A retirement: the slot is empty and the zone free, and everything that reads the incidents follows. -/
structure Retired (i : Fin 25) (x : Incident) (s t : State) : Prop
    extends Gone (.zones :: .incidents :: .holds :: lightParts) i x s t where
  lights : LightsDerived t
  silences : SilencesDerived t
  fire : FireHoldsDerived t
  calls : ∀ c : Fin 32, (∀ z : Fin 8, s.czones[z].sounding ≠ some c ∧ c ∉ s.czones[z].queue) → t.calls[c] = s.calls[c]

theorem State.retireIncidentAt_retired {s : State} {i : Fin 25} {x : Incident} (slot : s.incident? i = some x) :
    Retired i x s (s.retireIncidentAt i) := by
  rw [State.retireIncidentAt_eq slot]
  obtain ⟨frame, here, only, list, zone, station, demands⟩ := s.incidentGone_gone i x
  generalize s.incidentGone i x = u at *
  have evaluated := State.evalHolds_changes .fire u
  have due := State.evalHolds_due .fire u
  have demandsV := (AlarmsFollow.evalHolds .fire u).demands demands
  have frameV := frame.andThen (rs := [.zones, .incidents, .circuits, .holds, .stations]) evaluated
  generalize u.evalHolds .fire = v at *
  have lit := State.refreshLights_changes v
  have demandsL := (AlarmsFollow.of_stand lit (.refreshLights v)).demands demandsV
  have lightsL := LightsFollow.refreshLights_derived v
  have untouched {c : Fin 32} (h : Untouched c s v) : Untouched c s v.refreshLights.deriveSilences :=
    h.refreshLights.deriveSilences
  generalize v.refreshLights = w at *
  have silenced := State.deriveSilences_changes w
  have lights := (LightsFollow.deriveSilences w).lights lightsL
  have demandsT := (AlarmsFollow.deriveSilences w).demands demandsL
  have silences := State.deriveSilences_derived w
  generalize w.deriveSilences = t at *
  have tail : ChangesOnly lightParts v t := lit.andThen silenced
  have told : ChangesOnly (.holds :: lightParts) u t := evaluated.andThen tail
  have zones : t.zones = u.zones := told.same .zones (by decide)
  refine ⟨⟨frameV.andThen tail, ?_, ?_, ?_, ?_, ?_, demandsT⟩, lights, silences, fun a => ?_, fun c idle => ?_⟩
  · rw [told.slots.1]; exact here
  · rw [told.slots.1]; exact only
  · rw [told.slots.2]; exact list
  · rw [zones]; exact zone
  · rw [zones]; exact station
  · exact (due a).transport tail (by decide) (by decide) (tail.holdReason_of a (by decide))
  · have czones : v.czones = s.czones := frameV.same .czones (by decide)
    obtain ⟨calls, -⟩ : v.calls = s.calls ∧ v.callList = s.callList := frameV.same .calls (by decide)
    refine (untouched (c := c) ⟨fun z => ?_, fun z => ?_, by rw [calls]⟩).slot
    · rw [czones]; exact (idle z).1
    · rw [czones]; exact (idle z).2

/-! ## RETIRE of an INCIDENT (R100) -/

theorem State.stillSignals_iff {s : State} {x : Incident} : s.stillSignals x = true ↔
    ∃ z : Fin 24, x.source = .zone z ∧ (s.zones[z].band = .active ∨
      (s.settings.zones[z].type = .callpoint ∧ s.zones[z].band ≠ .normal)) := by
  unfold State.stillSignals
  split
  next z source =>
    have own {p : Fin 24 → Prop} : (∃ w, x.source = .zone w ∧ p w) ↔ p z := by
      rw [source]
      exact ⟨fun ⟨w, same, h⟩ => by cases same; exact h, fun h => ⟨z, rfl, h⟩⟩
    rw [own]
    split
    next kind =>
      rw [bne_iff_ne, kind]
      constructor
      · exact fun differs => .inr ⟨rfl, differs⟩
      · rintro (active | ⟨-, differs⟩)
        · rw [active]; decide
        · exact differs
    all_goals
      rename_i kind
      rw [beq_iff_eq, kind]
      exact ⟨.inl, fun h => h.resolve_right fun ⟨type, _⟩ => nomatch type⟩
  next st source =>
    rw [source]
    exact ⟨fun h => (nomatch h), fun ⟨z, same, _⟩ => nomatch same⟩

theorem State.mayRetire_iff {s : State} {st : Fin 8} {x : Incident} :
    s.mayRetire st x = true ↔ s.role st = .fire ∨ (x.stage = .staff ∧ s.role st = .foh) := by
  unfold State.mayRetire
  simp only [Bool.or_eq_true, Bool.and_eq_true, beq_iff_eq]

section

variable {r : Req} {i : Fin 25} {st : Fin 8} {s : State} (heard : Heard s r st) (index : r.index.toNat = i.1 + 1)
  (fields : r.fields = []) (listens : s.role st ≠ .none) (able : s.role st ≠ .view)
include heard index fields listens able

omit heard in
theorem retireIncident_stop : s.frameGood.linkStop st .retire .incident r = none := by
  refine State.linkStop_retire (by rwa [State.frameGood_role]) (by rwa [State.frameGood_role]) rfl ?_ fields
  change 1 ≤ r.index.toNat ∧ r.index.toNat ≤ 25
  omega

theorem retireIncident_turned {status : Status} {why : Option Reason}
    (answer : s.frameGood.retireIncidentReq ⟨st, .incident, r⟩ =
      (Ask.answer ⟨st, .incident, r⟩ status why [], s.frameGood)) :
    ∃ t, exec (.retireIncident r) s = .next t ∧ ChangesOnly [.link] s.frameGood t ∧
      Replies t s.settings.part.address r.station status why .incident (i.1 + 1) r.issue.toNat [] := by
  rw [← index]
  exact exec_says (i := .retireIncident r) rfl (by decide) heard
    (retireIncident_stop index fields listens able) answer

theorem retireIncident_noRecord
    (absent : s.incident? i = none ∨ r.issue = 0 ∨ s.incidents[i].issue ≠ r.issue.toNat) :
    ∃ t, exec (.retireIncident r) s = .next t ∧ ChangesOnly [.link] s.frameGood t ∧
      Replies t s.settings.part.address r.station .noRecord none .incident (i.1 + 1) r.issue.toNat [] := by
  obtain ⟨slots, -⟩ := s.frameGood_changes.slots
  have named := State.namedIncident_none (s := s.frameGood) index (by rw [State.incident?, slots]; exact absent)
  refine retireIncident_turned heard index fields listens able ?_
  unfold State.retireIncidentReq
  dsimp only
  rw [named]
  rfl

variable {x : Incident} (slot : s.incidents[i] = ⟨r.issue.toNat, some x⟩) (issue : r.issue ≠ 0)
include slot issue

omit heard fields listens able in
/-- What decides the retirement of the open incident `x` (R100). -/
theorem State.retireIncidentReq_named : s.frameGood.retireIncidentReq ⟨st, .incident, r⟩ =
    if s.mayRetire st x = false then Ask.says ⟨st, .incident, r⟩ .notPermitted [] s.frameGood
    else if x.stage = .general ∧ x.silenced = false then Ask.refuses ⟨st, .incident, r⟩ .notSilenced [] s.frameGood
    else if s.stillSignals x = true then Ask.refuses ⟨st, .incident, r⟩ .inputActive [] s.frameGood
    else Ask.says ⟨st, .incident, r⟩ .done [] (s.frameGood.retireIncidentAt i) := by
  have good : s.frameGood.incidents[i] = ⟨r.issue.toNat, some x⟩ := by
    rw [s.frameGood_changes.slots.1]
    exact slot
  have may : s.frameGood.mayRetire st x = s.mayRetire st x := by
    unfold State.mayRetire
    rw [State.frameGood_role]
  have signals : s.frameGood.stillSignals x = s.stillSignals x := by
    unfold State.stillSignals
    rw [State.frameGood_settings, State.frameGood_zones]
  unfold State.retireIncidentReq
  dsimp only
  rw [State.namedIncident_open index issue good]
  dsimp only
  rw [may, signals]
  refine if_congr (iff_of_eq (Bool.not_eq_true' _)) rfl (if_congr ?_ rfl rfl)
  rw [Bool.and_eq_true, beq_iff_eq, Bool.not_eq_true']

theorem retireIncident_checked {signals : Bool}
    (hsignals : signals = true ↔ ∃ z : Fin 24, x.source = .zone z ∧ (s.zones[z].band = .active ∨
      (s.settings.zones[z].type = .callpoint ∧ s.zones[z].band ≠ .normal))) (status : Status) (why : Option Reason)
    (checks : (if s.role st ≠ .fire ∧ (x.stage = .general ∨ s.role st ≠ .foh) then some (Status.notPermitted, none)
      else if x.stage = .general ∧ x.silenced = false then some (.refused, some Reason.notSilenced)
      else if signals = true then some (.refused, some .inputActive)
      else none) = some (status, why)) :
    ∃ t, exec (.retireIncident r) s = .next t ∧ ChangesOnly [.link] s.frameGood t ∧
      Replies t s.settings.part.address r.station status why .incident (i.1 + 1) r.issue.toNat [] := by
  refine retireIncident_turned heard index fields listens able ?_
  rw [State.retireIncidentReq_named index slot issue]
  have barred : s.mayRetire st x = false ↔ s.role st ≠ .fire ∧ (x.stage = .general ∨ s.role st ≠ .foh) := by
    rw [← Bool.not_eq_true, State.mayRetire_iff, not_or, not_and_or]
    refine and_congr_right fun _ => or_congr_left ?_
    cases x.stage with
    | staff => simp
    | general => simp
  simp only [barred, State.stillSignals_iff.trans hsignals.symm]
  split at checks
  next bars =>
    cases checks
    exact if_pos bars
  next may =>
    rw [if_neg may]
    split at checks
    next loud =>
      cases checks
      exact if_pos loud
    next quiet =>
      rw [if_neg quiet]
      split at checks
      next active =>
        cases checks
        exact if_pos active
      next => cases checks

/-- R101: a retirement that passes its checks. -/
theorem retireIncident_done (may : s.role st = .fire ∨ (x.stage = .staff ∧ s.role st = .foh))
    (quiet : x.stage = .staff ∨ x.silenced = true) (still : s.stillSignals x = false) :
    ∃ a t, t = (s.frameGood.retireIncidentAt i).reply s.settings.part.address r.station a ∧
      exec (.retireIncident r) s = .next t ∧
      Replies t s.settings.part.address r.station .done none .incident (i.1 + 1) r.issue.toNat [] := by
  rw [← index]
  refine exec_done (i := .retireIncident r) rfl (by decide) heard (retireIncident_stop index fields listens able) ?_
  refine (State.retireIncidentReq_named index slot issue).trans ?_
  rw [if_neg (by rw [State.mayRetire_iff.2 may]; decide), if_neg ?_, if_neg (by rw [still]; decide)]
  · rfl
  · rintro ⟨general, loud⟩
    rcases quiet with staff | silenced
    · rw [general] at staff
      cases staff
    · rw [silenced] at loud
      cases loud

end

/-- Settles O50. -/
theorem incidentSilencedAndRetired : Obligations.IncidentSilencedAndRetired := by
  unfold Obligations.IncidentSilencedAndRetired
  refine ⟨?_, ?_, ?_⟩
  · rintro q i st s u x issue h rfl slot some_ listens able
    exact ⟨silence_barred h slot some_ listens able, fun may =>
      ⟨silence_staff h slot some_ listens able may, silence_general h slot some_ listens able may⟩⟩
  · rintro r i st s u x signals heard index fields rfl slot issue listens able hsignals
    refine ⟨retireIncident_checked heard index fields listens able slot issue hsignals, fun may quiet still => ?_⟩
    have still : s.stillSignals x = false := by
      rw [← Bool.not_eq_true, State.stillSignals_iff, ← hsignals, still]
      decide
    have good := s.frameGood_changes
    have slots := good.slots
    have open_ : s.frameGood.incident? i = some x := by rw [State.incident?, slots.1, slot]
    obtain ⟨⟨frame, here, only, list, zone, station, demands⟩, lights, silences, fire, calls⟩ :=
      State.retireIncidentAt_retired open_
    obtain ⟨a, t, left, run, reply⟩ := retireIncident_done heard index fields listens able slot issue may quiet still
    generalize s.frameGood.retireIncidentAt i = v at *
    have replied := State.reply_changes v s.settings.part.address r.station a
    rw [← left] at replied
    have zones : t.zones = v.zones := replied.same .zones (by decide)
    have callsT : t.calls = v.calls := (replied.same .calls (by decide)).1
    rw [slots.1, slot] at here
    rw [slots.1] at only
    rw [slots.2] at list
    rw [s.frameGood_zones] at station
    rw [s.frameGood_zones, s.frameGood_settings] at zone
    have czones : s.frameGood.czones = s.czones := good.same .czones (by decide)
    have callsG : s.frameGood.calls = s.calls := (good.same .calls (by decide)).1
    rw [czones, callsG] at calls
    refine ⟨t, run, frame.andThen replied, by rw [replied.slots.1]; exact here, by rw [replied.slots.1]; exact only,
      replied.slots.2.trans list, by rw [zones]; exact zone, by rw [zones]; exact station, by rw [callsT]; exact calls,
      ?_, ?_, ?_, ?_, reply⟩
    · rw [left]; exact demands
    · rw [left]; exact lights
    · rw [left]; exact silences
    · rw [left]; exact fire
  · rintro r i st s u heard index fields rfl listens able absent
    exact retireIncident_noRecord heard index fields listens able absent

end Sys2Proof.Machine
end

section
/-!
PROOFS. The call table stays lawful through every command (R132, R133, R137).
-/

namespace Sys2Proof.Machine
-- One proof after another: the whole text stays within the memory of one compile.
set_option Elab.async false

/-! ## What keeps the call table -/

namespace CallTableKept

variable {s t : State}

theorem drawn (s : State) : CallTableKept s s.drawn := ⟨rfl, fun _ => rfl, fun _ h => h⟩

theorem reach (s : State) (time : Nat) : CallTableKept s (s.reach time) := (s.reach_changes time).callTable

theorem announceCondition (s : State) (c : Fin 16) (old : CircuitCondition) :
    CallTableKept s (s.announceCondition c old) := by
  unfold State.announceCondition
  dsimp only
  split
  · exact .refl s
  · split
    · exact (State.evalHolds_changes ..).callTable
    · split
      · split
        · exact State.chimeLost_callTable ..
        · exact .refl s
      · exact .refl s

theorem changeCircuit (s : State) (c : Fin 16) (x : Circuit) : CallTableKept s (s.changeCircuit c x) :=
  (State.writeCircuit_changes ..).callTable.trans (announceCondition ..)

theorem testRuns (s : State) (c : Fin 16) (seen : Bool) : CallTableKept s (s.testRuns c seen) :=
  (reach ..).trans (changeCircuit ..)

theorem overloads (s : State) (c : Fin 16) : CallTableKept s (s.overloads c) := by
  unfold State.overloads
  exact .either (changeCircuit ..) (.refl s)

theorem retryRuns (s : State) (c : Fin 16) : CallTableKept s (s.retryRuns c) := by
  unfold State.retryRuns
  dsimp only
  split
  · exact .refl s
  · exact (reach ..).trans (changeCircuit ..)

theorem cleanRuns (s : State) (c : Fin 16) : CallTableKept s (s.cleanRuns c) := by
  unfold State.cleanRuns
  dsimp only
  split
  · exact .refl s
  · exact (reach ..).trans (changeCircuit ..)

theorem offRuns (s : State) (c : Fin 16) : CallTableKept s (s.offRuns c) := by
  unfold State.offRuns
  dsimp only
  split
  · exact .refl s
  · exact (reach ..).trans (changeCircuit ..)

theorem resetCircuit (s : State) (c : Fin 16) (fs : List FieldVal) : CallTableKept s (s.resetCircuit c fs) := by
  unfold State.resetCircuit
  exact .either (changeCircuit ..) (.refl s)

theorem announceMains (s : State) : CallTableKept s s.announceMains := by
  have lit := s.refreshLights_callTable
  unfold State.announceMains
  dsimp only
  refine .trans ?_ (State.evalHolds_changes ..).callTable
  exact .either (lit.trans (State.stopRaises_changes _).callTable) lit

theorem setMains (s : State) (x : Supply) : CallTableKept s (s.setMains x) :=
  (State.writeSupply_changes ..).callTable.trans (announceMains _)

theorem mainsLine (s : State) (on : Bool) : CallTableKept s (s.mainsLine on) := by
  unfold State.mainsLine
  split
  · exact .refl s
  · have seen : CallTableKept s { s with lines := { s.lines with mainsPresent := on } } := ⟨rfl, fun _ => rfl, fun _ h => h⟩
    generalize { s with lines := { s.lines with mainsPresent := on } } = u at *
    dsimp only
    split
    · exact seen.trans (State.writeSupply_changes ..).callTable
    · exact seen.trans (State.writeSupply_changes ..).callTable
    · exact seen.trans (setMains ..)
    · exact seen.trans (setMains ..)
    · exact seen
    · exact seen

theorem lossRuns (s : State) : CallTableKept s s.lossRuns := by
  unfold State.lossRuns
  split
  · exact .refl s
  · exact (reach ..).trans (setMains ..)

theorem settlingRuns (s : State) : CallTableKept s s.settlingRuns := by
  unfold State.settlingRuns
  split
  · exact .refl s
  · exact (reach ..).trans (setMains ..)

theorem notBeforePasses (s : State) (c : Fin 32) (z : Fin 8) : CallTableKept s (s.notBeforePasses c z) := by
  unfold State.notBeforePasses
  split
  · exact .refl s
  · exact .either ((reach ..).trans (State.arbitrate_callTable ..)) (.refl s)

theorem strokeOnRuns (s : State) (z : Fin 8) : CallTableKept s (s.strokeOnRuns z) := by
  unfold State.strokeOnRuns
  dsimp only
  split
  · exact .refl s
  · exact ((reach ..).trans (State.writeCZone_callTable_same (by rfl))).trans (State.demand_callTable ..)

theorem strokeGapRuns (s : State) (z : Fin 8) : CallTableKept s (s.strokeGapRuns z) := by
  unfold State.strokeGapRuns
  dsimp only
  split
  · exact .refl s
  · exact .either ((reach ..).trans (State.beginStroke_callTable ..)) (.refl s)

theorem burstRuns (s : State) (z : Fin 8) : CallTableKept s (s.burstRuns z) := by
  unfold State.burstRuns
  split
  · exact .refl s
  · exact (reach ..).trans (State.countBurst_callTable ..)

/-! ### Incidents -/

theorem maybe {f : State → State} (hf : ∀ s, CallTableKept s (f s)) (s : State) : CallTableKept s (s.maybe f) := by
  unfold State.maybe
  exact .either ((drawn s).trans (hf _)) (drawn s)

theorem lightsAndCalls (s : State) : CallTableKept s s.lightsAndCalls := by
  unfold State.lightsAndCalls
  exact .either (((drawn s).trans (State.deriveSilences_callTable _)).trans (State.announceLit_callTable _))
    (((drawn s).trans (State.announceLit_callTable _)).trans (State.deriveSilences_callTable _))

theorem halt (s : State) (a : Fin 3) : CallTableKept s (s.halt a) := by
  unfold State.halt
  exact ((State.writePerf_changes ..).callTable.trans (State.respond_changes ..).callTable).trans
    (State.callNotice_callTable ..)

theorem haltSet (set : AudSet) (s : State) : CallTableKept s (s.haltSet set) := by
  unfold State.haltSet
  exact .forAll (fun a t => .either (halt t a) (.refl t)) s

theorem announceIncidents (ids : List (Fin 25)) (s : State) : CallTableKept s (s.announceIncidents ids) := by
  unfold State.announceIncidents
  extract_lets set s1 s2 s3
  have silences := State.deriveSilences_callTable
  have lit := State.announceLit_callTable
  have heard : CallTableKept s s1 := (State.evalHolds_changes ..).callTable.trans (maybe silences _)
  have lights (u : State) : CallTableKept u u.maybeLightsAndCalls :=
    ((maybe lit u).trans (maybe silences _)).trans (maybe lit _)
  have forces (u : State) : CallTableKept u u.refreshGroups := u.refreshGroups_changes.callTable
  have halted : CallTableKept s s2 := by
    unfold s2
    exact .either (((heard.trans (drawn _)).trans (forces _)).trans ((lights _).trans (haltSet ..)))
      ((((heard.trans (drawn _)).trans (haltSet ..)).trans (maybe silences _)).trans (forces _))
  have released : CallTableKept s s3 := by
    refine halted.trans (.foldl (fun t i => ?_) ids s2)
    split
    · exact (State.fireRelease_changes ..).callTable
    · exact .refl t
  exact released.trans (lightsAndCalls _)

theorem demanded_announced (ids : List (Fin 25)) (s : State) : CallTableKept s (s.demandAll.announceIncidents ids) :=
  s.demandAll_changes.callTable.trans (announceIncidents ..)

theorem raiseZoneIncident (s : State) (z : Fin 24) (i : Fin 25) : CallTableKept s (s.raiseZoneIncident z i) := by
  unfold State.raiseZoneIncident
  dsimp only
  refine CallTableKept.trans ?_ (demanded_announced _ _)
  refine CallTableKept.trans ?_ (.foldl (fun t j => (State.editIncident_changes t j _).callTable) _ _)
  exact (State.fillIncident_changes ..).callTable.trans (State.writeZone_changes ..).callTable

theorem raiseStationIncident (s : State) (st : Fin 8) (set : AudSet) (i : Fin 25) :
    CallTableKept s (s.raiseStationIncident st set i) :=
  (State.fillIncident_changes ..).callTable.trans (demanded_announced ..)

theorem widenIncident (s : State) (i : Fin 25) (set : AudSet) : CallTableKept s (s.widenIncident i set) := by
  unfold State.widenIncident
  split
  · exact .refl s
  · dsimp only
    have written (y : Incident) : CallTableKept s (s.writeIncident i y).demandAll :=
      (State.writeIncident_changes ..).callTable.trans (State.demandAll_changes _).callTable
    exact .either (written _) ((written _).trans (announceIncidents ..))

theorem escalateIncident (s : State) (i : Fin 25) (why : EscalationCause) : CallTableKept s (s.escalateIncident i why) :=
  (State.editIncident_changes ..).callTable.trans (demanded_announced ..)

theorem actIncident (s : State) (i : Fin 25) (x : Incident) (st : Fin 8) (fs : List FieldVal) :
    CallTableKept s (s.actIncident i x st fs) := by
  unfold State.actIncident
  refine .either (.either (State.acknowledgeIncident_changes ..).callTable (.refl s)) ?_
  refine .either (.either (escalateIncident ..) (.refl s)) ?_
  exact .either (.either (.refl s) (State.silenceIncident_changes ..).callTable) (.refl s)

theorem retireIncidentAt (s : State) (i : Fin 25) : CallTableKept s (s.retireIncidentAt i) := by
  unfold State.retireIncidentAt
  split
  · exact .refl s
  · extract_lets s1 s2
    have emptied : CallTableKept s s1 :=
      (State.emptyIncident_changes ..).callTable.trans (State.demandAll_changes _).callTable
    have told : CallTableKept s s2 := by
      unfold s2
      split
      · exact emptied.trans (State.zoneRetired_changes ..).callTable
      · exact emptied
    exact ((told.trans (State.evalHolds_changes ..).callTable).trans (State.refreshLights_callTable _)).trans
      (State.deriveSilences_callTable _)

theorem ackRunsOut (s : State) (i : Fin 25) : CallTableKept s (s.ackRunsOut i) := by
  unfold State.ackRunsOut
  split
  · exact .refl s
  · split
    · exact (reach ..).trans (escalateIncident ..)
    · exact .refl s

theorem investigationRunsOut (s : State) (i : Fin 25) : CallTableKept s (s.investigationRunsOut i) := by
  unfold State.investigationRunsOut
  split
  · exact .refl s
  · split
    · exact (reach ..).trans (escalateIncident ..)
    · exact .refl s

theorem confirms {z : Fin 24} (run : s.confirms z = .next t) : CallTableKept s t := by
  obtain rfl | ⟨time, u, -, -, alarm, ends⟩ := State.confirms_cases run
  · exact .refl _
  have heard : CallTableKept s u := by
    rw [alarm]
    exact (reach s time).trans (State.writeZone_changes ..).callTable
  obtain ⟨i, -, -, rfl⟩ | ⟨i, -, -, rfl⟩ | ⟨-, -, rfl⟩ := ends
  · exact heard.trans (raiseZoneIncident ..)
  · exact heard.trans (State.reactivate_changes ..).callTable
  · exact heard

/-! ### Phases and settings -/

theorem enterPhase (s : State) (a : Fin 3) (p : Perf) (r : Option Response) (notice : Option DeliveryState) :
    CallTableKept s (s.enterPhase a p r notice) := by
  have responded (u : State) : CallTableKept u (u.respondWith a r) := by
    cases r with
    | none => exact .refl u
    | some r => exact (State.respond_changes ..).callTable
  have lit := ((State.writePerf_changes s a p).callTable.trans (responded _)).trans (State.refreshLights_callTable _)
  unfold State.enterPhase
  dsimp only
  split
  · exact lit
  · exact lit.trans (State.callNotice_callTable ..)

theorem enter (s : State) (a : Fin 3) (st : Fin 8) (p : Phase) : CallTableKept s (s.enter a st p) := by
  unfold State.enter
  cases p with
  | dark =>
    dsimp only
    unfold State.enterDark
    exact (s.clearHolds_changes a).callTable.trans (enterPhase ..)
  | prepare =>
    dsimp only
    unfold State.enterPrepare
    exact (enterPhase ..).trans (State.evalAllHolds_changes ..).callTable
  | houseOpen =>
    dsimp only
    unfold State.enterHouseOpen
    exact enterPhase ..
  | beginners =>
    dsimp only
    unfold State.enterBeginners
    exact enterPhase ..
  | running =>
    dsimp only
    unfold State.enterRunning
    exact enterPhase ..
  | interval =>
    dsimp only
    unfold State.enterInterval
    exact enterPhase ..
  | closing =>
    dsimp only
    unfold State.enterClosing
    exact enterPhase ..
  | halted => exact halt s a

theorem serveZone (s : State) (old new : ZoneSettings) : CallTableKept s (s.serveZone old new) := by
  unfold State.serveZone
  dsimp only
  have demanded : CallTableKept s (if old.alarms != new.alarms then s.demandSounders else s) :=
    .either s.demandSounders_changes.callTable (.refl s)
  exact .either (demanded.trans (State.deriveSilences_callTable _)) demanded

theorem czoneAmended (s : State) (z : Fin 8) (old : CZoneSettings) : CallTableKept s (s.czoneAmended z old) := by
  unfold State.czoneAmended
  extract_lets cfg s1 s2
  have marked : CallTableKept s s1 := (State.markIf_changes ..).callTable
  have idle (u : State) : CallTableKept u (u.writeCZone z CallZone.idle) := State.writeCZone_callTable fun _ => List.nodup_nil
  have present : CallTableKept s s2 := by
    unfold s2
    refine .either ((marked.trans (State.dropZone_callTable ..)).trans (idle _)) ?_
    exact .either (((marked.trans (idle _)).trans (State.deriveSilence_callTable ..)).trans (State.arbitrate_callTable ..))
      marked
  exact .either present (((present.trans (State.deriveSilence_callTable ..)).trans (State.refreshLights_callTable _)).trans
    (State.markIf_changes ..).callTable)

end CallTableKept

/-! ## What leaves a lawful call table lawful -/

/-- An empty call table is lawful (R154). -/
theorem callsLawful_of_empty {t : State} (list : t.callList = []) (slots : ∀ c : Fin 32, t.call? c = none)
    (queues : ∀ z : Fin 8, t.czones[z].queue = []) : CallsLawful t := by
  refine ⟨list ▸ List.nodup_nil, fun c => ?_, fun c x filled => ?_, fun z => queues z ▸ List.nodup_nil⟩
  · rw [slots, list]
    rfl
  · rw [slots] at filled
    cases filled

/-- From `s` to `t` a lawful call table has stayed so. -/
structure CallsFollow (s t : State) : Prop where
  lawful : CallsLawful s → CallsLawful t

namespace CallsFollow

variable {s t u : State}

theorem refl (s : State) : CallsFollow s s := ⟨id⟩

theorem trans (h : CallsFollow s t) (k : CallsFollow t u) : CallsFollow s u := ⟨fun d => k.lawful (h.lawful d)⟩

theorem of_kept (h : CallTableKept s t) : CallsFollow s t := ⟨h.lawful⟩

theorem of_changes {ps : List Part} (h : ChangesOnly ps s t) (hc : ps.contains .calls = false := by rfl)
    (hz : ps.contains .czones = false := by rfl) : CallsFollow s t := of_kept (h.callTable hc hz)

theorem of_empty (list : t.callList = []) (slots : ∀ c : Fin 32, t.call? c = none)
    (queues : ∀ z : Fin 8, t.czones[z].queue = []) (s : State) : CallsFollow s t :=
  ⟨fun _ => callsLawful_of_empty list slots queues⟩

theorem dropCalls (s : State) : CallsFollow s s.dropCalls := by
  refine of_empty rfl (fun c => ?_) (fun z => ?_) s
  · unfold State.dropCalls State.call?
    dsimp only
    rw [tab_get]
  · unfold State.dropCalls
    dsimp only
    refine forAll_turn (P := fun _ => True) (Q := fun t : State => t.czones[z].queue = []) z (fun _ _ _ h => h)
      (fun t _ => ?_) (fun i t ne h => ?_) s trivial
    · rw [State.writeCZone_czone, if_pos rfl]
    · have other : (t.stopBurst i).czones[z] = t.czones[z] :=
        ((aside_closed ne.symm t).stopBurst (.refl z t)).czone
      rw [State.writeCZone_czone, if_neg ne.symm, other]
      exact h

theorem softRestart (s : State) (loads : BitVec 16) : CallsFollow s (s.softRestart loads) := by
  unfold State.softRestart
  extract_lets s1 s2
  have circuits : CallsFollow s1 (s1.restartCircuits loads) :=
    of_kept (.forAll (fun c t => (CallTableKept.changeCircuit ..).trans (CallTableKept.changeCircuit ..)) s1)
  have last : CallsFollow s s2 := ((((dropCalls s).trans (of_changes (State.restartLights_changes _))).trans circuits).trans
    (of_changes (State.restartZones_changes _))).trans (of_changes (State.restartIrons_changes _))
  exact ((last.trans (of_changes (State.writeSupply_changes ..))).trans (of_changes (State.restartLink_changes _))).trans
    (of_changes (State.flagAll_changes _))

theorem start (s : State) (p : Plant) (fromPin : Bool) : CallsFollow s (s.start p fromPin) := by
  have lights : CallsFollow s (s.loadSettings.setUp p fromPin).writeRetained.startLights := by
    refine of_empty rfl (fun c => ?_) (fun z => ?_) s
    · change (tab _ : Vector CallSlot 32)[c].call = none
      rw [tab_get]
    · change (tab _ : Vector CallZone 8)[z].queue = []
      rw [tab_get]
      rfl
  unfold State.start
  refine lights.trans (of_kept (CallTableKept.trans ?_ (State.flagAll_changes _).callTable))
  exact .forAll (fun a t => (State.evalAllHolds_changes a t).callTable) _

theorem roomForCall {c : Fin 32} {room : State} (found : s.roomForCall = some (c, room)) : CallsFollow s room := by
  unfold State.roomForCall at found
  split at found
  · obtain ⟨rfl, rfl⟩ := found
    exact refl s
  · obtain ⟨d, -, taken⟩ := Option.map_eq_some_iff.1 found
    obtain ⟨rfl, rfl⟩ := taken
    exact ⟨State.emptyCall_lawful _⟩

end CallsFollow

/-! ## Decisions and events -/

theorem State.newCall_targets {s : State} {st : Fin 8} {fs : List FieldVal} {x : Call} {b : Bool}
    (new : s.newCall st fs = (x, b)) : x.targets.Nodup := by
  obtain rfl : (s.newCall st fs).1 = x := congrArg Prod.fst new
  have once (n : Nat) (p : Fin 8 → Bool) :
      ((((List.finRange 8).filter p).map (newDelivery s.now n)).map (·.zone)).Nodup := by
    rw [List.map_map]
    exact (List.map_id _).symm ▸ (List.nodup_finRange 8).filter p
  exact once ..

theorem Decides.callsFollow {code : ReqCode} {q : Ask} {s : State} {v : Verdict} (h : Decides code q s v) :
    CallsFollow s v.2 := by
  cases h with
  | stays => exact .refl s
  | looks => exact .of_changes (State.lookClears_changes ..)
  | arms => exact .of_changes (State.arm_changes ..)
  | stores => exact .of_changes s.beginStore_changes
  | restarts => exact .softRestart ..
  | blocks => exact .of_changes (State.mark_changes ..)
  | enters => exact .of_kept (.enter ..)
  | amendsPerf aud =>
    obtain ⟨new, written⟩ := s.applyPerf_settled q aud
    rw [written]
    exact .of_changes (s.settled_changes ..)
  | amendsIron a ch limitIn new =>
    have noted := s.settled_changes (s.settings.withIron ch new) (s.settings.irons[ch] != new)
    rw [State.applyIron_settled]
    dsimp only
    split
    · exact ((CallsFollow.of_changes noted).trans (.of_changes (State.actIron_changes ..))).trans
        (.of_changes (State.ironPresence_changes ..))
    · exact (CallsFollow.of_changes noted).trans (.of_changes (State.actIron_changes ..))
  | amendsZone a z new =>
    rw [State.applyZone_settled]
    exact ((CallsFollow.of_changes (s.settled_changes ..)).trans (.of_changes (State.actZone_changes ..))).trans
      (.of_kept (.serveZone ..))
  | targets => exact .of_changes (State.applyTarget_changes ..)
  | amendsGroup g =>
    obtain ⟨new, written⟩ := s.applyGroup_settled q g
    rw [written]
    exact ((CallsFollow.of_changes (s.settled_changes ..)).trans (.of_changes (State.groupAmended_changes ..))).trans
      (.of_kept (State.announceLit_callTable _))
  | amendsCZone a z new => exact (CallsFollow.of_changes (s.settled_changes ..)).trans (.of_kept (.czoneAmended ..))
  | amendsCircuit a c =>
    rw [State.applyCircuit_settled]
    exact ((CallsFollow.of_changes (s.settled_changes ..)).trans (.of_changes (State.serveCircuit_changes ..))).trans
      (.of_kept (.resetCircuit ..))
  | amendsStatus a new =>
    rw [State.applyStatus_settled]
    exact ((CallsFollow.of_changes (s.settled_changes ..)).trans (.of_changes (State.serveBrigade_changes ..))).trans
      (.of_changes (State.setLock_changes ..))
  | amendsStation => exact .of_changes (State.applyStation_changes ..)
  | raisesHold => exact .of_changes (State.fillHold_changes ..)
  | retiresHold => exact .of_changes (State.emptyHold_changes ..)
  | widens => exact .of_kept (.widenIncident ..)
  | raisesIncident => exact .of_kept (.raiseStationIncident ..)
  | actsIncident => exact .of_kept (.actIncident ..)
  | retiresIncident => exact .of_kept (.retireIncidentAt ..)
  | raisesCall _ x b c room _ _ new _ found =>
    exact (CallsFollow.roomForCall found).trans ⟨State.fillCall_lawful c x (State.newCall_targets new)⟩
  | amendsCall => exact .of_kept (State.amendCallAt_callTable ..)
  | retiresCall => exact ⟨State.retireCallAt_lawful _⟩

theorem CallsFollow.takes {s t : State} {f : State → State} (run : s.takes f = .next t) (h : CallTableKept s (f s)) :
    CallsFollow s t := by
  unfold State.takes at run
  obtain rfl := Host.Outcome.next.inj run
  split
  · exact .of_kept h
  · exact .refl s

theorem event_callsFollow {i : Instr} {s t : State} (run : exec i s = .next t) (event : requestOf i = none)
    (known : ∀ code kind r, i ≠ .unknownRequest code kind r) : CallsFollow s t := by
  have frame := commandsTouchOnlyTheirParts i s t run
  cases i with
  | unknownRequest code kind r => exact absurd rfl (known code kind r)
  | confirmTimerExpiry z =>
    simp only [exec, execConfirmTimerExpiry] at run
    split at run
    · exact .of_kept (.confirms run)
    · cases run; exact .refl s
  | acknowledgeTimerExpiry i => exact .takes run (.ackRunsOut s i)
  | investigationTimerExpiry i => exact .takes run (.investigationRunsOut s i)
  | notBeforeDue c z => exact .takes run (.notBeforePasses s c z)
  | strokeOnElapsed z => exact .takes run (.strokeOnRuns s z)
  | strokeGapElapsed z => exact .takes run (.strokeGapRuns s z)
  | burstEnd z => exact .takes run (.burstRuns s z)
  | testTimerExpiry c seen => exact .takes run (.testRuns s c seen)
  | overloadEvent c => exact .takes run (.overloads s c)
  | retryTimerExpiry c => exact .takes run (.retryRuns s c)
  | cleanTimerExpiry c => exact .takes run (.cleanRuns s c)
  | offTimerExpiry c => exact .takes run (.offRuns s c)
  | mainsSenseChange on => exact .takes run (.mainsLine s on)
  | lossTimerExpiry => exact .takes run (.lossRuns s)
  | settlingTimerExpiry => exact .takes run (.settlingRuns s)
  | coldStart p =>
    obtain rfl : s.start p false = t := Host.Outcome.next.inj run
    exact .start ..
  | resetPin p =>
    unfold exec execResetPin State.takes at run
    obtain rfl := Host.Outcome.next.inj run
    split
    · exact .start ..
    · exact .refl s
  | _ => first
    | exact .of_changes frame
    | cases event

theorem step_callsLawful {s t : State} (h : CallsLawful s) (run : step s = .next t) : CallsLawful t := by
  have follows : CallsFollow s t := by
    refine step_keeps (P := CallsFollow s) (fun u n h => h.trans ⟨id⟩) (fun u rest h => h.trans ⟨id⟩)
      (fun i u w h ran => ?_) (.refl s) run
    exact exec_keeps (P := CallsFollow s) (fun u h => h.trans (.of_changes u.frameGood_changes))
      (fun u h => h.trans (.of_changes u.frameFails_changes)) (fun u n b a h => h.trans (.of_changes (u.reply_changes n b a)))
      (fun _ _ _ _ h decided => h.trans decided.callsFollow)
      (fun event known h => h.trans (event_callsFollow ran event known)) h ran
  exact follows.lawful h

theorem reset_callsLawful : CallsLawful State.reset := by
  have slots (c : Fin 32) : State.reset.call? c = none := by
    unfold State.call? State.reset
    dsimp only
    rw [tab_get]
  have queues (z : Fin 8) : State.reset.czones[z].queue = [] := by
    unfold State.reset
    dsimp only
    rw [tab_get]
    rfl
  exact callsLawful_of_empty rfl slots queues

end Sys2Proof.Machine
end

section
/-!
PROOFS. A call joins the queues of several zones and their arbiters look, one after another (R136, R137, R140): each
zone has one turn, and the turns of the others leave it aside.
-/

namespace Sys2Proof.Machine
-- One proof after another: the whole text stays within the memory of one compile.
set_option Elab.async false

/-! ## Joining the queues of several zones (R137) -/

/-- Call `c` joins the queue of each zone, in turn. -/
def State.joinQueues (c : Fin 32) (zs : List (Fin 8)) (s : State) : State := zs.foldl (fun s z => s.joinQueue z c) s

/-- The zone with call `c` in its place. -/
def State.queued (s : State) (z : Fin 8) (c : Fin 32) : CallZone :=
  { s.czones[z] with queue := s.queuePlace z c (s.czones[z].queue.erase c) }

theorem State.joinQueue_changes_czones (s : State) (z : Fin 8) (c : Fin 32) :
    ChangesOnly [.czones, .stations] s (s.joinQueue z c) := State.writeCZone_changes ..

theorem State.joinQueues_changes (c : Fin 32) (zs : List (Fin 8)) (s : State) :
    ChangesOnly [.czones, .stations] s (s.joinQueues c zs) := .foldl (fun s z => s.joinQueue_changes_czones z c) zs s

theorem State.queued_congr {s t : State} (calls : t.calls = s.calls) (order : t.callList = s.callList) {z : Fin 8}
    (czone : t.czones[z] = s.czones[z]) (c : Fin 32) : t.queued z c = s.queued z c := by
  unfold State.queued
  rw [czone, State.queuePlace_congr (State.call?_of_calls calls) order]

theorem State.joinQueues_czone (c : Fin 32) (z : Fin 8) {zs : List (Fin 8)} (once : zs.Nodup) (s : State) :
    (s.joinQueues c zs).czones[z] = if z ∈ zs then s.queued z c else s.czones[z] := by
  induction zs generalizing s with
  | nil => rfl
  | cons x zs ih =>
    obtain ⟨fresh, once⟩ := List.nodup_cons.1 once
    have frame := s.joinQueue_changes_czones x c
    obtain ⟨calls, order⟩ : (s.joinQueue x c).calls = s.calls ∧ (s.joinQueue x c).callList = s.callList :=
      frame.same .calls (by decide)
    have written (j : Fin 8) : (s.joinQueue x c).czones[j] = if j = x then s.queued x c else s.czones[j] :=
      State.writeCZone_czone ..
    have head : s.joinQueues c (x :: zs) = (s.joinQueue x c).joinQueues c zs := rfl
    rw [head, ih once]
    generalize s.joinQueue x c = u at *
    by_cases own : z = x
    · subst own
      rw [if_neg fresh, if_pos (List.mem_cons_self ..), written, if_pos rfl]
    · have here : u.czones[z] = s.czones[z] := (written z).trans (if_neg own)
      rw [State.queued_congr calls order here, here]
      simp only [List.mem_cons, own, false_or]

theorem State.sight_of_czones {s t : State} (frame : ChangesOnly [.czones, .stations] s t) (z : Fin 8) :
    t.sight z = { s.sight z with czone := t.czones[z] } := by
  have lit : t.litNow z = s.litNow z :=
    State.litNow_congr (frame.same .settings (by decide)) (fun g => by rw [frame.same .groups (by decide)]) z
  unfold State.sight
  rw [lit, (frame.same .settings (by decide) : _ = _), (frame.same .clock (by decide) : _ = _),
    (frame.same .circuits (by decide) : _ = _)]
  simp only [frame.call? rfl]

/-! ## The turns of the arbiters (R140) -/

/-- The arbiters of the zones look, in turn. -/
def State.arbitrates (zs : List (Fin 8)) (s : State) : State := zs.foldl (fun s z => s.arbitrate z) s

theorem State.arbitrates_aside {z : Fin 8} {zs : List (Fin 8)} (out : z ∉ zs) (s : State) : Aside z s (s.arbitrates zs) := by
  refine List.foldlRecOn (motive := Aside z s) zs _ (.refl z s) fun t kept x mem => ?_
  exact (aside_closed (fun same => out (by rwa [same])) s).arbitrate kept

/-- A zone whose arbiter is shut is left aside, whoever looks. -/
theorem State.arbitrates_shut {z : Fin 8} {s : State} (shut : s.czones[z].sounding ≠ none ∨
    s.settings.czones[z].present = false ∨ s.czones[z].suppressed = true) (zs : List (Fin 8)) :
    Aside z s (s.arbitrates zs) := by
  refine List.foldlRecOn (motive := Aside z s) zs _ (.refl z s) fun t kept x mem => ?_
  by_cases own : z = x
  · subst own
    have settings : t.settings = s.settings := congrArg ZoneSight.settings kept.sight
    rw [State.arbitrate_shut (by rw [kept.czone, settings]; tauto)]
    exact kept
  · exact (aside_closed own s).arbitrate kept

/-- Each zone has one turn. -/
theorem State.arbitrates_turn {z : Fin 8} {zs : List (Fin 8)} (once : zs.Nodup) (mem : z ∈ zs) (s : State) :
    ∃ a, Aside z s a ∧ Aside z (a.arbitrate z) (s.arbitrates zs) := by
  induction zs generalizing s with
  | nil => cases mem
  | cons x zs ih =>
    obtain ⟨fresh, once⟩ := List.nodup_cons.1 once
    by_cases own : z = x
    · subst own
      exact ⟨s, .refl z s, State.arbitrates_aside fresh _⟩
    · obtain ⟨a, before, after⟩ := ih once ((List.mem_cons.1 mem).resolve_left own) (s.arbitrate x)
      exact ⟨a, ((aside_closed own s).arbitrate (.refl z s)).trans before, after⟩

/-- In a free zone the arbiter looks, at its turn. -/
theorem State.arbitrates_looks {z : Fin 8} {zs : List (Fin 8)} (once : zs.Nodup) (mem : z ∈ zs) {s w : State}
    (free : s.czones[z].sounding = none) (same : s.sight z = w.sight z) : ArbiterLooks z w (s.arbitrates zs) := by
  obtain ⟨a, before, after⟩ := State.arbitrates_turn once mem s
  exact ((State.arbitrate_looks (by rw [before.czone]; exact free)).of_sight (before.sight.trans same)).aside after

/-- What is neither started nor passed over keeps its delivery. -/
theorem State.arbitrates_others {z : Fin 8} {zs : List (Fin 8)} (once : zs.Nodup) {s : State} {c : Fin 32}
    (other : (s.arbitrates zs).czones[z].sounding ≠ some c)
    (kept : ¬(s.isDue z c = true ∧ (s.arbitrates zs).czones[z].sounding = none)) :
    (s.arbitrates zs).delivery? c z = s.delivery? c z := by
  by_cases mem : z ∈ zs
  · obtain ⟨a, before, after⟩ := State.arbitrates_turn once mem s
    rw [after.czone] at other kept
    rw [delivery?_of_sight after.sight, ← delivery?_of_sight before.sight]
    refine State.arbitrate_others other ?_
    rw [isDue_of_sight before.sight]
    exact kept
  · exact delivery?_of_sight (State.arbitrates_aside mem s).sight c

theorem State.arbitrates_terms (zs : List (Fin 8)) (s : State) : TermsKept s (s.arbitrates zs) :=
  List.foldlRecOn (motive := TermsKept s) zs _ (.refl s) fun _ kept z _ => (termsKept_closed z s).arbitrate kept

theorem State.arbitrates_changes (zs : List (Fin 8)) (s : State) : ChangesOnly burstParts s (s.arbitrates zs) :=
  .foldl (fun s z => s.arbitrate_changes z) zs s

theorem State.arbitrates_callTable (zs : List (Fin 8)) (s : State) : CallTableKept s (s.arbitrates zs) :=
  .foldl (fun s z => s.arbitrate_callTable z) zs s

/-- What a place in a queue depends on is seen of the calls, and their order (R137). -/
theorem State.ahead_of_sight {s t : State} {z : Fin 8} (same : t.sight z = s.sight z) (order : t.callList = s.callList)
    (a b : Fin 32) : t.ahead z a b = s.ahead z a b := by
  have priority (c : Fin 32) : (t.call? c).map (·.priority) = (s.call? c).map (·.priority) := by
    have seen : (t.call? c).map (Call.sight z) = (s.call? c).map (Call.sight z) :=
      congrFun (congrArg ZoneSight.calls same) c
    have read (o : Option Call) : o.map (·.priority) = (o.map (Call.sight z)).map (·.terms.priority) := by
      cases o <;> rfl
    rw [read, seen, ← read]
  unfold State.ahead State.callAge
  rw [priority, priority, delivery?_of_sight same, delivery?_of_sight same, order]

end Sys2Proof.Machine
end

section
/-!
PROOFS. A new call fills its slot, joins its queues, and sounds or waits (R133, R136, R137, R140).
-/

namespace Sys2Proof.Machine
-- One proof after another: the whole text stays within the memory of one compile.
set_option Elab.async false

/-! ## A call in its slot (R133) -/

/-- Call `x` is put in slot `c` and stands last in the order. -/
def State.putCall (c : Fin 32) (x : Call) (s : State) : State :=
  ({ s with
      calls := put s.calls c { issue := nextIssue s.calls[c].issue, call := some x }
      callList := s.callList.erase c ++ [c] } : State).mark .call

theorem State.fillCall_eq (s : State) (c : Fin 32) (x : Call) :
    s.fillCall c x = ((s.putCall c x).joinQueues c x.targets).arbitrates x.targets := rfl

/-- From `s` to `t` the call `x` has been put in slot `c`, which was empty or whose call has left. -/
structure Placed (c : Fin 32) (x : Call) (s t : State) : Prop where
  frame : ChangesOnly [.calls, .stations] s t
  calls : ∀ b : Fin 32, t.call? b = if b = c then some x else s.call? b
  issue : t.calls[c].issue = nextIssue s.calls[c].issue
  last : t.callList.getLast? = some c
  order : s.callList.Nodup → t.callList = s.callList.erase c ++ [c]

theorem State.putCall_changes (s : State) (c : Fin 32) (x : Call) : ChangesOnly [.calls, .stations] s (s.putCall c x) := by
  constructor; intro p hp; cases p <;> simp_all [Part.same, State.putCall]

theorem State.putCall_placed {s room : State} {c : Fin 32} (made : room = s ∨ room = s.emptyCall c) (x : Call) :
    Placed c x s (room.putCall c x) := by
  have slots (b : Fin 32) : (room.putCall c x).calls[b] =
      if b = c then { issue := nextIssue room.calls[c].issue, call := some x } else room.calls[b] := put_get ..
  have list : (room.putCall c x).callList = room.callList.erase c ++ [c] := rfl
  have put_ := room.putCall_changes c x
  generalize room.putCall c x = t at *
  have emptied := s.emptyCall_call? c
  refine ⟨?_, fun b => ?_, ?_, ?_, fun once => ?_⟩
  · rcases made with rfl | rfl
    · exact put_
    · exact (State.emptyCall_changes ..).andThen put_
  · unfold State.call?
    rw [slots]
    split
    · rfl
    next ne =>
      rcases made with rfl | rfl
      · rfl
      · exact (emptied b).trans (if_neg ne)
  · rw [slots, if_pos rfl]
    rcases made with rfl | rfl
    · rfl
    · have emptied : (s.emptyCall c).calls[c] = { s.calls[c] with call := none } := put_same s.calls c _
      rw [emptied]
  · rw [list, List.getLast?_append]
    rfl
  · rw [list]
    rcases made with rfl | rfl
    · rfl
    · have erased : (s.emptyCall c).callList = s.callList.erase c := rfl
      rw [erased, List.erase_of_not_mem (fun mem => (once.mem_erase_iff.1 mem).1 rfl)]

/-! ## The queues and the arbiters (R137, R140) -/

theorem State.queuePlace_erase {s : State} {z : Fin 8} {c : Fin 32} {q : List (Fin 32)} (fresh : c ∉ q) :
    (s.queuePlace z c q).erase c = q := by
  unfold State.queuePlace
  rw [List.erase_append_right _ fun mem => fresh ((List.takeWhile_sublist _).subset mem), List.erase_cons_head,
    List.takeWhile_append_dropWhile]

/-- What the new call finds: the call in slot `c` of the order, each queue as it was. -/
def State.withCall (c : Fin 32) (x : Call) (s : State) : State :=
  { s with calls := put s.calls c ⟨0, some x⟩, callList := s.callList.erase c ++ [c] }

theorem State.withCall_call? (s : State) (c b : Fin 32) (x : Call) :
    (s.withCall c x).call? b = if b = c then some x else s.call? b := by
  unfold State.call? State.withCall
  dsimp only
  rw [put_get]
  split
  · rfl
  · rfl

/-- The new call in its slot and its queues, every zone's arbiter having looked. -/
def State.callQueued (c : Fin 32) (x : Call) (s : State) : State := (s.joinQueues c x.targets).arbitrates x.targets

section

variable {c : Fin 32} {x : Call} {s t : State} {z : Fin 8} (placed : Placed c x s t) (once : x.targets.Nodup)
include placed

theorem Placed.czones : t.czones = s.czones := placed.frame.same .czones (by decide)

theorem Placed.queuePlace_eq (list : s.callList.Nodup) (z : Fin 8) (q : List (Fin 32)) :
    t.queuePlace z c q = (s.withCall c x).queuePlace z c q := by
  refine State.queuePlace_congr (fun b => ?_) (placed.order list) z c q
  rw [placed.calls, State.withCall_call?]

/-- What the arbiter reads of a zone where the call has been put: the call beside the others. -/
theorem Placed.sight (z : Fin 8) : t.sight z = (s.withCall c x).sight z := by
  have kept : ChangesOnly [.calls, .stations] s (s.withCall c x) := by
    constructor; intro p hp; cases p <;> simp_all [Part.same, State.withCall]
  rw [State.sight_of_calls placed.frame, State.sight_of_calls kept]
  simp only [placed.calls, State.withCall_call?]

include once

theorem Placed.joined : ((t.joinQueues c x.targets).czones[z]) =
    if z ∈ x.targets then t.queued z c else s.czones[z] := by
  rw [State.joinQueues_czone c z once, placed.czones]

omit once in
theorem Placed.call : ∃ y, (t.callQueued c x).call? c = some y ∧ y.terms = x.terms ∧ y.targets = x.targets := by
  have joined := t.joinQueues_changes c x.targets
  have terms := ((TermsKept.of_changes joined).trans (State.arbitrates_terms x.targets _)).terms c
  have table := ((CallTableKept.foldl (fun s z => s.joinQueue_callTable z c) x.targets t).trans
    (State.arbitrates_callTable x.targets _)).targets c
  have here : t.call? c = some x := (placed.calls c).trans (if_pos rfl)
  rw [here] at terms table
  unfold State.callQueued
  cases found : ((t.joinQueues c x.targets).arbitrates x.targets).call? c with
  | none =>
    rw [found] at terms
    cases terms
  | some y =>
    rw [found] at terms
    have table : some y.targets = some x.targets := (congrArg (Option.map Call.targets) found).symm.trans table
    exact ⟨y, rfl, Option.some.inj terms, Option.some.inj table⟩

theorem Placed.outside (out : z ∉ x.targets) : (t.callQueued c x).czones[z] = s.czones[z] := by
  have here := placed.joined (z := z) once
  rw [if_neg out] at here
  exact (State.arbitrates_aside out _).czone.trans here

theorem Placed.queuedSight (list : s.callList.Nodup) (mem : z ∈ x.targets) : (t.joinQueues c x.targets).sight z =
    ({ s.withCall c x with czones := put s.czones z { s.czones[z] with
      queue := (s.withCall c x).queuePlace z c (s.czones[z].queue.erase c) } } : State).sight z := by
  have here := placed.joined (z := z) once
  rw [if_pos mem] at here
  rw [State.sight_of_czones (t.joinQueues_changes c x.targets), here, State.sight_put, placed.sight]
  unfold State.queued
  rw [placed.czones, placed.queuePlace_eq list]

theorem Placed.looks (list : s.callList.Nodup) (mem : z ∈ x.targets) (free : s.czones[z].sounding = none) :
    ArbiterLooks z { s.withCall c x with czones := put s.czones z { s.czones[z] with
      queue := (s.withCall c x).queuePlace z c (s.czones[z].queue.erase c) } } (t.callQueued c x) := by
  have here := placed.joined (z := z) once
  rw [if_pos mem] at here
  refine State.arbitrates_looks once mem ?_ (placed.queuedSight once list mem)
  rw [here]
  unfold State.queued
  rw [placed.czones]
  exact free

omit once in
theorem Placed.delivery? (z : Fin 8) : (t.joinQueues c x.targets).delivery? c z = x.delivery? z := by
  rw [(t.joinQueues_changes c x.targets).delivery? rfl]
  unfold State.delivery?
  rw [placed.calls, if_pos rfl]
  rfl

/-- In a busy or suppressed zone the call waits behind what it is not ahead of. -/
theorem Placed.waits (mem : z ∈ x.targets) (fresh : c ∉ s.czones[z].queue)
    (shut : s.czones[z].sounding ≠ none ∨ s.czones[z].suppressed = true) :
    (t.callQueued c x).czones[z].sounding = s.czones[z].sounding ∧ c ∈ (t.callQueued c x).czones[z].queue ∧
      (t.callQueued c x).czones[z].queue.erase c = s.czones[z].queue ∧
      (t.callQueued c x).delivery? c z = x.delivery? z ∧
      ∀ b ∈ (t.callQueued c x).czones[z].queue.takeWhile (fun b => b != c), (t.callQueued c x).ahead z c b = false := by
  have here := placed.joined (z := z) once
  rw [if_pos mem] at here
  have queued : t.queued z c = { s.czones[z] with queue := t.queuePlace z c s.czones[z].queue } := by
    unfold State.queued
    rw [placed.czones, List.erase_of_not_mem fresh]
  rw [queued] at here
  have joined := t.joinQueues_changes c x.targets
  have aside : Aside z (t.joinQueues c x.targets) (t.callQueued c x) := by
    refine State.arbitrates_shut ?_ x.targets
    rw [here]
    tauto
  have delivery := placed.delivery? z
  have ahead (b : Fin 32) : (t.joinQueues c x.targets).ahead z c b = t.ahead z c b := by
    unfold State.ahead State.delivery? State.callAge
    simp only [joined.call? rfl, (joined.same .calls (by decide)).2]
  generalize t.joinQueues c x.targets = u at *
  generalize t.callQueued c x = v at *
  rw [aside.czone, here]
  refine ⟨rfl, ?_, ?_, (delivery?_of_sight aside.sight c).trans delivery, fun b before => ?_⟩
  · exact List.mem_append_right _ (List.mem_cons_self ..)
  · exact State.queuePlace_erase fresh
  · rw [State.ahead_of_sight aside.sight aside.order, ahead]
    exact (takeWhile_queuePlace before).1

end

end Sys2Proof.Machine
end

section
/-!
PROOFS. A RAISE of a CALL (R133..R137).
-/

namespace Sys2Proof.Machine
-- One proof after another: the whole text stays within the memory of one compile.
set_option Elab.async false

/-! ## The call that is asked for (R134) -/

theorem purposeAsked_getD (fs : List FieldVal) :
    (purposeAsked fs).getD .staff = if askedFor fs 34 = some 0 then .audience else .staff := by
  unfold purposeAsked
  cases askedFor fs 34 with
  | none => rfl
  | some v =>
    match v with
    | 0 => rfl
    | 1 => rfl
    | _ + 2 => rfl

theorem askedSet_has {n zones : Nat} (small : zones < 2 ^ n) (z : Fin n) :
    ((some zones).bind (setOf n)).getD 0 = BitVec.ofNat n zones ∧ (BitVec.ofNat n zones).getLsbD z.1 = zones.testBit z.1 := by
  constructor
  · unfold setOf
    rw [Option.bind_some, if_pos small]
    rfl
  · rw [BitVec.getLsbD_ofNat, decide_eq_true z.2, Bool.true_and]

/-- The call of a RAISE whose call zone set is `zones`, and whether a value was moved into its range. -/
theorem State.newCall_eq {s : State} {st : Fin 8} {fs : List FieldVal} {zones : Nat} (asked : askedFor fs 40 = some zones)
    (small : zones < 2 ^ 8) {strokes bursts interval : Nat} {x : Call} (hstrokes : strokes = (askedFor fs 36).getD 3)
    (hbursts : bursts = (askedFor fs 37).getD 1) (hinterval : interval = (askedFor fs 38).getD 600)
    (hx : x =
      { origin := st, aud := (askedFor fs 33).bind (entryNo 3),
        purpose := if askedFor fs 34 = some 0 then .audience else .staff,
        priority := (askedFor fs 35).getD 1, strokes := max 1 (min 8 strokes),
        bursts := max 1 (min 16 bursts), interval := max 50 (min 6000 interval),
        flicker := (askedFor fs 39).getD 0, finished := false, outcome := none,
        deliveries := ((List.finRange 8).filter fun z => zones.testBit z.1).map fun z =>
          { zone := z, state := .waiting, notBefore := s.now, lastStart := none,
            burstsLeft := max 1 (min 16 bursts), degraded := false, resumes := false } }) :
    s.newCall st fs = (x, x.strokes != strokes || x.bursts != bursts || x.interval != interval) := by
  have set (z : Fin 8) : ((((askedFor fs 40).bind (setOf 8)).getD 0 : BitVec 8)).getLsbD z.1 = zones.testBit z.1 := by
    rw [asked, (askedSet_has small z).1]
    exact (askedSet_has small z).2
  unfold State.newCall
  simp only [set, purposeAsked_getD, audAsked, ← hstrokes, ← hbursts, ← hinterval]
  subst hx
  rfl

theorem callTargets {deliveries : List (Fin 8)} {f : Fin 8 → Delivery} (zone : ∀ z, (f z).zone = z) :
    (deliveries.map f).map (·.zone) = deliveries := by
  rw [List.map_map]
  exact (List.map_congr_left fun z _ => zone z).trans (List.map_id _)

/-! ## The checks of a RAISE (R134, R135) -/

theorem State.mayCall_iff {s : State} {st : Fin 8} {x : Call} : s.mayCall st x = true ↔
    s.role st = .foh ∨ (x.purpose = .audience ∧ ∃ a, x.aud = some a ∧ s.isStageOf st a = true) := by
  unfold State.mayCall
  rw [Bool.or_eq_true, Bool.and_eq_true, beq_iff_eq, beq_iff_eq]
  cases x.aud with
  | none => simp
  | some a => simp

theorem State.callTooLate_iff {s : State} {x : Call} : s.callTooLate x = true ↔ x.purpose = .audience ∧
    ∃ a, x.aud = some a ∧ s.phase a ≠ .houseOpen ∧ s.phase a ≠ .beginners ∧ s.phase a ≠ .interval := by
  unfold State.callTooLate
  rw [Bool.and_eq_true, beq_iff_eq]
  cases x.aud with
  | none => simp
  | some a =>
    have shut : (!(s.phase a).callable) = true ↔
        s.phase a ≠ .houseOpen ∧ s.phase a ≠ .beginners ∧ s.phase a ≠ .interval := by
      cases s.phase a <;> decide
    refine and_congr_right fun _ => shut.trans ?_
    exact ⟨fun h => ⟨a, rfl, h⟩, fun ⟨b, same, h⟩ => by cases same; exact h⟩

theorem Call.barred_iff {s : State} {x : Call} : (x.deliveries.any fun d => s.czones[d.zone].barred) = true ↔
    ∃ z ∈ x.targets, s.czones[z].barred = true := by
  unfold Call.targets
  simp only [List.any_eq_true, List.mem_map, exists_exists_and_eq_and]

/-! ## The room for it (R133, R136) -/

theorem State.roomForCall_none {s : State}
    (full : ∀ c : Fin 32, s.call? c ≠ none ∧ ∀ y ∈ s.call? c, y.finished = false) : s.roomForCall = none := by
  have taken : s.freeCallSlot = none :=
    firstIx_eq_none fun c => Option.isNone_eq_false_iff.2 (Option.isSome_iff_ne_none.2 (full c).1)
  have active : s.oldestFinished = none := by
    refine List.find?_eq_none.2 fun c _ => ?_
    cases found : s.call? c with
    | none => simp
    | some y => simp [(full c).2 y found]
  unfold State.roomForCall
  rw [taken]
  dsimp only
  rw [active]
  rfl

theorem State.roomForCall_some {s : State} {c : Fin 32} (room : (s.call? c = none ∧ ∀ j : Fin 32, j < c → s.call? j ≠ none) ∨
    ((∀ j : Fin 32, s.call? j ≠ none) ∧ s.callList.find? (fun j => (s.call? j).any (·.finished)) = some c)) :
    ∃ u, (u = s ∨ u = s.emptyCall c) ∧ s.roomForCall = some (c, u) := by
  unfold State.roomForCall
  rcases room with ⟨free, before⟩ | ⟨taken, oldest⟩
  · have slot : s.freeCallSlot = some c := firstIx_eq_some (by rw [free]; rfl) fun j lt =>
      Option.isNone_eq_false_iff.2 (Option.isSome_iff_ne_none.2 (before j lt))
    rw [slot]
    exact ⟨s, .inl rfl, rfl⟩
  · have slot : s.freeCallSlot = none :=
      firstIx_eq_none fun j => Option.isNone_eq_false_iff.2 (Option.isSome_iff_ne_none.2 (taken j))
    have finished : (fun j => ((s.call? j).map (·.finished)).getD false) = fun j => (s.call? j).any (·.finished) := by
      funext j
      cases s.call? j <;> rfl
    have found : s.oldestFinished = some c := by
      unfold State.oldestFinished
      rw [finished, oldest]
    rw [slot]
    dsimp only
    rw [found]
    exact ⟨_, .inr rfl, rfl⟩

/-! ## The request -/

theorem State.frameGood_callFieldOk (s : State) : s.frameGood.callFieldOk = s.callFieldOk := by
  unfold State.callFieldOk State.callZonesOk
  rw [State.frameGood_settings]

/-- What becomes of a call that has passed its checks. -/
def Ask.placesCall (q : Ask) (x : Call) (adjusted : Bool) (s : State) : Verdict :=
  match s.roomForCall with
  | none => q.says .full [] s
  | some (c, room) =>
      q.names (okStatus adjusted) (oneUp c) (room.fillCall c x).calls[c].issue
        ((((room.fillCall c x).call? c).map (room.fillCall c x).callFields).getD []) (room.fillCall c x)

theorem State.raiseCallReq_formed {s : State} {q : Ask} {x : Call} {adjusted : Bool}
    (ok : ∀ f ∈ q.req.fields, s.callFieldOk q.req.fields f = true) (whole : callWhole q.req.fields = true)
    (new : s.newCall q.st q.req.fields = (x, adjusted)) : s.raiseCallReq q =
      if s.mayCall q.st x = false then q.says .notPermitted [] s
      else if s.callTooLate x = true then q.refuses .wrongPhase [] s
      else if (x.deliveries.any fun d => s.czones[d.zone].barred) = true then q.refuses .alarmActive [] s
      else q.placesCall x adjusted s := by
  have good : (q.req.fields.find? fun f => !s.callFieldOk q.req.fields f) = none :=
    List.find?_eq_none.2 fun f mem => by rw [ok f mem]; decide
  unfold State.raiseCallReq
  dsimp only
  rw [good]
  dsimp only
  rw [whole, new]
  dsimp only
  refine (if_neg (by decide)).trans (if_congr (iff_of_eq (Bool.not_eq_true' _)) rfl ?_)
  rfl

section

variable {r : Req} {st : Fin 8} {s : State} (heard : Heard s r st) (index : r.index = 0) (issue : r.issue = 0)
  (listens : s.role st ≠ .none) (able : s.role st ≠ .view) (once : (r.fields.map (·.id)).Nodup)
include index issue listens able once

theorem raiseCall_stop : s.frameGood.linkStop st .raise .call r = none :=
  State.linkStop_raise (by rwa [State.frameGood_role]) (by rwa [State.frameGood_role]) rfl index issue once

include heard

theorem raiseCall_turned {status : Status} {why : Option Reason} {fields : List FieldVal}
    (answer : s.frameGood.raiseCallReq ⟨st, .call, r⟩ = (Ask.answer ⟨st, .call, r⟩ status why fields, s.frameGood)) :
    ∃ t, exec (.raiseCall r) s = .next t ∧ ChangesOnly [.link] s.frameGood t ∧
      Replies t s.settings.part.address r.station status why .call 0 0 fields := by
  have turned := exec_says (i := .raiseCall r) rfl (by decide) heard (raiseCall_stop index issue listens able once) answer
  rw [index, issue] at turned
  exact turned

theorem raiseCall_badField {f : FieldVal} (bad : r.fields.find? (fun f => !s.callFieldOk r.fields f) = some f) :
    ∃ t, exec (.raiseCall r) s = .next t ∧ ChangesOnly [.link] s.frameGood t ∧
      Replies t s.settings.part.address r.station .badField none .call 0 0 [f] := by
  refine raiseCall_turned heard index issue listens able once ?_
  unfold State.raiseCallReq
  dsimp only
  rw [State.frameGood_callFieldOk, bad]
  rfl

theorem raiseCall_unwhole (ok : ∀ f ∈ r.fields, s.callFieldOk r.fields f = true) (part : callWhole r.fields = false) :
    ∃ t, exec (.raiseCall r) s = .next t ∧ ChangesOnly [.link] s.frameGood t ∧
      Replies t s.settings.part.address r.station .badField none .call 0 0 [] := by
  have good : (r.fields.find? fun f => !s.callFieldOk r.fields f) = none :=
    List.find?_eq_none.2 fun f mem => by rw [ok f mem]; decide
  refine raiseCall_turned heard index issue listens able once ?_
  unfold State.raiseCallReq
  dsimp only
  rw [State.frameGood_callFieldOk, good]
  dsimp only
  rw [part]
  rfl

section

variable {x : Call} {adjusted : Bool} (ok : ∀ f ∈ r.fields, s.callFieldOk r.fields f = true)
  (whole : callWhole r.fields = true) (new : s.newCall st r.fields = (x, adjusted))
include ok whole new

omit heard index issue listens able once in
theorem State.frameGood_raiseCallReq : s.frameGood.raiseCallReq ⟨st, .call, r⟩ =
    if s.mayCall st x = false then Ask.says ⟨st, .call, r⟩ .notPermitted [] s.frameGood
    else if s.callTooLate x = true then Ask.refuses ⟨st, .call, r⟩ .wrongPhase [] s.frameGood
    else if (∃ z ∈ x.targets, s.czones[z].barred = true) then Ask.refuses ⟨st, .call, r⟩ .alarmActive [] s.frameGood
    else Ask.placesCall ⟨st, .call, r⟩ x adjusted s.frameGood := by
  have new' : s.frameGood.newCall st r.fields = (x, adjusted) := by
    rw [← new]
    unfold State.newCall
    rw [State.frameGood_now]
  have may : s.frameGood.mayCall st x = s.mayCall st x := by
    unfold State.mayCall
    simp only [State.frameGood_role, State.frameGood_isStageOf]
  have late : s.frameGood.callTooLate x = s.callTooLate x := by
    unfold State.callTooLate
    simp only [State.frameGood_phase]
  have czones : s.frameGood.czones = s.czones := s.frameGood_changes.same .czones (by decide)
  have decided := State.raiseCallReq_formed (s := s.frameGood) (q := ⟨st, .call, r⟩)
    (by rw [State.frameGood_callFieldOk]; exact ok) whole new'
  simp only [may, late, Call.barred_iff, czones] at decided
  exact decided

/-- R135: the checks of role, phase, bar and room, in order. -/
theorem raiseCall_checked {late barred : Bool} (hlate : late = true ↔ x.purpose = .audience ∧
      ∃ a, x.aud = some a ∧ s.phase a ≠ .houseOpen ∧ s.phase a ≠ .beginners ∧ s.phase a ≠ .interval)
    (hbarred : barred = true ↔ ∃ z ∈ x.targets, s.czones[z].barred = true) (status : Status) (why : Option Reason)
    (checks : (if s.role st ≠ .foh ∧ ¬(x.purpose = .audience ∧ ∃ a, x.aud = some a ∧ s.isStageOf st a = true) then
        some (Status.notPermitted, none)
      else if late = true then some (.refused, some Reason.wrongPhase)
      else if barred = true then some (.refused, some .alarmActive)
      else if ∀ c : Fin 32, s.call? c ≠ none ∧ ∀ y ∈ s.call? c, y.finished = false then some (.full, none)
      else none) = some (status, why)) :
    ∃ t, exec (.raiseCall r) s = .next t ∧ ChangesOnly [.link] s.frameGood t ∧
      Replies t s.settings.part.address r.station status why .call 0 0 [] := by
  refine raiseCall_turned heard index issue listens able once ?_
  rw [State.frameGood_raiseCallReq ok whole new]
  have mayNot : s.mayCall st x = false ↔
      s.role st ≠ .foh ∧ ¬(x.purpose = .audience ∧ ∃ a, x.aud = some a ∧ s.isStageOf st a = true) := by
    rw [← Bool.not_eq_true, State.mayCall_iff, not_or]
  simp only [mayNot, State.callTooLate_iff.trans hlate.symm, ← hbarred]
  split at checks
  next bars =>
    cases checks
    exact if_pos bars
  next may =>
    rw [if_neg may]
    split at checks
    next late =>
      cases checks
      exact if_pos late
    next timely =>
      rw [if_neg timely]
      split at checks
      next barred =>
        cases checks
        exact if_pos barred
      next open_ =>
        rw [if_neg open_]
        split at checks
        next full =>
          cases checks
          have same (c : Fin 32) : s.frameGood.call? c = s.call? c := s.frameGood_changes.call? rfl c
          unfold Ask.placesCall
          rw [State.roomForCall_none (s := s.frameGood) fun c => by rw [same]; exact full c]
          rfl
        next => cases checks

/-- R136: a RAISE that passes its checks puts the call in its slot, and its deliveries sound or wait. -/
theorem raiseCall_placed (may : s.mayCall st x = true) (timely : s.callTooLate x = false)
    (open_ : ¬∃ z ∈ x.targets, s.czones[z].barred = true) {c : Fin 32}
    (slot : (s.call? c = none ∧ ∀ j : Fin 32, j < c → s.call? j ≠ none) ∨
      ((∀ j : Fin 32, s.call? j ≠ none) ∧ s.callList.find? (fun j => (s.call? j).any (·.finished)) = some c)) :
    ∃ a t v, Placed c x s.frameGood v ∧ t = (v.callQueued c x).reply s.settings.part.address r.station a ∧
      exec (.raiseCall r) s = .next t ∧
      Replies t s.settings.part.address r.station (okStatus adjusted) none .call (c.1 + 1)
        (v.callQueued c x).calls[c].issue
        ((((v.callQueued c x).call? c).map (v.callQueued c x).callFields).getD []) := by
  have same (c : Fin 32) : s.frameGood.call? c = s.call? c := s.frameGood_changes.call? rfl c
  have order : s.frameGood.callList = s.callList := (s.frameGood_changes.same .calls (by decide)).2
  obtain ⟨room, made, found⟩ := State.roomForCall_some (s := s.frameGood) (c := c) (by
    rw [order]
    simp only [same]
    exact slot)
  have decided := State.frameGood_raiseCallReq ok whole new
  rw [if_neg (by rw [may]; decide), if_neg (by rw [timely]; decide), if_neg open_, Ask.placesCall, found] at decided
  obtain ⟨a, t, left, run, reply⟩ := exec_names (i := .raiseCall r) rfl (by decide) heard
    (raiseCall_stop index issue listens able once) decided
  exact ⟨a, t, room.putCall c x, State.putCall_placed made x, left, run, reply⟩

end

end

end Sys2Proof.Machine
end

section
/-!
PROOFS. What has become of a call that is raised (R133..R137, R140..R142).
-/

namespace Sys2Proof.Machine
-- One proof after another: the whole text stays within the memory of one compile.
set_option Elab.async false

theorem okStatus_three {a b c d e f : Nat} :
    okStatus (a != b || c != d || e != f) = if a = b ∧ c = d ∧ e = f then .done else .adjusted := by
  unfold okStatus
  split
  next moved =>
    refine (if_neg fun ⟨h, k, l⟩ => ?_).symm
    simp [h, k, l] at moved
  next kept =>
    refine (if_pos ?_).symm
    simpa [and_assoc] using kept

/-- The delivery of a call in a zone it goes to. -/
theorem Call.delivery?_of_target {x : Call} {z : Fin 8} (mem : z ∈ x.targets) : ∃ d ∈ x.deliveries, x.delivery? z = some d := by
  obtain ⟨d, there, zone⟩ := List.mem_map.1 mem
  unfold Call.delivery?
  cases found : x.deliveries.find? (·.zone == z) with
  | none => exact absurd (beq_iff_eq.2 zone) (List.find?_eq_none.1 found d there)
  | some e => exact ⟨e, List.mem_of_find?_eq_some found, rfl⟩

section

variable {c : Fin 32} {x : Call} {s v : State} (placed : Placed c x s v) (once : x.targets.Nodup)
include placed

theorem Placed.queued_changes : ChangesOnly ([.link, .holds] ++ burstParts) s (v.callQueued c x) := by
  unfold State.callQueued
  have joined := v.joinQueues_changes c x.targets
  have looked := State.arbitrates_changes x.targets (v.joinQueues c x.targets)
  exact (placed.frame.andThen (rs := [.link, .holds] ++ burstParts) joined).andThen looked

theorem Placed.queued_issue : (v.callQueued c x).calls[c].issue =
    if s.calls[c].issue < 255 then s.calls[c].issue + 1 else 1 := by
  have kept := ((TermsKept.of_changes (v.joinQueues_changes c x.targets)).trans
    (State.arbitrates_terms x.targets _)).issues c
  exact kept.trans (placed.issue.trans (nextIssue_eq _))

theorem Placed.queued_last : (v.callQueued c x).callList.getLast? = some c := by
  have joined : (v.joinQueues c x.targets).callList = v.callList := ((v.joinQueues_changes c x.targets).same .calls (by decide)).2
  unfold State.callQueued
  rw [(State.arbitrates_callTable x.targets _).list, joined]
  exact placed.last

include once

/-- A delivery that has not been started and whose zone sounds another waits as it did (R141). -/
theorem Placed.queued_others {z : Fin 8} (busy : (v.callQueued c x).czones[z].sounding ≠ none)
    (other : (v.callQueued c x).czones[z].sounding ≠ some c) : (v.callQueued c x).delivery? c z = x.delivery? z := by
  rw [← placed.delivery? z]
  exact State.arbitrates_others once other fun h => busy h.2

end

/-- Settles O53. -/
theorem callRaisedAndQueued : Obligations.CallRaisedAndQueued := by
  unfold Obligations.CallRaisedAndQueued
  refine ⟨?_, reset_callsLawful, fun s t lawful run => step_callsLawful lawful run⟩
  rintro r st s u heard index issue rfl listens able once
  refine ⟨fun f bad => raiseCall_badField heard index issue listens able once bad,
    fun ok part => raiseCall_unwhole heard index issue listens able once ok part, ?_⟩
  intro ok whole strokes bursts interval zones x late barred hstrokes hbursts hinterval asked hx hlate hbarred
  have small : zones < 2 ^ 8 := by
    obtain ⟨f, mem, named, value⟩ := askedFor_eq_some asked
    have good := ok f mem
    unfold State.callFieldOk at good
    rw [named, value] at good
    have good : s.callZonesOk zones = true := good
    unfold State.callZonesOk at good
    cases set : setOf 8 zones with
    | none => rw [set] at good; cases good
    | some set' => exact isSome_setOf.1 (by rw [set]; rfl)
  have new := State.newCall_eq (s := s) (st := st) asked small hstrokes hbursts hinterval hx
  have targets : x.targets = (List.finRange 8).filter fun z => zones.testBit z.1 := by
    rw [hx]
    exact callTargets fun _ => rfl
  have mem (z : Fin 8) : z ∈ x.targets ↔ zones.testBit z.1 = true := by
    rw [targets, List.mem_filter]
    exact and_iff_right (List.mem_finRange z)
  have apart : x.targets.Nodup := targets ▸ (List.nodup_finRange 8).filter _
  have waiting {z : Fin 8} (inside : z ∈ x.targets) : (x.delivery? z).map (·.state) = some .waiting := by
    obtain ⟨d, there, found⟩ := Call.delivery?_of_target inside
    rw [hx] at there
    obtain ⟨z', -, rfl⟩ := List.mem_map.1 there
    rw [found]
    rfl
  have hbarred : barred = true ↔ ∃ z ∈ x.targets, s.czones[z].barred = true := by
    rw [hbarred]
    exact exists_congr fun z => and_congr_left' (mem z).symm
  clear hx
  refine ⟨fun status why checks => ?_, fun may timely open_ c slot => ?_⟩
  · exact raiseCall_checked heard index issue listens able once ok whole new hlate hbarred status why checks
  · have timely : s.callTooLate x = false := by
      rw [← Bool.not_eq_true, State.callTooLate_iff, ← hlate, timely]
      decide
    have open_ : ¬∃ z ∈ x.targets, s.czones[z].barred = true := by
      rw [← hbarred, open_]
      decide
    obtain ⟨a, t, v, placed, left, run, reply⟩ := raiseCall_placed heard index issue listens able once ok whole new
      (State.mayCall_iff.2 may) timely open_ slot
    obtain ⟨y, found, terms, zonesY⟩ := placed.call
    have whole' := placed.queued_changes
    have issueT := placed.queued_issue
    have last := placed.queued_last
    have outside {z : Fin 8} (out : z ∉ x.targets) := placed.outside apart out
    have looks {z : Fin 8} (list : s.frameGood.callList.Nodup) (inside : z ∈ x.targets)
      (free : s.frameGood.czones[z].sounding = none) := placed.looks apart list inside free
    have waits {z : Fin 8} (inside : z ∈ x.targets) (fresh : c ∉ s.frameGood.czones[z].queue)
      (shut : s.frameGood.czones[z].sounding ≠ none ∨ s.frameGood.czones[z].suppressed = true) :=
      placed.waits apart inside fresh shut
    have others {z : Fin 8} := placed.queued_others apart (z := z)
    generalize v.callQueued c x = w at *
    have replied := State.reply_changes w s.settings.part.address r.station a
    rw [← left] at replied
    have aside (z : Fin 8) : Aside z w t := .of_changes replied
    have czones : s.frameGood.czones = s.czones := s.frameGood_changes.same .czones (by decide)
    obtain ⟨calls, list⟩ : s.frameGood.calls = s.calls ∧ s.frameGood.callList = s.callList :=
      s.frameGood_changes.same .calls (by decide)
    have deliveryY (z : Fin 8) : y.delivery? z = w.delivery? c z := by
      unfold State.delivery?
      rw [found]
      rfl
    have term {α : Type} (f : Call → α) : f y.terms = f x.terms := congrArg f terms
    rw [found] at reply
    refine ⟨t, y, run, whole'.andThen replied, (replied.call? rfl c).trans found, ?_, ?_, term (·.origin), term (·.aud),
      term (·.purpose), term (·.priority), term (·.strokes), term (·.bursts), term (·.interval), term (·.flicker), zonesY,
      fun z out => ?_, fun nodup z inside free v' hv w' hw => ?_, fun z inside fresh shut => ?_, ?_⟩
    · rw [(aside 0).order]
      exact last
    · rw [(aside 0).issues, issueT, calls]
    · have outer : z ∉ x.targets := fun inside => Bool.false_ne_true (out.symm.trans ((mem z).1 inside))
      rw [(aside z).czone, outside outer, czones]
    · subst hv hw
      rw [(aside z).czone]
      refine ⟨(looks (list ▸ nodup) ((mem z).2 inside) (by rw [czones]; exact free)).aside (aside z), fun busy other => ?_⟩
      rw [deliveryY, others busy other]
      exact waiting ((mem z).2 inside)
    · obtain ⟨sounding, member, rest, delivery, behind⟩ := waits ((mem z).2 inside) (by rw [czones]; exact fresh)
        (by rw [czones]; exact shut)
      rw [(aside z).czone, deliveryY, delivery]
      rw [czones] at sounding rest
      refine ⟨sounding, member, rest, waiting ((mem z).2 inside), fun b before => ?_⟩
      rw [State.ahead_of_sight (aside z).sight (aside z).order]
      exact behind b before
    · have shown : t.callFields y = w.callFields y := by rw [left]; rfl
      rw [(aside 0).issues, shown, ← okStatus_three]
      exact reply

end Sys2Proof.Machine
end

section
/-!
PROOFS. A queue that names a call twice (R137 rules it out, and CallsLawful keeps it out): an amendment has the arbiter
pass over the call once, so that it stands in the queue UNDELIVERED.
-/

namespace Sys2Proof.Machine
-- One proof after another: the whole text stays within the memory of one compile.
set_option Elab.async false

/-- A STAFF call for F1, which waits 10 s after its first burst. -/
def staffCall : Call where
  origin := 0
  aud := none
  purpose := .staff
  priority := 1
  strokes := 3
  bursts := 2
  interval := 300
  flicker := 0
  finished := false
  outcome := none
  deliveries := [⟨0, .waiting, 30000, some 0, 1, false, false⟩]

/-- The call stands twice in the queue of F1, which is free, has lost its chime and is not lit; station 1 is FOH. -/
def queuedTwice : State :=
  { State.reset with
    now := 20000
    settings := { Settings.defaults with
      stations := put Settings.defaults.stations 0 ⟨.foh, 0, 0⟩
      czones := put Settings.defaults.czones 0 { Settings.defaults.czones[0] with present := true } }
    circuits := put State.reset.circuits 6 { State.reset.circuits[6] with condition := .openLoad }
    calls := put State.reset.calls 0 ⟨1, some staffCall⟩
    callList := [0]
    czones := put State.reset.czones 0 { State.reset.czones[0] with queue := [0, 0] } }

/-- The burst interval is amended to 10 s, which has passed since the burst. -/
def sooner : Req := ⟨1, 1, 1, [⟨38, 100⟩]⟩

/-- The state that the amendment leaves. -/
def passedOverOnce : State :=
  match exec (.amendCall sooner) queuedTwice with
  | .next t => t
  | _ => queuedTwice

theorem passedOverOnce_queue : passedOverOnce.czones[(0 : Fin 8)].sounding = none ∧
    passedOverOnce.czones[(0 : Fin 8)].queue = [0] := by decide

theorem passedOverOnce_call : (passedOverOnce.delivery? 0 0).map (·.state) = some .undelivered := by decide

/-- Refutes O54: a delivery that the arbiter has passed over is said to wait where its call is still in the queue, and
that holds only of a queue that names no call twice, which the statement does not ask for. -/
theorem not_callAmendedAndRetired : ¬ Obligations.CallAmendedAndRetired := by
  unfold Obligations.CallAmendedAndRetired
  rintro ⟨amends, -, -⟩
  obtain ⟨-, -, accepted⟩ := amends sooner 0 0 queuedTwice _ staffCall ⟨rfl, rfl, by decide, by decide⟩ (by decide)
    (by decide) (by decide) rfl (by decide) (by decide) (by decide)
  obtain ⟨t, y, run, -, slot, -, -, -, -, -, -, -, -, -, -, stands, -⟩ := accepted (by decide) (.inl (by decide))
  have left : t = passedOverOnce := by
    unfold passedOverOnce
    rw [run]
  obtain ⟨-, free⟩ := stands (by decide) 0 ⟨0, .waiting, 30000, some 0, 1, false, false⟩ rfl
  obtain ⟨-, -, waits⟩ := free rfl rfl _ rfl _ rfl _ rfl _ rfl
  have shown := waits (by rw [left, passedOverOnce_queue.1]; decide) (by rw [left, passedOverOnce_queue.2]; decide)
  have passed := passedOverOnce_call
  rw [← left, State.delivery?, State.call?, slot] at passed
  have passed : (y.delivery? 0).map (·.state) = some .undelivered := passed
  rw [shown] at passed
  exact absurd passed (by decide)

end Sys2Proof.Machine
end

section
/-!
PROOFS. Reset is the start of a blank board, and every law holds there.
-/

namespace Sys2Proof.Machine
-- One proof after another: the whole text stays within the memory of one compile.
set_option Elab.async false

theorem reset_nested : AttentionNested State.reset := by
  unfold AttentionNested
  decide

/-- No channel is RAISING (R62). -/
theorem reset_raises : RaisesAreSafe State.reset := by
  have still : ∀ ch : Fin 3, State.reset.irons[ch].motion ≠ .raising := by decide
  exact fun ch raising => absurd raising (still ch)

theorem reset_drives : DrivesFollowDemands State.reset := by
  unfold DrivesFollowDemands Circuit.lawful
  decide

theorem reset_counters : CountersBounded State.reset := by
  unfold CountersBounded
  decide

theorem reset_lights : LightsDerived State.reset := by
  unfold LightsDerived
  decide

theorem reset_outputs : OutputsDerived State.reset := by
  unfold OutputsDerived
  decide

theorem reset_silences : SilencesDerived State.reset := by
  unfold SilencesDerived
  decide

/-- No incident is open and no alarm is demanded (R102, R165). -/
theorem reset_demands : DemandsDerived State.reset := by
  have open_ : State.reset.openIncidents = [] := rfl
  have demands : ∀ c : Fin 16, State.reset.circuits[c].demand = false := by decide
  have silences : ∀ z : Fin 8, State.reset.czones[z].barred = false ∧ State.reset.czones[z].suppressed = false := by decide
  have blank : AlarmsBlank State.reset := ⟨open_, fun c _ => demands c, silences⟩
  refine (blank.follow State.reset.demandAll).demands (State.demandAll_derived _)

theorem reset_bursts : BurstsLawful State.reset := by
  unfold BurstsLawful
  decide

/-- Every performance is DARK and holds nothing (R29). -/
theorem reset_holds : HoldsLawful State.reset := by
  have dark : ∀ a : Fin 3, State.reset.phase a = .dark := by decide
  have empty : ∀ a : Fin 3, State.reset.holdLists[a] = [] := by decide
  have slots : ∀ (a : Fin 3) (k : Fin 8), State.reset.hold? a k = none := by decide
  intro a
  refine ⟨empty a ▸ List.nodup_nil, fun k => ?_, fun _ => empty a, fun light => absurd (dark a) light⟩
  rw [slots, empty]
  exact ⟨rfl, rfl⟩

theorem reset_perfs : PerformancesLawful State.reset := by
  unfold PerformancesLawful
  decide

theorem reset_incidents : IncidentsLawful State.reset := by
  have slots : ∀ i : Fin 25, State.reset.incident? i = none := by decide
  have zones : ∀ z : Fin 24, State.reset.zones[z].incident = none := by decide
  exact incidentsLawful_of_none rfl slots zones

/-- Settles O2. -/
theorem resetIsLawfulStart : Obligations.ResetIsLawfulStart := by
  unfold Obligations.ResetIsLawfulStart
  have perfs : ∀ a : Fin 3, State.reset.phase a = .dark ∧ State.reset.perfs[a].act = 0 ∧ State.reset.holdLists[a] = [] := by
    decide
  have groups : ∀ g : Fin 12, State.reset.groups[g].level = 0 ∧ State.reset.groups[g].fading = false := by decide
  have circuits : ∀ c : Fin 16, State.reset.circuits[c].demand = false ∧ State.reset.circuits[c].condition = .sound ∧
      State.reset.circuits[c].overloads = 0 := by decide
  exact ⟨rfl, rfl, rfl, rfl, perfs, rfl, rfl, rfl, rfl, rfl, rfl, groups, circuits, reset_nested, reset_raises,
    reset_drives, reset_counters, reset_lights, reset_outputs, reset_silences, reset_demands, reset_bursts, reset_holds,
    reset_perfs, reset_incidents⟩

end Sys2Proof.Machine
end

section
/-!
PROOFS. What a start leaves of every block, from the image, the retained copy and the plant (R29, R62, R79, R102, R126,
R153, R165, R174, R175, R191, R199).
-/

namespace Sys2Proof.Machine
-- One proof after another: the whole text stays within the memory of one compile.
set_option Elab.async false

/-- The part as a start has set it up, the automatic holds and the flags still to come. -/
def State.setOut (p : Plant) (fromPin : Bool) (s : State) : State :=
  ((s.loadSettings.setUp p fromPin).writeRetained).startLights

theorem State.start_eq (p : Plant) (fromPin : Bool) (s : State) :
    s.start p fromPin = (s.setOut p fromPin).startHolds.flagAll := rfl

theorem State.startHolds_changes (s : State) : ChangesOnly [.holds, .stations] s s.startHolds :=
  .forAll State.evalAllHolds_changes s

/-- The holds and the flags apart, a start leaves what it set up. -/
theorem State.setOut_start (p : Plant) (fromPin : Bool) (s : State) :
    ChangesOnly [.holds, .stations] (s.setOut p fromPin) (s.start p fromPin) :=
  (State.startHolds_changes _).andThen (State.flagAll_changes _)

/-! ## The settings a start loads (R199) -/

theorem State.loadSettings_settings (s : State) :
    s.loadSettings.settings = if s.imageGood then s.image else Settings.defaults := by
  unfold State.loadSettings
  split
  · rfl
  · rfl

theorem State.loadSettings_store (s : State) :
    s.loadSettings.store = ⟨if s.imageGood then .loaded else .defaults, !s.imageGood, false⟩ := by
  unfold State.loadSettings
  cases s.imageGood
  · rfl
  · rfl

theorem State.loadSettings_retained (s : State) : s.loadSettings.retained = s.retained := by
  unfold State.loadSettings
  split
  · rfl
  · rfl

theorem State.loadSettings_defaults (s : State) : (s.loadSettings.store.state == .defaults) = !s.imageGood := by
  rw [s.loadSettings_store]
  cases s.imageGood
  · rfl
  · rfl

/-! ## The restart cause (R175) -/

/-- The state with another restart cause. -/
def State.causedBy (cause : RestartCause) (s : State) : State :=
  { s with supply := { s.supply with restartCause := cause } }

theorem State.causedBy_holdReason (cause : RestartCause) (s : State) (a : Fin 3) (c : HoldCause) :
    (s.causedBy cause).holdReason a c = s.holdReason a c := by
  cases c
  · rfl
  · rfl
  · rfl
  · rfl
  · rfl

/-- No automatic hold reads the restart cause. -/
theorem State.causedBy_evalHold (cause : RestartCause) (c : HoldCause) (a : Fin 3) (s : State) :
    (s.causedBy cause).evalHold c a = (s.evalHold c a).causedBy cause := by
  have reason := s.causedBy_holdReason cause a c
  have slot : (s.causedBy cause).hold? a (holdSlot c) = s.hold? a (holdSlot c) := rfl
  have phase : (s.causedBy cause).phase a = s.phase a := rfl
  unfold State.evalHold
  rw [reason, slot, phase]
  by_cases dark : s.phase a = .dark
  · rw [if_pos dark, if_pos dark]
  rw [if_neg dark, if_neg dark]
  cases s.holdReason a c with
  | none =>
    cases s.hold? a (holdSlot c) with
    | none => rfl
    | some h => rfl
  | some why =>
    cases s.hold? a (holdSlot c) with
    | none => rfl
    | some h => rfl

theorem State.causedBy_startHolds (cause : RestartCause) (s : State) :
    (s.causedBy cause).startHolds = s.startHolds.causedBy cause := by
  have turn (a : Fin 3) (t : State) : (t.causedBy cause).evalAllHolds a = (t.evalAllHolds a).causedBy cause := by
    unfold State.evalAllHolds
    simp only [State.causedBy_evalHold]
  unfold State.startHolds forAll
  exact List.foldl_hom (State.causedBy cause) (g₁ := fun u i => u.evalAllHolds i) (g₂ := fun u i => u.evalAllHolds i)
    fun u a => turn a u

theorem State.causedBy_flagAll (cause : RestartCause) (s : State) :
    (s.causedBy cause).flagAll = s.flagAll.causedBy cause := rfl

/-- The cause that a start reports (R175). -/
def State.causeAt (p : Plant) (fromPin : Bool) (s : State) : RestartCause :=
  if s.copyValid p then (if fromPin then .resetPin else .coldStart) else .cellLost

theorem State.setOut_causedBy (p : Plant) (s : State) :
    s.setOut p true = (s.setOut p false).causedBy (s.loadSettings.causeAt p true) := rfl

/-- A start from the reset pin is one from power but for the restart cause. -/
theorem State.start_fromPin (p : Plant) (s : State) :
    s.start p true = (s.start p false).causedBy (s.loadSettings.causeAt p true) := by
  rw [State.start_eq, s.setOut_causedBy, State.causedBy_startHolds, State.causedBy_flagAll, State.start_eq]

/-! ## The laws that a start sets up -/

/-- A part right after reset, with the memories and the draws of another. -/
def State.blankBoard (s : State) : State :=
  { State.reset with
    image := s.image, imageGood := s.imageGood, retained := s.retained, draws := s.draws, pending := s.pending,
    stations := s.stations }

/-- A start reads nothing of the part but its memories. -/
theorem State.setOut_blankBoard (p : Plant) (fromPin : Bool) (s : State) :
    s.setOut p fromPin = s.blankBoard.setOut p fromPin := by
  have same : s.blankBoard.imageGood = s.imageGood := rfl
  unfold State.setOut State.loadSettings
  rw [same]
  cases s.imageGood
  · rfl
  · rfl

theorem State.start_derived (p : Plant) (fromPin : Bool) (s : State) :
    LightsDerived (s.start p fromPin) ∧ OutputsDerived (s.start p fromPin) := by
  have follow := LightsFollow.start s.blankBoard p fromPin
  rw [State.start_eq, ← s.setOut_blankBoard, ← State.start_eq] at follow
  exact ⟨follow.lights reset_lights, follow.outputs reset_outputs⟩

theorem State.start_raises (p : Plant) (fromPin : Bool) (s : State) : RaisesAreSafe (s.start p fromPin) := by
  have kept := RaisesKept.start s.blankBoard p fromPin
  rw [State.start_eq, ← s.setOut_blankBoard, ← State.start_eq] at kept
  exact kept.keep reset_raises

end Sys2Proof.Machine
end

section
/-!
PROOFS. The records that a start leaves (R29, R62, R79, R102, R126, R153, R165, R174, R175, R191).
-/

namespace Sys2Proof.Machine
-- One proof after another: the whole text stays within the memory of one compile.
set_option Elab.async false

section

variable (p : Plant) (fromPin : Bool) (s : State)

theorem State.setOut_settings : (s.setOut p fromPin).settings = s.loadSettings.settings := rfl
theorem State.setOut_perf (a : Fin 3) : (s.setOut p fromPin).perfs[a] =
    Perf.restored s.loadSettings.settings.perfs[a].present s.loadSettings.settings.irons[a].present
      (s.loadSettings.store.state == .defaults)
      (if s.loadSettings.copyValid p then some s.loadSettings.retained.entries[a] else none) := tab_get ..
theorem State.setOut_retained (a : Fin 3) : (s.setOut p fromPin).retained.entries[a] =
    ⟨(s.setOut p fromPin).phase a, (s.setOut p fromPin).perfs[a].act, (s.setOut p fromPin).perfs[a].ironProved⟩ :=
  tab_get ..
theorem State.setOut_iron (ch : Fin 3) : (s.setOut p fromPin).irons[ch] =
    startIron s.loadSettings.settings.irons[ch] (p.limitIn.getLsbD ch.1) (p.pressed.getLsbD ch.1) := tab_get ..
theorem State.setOut_zone (z : Fin 24) : (s.setOut p fromPin).zones[z] =
    Zone.atStart 0 s.loadSettings.settings.zones[z] p.bands[z] := tab_get ..
theorem State.setOut_incident (i : Fin 25) : (s.setOut p fromPin).incidents[i] = ⟨0, none⟩ := tab_get ..
theorem State.setOut_call (c : Fin 32) : (s.setOut p fromPin).calls[c] = ⟨0, none⟩ := tab_get ..
theorem State.setOut_czone (z : Fin 8) : (s.setOut p fromPin).czones[z] = CallZone.idle := tab_get ..
theorem State.setOut_circuit (c : Fin 16) : (s.setOut p fromPin).circuits[c] =
    (Circuit.cleared 0).tested (p.loads.getLsbD c.1) := tab_get ..
theorem State.setOut_slot (a : Fin 3) (k : Fin 8) : (s.setOut p fromPin).holds[a][k] = ⟨0, none⟩ := by
  change (tab fun _ => tab fun _ => _ : Vector (Vector HoldSlot 8) 3)[a][k] = _
  rw [tab_get, tab_get]
theorem State.setOut_holdList (a : Fin 3) : (s.setOut p fromPin).holdLists[a] = [] := tab_get ..
theorem State.setOut_supply :
    (s.setOut p fromPin).supply = startSupply p (s.loadSettings.copyValid p) fromPin := rfl

end

/-! ## Performances (R29) -/

/-- A restored performance that the board's settings let be one. -/
structure PerfRestored (present ironPresent defaults : Bool) (entry : Option RetainedEntry) (x : Perf) : Prop where
  closed : x.openedBy = none
  dark : defaults = true ∨ present = false → x.phase = .dark ∧ x.interrupted = false
  fresh : defaults = true → x.act = 0
  kept : defaults = false → present = true → ∀ e, entry = some e → x.act = e.act ∧
    (e.phase = .dark ∨ e.phase = .prepare → x.phase = e.phase ∧ x.interrupted = false) ∧
    (e.phase ≠ .dark → e.phase ≠ .prepare → x.interrupted = true ∧
      x.phase = if e.phase = .closing ∧ (ironPresent = false ∨ x.ironProved = .proved) then .closing else .halted)
  lost : defaults = false → present = true → entry = none → x.phase = .halted ∧ x.act = 0 ∧ x.interrupted = true

theorem Perf.restored_defaults (present ironPresent : Bool) (entry : Option RetainedEntry) :
    PerfRestored present ironPresent true entry (Perf.restored present ironPresent true entry) :=
  ⟨rfl, fun _ => ⟨rfl, rfl⟩, fun _ => rfl, nofun, nofun⟩

theorem Perf.restored_absent (ironPresent : Bool) (entry : Option RetainedEntry) :
    PerfRestored false ironPresent false entry (Perf.restored false ironPresent false entry) :=
  ⟨rfl, fun _ => ⟨rfl, rfl⟩, nofun, nofun, nofun⟩

theorem Perf.restored_lost (ironPresent : Bool) :
    PerfRestored true ironPresent false none (Perf.restored true ironPresent false none) :=
  ⟨rfl, fun h => h.elim nofun nofun, nofun, nofun, fun _ _ _ => ⟨rfl, rfl, rfl⟩⟩

/-- A phase of the entry is taken over in DARK and PREPARE, and is CLOSING or HALTED after any other. -/
theorem Perf.restored_kept (ironPresent : Bool) (e : RetainedEntry) :
    PerfRestored true ironPresent false (some e) (Perf.restored true ironPresent false (some e)) := by
  refine ⟨rfl, fun h => h.elim nofun nofun, nofun, fun _ _ e' same => ?_, nofun⟩
  obtain rfl : e = e' := Option.some.inj same
  obtain ⟨phase, act, proof⟩ := e
  refine ⟨rfl, ?_, ?_⟩
  · rintro (rfl | rfl)
    · exact ⟨rfl, rfl⟩
    · exact ⟨rfl, rfl⟩
  · intro light open_
    cases phase with
    | dark => exact absurd rfl light
    | prepare => exact absurd rfl open_
    | closing => cases ironPresent <;> cases proof <;> exact ⟨rfl, rfl⟩
    | _ => exact ⟨rfl, rfl⟩

theorem Perf.restored_as (present ironPresent defaults : Bool) (entry : Option RetainedEntry) :
    PerfRestored present ironPresent defaults entry (Perf.restored present ironPresent defaults entry) := by
  cases defaults with
  | true => exact Perf.restored_defaults ..
  | false =>
    cases present with
    | false => exact Perf.restored_absent ..
    | true =>
      cases entry with
      | none => exact Perf.restored_lost _
      | some e => exact Perf.restored_kept _ e

/-- iron_proved is the entry's where that is one for a present channel (R29). -/
theorem Perf.restored_ironProved (present ironPresent defaults valid : Bool) (e : RetainedEntry) :
    (Perf.restored present ironPresent defaults (if valid then some e else none)).ironProved =
      if ironPresent = false then .notRequired
      else if defaults = false ∧ valid = true ∧ e.ironProved ≠ .notRequired then e.ironProved
      else .notYet := by
  obtain ⟨phase, act, proof⟩ := e
  cases ironPresent <;> cases defaults <;> cases valid <;> cases proof <;> rfl

/-! ## Holds (R29) -/

theorem HoldsRaised.other {a b : Fin 3} {done : List HoldCause} {s t : State} (h : HoldsRaised a done s t) (ne : b ≠ a) :
    HoldsRaised a done s (t.evalAllHolds b) := by
  obtain ⟨frame, list, raised, rest⟩ := h
  have slots : (t.evalAllHolds b).holds[a] = t.holds[a] := by
    unfold State.evalAllHolds
    rw [State.evalHold_holds_other _ _ ne, State.evalHold_holds_other _ _ ne, State.evalHold_holds_other _ _ ne,
      State.evalHold_holds_other _ _ ne]
  refine ⟨frame.andThen (State.evalAllHolds_changes b t), ?_, ?_, ?_⟩
  · rw [State.evalAllHolds_lists t b a ne.symm]
    exact list
  · rw [slots]
    exact raised
  · rw [slots]
    exact rest

theorem HoldsRaised.flagAll {a : Fin 3} {done : List HoldCause} {s t : State} (h : HoldsRaised a done s t) :
    HoldsRaised a done s t.flagAll :=
  ⟨h.frame.andThen (State.flagAll_changes t), h.list, h.raised, h.rest⟩

/-- Out of DARK a start raises the automatic holds that are due, in slot order. -/
theorem State.startHolds_raised {s : State} {a : Fin 3} (light : s.phase a ≠ .dark) (empty : s.holdLists[a] = [])
    (clear : ∀ k, s.hold? a k = none) :
    HoldsRaised a [.iron, .fire, .supply, .system] s s.startHolds := by
  refine forAll_turn (P := HoldsRaised a [] s) (Q := HoldsRaised a [.iron, .fire, .supply, .system] s) a
    (fun b t ne h => h.other ne) (fun t h => ?_) (fun b t ne h => h.other ne) s (HoldsRaised.start empty)
  exact (((h.next light clear (by decide)).next light clear (by decide)).next light clear (by decide)).next light clear
    (by decide)

/-- After a start an automatic hold has issue 1, and no other stands; mains is not PRESENT, so the SUPPLY hold does. -/
structure HoldsStarted (a : Fin 3) (t : State) : Prop where
  automatic : ∀ k : Fin 8, (t.hold? a k).isSome = true → 4 ≤ k.1 ∧ t.holds[a][k].issue = 1
  supply : t.phase a ≠ .dark → t.hold? a (holdSlot .supply) = some ⟨none, .supply, .mains⟩

theorem HoldsRaised.started {a : Fin 3} {s t : State}
    (h : HoldsRaised a [.iron, .fire, .supply, .system] s t) (bare : ∀ k : Fin 8, s.holds[a][k] = ⟨0, none⟩)
    (mains : s.holdReason a .supply = some .mains)
    (due : ∀ c ∈ [HoldCause.iron, .fire, .supply, .system],
      (t.hold? a (holdSlot c)).isSome = true → (s.holdReason a c).isSome = true) : HoldsStarted a t := by
  obtain ⟨-, -, raised, rest⟩ := h
  refine ⟨fun k stands => ?_, fun _ => ?_⟩
  · by_cases listed : k ∈ [HoldCause.iron, .fire, .supply, .system].map holdSlot
    · obtain ⟨c, mem, rfl⟩ := List.mem_map.1 listed
      obtain ⟨why, reason⟩ := Option.isSome_iff_exists.1 (due c mem stands)
      rw [raised c mem why reason, bare]
      have auto : ∀ c ∈ [HoldCause.iron, .fire, .supply, .system], 4 ≤ (holdSlot c).1 := by decide
      exact ⟨auto c mem, rfl⟩
    · have slot := rest k listed
      rw [State.hold?, slot, bare] at stands
      cases stands
  · have slot := raised .supply (by decide) .mains mains
    rw [State.hold?, slot]

theorem State.start_holds (p : Plant) (fromPin : Bool) (s : State) (a : Fin 3) :
    HoldsStarted a (s.start p fromPin) := by
  have lawful := holdsLawful_iff.2 (HoldsLawfulFor.start s p fromPin)
  obtain ⟨-, slots, dark, due⟩ := lawful a
  have perfs : (s.start p fromPin).phase a = (s.setOut p fromPin).phase a := by
    rw [State.phase, (s.setOut_start p fromPin).same .perfs (by decide)]
    rfl
  by_cases night : (s.start p fromPin).phase a = .dark
  · refine ⟨fun k stands => ?_, fun light => absurd night light⟩
    rw [(slots k).1, dark night] at stands
    cases stands
  · have bare := s.setOut_slot p fromPin a
    have clear (k : Fin 8) : (s.setOut p fromPin).hold? a k = none := by rw [State.hold?, bare]
    have raised := State.startHolds_raised (perfs ▸ night) (s.setOut_holdList p fromPin a) clear
    refine raised.flagAll.started bare ?_ fun c mem stands => ?_
    · have lines : ((s.setOut p fromPin).supply.mains != .present) = true := by
        rw [s.setOut_supply]
        unfold startSupply
        cases p.mainsPresent
        · rfl
        · rfl
      exact if_pos lines
    · rw [← State.start_eq, due night c mem, (s.setOut_start p fromPin).holdReason] at stands
      exact stands

end Sys2Proof.Machine
end

section
/-!
PROOFS. What a start leaves, block by block, and the whole of it.
-/

namespace Sys2Proof.Machine
-- One proof after another: the whole text stays within the memory of one compile.
set_option Elab.async false

theorem startIron_present {cfg : IronSettings} {limitIn pressed : Bool} {x : Iron} (present : cfg.present = true)
    (started : x = startIron cfg limitIn pressed) :
    x.motion = (if limitIn then .atIn else .descending) ∧ x.referenced = limitIn ∧
      x.position = (if limitIn then 0 else cfg.travel) ∧ x.pressed = pressed ∧ x.fault = none ∧
      x.kind = (if limitIn then none else some .part) ∧ x.reason = (if limitIn then none else some .restart) ∧
      x.sub = (if limitIn then none else some .free) ∧ x.demandOut = false ∧ x.stop = none ∧ x.firstFault = none ∧
      x.further = false ∧ x.result = none ∧ x.td = 0 ∧ x.tf = 0 ∧ x.descentTimer = 0 := by
  rw [started, startIron, if_pos present]
  cases limitIn
  · exact ⟨rfl, rfl, rfl, rfl, rfl, rfl, rfl, rfl, rfl, rfl, rfl, rfl, rfl, rfl, rfl, rfl⟩
  · exact ⟨rfl, rfl, rfl, rfl, rfl, rfl, rfl, rfl, rfl, rfl, rfl, rfl, rfl, rfl, rfl, rfl⟩

theorem Zone.atStart_present {cfg : ZoneSettings} {b : Band} {x : Zone} (present : cfg.present = true)
    (started : x = Zone.atStart 0 cfg b) :
    x.band = b ∧ x.condition = .sound ∧ x.isolated = false ∧
      x.detection = (if b = .active then .pending else .normal) := by
  rw [started, Zone.atStart, if_pos present]
  cases b
  · exact ⟨rfl, rfl, rfl, rfl⟩
  · exact ⟨rfl, rfl, rfl, rfl⟩
  · exact ⟨rfl, rfl, rfl, rfl⟩
  · exact ⟨rfl, rfl, rfl, rfl⟩

theorem Circuit.tested_cleared {loadSeen : Bool} {x : Circuit} (started : x = (Circuit.cleared 0).tested loadSeen) :
    x.demand = false ∧ x.drive = false ∧ x.testAt = 10000 ∧
      x.condition = if loadSeen then .sound else .openLoad := by
  rw [started]
  cases loadSeen
  · exact ⟨rfl, rfl, rfl, rfl⟩
  · exact ⟨rfl, rfl, rfl, rfl⟩

section

variable (p : Plant) (fromPin : Bool) (s : State)

/-- A start leaves every group at level 0 with no fade (R126). -/
theorem State.setOut_group (g : Fin 12) : (s.setOut p fromPin).groups[g].level = 0 ∧
    (s.setOut p fromPin).groups[g].target = 0 ∧ (s.setOut p fromPin).groups[g].fading = false := by
  have groups (t : State) : t.startLights.groups[g].level = 0 ∧ t.startLights.groups[g].target = 0 ∧
      t.startLights.groups[g].fading = false := by
    unfold State.startLights
    dsimp only
    rw [tab_get, State.startGroup]
    split
    · exact ⟨rfl, rfl, rfl⟩
    · exact ⟨rfl, rfl, rfl⟩
  exact groups _

theorem State.start_station (i : Fin 8) : (s.start p fromPin).stations[i] =
    { flags := if s.loadSettings.settings.stations[i].role = .none then 0 else s.loadSettings.settings.stations[i].mask
      armed := 0 } := by
  have same : (s.setOut p fromPin).startHolds.settings = s.loadSettings.settings :=
    (State.startHolds_changes _).same .settings (by decide)
  rw [State.start_eq, State.flagAll, same]
  exact tab_get ..

theorem State.start_restartCause : (s.start p fromPin).supply.restartCause = s.loadSettings.causeAt p fromPin := by
  have supply : (s.start p fromPin).supply = (s.setOut p fromPin).supply :=
    (s.setOut_start p fromPin).same .supply (by decide)
  rw [supply, s.setOut_supply]
  rfl

theorem State.loadSettings_copyValid :
    s.loadSettings.copyValid p = (p.cellGood && p.copyIntact && s.retained.checkGood) := by
  rw [State.copyValid, s.loadSettings_retained]

/-- The entry of a performance in the retained copy, if the copy is valid. -/
def State.entryRead (a : Fin 3) : Option RetainedEntry :=
  if s.loadSettings.copyValid p then some s.retained.entries[a] else none

theorem State.start_perf (a : Fin 3) : (s.start p fromPin).perfs[a] =
    Perf.restored s.loadSettings.settings.perfs[a].present s.loadSettings.settings.irons[a].present (!s.imageGood)
      (s.entryRead p a) := by
  have perfs : (s.start p fromPin).perfs = (s.setOut p fromPin).perfs :=
    (s.setOut_start p fromPin).same .perfs (by decide)
  rw [perfs, s.setOut_perf, s.loadSettings_defaults, s.loadSettings_retained]
  rfl

theorem State.start_perf_as (a : Fin 3) :
    PerfRestored s.loadSettings.settings.perfs[a].present s.loadSettings.settings.irons[a].present (!s.imageGood)
      (s.entryRead p a) (s.start p fromPin).perfs[a] := by
  rw [s.start_perf]
  exact Perf.restored_as ..

theorem State.start_ironProved (a : Fin 3) : (s.start p fromPin).perfs[a].ironProved =
    if s.loadSettings.settings.irons[a].present = false then .notRequired
    else if s.imageGood = true ∧ s.loadSettings.copyValid p = true ∧
        s.retained.entries[a].ironProved ≠ .notRequired then
      s.retained.entries[a].ironProved
    else .notYet := by
  rw [s.start_perf, State.entryRead, Perf.restored_ironProved]
  simp only [Bool.not_eq_false']

theorem State.start_retained (a : Fin 3) : (s.start p fromPin).retained.entries[a] =
    ⟨(s.start p fromPin).phase a, (s.start p fromPin).perfs[a].act, (s.start p fromPin).perfs[a].ironProved⟩ := by
  have frame := s.setOut_start p fromPin
  have perfs : (s.start p fromPin).perfs = (s.setOut p fromPin).perfs := frame.same .perfs (by decide)
  have copied : (s.start p fromPin).retained = (s.setOut p fromPin).retained := frame.same .retained (by decide)
  rw [State.phase, perfs, copied, s.setOut_retained]
  rfl

end

/-- Settles O59. -/
theorem coldStartRestores : Obligations.ColdStartRestores := by
  unfold Obligations.ColdStartRestores
  refine ⟨fun p s powered => ⟨s.start p false, rfl, ?_⟩, ?_⟩
  · refine (State.takes_powered _ powered).trans (congrArg Host.Outcome.next ?_)
    rw [s.start_fromPin, State.start_restartCause]
    unfold State.causedBy State.causeAt
    cases s.loadSettings.copyValid p
    · rfl
    · rfl
  · rintro p s _ _ fromPin rfl rfl powered
    refine ⟨s.start p fromPin, ?_, s.start_changes p fromPin, ?_⟩
    · cases fromPin with
      | false => rfl
      | true => exact State.takes_powered _ (powered rfl)
    rw [← s.loadSettings_settings, ← s.loadSettings_copyValid p]
    have frame := s.setOut_start p fromPin
    have irons : (s.start p fromPin).irons = (s.setOut p fromPin).irons := frame.same .irons (by decide)
    have zones : (s.start p fromPin).zones = (s.setOut p fromPin).zones := frame.same .zones (by decide)
    have groups : (s.start p fromPin).groups = (s.setOut p fromPin).groups := frame.same .groups (by decide)
    have circuits : (s.start p fromPin).circuits = (s.setOut p fromPin).circuits := frame.same .circuits (by decide)
    have czones : (s.start p fromPin).czones = (s.setOut p fromPin).czones := frame.same .czones (by decide)
    obtain ⟨incidents, incidentList⟩ := frame.same .incidents (by decide)
    obtain ⟨calls, callList⟩ := frame.same .calls (by decide)
    obtain ⟨lights, outputs⟩ := s.start_derived p fromPin
    refine ⟨frame.same .power (by decide), frame.same .clock (by decide), frame.same .settings (by decide),
      (frame.same .store (by decide) : _ = (s.setOut p fromPin).store).trans s.loadSettings_store,
      frame.same .supply (by decide), fun a => ?_, fun ch present => ?_, fun z present => ?_, incidentList, callList,
      fun i => ?_, fun c => ?_, fun z => ?_, fun g => ?_, fun c => ?_, frame.same .link (by decide), fun i => ?_,
      holdsLawful_iff.2 (HoldsLawfulFor.start s p fromPin), lights, outputs, s.start_raises p fromPin,
      IncidentsLawful.start p fromPin s⟩
    · obtain ⟨closed, dark, fresh, kept, lost⟩ := s.start_perf_as p fromPin a
      obtain ⟨automatic, supply⟩ := s.start_holds p fromPin a
      refine ⟨closed, fun h => dark (h.imp_left (Bool.not_eq_eq_eq_not.2 ·)), fun h => fresh (Bool.not_eq_eq_eq_not.2 h),
        fun h present valid => ?_, fun h present lost' => ?_, s.start_ironProved p fromPin a,
        s.start_retained p fromPin a, automatic, supply⟩
      · exact kept (Bool.not_eq_eq_eq_not.2 h) present _ (if_pos valid)
      · exact lost (Bool.not_eq_eq_eq_not.2 h) present (if_neg (Bool.eq_false_iff.1 lost'))
    · rw [irons]
      exact startIron_present present (s.setOut_iron p fromPin ch)
    · rw [zones]
      exact Zone.atStart_present present (s.setOut_zone p fromPin z)
    · rw [incidents]
      exact s.setOut_incident p fromPin i
    · rw [calls]
      exact s.setOut_call p fromPin c
    · rw [czones]
      exact s.setOut_czone p fromPin z
    · rw [groups]
      exact s.setOut_group p fromPin g
    · rw [circuits]
      exact Circuit.tested_cleared (s.setOut_circuit p fromPin c)
    · rw [s.start_station]
      exact ⟨rfl, rfl⟩

end Sys2Proof.Machine
end

section
/-!
PROOFS. An AMEND of a fixed record whose form is at fault, or that carries no field (R185, R194, R201).
-/

namespace Sys2Proof.Machine
-- One proof after another: the whole text stays within the memory of one compile.
set_option Elab.async false

/-! ## The record that a request names -/

section

variable {r : Req} {a : Fin 3} (index : r.index.toNat = a.1 + 1)
include index

theorem State.amendReq_perf (l : Bool) (st : Fin 8) (u : State) :
    State.amendReq l ⟨st, .perf, r⟩ u = u.amendPerf ⟨st, .perf, r⟩ a := by
  simp only [State.amendReq, entryOf_eq_some index]

theorem State.reads_perf (u : State) : u.reads .perf r.index = u.perfFields a := by
  unfold State.reads State.table
  rw [entryOf_eq_some index, State.perfFields_eq]
  rfl

end

section

variable {r : Req} {z : Fin 8} (index : r.index.toNat = z.1 + 1)
include index

theorem State.amendReq_czone (l : Bool) (st : Fin 8) (u : State) :
    State.amendReq l ⟨st, .czone, r⟩ u = u.amendCZone ⟨st, .czone, r⟩ z := by
  simp only [State.amendReq, entryOf_eq_some index]

theorem State.reads_czone (u : State) : u.reads .czone r.index = u.czoneFields z := by
  unfold State.reads State.table
  rw [entryOf_eq_some index, State.czoneFields_eq]
  rfl

theorem State.amendReq_station (l : Bool) (st : Fin 8) (u : State) :
    State.amendReq l ⟨st, .station, r⟩ u = u.amendStation ⟨st, .station, r⟩ z := by
  simp only [State.amendReq, entryOf_eq_some index]

theorem State.reads_station (u : State) : u.reads .station r.index = u.stationFields z := by
  unfold State.reads State.table
  rw [entryOf_eq_some index, State.stationFields_eq]
  rfl

end

theorem State.amendReq_status (l : Bool) (st : Fin 8) (r : Req) (u : State) :
    State.amendReq l ⟨st, .status, r⟩ u = u.amendStatus ⟨st, .status, r⟩ := by
  simp only [State.amendReq]

theorem State.reads_status {r : Req} (index : r.index.toNat = 1) (u : State) :
    u.reads .status r.index = u.statusFields := by
  unfold State.reads State.table
  rw [entryOf_eq_some (i := (0 : Fin 1)) index, State.statusFields_eq]
  rfl

/-! ## A field at fault, and no field (R185, R194) -/

/-- The record that a refusal carries (log entry 10). -/
def State.shownTo (k : Kind) (r : Req) (u : State) : List FieldVal :=
  if refusalShows k r.fields then u.reads k r.index else []

/-- The owner of the kind answers the first field at fault, and an empty request with the record. -/
structure Formed (k : Kind) (r : Req) (st : Fin 8) (l : Bool) (u : State) : Prop where
  flawed : ∀ w, firstFlaw (formOf k r.index r.fields) r.fields = some w →
    State.amendReq l ⟨st, k, r⟩ u = Ask.flawed ⟨st, k, r⟩ w (u.shownTo k r) u
  empty : r.fields = [] → State.amendReq l ⟨st, k, r⟩ u = Ask.says ⟨st, k, r⟩ .done (u.reads k r.index) u

theorem any_carries {fs : List FieldVal} {n : Nat} (small : n < 256) :
    (fs.any fun g => g.id == BitVec.ofNat 8 n) = carries fs n := by
  rw [Bool.eq_iff_iff, carries_iff, List.any_eq_true]
  refine exists_congr fun g => and_congr_right fun _ => ?_
  rw [id_beq small, beq_iff_eq]

theorem any_carries_or {fs : List FieldVal} {n m : Nat} (small : n < 256) (small' : m < 256) :
    (fs.any fun g => g.id == BitVec.ofNat 8 n || g.id == BitVec.ofNat 8 m) = (carries fs n || carries fs m) := by
  rw [← any_carries small, ← any_carries small', Bool.eq_iff_iff, Bool.or_eq_true, List.any_eq_true, List.any_eq_true,
    List.any_eq_true, ← exists_or]
  refine exists_congr fun g => ?_
  rw [Bool.or_eq_true, and_or_left]

section

variable {r : Req} {st : Fin 8} {l : Bool} {u : State}

theorem formed_perf {a : Fin 3} (index : r.index.toNat = a.1 + 1) : Formed .perf r st l u := by
  have form : formOf .perf r.index r.fields = perfForm := funext (formOf_perf r.index r.fields)
  have shown : u.shownTo .perf r = if carries r.fields 32 then u.perfFields a else [] := by
    rw [State.shownTo, State.reads_perf index, refusalShows]
    exact if_congr (by rw [← any_carries (n := 32) (by decide)]; rfl) rfl rfl
  refine ⟨fun w flaw => ?_, fun none' => ?_⟩
  · rw [form] at flaw
    rw [State.amendReq_perf index, shown, State.amendPerf]
    simp only [flaw]
  · rw [State.amendReq_perf index, State.reads_perf index, State.amendPerf]
    simp only [none', State.settingsStop]
    rfl

theorem formed_iron {ch : Fin 3} (index : r.index.toNat = ch.1 + 1) : Formed .iron r st l u := by
  have form : formOf .iron r.index r.fields = ironForm r.fields := funext (formOf_iron r.index r.fields)
  have shown : u.shownTo .iron r = u.ironShown ch r.fields := by
    rw [State.shownTo, State.reads_iron index, State.ironShown, actsOnIron, refusalShows]
    exact if_congr (by rw [← any_carries_or (n := 37) (m := 128) (by decide) (by decide)]; rfl) rfl rfl
  refine ⟨fun w flaw => ?_, fun none' => ?_⟩
  · rw [form] at flaw
    rw [State.amendReq_iron index, shown]
    exact State.amendIron_flawed flaw
  · have admitted : IronAdmitted ⟨st, .iron, r⟩ ch u :=
      ⟨by rw [none']; rfl, by rw [none']; exact nofun, by rw [none']; rfl⟩
    have same : u.applyIron ch [] u.settings.irons[ch] l = u := by
      rw [State.applyIron_settled, bne_self_eq_false, bne_self_eq_false,
        u.settled_self _ ((settingsAt_iron ch).set_get u.settings)]
      rfl
    have accepted : u.acceptIron ⟨st, .iron, r⟩ ch l = Ask.says ⟨st, .iron, r⟩ .done (u.ironFields ch) u := by
      have plain : amendsSettings .iron [] = false := rfl
      unfold State.acceptIron
      simp only [none', plain, Bool.false_eq_true, if_false, List.foldl_nil, same, bne_self_eq_false]
      rfl
    have bar : u.ironBar ch [] u.settings.irons[ch].present = none := by
      unfold State.ironBar
      dsimp only
      rw [bne_self_eq_false, if_neg (by rw [Bool.false_or, show carries [] 128 = false from rfl, Bool.and_false]; decide)]
      rfl
    rw [State.amendReq_iron index, State.reads_iron index, State.amendIron_admitted admitted,
      State.settingsStop_of_none (by rw [none']; rfl), ← accepted, none']
    dsimp only [List.foldl_nil]
    rw [bar]
    rfl

theorem formed_zone {z : Fin 24} (index : r.index.toNat = z.1 + 1) : Formed .zone r st l u := by
  have form : formOf .zone r.index r.fields = zoneForm := funext (formOf_zone r.index r.fields)
  have shown : u.shownTo .zone r = u.zoneFields z := State.reads_zone index u
  refine ⟨fun w flaw => ?_, fun none' => ?_⟩
  · rw [form] at flaw
    rw [State.amendReq_zone index, shown]
    exact State.amendZone_flawed flaw
  · have same : u.applyZone z [] u.settings.zones[z] = u := by
      rw [State.applyZone_settled, bne_self_eq_false, u.settled_self _ ((settingsAt_zone z).set_get u.settings),
        State.serveZone_same rfl rfl, State.actZone, bne_self_eq_false]
      rfl
    have given : u.settings.zones[z].given [] = u.settings.zones[z] := rfl
    have bar : u.zoneBar z [] u.settings.zones[z] = false := by
      rw [← given, ← Bool.not_eq_true, State.zoneBar_iff, ZoneSettings.asked_plain rfl]
      rintro (⟨asks, -⟩ | ⟨h | h, -⟩)
      · cases asks
      · exact h rfl
      · exact h rfl
    rw [State.amendReq_zone index, State.reads_zone index,
      State.amendZone_formed (by rw [none']; exact List.nodup_nil) (by rw [none']; rfl),
      State.settingsStop_of_none (by rw [none']; rfl)]
    dsimp only
    rw [none', given, ZoneSettings.asked_plain rfl, bar, same, bne_self_eq_false]
    rfl

theorem formed_group {g : Fin 12} (index : r.index.toNat = g.1 + 1) : Formed .group r st l u := by
  have form : formOf .group r.index r.fields = groupForm r.fields := funext (formOf_group r.index r.fields)
  have shown : u.shownTo .group r = u.groupShown g r.fields := by
    rw [State.shownTo, State.reads_group index, State.groupShown, actsOnGroup, refusalShows]
    exact if_congr (by rw [← any_carries_or (n := 33) (m := 128) (by decide) (by decide)]; rfl) rfl rfl
  refine ⟨fun w flaw => ?_, fun none' => ?_⟩
  · rw [form] at flaw
    rw [State.amendReq_group index, shown]
    exact State.amendGroup_flawed flaw
  · rw [State.amendReq_group index, State.reads_group index, State.amendGroup_formed (by rw [none']; rfl),
      State.settingsStop_of_none (by rw [none']; rfl)]
    dsimp only
    rw [none']
    rfl

theorem formed_czone {z : Fin 8} (index : r.index.toNat = z.1 + 1) : Formed .czone r st l u := by
  have form : formOf .czone r.index r.fields = czoneForm := funext (formOf_czone r.index r.fields)
  refine ⟨fun w flaw => ?_, fun none' => ?_⟩
  · rw [form] at flaw
    rw [State.amendReq_czone index, State.amendCZone]
    simp only [flaw]
    rfl
  · rw [State.amendReq_czone index, State.reads_czone index, State.amendCZone]
    simp only [none', State.settingsStop]
    rfl

theorem formed_circuit {c : Fin 16} (index : r.index.toNat = c.1 + 1) : Formed .circuit r st l u := by
  have form : formOf .circuit r.index r.fields = circuitForm c :=
    funext fun f => formOf_circuit r.index r.fields f index
  have shown : u.shownTo .circuit r = u.circuitFields c := State.reads_circuit index u
  refine ⟨fun w flaw => ?_, fun none' => ?_⟩
  · rw [form] at flaw
    rw [State.amendReq_circuit index, shown]
    exact State.amendCircuit_flawed flaw
  · have same : u.applyCircuit c [] = u := by
      rw [State.applyCircuit_settled]
      dsimp only [List.foldl_nil]
      rw [bne_self_eq_false, u.settled_self _ ((settingsAt_circuit c).set_get u.settings), State.serveCircuit_same]
      rfl
    rw [State.amendReq_circuit index, State.reads_circuit index, State.amendCircuit_formed (by rw [none']; rfl),
      State.settingsStop_of_none (by rw [none']; rfl)]
    dsimp only
    rw [none', same]
    rfl

theorem formed_status (index : r.index.toNat = 1) : Formed .status r st l u := by
  have form : formOf .status r.index r.fields = statusForm := funext (formOf_status r.index r.fields)
  refine ⟨fun w flaw => ?_, fun none' => ?_⟩
  · rw [form] at flaw
    rw [State.amendReq_status, State.amendStatus]
    simp only [flaw]
    rfl
  · rw [State.amendReq_status, State.reads_status index, State.amendStatus]
    simp only [none', State.settingsStop]
    rfl

theorem formed_station {n : Fin 8} (index : r.index.toNat = n.1 + 1) : Formed .station r st l u := by
  have form : formOf .station r.index r.fields = stationForm := funext (formOf_station r.index r.fields)
  refine ⟨fun w flaw => ?_, fun none' => ?_⟩
  · rw [form] at flaw
    rw [State.amendReq_station index, State.amendStation]
    simp only [flaw]
    rfl
  · rw [State.amendReq_station index, State.reads_station index, State.amendStation]
    simp only [none', State.settingsStop]
    rfl

/-- The entry that the index of a request in range names. -/
theorem indexed {n : Nat} {b : Byte} (low : 1 ≤ b.toNat) (high : b.toNat ≤ n) : ∃ i : Fin n, b.toNat = i.1 + 1 :=
  ⟨⟨b.toNat - 1, by omega⟩, by dsimp only; omega⟩

/-- Whatever the fixed kind, its owner keeps to the form of its fields. -/
theorem formed_fixed {k : Kind} (fixed : isDynamic k = false) (low : 1 ≤ r.index.toNat)
    (high : r.index.toNat ≤ kindSize k) : Formed k r st l u := by
  cases k with
  | hold => cases fixed
  | incident => cases fixed
  | call => cases fixed
  | perf => exact (indexed low high).elim fun _ index => formed_perf index
  | iron => exact (indexed low high).elim fun _ index => formed_iron index
  | zone => exact (indexed low high).elim fun _ index => formed_zone index
  | group => exact (indexed low high).elim fun _ index => formed_group index
  | czone => exact (indexed low high).elim fun _ index => formed_czone index
  | circuit => exact (indexed low high).elim fun _ index => formed_circuit index
  | status => exact formed_status (Nat.le_antisymm high low)
  | station => exact (indexed low high).elim fun _ index => formed_station index

end

/-- R185, R194, R201: the form of any amendment of a fixed record. -/
theorem amend_form (act : Instr) (k : Kind) (r : Req) (st : Fin 8) (s u : State)
    (named : requestOf act = some (.amend, k, r)) (hold : k ≠ .hold) (incident : k ≠ .incident) (call : k ≠ .call)
    (heard : Heard s r st) (hu : u = s.frameGood) (listens : s.role st ≠ .none) (able : s.role st ≠ .view)
    (once : (r.fields.map (·.id)).Nodup) (issue : r.issue = 0) (low : 1 ≤ r.index.toNat)
    (high : r.index.toNat ≤ kindSize k) :
    (∀ f, r.fields.find? (fun f => formOf k r.index r.fields f != none) = some f →
      ∀ w, formOf k r.index r.fields f = some w →
      ∃ t, exec act s = .next t ∧ ChangesOnly [.link] u t ∧
        RepliesFlaw t s.settings.part.address r.station w f k r.index.toNat 0
          (if refusalShows k r.fields then u.reads k r.index else [])) ∧
    (r.fields = [] →
      ∃ t, exec act s = .next t ∧ ChangesOnly [.link] u t ∧
        Replies t s.settings.part.address r.station .done none k r.index.toNat 0 (u.reads k r.index)) := by
  subst hu
  have fixed : isDynamic k = false := by
    cases k with
    | hold => exact absurd rfl hold
    | incident => exact absurd rfl incident
    | call => exact absurd rfl call
    | _ => rfl
  have asks : FixedAsked act k r st s := ⟨named, fixed, heard, listens, able, once, ⟨low, high⟩, issue⟩
  obtain ⟨flawed, empty⟩ := formed_fixed (st := st) (l := limitInOf act) (u := s.frameGood) fixed low high
  refine ⟨fun f first w flaw => ?_, fun none' => asks.turned (empty none')⟩
  have answer := flawed (w, f) (firstFlaw_of_find first flaw)
  rw [Ask.flawed_eq] at answer
  obtain ⟨t, run, frame, reply⟩ := asks.turned answer
  exact ⟨t, run, frame, repliesFlaw_of reply⟩

end Sys2Proof.Machine
end

section
/-!
PROOFS. A request that carries settings alone (R193, R194, R197): the checks on role, store and locks, and what the owner
of each kind makes of it: PERF, CIRCUIT and STATION.
-/

namespace Sys2Proof.Machine
-- One proof after another: the whole text stays within the memory of one compile.
set_option Elab.async false

/-! ## Settings alone (R194) -/

/-- A request of good form that carries settings and nothing else. -/
structure SettingsOnly (k : Kind) (r : Req) : Prop where
  given : r.fields ≠ []
  once : (r.fields.map (·.id)).Nodup
  inside : ∀ f ∈ r.fields, 1 ≤ idOf f ∧ idOf f ≤ topSetting k
  form : ∀ f ∈ r.fields, formOf k r.index r.fields f = none

namespace SettingsOnly

variable {k : Kind} {r : Req}

theorem settles (h : SettingsOnly k r) : amendsSettings k r.fields = true := amendsSettings_of_all h.given h.inside

theorem lacks (h : SettingsOnly k r) {id : Nat} (outside : ¬(1 ≤ id ∧ id ≤ topSetting k)) : carries r.fields id = false := by
  rw [← Bool.not_eq_true, carries_iff]
  rintro ⟨f, mem, rfl⟩
  exact outside (h.inside f mem)

theorem asksNone (h : SettingsOnly k r) {id : Nat} (outside : ¬(1 ≤ id ∧ id ≤ topSetting k)) : askedFor r.fields id = none :=
  askedFor_eq_none.2 (h.lacks outside)

theorem formed (h : SettingsOnly k r) {judge : FieldVal → Option Flaw} (same : formOf k r.index r.fields = judge) :
    firstFlaw judge r.fields = none :=
  firstFlaw_eq_none.2 fun f mem => same ▸ h.form f mem

theorem stop (h : SettingsOnly k r) {st : Fin 8} (u : State) : u.settingsStop ⟨st, k, r⟩ = u.settingsBar st :=
  State.settingsStop_of h.settles

end SettingsOnly

theorem State.settingsBar_none {u : State} {st : Fin 8} (free : u.settingsBar st = none) : u.unlocked st :=
  (State.settingsStop_eq_none (q := ⟨st, .perf, ⟨0, 0, 0, [⟨1, 0⟩]⟩⟩) ((State.settingsStop_of rfl).trans free)).resolve_left
    nofun

theorem State.settingsBar_dark {u : State} {st : Fin 8} (free : u.settingsBar st = none) (a : Fin 3) : u.phase a = .dark := by
  obtain ⟨-, -, dark, -⟩ := State.settingsBar_none free
  exact u.allDark_iff.1 dark a

theorem State.settingsBar_form {u : State} {st : Fin 8} : u.settingsBar st ≠ some .badField := by
  unfold State.settingsBar
  split
  · exact nofun
  · split
    · exact nofun
    · split
      · exact nofun
      · exact nofun

/-- The fields that a refusal of settings alone carries (log entry 10; R186 for a STATION). -/
def State.settingsShown (k : Kind) (r : Req) (status : Status) (u : State) : List FieldVal :=
  if refusalShows k r.fields then u.reads k r.index
  else if k = .station ∧ status = .badField then r.fields.filter (fun f => f.id == 1) else []

/-- The fields that the reply to accepted settings carries (R197; log entry 10). -/
def State.settingsTold (k : Kind) (r : Req) (asked new : Settings) (v : State) : List FieldVal :=
  if asked = new ∧ k ≠ .zone ∧ k ≠ .circuit then [] else v.reads k r.index

/-- What accepted settings leave. -/
structure SettingsTaken (k : Kind) (r : Req) (l : Bool) (new : Settings) (u v : State) : Prop where
  written : SettingsWritten new u v
  image : v.image = u.image
  perfs : v.perfs = u.perfs
  incidents : v.incidents = u.incidents
  effect : SettingsTakeEffect k r.index l u v

/-- What the owner of a kind decides of settings alone. -/
structure Owns (k : Kind) (r : Req) (st : Fin 8) (l : Bool) (u : State) : Prop where
  barred : ∀ status, u.settingsBar st = some status →
    State.amendReq l ⟨st, k, r⟩ u = Ask.says ⟨st, k, r⟩ status (u.settingsShown k r status) u
  clashes : u.settingsBar st = none → ∀ status why, u.settingsClash k r.index r.fields = some (status, why) →
    State.amendReq l ⟨st, k, r⟩ u = (Ask.answer ⟨st, k, r⟩ status why (u.settingsShown k r status), u)
  taken : u.settingsBar st = none → u.settingsClash k r.index r.fields = none → ∀ asked new,
    asked = u.settings.asked k r.index r.fields → new = asked.ranged k r.index →
    ∃ v, State.amendReq l ⟨st, k, r⟩ u =
        Ask.says ⟨st, k, r⟩ (if asked = new then .done else .adjusted) (v.settingsTold k r asked new) v ∧
      SettingsTaken k r l new u v

/-! ### The reply sent, the settings have taken effect -/

/-- A reply changes no record. -/
theorem SettingsTakeEffect.reply {k : Kind} {index : Byte} {l : Bool} {u v : State}
    (h : SettingsTakeEffect k index l u v) (n : Nat) (b : Byte) (a : Answer) :
    SettingsTakeEffect k index l u (v.reply n b a) := by
  have after {ps : List Part} (frame : ChangesOnly (.link :: ps) u v) : ChangesOnly (.link :: ps) u (v.reply n b a) :=
    ⟨fun p out => Part.same_trans (frame.same p out) ((State.reply_changes v n b a).same p fun link =>
      out (List.mem_singleton.1 link ▸ List.mem_cons_self))⟩
  cases k with
  | perf => exact after h
  | hold => trivial
  | incident => trivial
  | call => trivial
  | circuit => exact after h
  | status =>
    obtain ⟨frame, rest⟩ := h
    exact ⟨after frame, rest⟩
  | iron =>
    intro ch mem
    obtain ⟨frame, rest⟩ := h ch mem
    exact ⟨after frame, rest⟩
  | zone =>
    intro z mem
    obtain ⟨only, same, gone, new, frame, rest⟩ := h z mem
    exact ⟨only, same, gone, new, fun alarms zones => after (frame alarms zones), rest⟩
  | group => exact h
  | czone =>
    intro z mem
    obtain ⟨gone, new, serves, frame⟩ := h z mem
    exact ⟨gone, new, serves, fun present same => after (frame present same)⟩
  | station =>
    intro i mem
    obtain ⟨frame, rest⟩ := h i mem
    exact ⟨after frame, rest⟩

theorem State.frameGood_settingsClash (s : State) (k : Kind) (index : Byte) (fs : List FieldVal) :
    s.frameGood.settingsClash k index fs = s.settingsClash k index fs := by
  unfold State.settingsClash
  simp only [State.frameGood_settings, State.frameGood_irons, State.frameGood_zones] <;> rfl

/-- What turns settings alone away: role, store and locks, then the record's state and its numbers (R194). -/
def State.settingsRefused (s : State) (st : Fin 8) (k : Kind) (r : Req) : Option (Status × Option Reason) :=
  match s.lockedOut st with
  | some w => some w
  | none => s.settingsClash k r.index r.fields

namespace Owns

variable {k : Kind} {r : Req} {l : Bool} {st : Fin 8} {s : State}

theorem refuses {u : State} (h : Owns k r st l u) {status : Status} {why : Option Reason}
    (refused : u.settingsRefused st k r = some (status, why)) :
    State.amendReq l ⟨st, k, r⟩ u = (Ask.answer ⟨st, k, r⟩ status why (u.settingsShown k r status), u) := by
  unfold State.settingsRefused at refused
  rw [State.lockedOut_eq] at refused
  cases bar : u.settingsBar st with
  | some w =>
    rw [bar] at refused
    cases refused
    exact h.barred _ bar
  | none =>
    rw [bar] at refused
    exact h.clashes bar status why refused

section

variable {i : Instr} (asks : FixedAsked i k r st s) (h : Owns k r st (limitInOf i) s.frameGood)
include asks h

/-- R194: settings alone that are turned away. -/
theorem turned {status : Status} {why : Option Reason} (refused : s.settingsRefused st k r = some (status, why)) :
    ∃ t, exec i s = .next t ∧ ChangesOnly [.link] s.frameGood t ∧
      Replies t s.settings.part.address r.station status why k r.index.toNat 0
        (s.frameGood.settingsShown k r status) := by
  refine asks.turned (h.refuses ?_)
  unfold State.settingsRefused at refused ⊢
  rw [State.frameGood_lockedOut, State.frameGood_settingsClash]
  exact refused

/-- R193, R197: settings alone that are accepted. -/
theorem accepted (free : s.lockedOut st = none) (clear : s.settingsClash k r.index r.fields = none) {asked new : Settings}
    (hasked : asked = s.settings.asked k r.index r.fields) (hnew : new = asked.ranged k r.index) :
    ∃ t, exec i s = .next t ∧ SettingsTaken k r (limitInOf i) new s.frameGood t ∧
      Replies t s.settings.part.address r.station (if asked = new then .done else .adjusted) none k r.index.toNat 0
        (t.settingsTold k r asked new) := by
  rw [← s.frameGood_lockedOut, State.lockedOut_eq] at free
  obtain ⟨v, answer, taken⟩ := h.taken (Option.map_eq_none_iff.1 free) (by rw [State.frameGood_settingsClash]; exact clear)
    asked new (by rw [State.frameGood_settings]; exact hasked) hnew
  obtain ⟨a, t, left, run, reply⟩ := asks.done answer
  have told : t.settingsTold k r asked new = v.settingsTold k r asked new := by
    rw [left]
    cases k <;> rfl
  refine ⟨t, run, ?_, by rw [told]; exact reply⟩
  obtain ⟨written, image, perfs, incidents, effect⟩ := taken
  rw [left]
  exact ⟨written, image, perfs, incidents, effect.reply _ _ _⟩

end

end Owns

theorem State.frameGood_image (s : State) : s.frameGood.image = s.image := by
  obtain ⟨image, -⟩ := s.frameGood_changes.same .image (by decide)
  exact image

/-! ## PERF, CIRCUIT and STATION (R3, R163, R186) -/

theorem SettingsAt.told {α : Type} [DecidableEq α] {get : Settings → α} {set : Settings → α → Settings}
    (h : SettingsAt get set) {k : Kind} {r : Req} {v : State} {fields : List FieldVal} (shown : v.reads k r.index = fields)
    (zone : k ≠ .zone) (circuit : k ≠ .circuit) (x : Settings) (a b : α) :
    v.settingsTold k r (set x a) (set x b) = if a != b then fields else [] := by
  unfold State.settingsTold
  rw [shown]
  by_cases same : a = b
  · rw [if_pos ⟨congrArg _ same, zone, circuit⟩, same, bne_self_eq_false]
    rfl
  · rw [if_neg fun k => same (h.set_inj.1 k.1), if_pos (bne_iff_ne.2 same)]

/-- PERF settings are written in range; the record follows where a value was brought there (R3, R197). -/
theorem State.applyPerf_eq (q : Ask) (a : Fin 3) (u : State) : u.applyPerf q a =
    let x := q.req.fields.foldl PerfSettings.amend u.settings.perfs[a]
    let v := u.settled (u.settings.withPerf a x.ranged) (u.settings.perfs[a] != x.ranged)
    q.says (okStatus (x != x.ranged)) (if x != x.ranged then v.perfFields a else []) v := rfl

section

variable {r : Req} {st : Fin 8} {l : Bool} {u : State}

section

variable {a : Fin 3} (index : r.index.toNat = a.1 + 1)
include index

theorem Settings.asked_perf (fs : List FieldVal) (x : Settings) :
    x.asked .perf r.index fs = x.withPerf a (x.perfs[a].asked fs) := by
  unfold Settings.asked
  rw [entryOf_eq_some index]
  rfl

theorem Settings.ranged_perf (x : Settings) : x.ranged .perf r.index = x.withPerf a x.perfs[a].ranged := by
  unfold Settings.ranged
  rw [entryOf_eq_some index]
  rfl

theorem owns_perf (h : SettingsOnly .perf r) : Owns .perf r st l u := by
  have form := h.formed (funext (formOf_perf r.index r.fields))
  have noPhase := h.lacks (id := 32) (by decide)
  have plain : refusalShows .perf r.fields = false := (any_carries (n := 32) (by decide)).trans noPhase
  have decided : u.amendPerf ⟨st, .perf, r⟩ a =
      match u.settingsBar st with
      | some status => Ask.says ⟨st, .perf, r⟩ status [] u
      | none => u.applyPerf ⟨st, .perf, r⟩ a := by
    unfold State.amendPerf
    simp only [form, noPhase, h.stop, h.asksNone (id := 32) (by decide), if_neg h.given, Bool.false_and,
      Bool.false_eq_true, if_false, Option.bind_none] <;> rfl
  refine ⟨fun status bar => ?_, fun _ status why clash => (nomatch clash), fun free _ asked new hasked hnew => ?_⟩
  · rw [State.amendReq_perf index, decided, bar, State.settingsShown, plain]
    rfl
  · rw [State.amendReq_perf index, decided, free]
    have at_ := settingsAt_perf a
    obtain rfl : asked = u.settings.withPerf a (u.settings.perfs[a].asked r.fields) :=
      hasked.trans (Settings.asked_perf index _ _)
    obtain rfl : new = u.settings.withPerf a (u.settings.perfs[a].asked r.fields).ranged := by
      rw [hnew, Settings.ranged_perf index, at_.get_set, at_.set_set]
    refine ⟨u.settled (u.settings.withPerf a (u.settings.perfs[a].asked r.fields).ranged)
      (u.settings.perfs[a] != (u.settings.perfs[a].asked r.fields).ranged), ?_, ?_⟩
    · rw [at_.told (State.reads_perf index _) nofun nofun, ← at_.okStatus_eq]
      dsimp only
      rw [State.applyPerf_eq, PerfSettings.foldl_amend h.once]
    · have frame := u.settled_changes (u.settings.withPerf a (u.settings.perfs[a].asked r.fields).ranged)
        (u.settings.perfs[a] != (u.settings.perfs[a].asked r.fields).ranged)
      exact ⟨at_.written _ _, (frame.same .image (by decide)).1, frame.same .perfs (by decide),
        (frame.same .incidents (by decide)).1, frame.mono (by decide)⟩

end

section

variable {c : Fin 16} (index : r.index.toNat = c.1 + 1)
include index

theorem owns_circuit (h : SettingsOnly .circuit r) : Owns .circuit r st l u := by
  have form := h.formed (funext fun f => formOf_circuit r.index r.fields f index)
  have noReset := h.lacks (id := 128) (by decide)
  have decided : u.amendCircuit ⟨st, .circuit, r⟩ c =
      match u.settingsBar st with
      | some status => Ask.says ⟨st, .circuit, r⟩ status (u.circuitFields c) u
      | none => Ask.says ⟨st, .circuit, r⟩ .done ((u.applyCircuit c r.fields).circuitFields c) (u.applyCircuit c r.fields) := by
    rw [State.amendCircuit_formed form, h.stop, if_neg fun k => Bool.false_ne_true (noReset.symm.trans k.1)] <;>
      rfl
  refine ⟨fun status bar => ?_, fun _ status why clash => (nomatch clash), fun free _ asked new hasked hnew => ?_⟩
  · rw [State.amendReq_circuit index, decided, bar, ← State.reads_circuit index]
    rfl
  · rw [State.amendReq_circuit index, decided, free]
    obtain rfl : new = asked := hnew
    obtain ⟨frame, written, circuits⟩ := State.applyCircuit_dark (c := c) h.once (firstFlaw_eq_none.1 form)
      (State.settingsBar_dark free)
    rw [noReset, if_neg Bool.false_ne_true, put_self] at circuits
    have still : ChangesOnly [.settings, .store, .stations] u (u.applyCircuit c r.fields) := by
      refine ⟨fun p out => ?_⟩
      by_cases own : p = .circuits
      · rw [own]
        exact circuits
      · exact frame.same p (by simp_all)
    refine ⟨u.applyCircuit c r.fields, ?_, ?_⟩
    · rw [if_pos rfl, State.settingsTold, if_neg fun k => k.2.2 rfl, State.reads_circuit index]
    · rw [hasked, Settings.asked_circuit index]
      exact ⟨written, (still.same .image (by decide)).1, still.same .perfs (by decide),
        (still.same .incidents (by decide)).1, still.mono (by decide)⟩

end

end

end Sys2Proof.Machine
end

section
/-!
PROOFS. Settings of a STATION alone: the flags and the armed set follow its role and its mask (R186, R187).
-/

namespace Sys2Proof.Machine
-- One proof after another: the whole text stays within the memory of one compile.
set_option Elab.async false

/-! ## Marks of the amendment itself (R187) -/

/-- The classes that an amendment of a station does not mark. -/
def otherClasses : List Kind := [.perf, .hold, .incident, .zone, .iron, .group, .call, .czone, .circuit]

/-- The marks of an amendment of a station: of a station that is deaf, or whose flags are all set and none armed,
nothing; and of another, none but those of STATUS and STATION. -/
structure StationMarked (cfg : StationSettings) (x y : StationLive) : Prop where
  deaf : cfg.role = .none → y = x
  full : x = ⟨cfg.mask, 0⟩ → y = x
  other : ∀ k ∈ otherClasses, y.flags.getLsbD (kindCode k - 1) = x.flags.getLsbD (kindCode k - 1) ∧
    y.armed.getLsbD (kindCode k - 1) = x.armed.getLsbD (kindCode k - 1)

namespace StationMarked

variable {cfg : StationSettings} {x y z : StationLive}

theorem refl (cfg : StationSettings) (x : StationLive) : StationMarked cfg x x :=
  ⟨fun _ => rfl, fun _ => rfl, fun _ _ => ⟨rfl, rfl⟩⟩

theorem trans (h : StationMarked cfg x y) (k : StationMarked cfg y z) : StationMarked cfg x z := by
  refine ⟨fun none' => (k.deaf none').trans (h.deaf none'), fun all => ?_, fun c mem => ?_⟩
  · have same := h.full all
    exact (k.full (same.trans all)).trans same
  · obtain ⟨flags, armed⟩ := h.other c mem
    obtain ⟨flags', armed'⟩ := k.other c mem
    exact ⟨flags'.trans flags, armed'.trans armed⟩

theorem mark {c : Kind} (own : c ∉ otherClasses) (cfg : StationSettings) (x : StationLive) :
    StationMarked cfg x (markStation c cfg x) := by
  cases hears : listens cfg c with
  | false =>
    rw [markStation_deaf x hears]
    exact refl cfg x
  | true =>
    obtain ⟨role, mask⟩ := listens_iff.1 hears
    have set : markStation c cfg x = { flags := x.flags ||| classBit c, armed := x.armed &&& ~~~classBit c } := if_pos hears
    refine ⟨fun none' => absurd none' role, fun all => ?_, fun k mem => ?_⟩
    · rw [set, all]
      refine StationLive.mk.injEq .. |>.mpr ⟨?_, BitVec.zero_and⟩
      refine BitVec.eq_of_getLsbD_eq fun i small => ?_
      rw [BitVec.getLsbD_or, classBit_getLsbD]
      by_cases here : i = kindCode c - 1
      · rw [here, mask, Bool.true_or]
      · rw [decide_eq_false here, Bool.or_false]
    · have apart : kindCode k - 1 ≠ kindCode c - 1 := by
        revert own mem
        cases k <;> cases c <;> decide
      rw [set]
      refine ⟨?_, ?_⟩
      · rw [BitVec.getLsbD_or, classBit_getLsbD, decide_eq_false apart, Bool.or_false]
      · have inside : kindCode k - 1 < 11 := by cases k <;> decide
        rw [BitVec.getLsbD_and, BitVec.getLsbD_not, classBit_getLsbD, decide_eq_false apart, decide_eq_true inside]
        exact Bool.and_true _

theorem markIf {c : Kind} (own : c ∉ otherClasses) (s : State) (b : Bool) (i : Fin 8) :
    StationMarked s.settings.stations[i] s.stations[i] (s.markIf b c).stations[i] := by
  cases b with
  | false => exact refl _ _
  | true =>
    have marked : (s.markIf true c).stations[i] = markStation c s.settings.stations[i] s.stations[i] := State.mark_station ..
    rw [marked]
    exact mark own _ _

theorem noteChange (s : State) (b : Bool) (i : Fin 8) :
    StationMarked s.settings.stations[i] s.stations[i] (s.noteChange b).stations[i] := by
  unfold State.noteChange
  split
  · exact markIf (c := .status) (by decide) ({ s with store := { s.store with changed := true } } : State) _ i
  · exact refl _ _

end StationMarked

/-! ## The flags and the armed set (R186) -/

/-- What the role and the mask make of the flags and the armed set: the role decides (log entry 41). -/
structure StationServed (old new : StationSettings) (x y : StationLive) : Prop where
  gone : old.role ≠ .none → new.role = .none → y = ⟨0, 0⟩
  begun : old.role = .none → new.role ≠ .none → y = ⟨new.mask, 0⟩
  kept : old.role ≠ .none → new.role ≠ .none → ∀ k : Kind,
    (new.mask.getLsbD (kindCode k - 1) = old.mask.getLsbD (kindCode k - 1) →
      y.flags.getLsbD (kindCode k - 1) = x.flags.getLsbD (kindCode k - 1) ∧
        y.armed.getLsbD (kindCode k - 1) = x.armed.getLsbD (kindCode k - 1)) ∧
    (new.mask.getLsbD (kindCode k - 1) = true → old.mask.getLsbD (kindCode k - 1) = false →
      y.flags.getLsbD (kindCode k - 1) = true) ∧
    (new.mask.getLsbD (kindCode k - 1) = false → old.mask.getLsbD (kindCode k - 1) = true →
      y.flags.getLsbD (kindCode k - 1) = false ∧ y.armed.getLsbD (kindCode k - 1) = false)

theorem StationLive.amended_served (old new : StationSettings) (x : StationLive) :
    StationServed old new x (x.amended old new) := by
  unfold StationLive.amended
  refine ⟨fun was is => ?_, fun was is => ?_, fun was is k => ?_⟩
  · rw [if_pos (by rw [is, Bool.and_eq_true, bne_iff_ne]; exact ⟨was, rfl⟩)]
  · rw [if_neg (by rw [was]; simp), if_pos (by rw [was, Bool.and_eq_true, bne_iff_ne]; exact ⟨rfl, is⟩)]
  · have inside : kindCode k - 1 < 11 := by cases k <;> decide
    rw [if_neg (by rw [Bool.and_eq_true, beq_iff_eq]; exact fun k => is k.2),
      if_neg (by rw [Bool.and_eq_true, beq_iff_eq]; exact fun k => was k.1)]
    simp only [BitVec.getLsbD_and, BitVec.getLsbD_or, BitVec.getLsbD_not, decide_eq_true inside]
    cases old.mask.getLsbD (kindCode k - 1) <;> cases new.mask.getLsbD (kindCode k - 1) <;> simp

def Settings.withStation (x : Settings) (n : Fin 8) (new : StationSettings) : Settings :=
  { x with stations := put x.stations n new }

theorem settingsAt_station (n : Fin 8) : SettingsAt (·.stations[n]) (fun x => x.withStation n) :=
  ⟨fun x _ => put_same .., fun _ => by rw [Settings.withStation, put_self],
    fun _ _ _ => by unfold Settings.withStation; rw [put_put]⟩

/-- The settings of station `n` written, its flags and armed set following (R186); the marks are still to come. -/
def State.stationSet (s : State) (n : Fin 8) (new : StationSettings) : State :=
  { s with
    settings := s.settings.withStation n new
    stations := put s.stations n (s.stations[n].amended s.settings.stations[n] new) }

theorem State.applyStation_eq (s : State) (n : Fin 8) (new : StationSettings) : s.applyStation n new =
    ((s.stationSet n new).noteChange (s.settings.stations[n] != new)).markIf (s.settings.stations[n] != new) .station := rfl

theorem State.applyStation_written (s : State) (n : Fin 8) (new : StationSettings) :
    SettingsWritten (s.settings.withStation n new) s (s.applyStation n new) := by
  obtain ⟨settings, store⟩ := (settingsAt_station n).written s new
  rw [State.applyStation_eq]
  refine ⟨?_, ?_⟩
  · rw [State.markIf_settings, State.noteChange_settings]
    rfl
  · rw [State.markIf_store, State.noteChange_store, ← store, State.settled, State.noteChange_store]
    rfl

/-- What an accepted amendment does to the flags and armed set of its station (R186). -/
theorem State.applyStation_served (s : State) (n : Fin 8) (new : StationSettings) :
    ChangesOnly [.settings, .store, .stations] s (s.applyStation n new) ∧
      ∃ y, StationServed s.settings.stations[n] new s.stations[n] y ∧
        StationMarked new y (s.applyStation n new).stations[n] := by
  have set : ChangesOnly [.settings, .stations] s (s.stationSet n new) := by
    constructor; intro p hp; cases p <;> simp_all [Part.same, State.stationSet]
  have cfg : (s.stationSet n new).settings.stations[n] = new := put_same ..
  have live : (s.stationSet n new).stations[n] = s.stations[n].amended s.settings.stations[n] new := put_same ..
  rw [State.applyStation_eq]
  generalize s.stationSet n new = t at *
  have noted := t.noteChange_changes (s.settings.stations[n] != new)
  have marked := StationMarked.noteChange t (s.settings.stations[n] != new) n
  have settings : (t.noteChange (s.settings.stations[n] != new)).settings = t.settings := t.noteChange_settings _
  generalize t.noteChange (s.settings.stations[n] != new) = w at *
  have last := StationMarked.markIf (c := .station) (by decide) w (s.settings.stations[n] != new) n
  rw [settings, cfg] at last
  rw [cfg, live] at marked
  exact ⟨(set.andThen (rs := [.settings, .store, .stations]) noted).andThen (State.markIf_changes ..), _,
    StationLive.amended_served _ _ _, marked.trans last⟩

theorem State.settingsClash_station (u : State) (index : Byte) (fs : List FieldVal) : u.settingsClash .station index fs =
    if ∃ i : Fin 8, (u.settings.asked .station index fs).stations[i].role = .engineer then none
    else some (.badField, none) := rfl

/-- Of fields that come once each, the one with an id is all of them that have it. -/
theorem fieldOf_toList {fs : List FieldVal} (once : (fs.map (·.id)).Nodup) {n : Nat} (small : n < 256) :
    (fieldOf fs n).toList = fs.filter fun f => f.id == BitVec.ofNat 8 n := by
  have same : (fun f : FieldVal => f.id == BitVec.ofNat 8 n) = fun f => idOf f == n := funext fun f => id_beq small
  rw [same, fieldOf]
  induction fs with
  | nil => rfl
  | cons f fs ih =>
    obtain ⟨fresh, rest⟩ := List.nodup_cons.1 once
    rw [List.find?_cons, List.filter_cons]
    cases own : idOf f == n with
    | false => exact ih rest
    | true =>
      refine congrArg (f :: ·) (List.filter_eq_nil_iff.2 fun g mem twin => fresh ?_).symm
      exact List.mem_map.2 ⟨g, mem, BitVec.eq_of_toNat_eq ((beq_iff_eq.1 twin).trans (beq_iff_eq.1 own).symm)⟩

/-- A station table with an ENGINEER (R186). -/
theorem hasEngineer_iff {stations : Vector StationSettings 8} :
    hasEngineer stations = true ↔ ∃ i : Fin 8, stations[i].role = .engineer := by
  rw [hasEngineer, someIx_iff]
  exact exists_congr fun i => beq_iff_eq

section

variable {r : Req} {st : Fin 8} {l : Bool} {u : State} {n : Fin 8} (index : r.index.toNat = n.1 + 1)
include index

theorem Settings.asked_station (fs : List FieldVal) (x : Settings) :
    x.asked .station r.index fs = x.withStation n (x.stations[n].asked fs) := by
  unfold Settings.asked
  rw [entryOf_eq_some index]
  rfl

theorem FlagsFollowSettings.of_served {new : StationSettings} :
    FlagsFollowSettings n u (u.applyStation n new) := by
  obtain ⟨frame, y, served, marked⟩ := u.applyStation_served n new
  have cfg : (u.applyStation n new).settings.stations[n] = new := by
    rw [(u.applyStation_written n new).1]
    exact put_same ..
  generalize u.applyStation n new = v at *
  refine ⟨frame.mono (by decide), fun was is => ?_, fun was is => ?_, fun was is k mem => ?_⟩
  · rw [cfg] at is
    rw [marked.deaf is, served.gone was is]
  · rw [cfg] at is ⊢
    have all := served.begun was is
    rw [marked.full all, all]
  · rw [cfg] at is ⊢
    obtain ⟨flags, armed⟩ := marked.other k mem
    rw [flags, armed]
    exact served.kept was is k

theorem owns_station (h : SettingsOnly .station r) : Owns .station r st l u := by
  have form := h.formed (funext (formOf_station r.index r.fields))
  have fold := StationSettings.foldl_amend h.once (firstFlaw_eq_none.1 form) u.settings.stations[n]
  have engineer : hasEngineer (put u.settings.stations n (u.settings.stations[n].asked r.fields)) = true ↔
      ∃ i : Fin 8, (u.settings.asked .station r.index r.fields).stations[i].role = .engineer := by
    rw [Settings.asked_station index]
    exact hasEngineer_iff
  have named : (fieldOf r.fields 1).toList = r.fields.filter (fun f => f.id == 1) :=
    fieldOf_toList h.once (by decide)
  have plain : ¬refusalShows .station r.fields = true := Bool.false_ne_true
  have decided : u.amendStation ⟨st, .station, r⟩ n =
      match u.settingsBar st with
      | some status => Ask.says ⟨st, .station, r⟩ status [] u
      | none =>
          if hasEngineer (put u.settings.stations n (u.settings.stations[n].asked r.fields)) = true then
            Ask.says ⟨st, .station, r⟩ .done [] (u.applyStation n (u.settings.stations[n].asked r.fields))
          else Ask.says ⟨st, .station, r⟩ .badField (r.fields.filter (fun f => f.id == 1)) u := by
    unfold State.amendStation
    simp only [form, h.stop, if_neg h.given, fold, named] <;> rfl
  refine ⟨fun status bar => ?_, fun free status why clash => ?_, fun free clash asked new hasked hnew => ?_⟩
  · have silent : ¬(Kind.station = .station ∧ status = .badField) := by
      rintro ⟨-, rfl⟩
      exact State.settingsBar_form bar
    rw [State.amendReq_station index, decided, bar, State.settingsShown, if_neg plain, if_neg silent]
  · rw [State.settingsClash_station] at clash
    rw [State.amendReq_station index, decided, free]
    split at clash
    · cases clash
    next lacks =>
      cases clash
      dsimp only
      rw [if_neg (mt engineer.1 lacks), State.settingsShown, if_neg plain, if_pos ⟨rfl, rfl⟩]
      rfl
  · rw [State.settingsClash_station] at clash
    rw [State.amendReq_station index, decided, free]
    obtain rfl : new = asked := hnew
    split at clash
    next has' =>
      dsimp only
      refine ⟨u.applyStation n (u.settings.stations[n].asked r.fields), ?_, ?_⟩
      · rw [if_pos (engineer.2 has'), if_pos rfl, State.settingsTold, if_pos ⟨rfl, nofun, nofun⟩]
      · rw [hasked, Settings.asked_station index]
        obtain ⟨frame, -⟩ := u.applyStation_served n (u.settings.stations[n].asked r.fields)
        refine ⟨u.applyStation_written n _, (frame.same .image (by decide)).1, frame.same .perfs (by decide),
          (frame.same .incidents (by decide)).1, fun i mem => ?_⟩
        rw [entryOf_eq_some index] at mem
        obtain rfl : n = i := Option.some.inj mem
        exact FlagsFollowSettings.of_served index
    · cases clash

end

end Sys2Proof.Machine
end

section
/-!
PROOFS. Settings of an IRON or a ZONE alone, every performance DARK: the presence of the record and what it serves follow
(R33, R34, R65, R66).
-/

namespace Sys2Proof.Machine
-- One proof after another: the whole text stays within the memory of one compile.
set_option Elab.async false

/-! ## IRON (R33, R34) -/

/-- A channel of a new presence, in DARK: as at a start, or absent (R34, R62). -/
theorem PresenceOfIron.of_irons {ch : Fin 3} {l : Bool} {s t : State} {new : IronSettings}
    (frame : ChangesOnly [.settings, .store, .irons, .stations] s t) (cfg : t.settings.irons[ch] = new)
    (irons : t.irons = if s.settings.irons[ch].present = new.present then s.irons
      else put s.irons ch (Iron.presence new l (s.lines.pressed.getLsbD ch.1) s.now)) : PresenceOfIron ch l s t := by
  have only : OnlyAt ch s.irons t.irons := by
    rw [irons]
    split
    · exact fun _ _ => rfl
    · exact put_onlyAt _ _ _
  refine ⟨frame.mono (by decide), only, fun same => ?_, fun was is => ?_, fun was is => ?_⟩
  · rw [cfg] at same
    rw [irons, if_pos same.symm]
  · rw [cfg] at is
    rw [irons, if_neg (by rw [was, is]; decide), put_same, Iron.presence, if_neg (by rw [is]; decide)]
  · rw [cfg] at is ⊢
    rw [irons, if_neg (by rw [was, is]; decide), put_same, Iron.presence, if_pos is]
    cases l
    · exact ⟨rfl, rfl, rfl, rfl, rfl, rfl, rfl, rfl, rfl, rfl⟩
    · exact ⟨rfl, rfl, rfl, rfl, rfl, rfl, rfl, rfl, rfl, rfl⟩

section

variable {r : Req} {st : Fin 8} {l : Bool} {u : State} {ch : Fin 3}

/-- Settings of a channel alone are written, and its presence follows. -/
theorem State.applyIron_plain (dark : ∀ a, u.phase a = .dark) {fs : List FieldVal} (out : carries fs 37 = false)
    (clear : carries fs 128 = false) (new : IronSettings) :
    ChangesOnly [.settings, .store, .irons, .stations] u (u.applyIron ch fs new l) ∧
      SettingsWritten (u.settings.withIron ch new) u (u.applyIron ch fs new l) ∧
      (u.applyIron ch fs new l).irons = if u.settings.irons[ch].present = new.present then u.irons
        else put u.irons ch (Iron.presence new l (u.lines.pressed.getLsbD ch.1) u.now) := by
  have settled := u.settled_changes (u.settings.withIron ch new) (u.settings.irons[ch] != new)
  have written := (settingsAt_iron ch).written u new
  have still (t : State) : t.actIron ch fs = t := by
    unfold State.actIron
    rw [askedFor_eq_none.2 out, clear]
    rfl
  rw [State.applyIron_settled, still]
  dsimp only
  generalize u.settled (u.settings.withIron ch new) (u.settings.irons[ch] != new) = t at *
  have cfg : t.settings.irons[ch] = new := by rw [written.1]; exact put_same ..
  have irons : t.irons = u.irons := settled.same .irons (by decide)
  have lines : t.lines = u.lines := settled.same .lines (by decide)
  have now : t.now = u.now := settled.same .clock (by decide)
  by_cases same : u.settings.irons[ch].present = new.present
  · rw [if_neg (by rw [same, bne_self_eq_false]; decide), if_pos same]
    exact ⟨settled.mono (by decide), written, irons⟩
  · have darkT (a : Fin 3) : t.phase a = .dark := by
      rw [State.phase, (settled.same .perfs (by decide) : t.perfs = u.perfs)]
      exact dark a
    obtain ⟨frame, set⟩ := State.ironPresence_dark darkT ch l
    rw [if_pos (bne_iff_ne.2 same), if_neg same]
    refine ⟨settled.andThen frame, written.andThen frame, ?_⟩
    rw [set, cfg, irons, lines, now]

theorem State.settingsClash_iron (index : r.index.toNat = ch.1 + 1) (s : State) (fs : List FieldVal) :
    s.settingsClash .iron r.index fs =
      if (s.settings.irons[ch].asked fs).present ≠ s.settings.irons[ch].present ∧ s.irons[ch].motion ≠ .atIn then
        some (.refused, some .ironNotIn)
      else if (s.settings.irons[ch].asked fs).contradicts then some (.badField, none) else none := by
  unfold State.settingsClash
  rw [entryOf_eq_some index]
  rfl

theorem owns_iron (index : r.index.toNat = ch.1 + 1) (h : SettingsOnly .iron r) : Owns .iron r st l u := by
  have out := h.lacks (id := 37) (by decide)
  have clear := h.lacks (id := 128) (by decide)
  have acts : actsOnIron r.fields = false := by rw [actsOnIron, out, clear]; rfl
  have plain : refusalShows .iron r.fields = false :=
    (any_carries_or (n := 37) (m := 128) (by decide) (by decide)).trans acts
  have fold := IronSettings.foldl_amend h.once u.settings.irons[ch]
  have admitted : IronAdmitted ⟨st, .iron, r⟩ ch u := by
    refine ⟨h.formed (funext (formOf_iron r.index r.fields)), fun k => absurd (acts.symm.trans k) Bool.false_ne_true, ?_⟩
    unfold State.admitsIron
    rw [askedFor_eq_none.2 out, clear]
    rfl
  have bar : u.ironBar ch r.fields (u.settings.irons[ch].asked r.fields).present =
      if (u.settings.irons[ch].asked r.fields).present ≠ u.settings.irons[ch].present ∧ u.irons[ch].motion ≠ .atIn then
        some .ironNotIn else none := by
    unfold State.ironBar
    rw [askedFor_eq_none.2 out, clear]
    dsimp only
    rw [Bool.or_false, if_neg (show ¬(none : Option Nat) = some 1 from nofun)]
    exact if_congr (by rw [Bool.and_eq_true, bne_iff_ne, bne_iff_ne, and_comm]) rfl rfl
  have decided : u.amendIron ⟨st, .iron, r⟩ ch l =
      match u.settingsBar st with
      | some status => Ask.says ⟨st, .iron, r⟩ status [] u
      | none =>
          match u.settingsClash .iron r.index r.fields with
          | some (status, why) => (Ask.answer ⟨st, .iron, r⟩ status why [], u)
          | none => u.acceptIron ⟨st, .iron, r⟩ ch l := by
    rw [State.amendIron_admitted admitted, h.stop, State.settingsClash_iron index, fold, bar]
    have shown : u.ironShown ch r.fields = [] := if_neg (by rw [acts]; decide)
    rw [shown]
    cases u.settingsBar st with
    | some status => rfl
    | none =>
      dsimp only
      by_cases moved : (u.settings.irons[ch].asked r.fields).present ≠ u.settings.irons[ch].present ∧
          u.irons[ch].motion ≠ .atIn
      · rw [if_pos moved, if_pos moved]
        rfl
      rw [if_neg moved, if_neg moved]
      dsimp only
      by_cases clash : (u.settings.irons[ch].asked r.fields).contradicts = true
      · rw [if_pos ⟨h.settles, clash⟩, if_pos clash]
        rfl
      · rw [if_neg fun k => clash k.2, if_neg clash]
  refine ⟨fun status bar => ?_, fun free status why clash => ?_, fun free clash asked new hasked hnew => ?_⟩
  · rw [State.amendReq_iron index, decided, bar, State.settingsShown, plain]
    rfl
  · rw [State.amendReq_iron index, decided, free, clash, State.settingsShown, plain]
    rfl
  · rw [State.amendReq_iron index, decided, free, clash]
    have at_ := settingsAt_iron ch
    obtain rfl : asked = u.settings.withIron ch (u.settings.irons[ch].asked r.fields) :=
      hasked.trans (Settings.asked_iron index _ _)
    obtain rfl : new = u.settings.withIron ch (u.settings.irons[ch].asked r.fields).ranged := by
      rw [hnew, Settings.ranged_iron index, at_.get_set, at_.set_set]
    refine ⟨u.applyIron ch r.fields (u.settings.irons[ch].asked r.fields).ranged l, ?_, ?_⟩
    · rw [at_.told (State.reads_iron index _) nofun nofun, ← at_.okStatus_eq]
      dsimp only
      unfold State.acceptIron
      simp only [fold, h.settles, if_true, acts, Bool.false_or, decide_eq_false h.given, Bool.or_false,
        IronSettings.inRange_eq] <;> rfl
    · obtain ⟨frame, written, irons⟩ := State.applyIron_plain (l := l) (State.settingsBar_dark free) out clear
        (u.settings.irons[ch].asked r.fields).ranged
      refine ⟨written, (frame.same .image (by decide)).1, frame.same .perfs (by decide),
        (frame.same .incidents (by decide)).1, fun i mem => ?_⟩
      rw [entryOf_eq_some index] at mem
      obtain rfl : ch = i := Option.some.inj mem
      exact .of_irons frame (by rw [written.1]; exact at_.get_set ..) irons

end

/-! ## ZONE (R65, R66) -/

/-- A zone of a new presence: as at a start, or clear (R66, R79). -/
theorem PresenceOfZone.of_zones {z : Fin 24} {s t : State} {new : ZoneSettings} (cfg : t.settings.zones[z] = new)
    (zones : t.zones = if s.settings.zones[z].present = new.present then s.zones
      else put s.zones z (Zone.atStart s.now new s.lines.bands[z]))
    (frame : new.alarms = s.settings.zones[z].alarms → new.callZones = s.settings.zones[z].callZones →
      ChangesOnly [.settings, .store, .zones, .stations] s t)
    (sounders : new.alarms ≠ s.settings.zones[z].alarms → SoundersDerived t)
    (silences : new.callZones ≠ s.settings.zones[z].callZones → SilencesDerived t) : PresenceOfZone z s t := by
  have only : OnlyAt z s.zones t.zones := by
    rw [zones]
    split
    · exact fun _ _ => rfl
    · exact put_onlyAt _ _ _
  unfold PresenceOfZone
  rw [cfg]
  refine ⟨only, fun same => ?_, fun was is => ?_, fun was is => ?_, fun alarms calls => (frame alarms calls).mono (by decide),
    sounders, silences⟩
  · rw [zones, if_pos same.symm]
  · rw [zones, if_neg (by rw [was, is]; decide), put_same, Zone.atStart, if_neg (by rw [is]; decide)]
  · rw [zones, if_neg (by rw [was, is]; decide), put_same, Zone.atStart, if_pos is]
    cases s.lines.bands[z]
    · rfl
    · rfl
    · rfl
    · rfl

section

variable {r : Req} {st : Fin 8} {l : Bool} {u : State} {z : Fin 24}

theorem State.zonePresence_dark (dark : ∀ a, u.phase a = .dark) : ChangesOnly [.zones, .stations] u (u.zonePresence z) := by
  have wrote := (u.writeZone_changes z (Zone.atStart u.now u.settings.zones[z] u.lines.bands[z])).andThen
    (rs := [.zones, .stations]) (State.mark_changes _ .zone)
  unfold State.zonePresence
  dsimp only
  split
  · exact wrote
  · rw [State.evalHolds_dark fun a => by
      rw [State.phase, (wrote.same .perfs (by decide) : (State.mark _ _).perfs = u.perfs)]
      exact dark a]
    exact wrote

/-- Settings of a zone alone are written; its presence follows, and what it serves. -/
theorem State.applyZone_plain (dark : ∀ a, u.phase a = .dark) {fs : List FieldVal} (acts : actsOnZone fs = false)
    (new : ZoneSettings) :
    SettingsWritten (u.settings.withZone z new) u (u.applyZone z fs new) ∧ PresenceOfZone z u (u.applyZone z fs new) ∧
      ChangesOnly (.settings :: .store :: .zones :: burstParts) u (u.applyZone z fs new) := by
  have settled := u.settled_changes (u.settings.withZone z new) (u.settings.zones[z] != new)
  have written := (settingsAt_zone z).written u new
  rw [State.applyZone_settled]
  generalize u.settled (u.settings.withZone z new) (u.settings.zones[z] != new) = t at *
  have cfg : t.settings.zones[z] = new := by rw [written.1]; exact put_same ..
  have still : (carries fs 128 || carries fs 36) = false := by rw [Bool.or_comm]; exact acts
  have zones : (t.actZone z fs u.settings.zones[z] new).zones = if u.settings.zones[z].present = new.present then u.zones
      else put u.zones z (Zone.atStart u.now new u.lines.bands[z]) := by
    unfold State.actZone
    by_cases same : u.settings.zones[z].present = new.present
    · rw [if_neg (by rw [same, bne_self_eq_false]; decide), still, if_pos same]
      exact settled.same .zones (by decide)
    · rw [if_pos (bne_iff_ne.2 same), if_neg same, State.zonePresence_zones, cfg,
        (settled.same .zones (by decide) : t.zones = u.zones), (settled.same .clock (by decide) : t.now = u.now),
        (settled.same .lines (by decide) : t.lines = u.lines)]
  have acted : ChangesOnly [.zones, .stations] t (t.actZone z fs u.settings.zones[z] new) := by
    unfold State.actZone
    split
    · refine State.zonePresence_dark fun a => ?_
      rw [State.phase, (settled.same .perfs (by decide) : t.perfs = u.perfs)]
      exact dark a
    · rw [still]
      exact .refl _ _
  have whole : ChangesOnly [.settings, .store, .zones, .stations] u (t.actZone z fs u.settings.zones[z] new) :=
    settled.andThen acted
  have cfg' : (t.actZone z fs u.settings.zones[z] new).settings.zones[z] = new := by
    rw [(acted.same .settings (by decide) : _ = t.settings), cfg]
  have written := written.andThen acted
  generalize t.actZone z fs u.settings.zones[z] new = v at *
  have served := v.serveZone_changes u.settings.zones[z] new
  refine ⟨written.andThen served, .of_zones ?_ ?_ (fun alarms calls => ?_) State.serveZone_sounders State.serveZone_silences,
    whole.andThen served⟩
  · rw [(served.same .settings (by decide) : _ = v.settings), cfg']
  · rw [(served.same .zones (by decide) : _ = v.zones), zones]
  · rw [State.serveZone_same alarms calls]
    exact whole

theorem owns_zone (index : r.index.toNat = z.1 + 1) (h : SettingsOnly .zone r) : Owns .zone r st l u := by
  have acts : actsOnZone r.fields = false := by
    rw [actsOnZone, h.lacks (id := 36) (by decide), h.lacks (id := 128) (by decide)]
    rfl
  have given : u.settings.zones[z].given r.fields = (u.settings.zones[z].asked r.fields).ranged := if_pos h.settles
  have bar := State.zoneBar_iff u z r.fields
  rw [h.asksNone (id := 36) (by decide), given, or_iff_right (fun k : _ ∧ _ => nomatch k.1)] at bar
  have decided : u.amendZone ⟨st, .zone, r⟩ z =
      match u.settingsBar st with
      | some status => Ask.says ⟨st, .zone, r⟩ status (u.zoneFields z) u
      | none =>
          match u.settingsClash .zone r.index r.fields with
          | some (status, why) => (Ask.answer ⟨st, .zone, r⟩ status why (u.zoneFields z), u)
          | none =>
              Ask.says ⟨st, .zone, r⟩ (okStatus (u.settings.zones[z].asked r.fields !=
                  (u.settings.zones[z].asked r.fields).ranged))
                ((u.applyZone z r.fields (u.settings.zones[z].asked r.fields).ranged).zoneFields z)
                (u.applyZone z r.fields (u.settings.zones[z].asked r.fields).ranged) := by
    rw [State.amendZone_formed h.once (h.formed (funext (formOf_zone r.index r.fields))), h.stop,
      State.settingsClash_zone index, if_neg (by rw [acts]; simp), if_neg (by rw [acts]; simp)]
    dsimp only
    rw [given, if_congr bar rfl rfl]
    cases u.settingsBar st with
    | some status => rfl
    | none =>
      dsimp only
      split
      · rfl
      · rfl
  refine ⟨fun status bar => ?_, fun free status why clash => ?_, fun free clash asked new hasked hnew => ?_⟩
  · rw [State.amendReq_zone index, decided, bar, ← State.reads_zone index]
    rfl
  · rw [State.amendReq_zone index, decided, free, clash, ← State.reads_zone index]
    rfl
  · rw [State.amendReq_zone index, decided, free, clash]
    have at_ := settingsAt_zone z
    obtain rfl : asked = u.settings.withZone z (u.settings.zones[z].asked r.fields) :=
      hasked.trans (Settings.asked_zone index _ _)
    obtain rfl : new = u.settings.withZone z (u.settings.zones[z].asked r.fields).ranged := by
      rw [hnew, Settings.ranged_zone index, at_.get_set, at_.set_set]
    obtain ⟨written, presence, frame⟩ := State.applyZone_plain (z := z) (State.settingsBar_dark free) acts
      (u.settings.zones[z].asked r.fields).ranged
    refine ⟨u.applyZone z r.fields (u.settings.zones[z].asked r.fields).ranged, ?_, written,
      (frame.same .image (by decide)).1, frame.same .perfs (by decide), (frame.same .incidents (by decide)).1,
      fun i mem => ?_⟩
    · have told (a b : Settings) (v : State) : v.settingsTold .zone r a b = v.reads .zone r.index :=
        if_neg fun k => k.2.1 rfl
      rw [told, State.reads_zone index, ← at_.okStatus_eq]
    · rw [entryOf_eq_some index] at mem
      obtain rfl : z = i := Option.some.inj mem
      exact presence

end

end Sys2Proof.Machine
end

section
/-!
PROOFS. Settings of a GROUP alone: the group is derived again, and the fades of the others stay (R104, R105, R119, R120).
-/

namespace Sys2Proof.Machine
-- One proof after another: the whole text stays within the memory of one compile.
set_option Elab.async false

/-! ## One group's output, shown through what the calls do -/

/-- The output of group `g` is the one computed from it, or it is absent and dark. -/
structure GroupShown (g : Fin 12) (s : State) : Prop where
  shown : s.shown g

theorem GroupShown.of_same {s t : State} {g : Fin 12} (h : GroupShown g s) (groups : t.groups = s.groups)
    (settings : t.settings = s.settings) (perfs : t.perfs = s.perfs) (flickers : t.flickers = s.flickers) :
    GroupShown g t :=
  ⟨State.shown_congr h.shown settings (fun a => by simp only [State.phase, perfs]) (fun _ _ => by rw [flickers])
    (by rw [groups])⟩

/-- A flicker request leaves a group shown, of its zone or another (R123). -/
theorem GroupShown.flickerRequest {s : State} {g : Fin 12} (h : GroupShown g s) (z : Fin 8) (code : Nat) :
    GroupShown g (s.flickerRequest z code) := by
  have frame := s.flickerRequest_changes z code
  have settings : (s.flickerRequest z code).settings = s.settings := frame.same .settings (by decide)
  have perfs : (s.flickerRequest z code).perfs = s.perfs := frame.same .perfs (by decide)
  have dark (a : Fin 3) : ((s.flickerRequest z code).phase a != .dark) = (s.phase a != .dark) := by
    simp only [State.phase, perfs]
  have flickers := s.flickerRequest_flickers z code
  have group := s.flickerRequest_group z code g
  generalize s.flickerRequest z code = t at *
  by_cases told : s.settings.groups[g].present = true ∧ s.settings.groups[g].kind = .foyer ∧
      s.settings.groups[g].callZone = z
  · rw [if_pos told] at group
    constructor
    have again : t.relit g = (s.flickered z code).relit g := funext fun x =>
      State.relit_congr (s := s.flickered z code) settings dark (fun _ => by rw [flickers]; rfl) x
    unfold State.shown
    rw [settings, if_pos told.1, group, again, State.relit_relit]
  · rw [if_neg told] at group
    refine ⟨State.shown_congr h.shown settings dark (fun present foyer => ?_) group⟩
    rw [flickers, put_get, if_neg fun same => told ⟨present, foyer, same⟩]

/-- A group that was shown in `s` is shown in `t`. -/
structure ShownKept (g : Fin 12) (s t : State) : Prop where
  keep : GroupShown g s → GroupShown g t

namespace ShownKept

variable {g : Fin 12} {s t u : State}

theorem of_same (h : ShownKept g s t) (groups : u.groups = t.groups) (settings : u.settings = t.settings)
    (perfs : u.perfs = t.perfs) (flickers : u.flickers = t.flickers) : ShownKept g s u :=
  ⟨fun k => (h.keep k).of_same groups settings perfs flickers⟩

theorem of_changes {ps : List Part} (h : ShownKept g s t) (frame : ChangesOnly ps t u)
    (out : ps.all (fun p => !([.settings, .perfs, .flickers, .groups] : List Part).contains p) = true := by rfl) :
    ShownKept g s u := by
  have same (p : Part) (mem : p ∈ ([.settings, .perfs, .flickers, .groups] : List Part)) : p.same t u :=
    frame.same p fun inside => by
      have := List.all_eq_true.1 out p inside
      simp only [Bool.not_eq_true', List.contains_eq_mem, decide_eq_false_iff_not] at this
      exact this mem
  exact h.of_same (same .groups (by simp)) (same .settings (by simp)) (same .perfs (by simp)) (same .flickers (by simp))

theorem flicker (h : ShownKept g s t) (z : Fin 8) (code : Nat) : ShownKept g s (t.flickerRequest z code) :=
  ⟨fun k => (h.keep k).flickerRequest z code⟩

/-- All that bursts and announcements of lit states do leaves a shown group shown. -/
theorem closed (g : Fin 12) (s : State) : LightClosed (ShownKept g s) where
  clock _ h := h.of_same rfl rfl rfl rfl
  mark _ h := h.of_same rfl rfl rfl rfl
  table _ _ h := h.of_same rfl rfl rfl rfl
  czone _ _ _ _ h := h.of_same rfl rfl rfl rfl
  chime z on h := h.of_changes (State.demand_changes _ (chimeOf z) on .continuous)
  flicker z code h := h.flicker z code
  lit _ h := h.of_same rfl rfl rfl rfl

theorem announceLit (g : Fin 12) (s : State) : ShownKept g s s.announceLit := (closed g s).announceLit ⟨id⟩

end ShownKept

/-! ## A group derived again (R105, R115) -/

theorem ChangesOnly.causesOf_lights {s t : State} (h : ChangesOnly lightParts s t) (g : Fin 12) :
    t.causesOf g = s.causesOf g := by
  have alike : t.settings = s.settings := h.same .settings (by decide)
  have incidents : t.incidents = s.incidents ∧ t.incidentList = s.incidentList := h.same .incidents (by decide)
  have supply : t.supply = s.supply := h.same .supply (by decide)
  refine State.causesOf_of_settings (by rw [alike]) (fun _ => by rw [alike]) ?_ (by rw [supply])
    (h.same .perfs (by decide))
  simp only [State.generalSet, State.openIncidents, incidents.1, incidents.2]

/-- What deriving group `g` again and announcing the lit states leaves of the groups. -/
structure GroupDerived (g : Fin 12) (s t : State) : Prop where
  frame : ChangesOnly lightParts s t
  derived : s.settings.groups[g].present = true → t.groups[g].causes = t.causesOf g ∧
    t.groups[g].driven = t.drivenOf g t.groups[g] ∧
    t.groups[g].drive = driveOf t.settings.groups[g].law t.groups[g].driven
  own : KeepsFade (s.refreshed g) t.groups[g]
  others : ∀ j : Fin 12, j ≠ g → KeepsFade s.groups[j] t.groups[j]
  dark : s.settings.groups[g].present = false → s.groups[g] = LightGroup.dark → t.groups[g] = LightGroup.dark

theorem State.refreshGroup_shown {s : State} {g : Fin 12}
    (dark : s.settings.groups[g].present = false → s.groups[g] = LightGroup.dark) : GroupShown g (s.refreshGroup g) := by
  have frame := State.refreshGroup_changes g s
  have settings : (s.refreshGroup g).settings = s.settings := frame.same .settings (by decide)
  have own := s.refreshGroup_group g g
  have again := frame.relit g
  generalize s.refreshGroup g = t at *
  constructor
  unfold State.shown
  rw [settings, own, if_pos rfl, State.refreshed]
  split
  · rw [again, State.relit_relit]
  next absent => exact dark (Bool.not_eq_true _ ▸ absent)

theorem State.refreshGroup_derivedAlone (s : State) (g : Fin 12) (b : Bool) :
    GroupDerived g s (((s.refreshGroup g).markIf b .group).announceLit) := by
  have frame := State.refreshGroup_changes g s
  have group := s.refreshGroup_group g
  have shown := s.refreshGroup_shown (g := g)
  generalize s.refreshGroup g = w at *
  have marked := State.markIf_changes w b .group
  have kept := (ShownKept.mk (g := g) (s := w) id).of_changes marked
  rw [← (marked.same .groups (by decide) : (w.markIf b .group).groups = w.groups)] at group
  have whole : ChangesOnly lightParts s (w.markIf b .group) := frame.andThen marked
  generalize w.markIf b .group = u at *
  have told := whole.andThen (rs := lightParts) u.announceLit_changes
  have fades := (Sounded.announceLit u).fades
  have kept' := fun h => (ShownKept.announceLit g u).keep (kept.keep (shown h))
  generalize u.announceLit = t at *
  have settings : t.settings = s.settings := told.same .settings (by decide)
  refine ⟨told, fun present => ?_, ?_, fun j other => ?_, fun absent dark => ?_⟩
  · have shown' := (kept' fun absent => by rw [present] at absent; cases absent).shown
    have causes := (fades g).causes
    rw [group, if_pos rfl, s.refreshed_causes g present, ← told.causesOf_lights] at causes
    unfold State.shown at shown'
    rw [settings, if_pos present] at shown'
    obtain ⟨driven, drive, -⟩ := eq_relit_iff.1 shown'
    exact ⟨causes, driven, drive⟩
  · have kept := fades g
    rw [group, if_pos rfl] at kept
    exact kept
  · have kept := fades j
    rw [group, if_neg other] at kept
    exact kept
  · have shown' := (kept' fun _ => dark).shown
    unfold State.shown at shown'
    rwa [settings, if_neg (by rw [absent]; decide)] at shown'

/-! ## What a group's fade becomes (R105, R119, R120) -/

/-- A group that is dark is forced with its fade as it was. -/
theorem LightGroup.force_dark (c : CauseSet) (d : Nat) :
    (LightGroup.dark.force c d) = { LightGroup.dark with causes := c } := by
  unfold LightGroup.force
  split
  next same => rw [same]
  · rfl

theorem LightGroup.force_forced {c : CauseSet} (forced : c ≠ 0) (d : Nat) (x : LightGroup) :
    (x.force c d).level = x.level ∧ (x.force c d).target = x.target ∧
      (x.causes = 0 → (x.force c d).fading = false) := by
  unfold LightGroup.force
  split
  next same => exact ⟨rfl, rfl, fun free => absurd (same.trans free) forced⟩
  · split
    · exact ⟨rfl, rfl, fun _ => rfl⟩
    next was => exact ⟨rfl, rfl, fun free => absurd free was⟩

/-- The settings of a group have been written, its causes and its output follow (R105). -/
theorem GroupFollowsSettings.of_derived {g : Fin 12} {s u v : State} {new : GroupSettings}
    (settings : u.settings.groups[g] = new) (told : v.settings = u.settings)
    (own : u.groups[g] = if s.settings.groups[g].present = new.present then s.groups[g] else LightGroup.dark)
    (others : ∀ j : Fin 12, j ≠ g → u.groups[j] = s.groups[j]) (h : GroupDerived g u v) :
    GroupFollowsSettings g s v := by
  obtain ⟨frame, derived, fade, kept, dark⟩ := h
  have causes := frame.causesOf_lights g
  unfold GroupFollowsSettings
  rw [told, settings, causes]
  rw [told, settings] at derived
  refine ⟨fun is was => ?_, fun is => ?_, fun is was => ?_, fun is was => ?_, fun j other => others j other ▸ kept j other⟩
  · rw [if_neg (by rw [is, was]; decide)] at own
    exact dark (settings ▸ is) own
  · rw [← causes]
    exact derived is
  · rw [if_neg (by rw [is, was]; decide)] at own
    rw [State.refreshed, settings, if_pos is, own, LightGroup.force_dark] at fade
    obtain ⟨target, level, start, steps, step, fading, -⟩ := fade
    exact ⟨level, target, fading, start, steps, step⟩
  · rw [if_pos (was.trans is.symm)] at own
    have present : u.settings.groups[g].present = true := settings ▸ is
    refine ⟨fun same => ?_, fun forced => ?_, fun free forced => ?_, fun forced free => ?_⟩
    · rw [← own] at same ⊢
      exact (State.refreshed_keepsFade fun _ => same).trans fade
    · obtain ⟨level, target, -⟩ := LightGroup.force_forced forced new.restoreFade s.groups[g]
      rw [State.refreshed, if_pos present, own, settings] at fade
      obtain ⟨target', level', -⟩ := fade
      exact ⟨level'.trans level, target'.trans target⟩
    · obtain ⟨-, -, still⟩ := LightGroup.force_forced forced new.restoreFade s.groups[g]
      rw [State.refreshed, if_pos present, own, settings] at fade
      obtain ⟨-, -, -, -, -, fading, -⟩ := fade
      exact fading.trans (still free)
    · rw [← own] at forced ⊢
      have released := State.refreshed_released present forced free
      rw [settings] at released
      exact released.keep fade

section

variable {r : Req} {st : Fin 8} {l : Bool} {u : State} {g : Fin 12}

/-- Settings of a group alone, written; the group is derived again. -/
def State.groupServed (u : State) (g : Fin 12) (new : GroupSettings) : State :=
  ((u.settled (u.settings.withGroup g new) (u.settings.groups[g] != new)).groupAmended g u.settings.groups[g]).announceLit

theorem State.groupServed_spec (new : GroupSettings) :
    ChangesOnly (.settings :: .store :: lightParts) u (u.groupServed g new) ∧
      SettingsWritten (u.settings.withGroup g new) u (u.groupServed g new) ∧
      GroupFollowsSettings g u (u.groupServed g new) := by
  have settled := u.settled_changes (u.settings.withGroup g new) (u.settings.groups[g] != new)
  have written := (settingsAt_group g).written u new
  unfold State.groupServed
  generalize u.settled (u.settings.withGroup g new) (u.settings.groups[g] != new) = t at *
  have cfg : t.settings.groups[g] = new := by rw [written.1]; exact put_same ..
  have groups : t.groups = u.groups := settled.same .groups (by decide)
  rw [State.groupAmended_eq]
  obtain ⟨frame, others, -⟩ := t.presenceSet_spec g u.settings.groups[g]
  have own : (t.presenceSet g u.settings.groups[g]).groups[g] =
      if u.settings.groups[g].present = new.present then u.groups[g] else LightGroup.dark := by
    unfold State.presenceSet
    rw [cfg]
    by_cases same : u.settings.groups[g].present = new.present
    · rw [if_neg (by rw [same, bne_self_eq_false]; decide), if_pos same, groups]
    · rw [if_pos (bne_iff_ne.2 same), if_neg same, State.writeGroup_group, if_pos rfl]
  have others (j : Fin 12) (other : j ≠ g) : (t.presenceSet g u.settings.groups[g]).groups[j] = u.groups[j] := by
    rw [others j other, groups]
  have same : (t.presenceSet g u.settings.groups[g]).settings = t.settings := frame.same .settings (by decide)
  have whole := settled.andThen (rs := .settings :: .store :: lightParts) frame
  have written := written.andThen frame
  generalize t.presenceSet g u.settings.groups[g] = w at *
  have derived := w.refreshGroup_derivedAlone g (u.settings.groups[g] != t.settings.groups[g])
  exact ⟨whole.andThen derived.frame, written.andThen derived.frame,
    .of_derived (by rw [same, cfg]) (derived.frame.same .settings (by decide)) own others derived⟩

theorem State.applyGroup_eq (q : Ask) (g : Fin 12) (u : State) : u.applyGroup q g =
    let x := q.req.fields.foldl GroupSettings.amend u.settings.groups[g]
    q.says (okStatus (x != x.ranged)) (if x != x.ranged then (u.groupServed g x.ranged).groupFields g else [])
      (u.groupServed g x.ranged) := by
  delta State.applyGroup State.groupServed State.settled Settings.withGroup
  dsimp only
  rfl

theorem Settings.asked_group (index : r.index.toNat = g.1 + 1) (fs : List FieldVal) (x : Settings) :
    x.asked .group r.index fs = x.withGroup g (x.groups[g].asked fs) := by
  unfold Settings.asked
  rw [entryOf_eq_some index]
  rfl

theorem Settings.ranged_group (index : r.index.toNat = g.1 + 1) (x : Settings) :
    x.ranged .group r.index = x.withGroup g x.groups[g].ranged := by
  unfold Settings.ranged
  rw [entryOf_eq_some index]
  rfl

theorem owns_group (index : r.index.toNat = g.1 + 1) (h : SettingsOnly .group r) : Owns .group r st l u := by
  have target := h.lacks (id := 33) (by decide)
  have acts : actsOnGroup r.fields = false := by rw [actsOnGroup, target, h.lacks (id := 128) (by decide)]; rfl
  have plain : refusalShows .group r.fields = false :=
    (any_carries_or (n := 33) (m := 128) (by decide) (by decide)).trans acts
  have decided : u.amendGroup ⟨st, .group, r⟩ g =
      match u.settingsBar st with
      | some status => Ask.says ⟨st, .group, r⟩ status [] u
      | none => u.applyGroup ⟨st, .group, r⟩ g := by
    have shown : u.groupShown g r.fields = [] := if_neg (by rw [acts]; decide)
    rw [State.amendGroup_formed (h.formed (funext (formOf_group r.index r.fields))), h.stop,
      if_neg (by rw [target]; simp), if_neg (by rw [target]; simp)]
    dsimp only
    rw [shown, askedFor_eq_none.2 target]
    dsimp only
    rw [if_neg h.given] <;> rfl
  refine ⟨fun status bar => ?_, fun _ status why clash => (nomatch clash), fun free _ asked new hasked hnew => ?_⟩
  · rw [State.amendReq_group index, decided, bar, State.settingsShown, plain]
    rfl
  · rw [State.amendReq_group index, decided, free]
    have at_ := settingsAt_group g
    obtain rfl : asked = u.settings.withGroup g (u.settings.groups[g].asked r.fields) :=
      hasked.trans (Settings.asked_group index _ _)
    obtain rfl : new = u.settings.withGroup g (u.settings.groups[g].asked r.fields).ranged := by
      rw [hnew, Settings.ranged_group index, at_.get_set, at_.set_set]
    obtain ⟨frame, written, follows⟩ := u.groupServed_spec (g := g) (u.settings.groups[g].asked r.fields).ranged
    refine ⟨u.groupServed g (u.settings.groups[g].asked r.fields).ranged, ?_, written, (frame.same .image (by decide)).1,
      frame.same .perfs (by decide), (frame.same .incidents (by decide)).1, fun i mem => ?_⟩
    · rw [at_.told (State.reads_group index _) nofun nofun, ← at_.okStatus_eq]
      dsimp only
      rw [State.applyGroup_eq, GroupSettings.foldl_amend h.once]
    · rw [entryOf_eq_some index] at mem
      obtain rfl : g = i := Option.some.inj mem
      exact follows

end

end Sys2Proof.Machine
end

section
/-!
PROOFS. Settings of a CZONE alone: a zone made absent loses its deliveries, one made present starts free, and a change of
what it serves is followed by the bar and by the lights (R128, R129).
-/

namespace Sys2Proof.Machine
-- One proof after another: the whole text stays within the memory of one compile.
set_option Elab.async false

/-! ## A zone without a burst as the lights are derived again (R125, R145) -/

section

variable {s t : State} {z : Fin 8}

/-- The turn of another zone at an announcement of the lit states is aside of this one. -/
theorem State.announceLitOf_aside {y : Fin 8} (ne : z ≠ y) (s : State) : Aside z s (s.announceLitOf y) := by
  have set : Aside z s { s with lit := put s.lit y (s.litNow y) } := .of_changes (ps := [.lit]) (by
    constructor; intro p hp; cases p <;> simp_all [Part.same])
  unfold State.announceLitOf
  dsimp only
  split
  · exact (aside_closed ne s).litLost set
  · exact set

/-- The zone and its deliveries are as they were. -/
structure ZoneCalm (z : Fin 8) (s t : State) : Prop where
  czone : t.czones[z] = s.czones[z]
  delivery : ∀ c : Fin 32, t.delivery? c z = s.delivery? c z

theorem ZoneCalm.trans {u : State} (h : ZoneCalm z s t) (k : ZoneCalm z t u) : ZoneCalm z s u :=
  ⟨k.czone.trans h.czone, fun c => (k.delivery c).trans (h.delivery c)⟩

theorem ZoneCalm.of_changes {ps : List Part} (h : ChangesOnly ps s t) (zones : ps.contains .czones = false := by rfl)
    (calls : ps.contains .calls = false := by rfl) : ZoneCalm z s t :=
  ⟨by rw [(h.same .czones (by simpa using zones) : t.czones = s.czones)], fun c => h.delivery? calls c z⟩

theorem State.litLost_still (idle : s.czones[z].mode = none) : s.litLost z = s := by
  unfold State.litLost
  dsimp only
  rw [idle]

/-- A zone in no mode is left by an announcement of the lit states. -/
theorem State.announceLit_calm (idle : s.czones[z].mode = none) : ZoneCalm z s s.announceLit := by
  refine forAll_keeps (ZoneCalm z s) State.announceLitOf (fun y t h => h.trans ?_) s ⟨rfl, fun _ => rfl⟩
  by_cases ne : z = y
  · subst ne
    have set : ZoneCalm z t { t with lit := put t.lit z (t.litNow z) } := ⟨rfl, fun _ => rfl⟩
    unfold State.announceLitOf
    dsimp only
    generalize ({ t with lit := put t.lit z (t.litNow z) } : State) = u at *
    have mode : u.czones[z].mode = none := by
      rw [set.czone, h.czone]
      exact idle
    rw [State.litLost_still mode, ite_self]
    exact set
  · have aside := State.announceLitOf_aside ne t
    exact ⟨aside.czone, fun c => delivery?_of_sight aside.sight c⟩

theorem State.refreshLights_calm (idle : s.czones[z].mode = none) : ZoneCalm z s s.refreshLights := by
  have groups : ZoneCalm z s s.refreshGroups := .of_changes (State.refreshGroups_changes s)
  have mode : s.refreshGroups.czones[z].mode = none := (congrArg CallZone.mode groups.czone).trans idle
  exact groups.trans (State.announceLit_calm mode)

/-- A zone that is free with nothing queued stays so. -/
def State.zoneEmpty (s : State) (z : Fin 8) : Prop := s.czones[z].sounding = none ∧ s.czones[z].queue = []

theorem State.zoneEmpty_of_czone (h : t.czones[z] = s.czones[z]) (empty : s.zoneEmpty z) : t.zoneEmpty z := by
  unfold State.zoneEmpty
  rw [h]
  exact empty

theorem State.litLost_empty (empty : s.zoneEmpty z) : (s.litLost z).zoneEmpty z := by
  obtain ⟨free, queue⟩ := empty
  unfold State.litLost
  dsimp only
  split
  · unfold State.zoneEmpty
    rw [State.handFlicker_czone, State.writeCZone_czone, if_pos rfl]
    exact ⟨free, queue⟩
  · have still : s.countBurst z = s := by
      unfold State.countBurst
      dsimp only
      rw [free]
    rw [still]
    exact ⟨free, queue⟩
  · exact ⟨free, queue⟩
  · exact ⟨free, queue⟩

theorem State.refreshLights_empty (empty : s.zoneEmpty z) : s.refreshLights.zoneEmpty z := by
  have groups : ZoneCalm z s s.refreshGroups := .of_changes (State.refreshGroups_changes s)
  refine forAll_keeps (fun t => t.zoneEmpty z) State.announceLitOf (fun y t h => ?_) s.refreshGroups
    (State.zoneEmpty_of_czone groups.czone empty)
  by_cases ne : z = y
  · subst ne
    unfold State.announceLitOf
    dsimp only
    split
    · exact State.litLost_empty h
    · exact h
  · exact State.zoneEmpty_of_czone (State.announceLitOf_aside ne t).czone h

end

/-! ## The presence of a call zone (R129) -/

section

variable {s : State} {z : Fin 8} {old new : CZoneSettings}

/-- The presence of zone `z` follows its settings: absent, it loses its deliveries; present, it starts free (R129). -/
def State.presentZone (z : Fin 8) (old new : CZoneSettings) (s : State) : State :=
  if old.present && !new.present then (s.dropZone z .undelivered).writeCZone z CallZone.idle
  else if !old.present && new.present then ((s.writeCZone z CallZone.idle).deriveSilence z).arbitrate z
  else s

theorem State.presentZone_changes (s : State) : ChangesOnly burstParts s (s.presentZone z old new) := by
  unfold State.presentZone
  split
  · exact (State.dropZone_changes s z .undelivered).andThen (State.writeCZone_changes ..)
  · split
    · exact ((State.writeCZone_changes s z CallZone.idle).andThen (rs := burstParts)
        (State.deriveSilence_changes z _)).andThen (State.arbitrate_changes ..)
    · exact .refl _ _

theorem State.presentZone_gone (was : old.present = true) (is : new.present = false) :
    (s.presentZone z old new).czones[z] = CallZone.idle ∧
      ∀ c : Fin 32, s.czones[z].sounding = some c ∨ c ∈ s.czones[z].queue → ∀ x, s.call? c = some x →
        ((s.presentZone z old new).delivery? c z).map (·.state) = (x.delivery? z).map fun _ => .undelivered := by
  have gone : s.presentZone z old new = (s.dropZone z .undelivered).writeCZone z CallZone.idle :=
    if_pos (by rw [was, is]; rfl)
  rw [gone]
  refine ⟨(State.writeCZone_czone ..).trans (if_pos rfl), fun c here x found => ?_⟩
  rw [(State.writeCZone_changes ..).delivery? rfl, State.delivery?, State.dropZone_call?, if_pos here, found]
  have ended : (x.ended z .undelivered).delivery? z = (x.delivery? z).map (Delivery.endedAs .undelivered) := by
    rw [Call.ended, Call.finish_delivery?, Call.editDelivery_delivery? x z z (Delivery.endedAs .undelivered) fun _ => rfl,
      if_pos rfl]
  refine (congrArg (Option.map _) ended).trans ?_
  rw [Option.map_map]
  rfl

/-- A bar finds nothing to drop in an idle zone. -/
theorem State.followBar_idle (idle : s.czones[z] = CallZone.idle) (b : Bool) :
    (s.followBar z b false).czones[z] = { CallZone.idle with barred := b } := by
  cases b with
  | false =>
    rw [State.followBar_kept, idle]
    rfl
  | true =>
    have written : (s.writeCZone z { s.czones[z] with barred := true }).czones[z] =
        { CallZone.idle with barred := true } := by
      rw [State.writeCZone_czone, if_pos rfl, idle]
    have dropped := (s.writeCZone z { s.czones[z] with barred := true }).dropZone_czone z .abandoned
    rw [written] at dropped
    rw [State.followBar_on]
    exact dropped

theorem State.deriveSilence_idle (present : s.settings.czones[z].present = true) (idle : s.czones[z] = CallZone.idle) :
    (s.deriveSilence z).czones[z] =
      { CallZone.idle with barred := s.barredNow z, suppressed := s.suppressedNow z } := by
  have unbarred : s.czones[z].barred = false := congrArg CallZone.barred idle
  have unsuppressed : s.czones[z].suppressed = false := congrArg CallZone.suppressed idle
  have barred := State.followBar_idle idle (s.barredNow z)
  rw [State.deriveSilence_eq present, unbarred, unsuppressed, Bool.false_and, Bool.false_and, if_neg (by decide)]
  generalize s.followBar z (s.barredNow z) false = u at *
  have seen := State.followSuppression_sight (s := u) (z := z) (by rw [barred]; rfl) (s.suppressedNow z) false
    (by rw [barred]; rfl)
  refine (congrArg ZoneSight.czone seen).trans ?_
  dsimp only
  rw [barred]

/-- A zone made present is free and empty, barred and suppressed as the incidents have it. -/
theorem State.presentZone_begun (cfg : s.settings.czones[z] = new) (was : old.present = false) (is : new.present = true) :
    (s.presentZone z old new).czones[z] =
      { CallZone.idle with barred := s.barredNow z, suppressed := s.suppressedNow z } := by
  have begun : s.presentZone z old new = ((s.writeCZone z CallZone.idle).deriveSilence z).arbitrate z :=
    (if_neg (by rw [was, Bool.false_and]; decide)).trans (if_pos (by rw [was, is]; rfl))
  have frame := s.writeCZone_changes z CallZone.idle
  have zone : (s.writeCZone z CallZone.idle).czones[z] = CallZone.idle := (State.writeCZone_czone ..).trans (if_pos rfl)
  obtain ⟨barred, suppressed⟩ := frame.barredNow z
  have settings : (s.writeCZone z CallZone.idle).settings = s.settings := frame.same .settings (by decide)
  rw [begun, ← barred, ← suppressed]
  generalize s.writeCZone z CallZone.idle = u at *
  have derived : (u.deriveSilence z).czones[z] =
      { CallZone.idle with barred := u.barredNow z, suppressed := u.suppressedNow z } :=
    State.deriveSilence_idle (by rw [settings, cfg]; exact is) zone
  rw [State.arbitrate_shut (.inr (.inr (.inr (.inr (by rw [derived]; rfl))))), derived]

/-- A change of what the zone serves: its bar, and then the lights (R129). -/
def State.serveCZone (z : Fin 8) (s : State) : State := (s.deriveSilence z).refreshLights

theorem State.serveCZone_changes (s : State) (z : Fin 8) : ChangesOnly lightParts s (s.serveCZone z) :=
  (State.deriveSilence_changes z s).andThen (State.refreshLights_changes _)

theorem State.czoneAmended_eq (s : State) (z : Fin 8) (old : CZoneSettings) : s.czoneAmended z old =
    let u := (s.markIf (old != s.settings.czones[z]) .czone).presentZone z old s.settings.czones[z]
    if old.serves = s.settings.czones[z].serves then u
    else (u.serveCZone z).markIf (someIx 12 fun g => u.settings.groups[g].present &&
      u.settings.groups[g].kind == .foyer && u.settings.groups[g].callZone == z) .group := rfl

/-- A zone whose silence stands as derived, or that is absent, is served by the lights alone. -/
theorem State.serveCZone_calm (idle : s.czones[z].mode = none)
    (still : s.settings.czones[z].present = false ∨
      (s.czones[z].barred = s.barredNow z ∧ s.czones[z].suppressed = s.suppressedNow z)) :
    ZoneCalm z s (s.serveCZone z) := by
  unfold State.serveCZone
  rw [State.deriveSilence_still still]
  exact State.refreshLights_calm idle

theorem State.serveCZone_barred (present : s.settings.czones[z].present = true) :
    (s.serveCZone z).czones[z].barred = s.barredNow z := by
  have here := SilencedAs.deriveSilence s z present
  have kept := (AlarmsStand.refreshLights (s.deriveSilence z)).silences z
  exact kept.1.trans here.barred

theorem State.serveCZone_empty (present : s.settings.czones[z].present = true) (was : s.czones[z].barred = false)
    (now : s.barredNow z = true) : (s.serveCZone z).zoneEmpty z := by
  obtain ⟨free, empty, -⟩ := deriveSilence_barred present was now
  exact State.refreshLights_empty ⟨free, empty⟩

theorem State.serveCZone_causes (s : State) (z : Fin 8) : CausesDerived (s.serveCZone z) := by
  unfold State.serveCZone
  generalize s.deriveSilence z = u
  obtain ⟨causes, -⟩ := LightsFollow.refreshLights_derived u
  exact causes

end

end Sys2Proof.Machine
end

section
/-!
PROOFS. An amendment of a CZONE's settings alone, from the request to the record (R128, R129, R194).
-/

namespace Sys2Proof.Machine
-- One proof after another: the whole text stays within the memory of one compile.
set_option Elab.async false

section

variable {u w : State} {z : Fin 8} {new : CZoneSettings}

/-- The zone once its presence has followed, what it serves still to come (R129). -/
def State.presented (w : State) (z : Fin 8) (old new : CZoneSettings) : State :=
  (w.markIf (old != new) .czone).presentZone z old new

theorem State.presented_changes (w : State) (z : Fin 8) (old new : CZoneSettings) :
    ChangesOnly burstParts w (w.presented z old new) :=
  (State.markIf_changes w (old != new) .czone).andThen (State.presentZone_changes _)

theorem State.presented_kept {old : CZoneSettings} (same : new.present = old.present) :
    ChangesOnly [.stations] w (w.presented z old new) := by
  have stays : w.presented z old new = w.markIf (old != new) .czone := by
    unfold State.presented State.presentZone
    rw [same, Bool.and_not_self, Bool.not_and_self]
    rfl
  rw [stays]
  exact State.markIf_changes ..

/-- What the amendment leaves once the presence has followed. -/
structure ZoneServedBy (z : Fin 8) (old new : CZoneSettings) (p t : State) : Prop where
  frame : ChangesOnly lightParts p t
  same : old.serves = new.serves → t = p
  served : old.serves ≠ new.serves → ChangesOnly [.stations] (p.serveCZone z) t

theorem State.czoneAmended_served {old : CZoneSettings} (cfg : w.settings.czones[z] = new) :
    ZoneServedBy z old new (w.presented z old new) (w.czoneAmended z old) := by
  rw [State.czoneAmended_eq, cfg]
  dsimp only
  rw [← State.presented]
  generalize w.presented z old new = p
  by_cases serves : old.serves = new.serves
  · rw [if_pos serves]
    exact ⟨.refl _ _, fun _ => rfl, fun other => absurd serves other⟩
  · rw [if_neg serves]
    have marked (b : Bool) := State.markIf_changes (p.serveCZone z) b .group
    exact ⟨(p.serveCZone_changes z).andThen (marked _), fun same => absurd same serves, fun _ => marked _⟩

namespace ZoneServedBy

variable {old : CZoneSettings} {p t : State} (h : ZoneServedBy z old new p t)
include h

/-- A zone in no mode, its silence as derived, is left as it is. -/
theorem calm (idle : p.czones[z].mode = none) (still : p.settings.czones[z].present = false ∨
    (p.czones[z].barred = p.barredNow z ∧ p.czones[z].suppressed = p.suppressedNow z)) : ZoneCalm z p t := by
  by_cases serves : old.serves = new.serves
  · rw [h.same serves]
    exact ⟨rfl, fun _ => rfl⟩
  · exact (State.serveCZone_calm idle still).trans (.of_changes (h.served serves))

theorem barred (serves : old.serves ≠ new.serves) (present : p.settings.czones[z].present = true) :
    t.czones[z].barred = t.barredNow z := by
  have czones : t.czones = (p.serveCZone z).czones := (h.served serves).same .czones (by decide)
  rw [czones, State.serveCZone_barred present, (h.frame.barredNow z).1]

theorem empty (serves : old.serves ≠ new.serves) (present : p.settings.czones[z].present = true)
    (was : p.czones[z].barred = false) (now : t.czones[z].barred = true) : t.zoneEmpty z := by
  rw [h.barred serves present, (h.frame.barredNow z).1] at now
  have czones : t.czones = (p.serveCZone z).czones := (h.served serves).same .czones (by decide)
  exact State.zoneEmpty_of_czone (by rw [czones]) (State.serveCZone_empty present was now)

theorem causes (serves : old.serves ≠ new.serves) (g : Fin 12) (present : t.settings.groups[g].present = true) :
    t.groups[g].causes = t.causesOf g := by
  have frame := h.served serves
  have derived := p.serveCZone_causes z g
  generalize p.serveCZone z = v at *
  have groups : t.groups = v.groups := frame.same .groups (by decide)
  have settings : t.settings = v.settings := frame.same .settings (by decide)
  rw [settings] at present
  have whole : ChangesOnly lightParts v t := frame.mono (by decide)
  rw [groups, whole.causesOf_lights]
  exact derived present

end ZoneServedBy

/-- A change of a CZONE setting takes effect (R129). -/
theorem CZoneFollowsSettings.of_amended (frame : ChangesOnly [.settings, .store, .stations] u w)
    (cfg : w.settings.czones[z] = new) : CZoneFollowsSettings z u (w.czoneAmended z u.settings.czones[z]) := by
  have served := State.czoneAmended_served (old := u.settings.czones[z]) cfg
  have presented := w.presented_changes z u.settings.czones[z] new
  have settings : (w.presented z u.settings.czones[z] new).settings.czones[z] = new := by
    rw [(presented.same .settings (by decide) : _ = w.settings), cfg]
  have told : (w.czoneAmended z u.settings.czones[z]).settings.czones[z] = new := by
    rw [((w.czoneAmended_changes z _).same .settings (by decide) : _ = w.settings), cfg]
  have begun (was : u.settings.czones[z].present = false) (is : new.present = true) :
      (w.presented z u.settings.czones[z] new).czones[z] = { CallZone.idle with
        barred := (w.presented z u.settings.czones[z] new).barredNow z
        suppressed := (w.presented z u.settings.czones[z] new).suppressedNow z } := by
    have marked := State.markIf_changes w (u.settings.czones[z] != new) .czone
    have begun := State.presentZone_begun (s := w.markIf (u.settings.czones[z] != new) .czone) (z := z) (new := new)
      (by rw [(marked.same .settings (by decide) : _ = w.settings), cfg]) was is
    rw [(presented.barredNow z).1, (presented.barredNow z).2, ← (marked.barredNow z).1, ← (marked.barredNow z).2]
    exact begun
  have gone (was : u.settings.czones[z].present = true) (is : new.present = false) :
      (w.presented z u.settings.czones[z] new).czones[z] = CallZone.idle ∧
        ∀ c : Fin 32, u.czones[z].sounding = some c ∨ c ∈ u.czones[z].queue → ∀ x, u.call? c = some x →
          ((w.presented z u.settings.czones[z] new).delivery? c z).map (·.state) =
            (x.delivery? z).map fun _ => .undelivered := by
    have marked := frame.andThen (rs := [.settings, .store, .stations])
      (State.markIf_changes w (u.settings.czones[z] != new) .czone)
    have dropped := State.presentZone_gone (s := w.markIf (u.settings.czones[z] != new) .czone) (z := z) was is
    rw [(marked.same .czones (by decide) : _ = u.czones)] at dropped
    simp only [marked.call? rfl] at dropped
    exact dropped
  have kept (same : new.present = u.settings.czones[z].present) :=
    frame.andThen (rs := [.settings, .store, .stations]) (State.presented_kept (w := w) (z := z) same)
  generalize w.presented z u.settings.czones[z] new = p at *
  generalize w.czoneAmended z u.settings.czones[z] = t at *
  unfold CZoneFollowsSettings
  rw [told]
  refine ⟨fun was is => ?_, fun was is => ?_, fun is serves => ?_, fun same serves => ?_⟩
  · obtain ⟨idle, ended⟩ := gone was is
    have calm := served.calm (by rw [idle]; rfl) (.inl (by rw [settings]; exact is))
    refine ⟨calm.czone.trans idle, fun c here x found => ?_⟩
    rw [calm.delivery]
    exact ended c here x found
  · have idle := begun was is
    have calm := served.calm (by rw [idle]; rfl) (.inr (by rw [idle]; exact ⟨rfl, rfl⟩))
    obtain ⟨barred, suppressed⟩ := served.frame.barredNow z
    rw [calm.czone, idle, barred, suppressed]
  · have present : p.settings.czones[z].present = true := by rw [settings]; exact is
    refine ⟨served.barred serves.symm present, fun was now => ?_, fun g there _ _ => served.causes serves.symm g there⟩
    cases stood : u.settings.czones[z].present with
    | true =>
      have czones : p.czones = u.czones := (kept (is.trans stood.symm)).same .czones (by decide)
      exact served.empty serves.symm present (by rw [czones]; exact was) now
    | false =>
      have idle := begun stood is
      have calm := served.calm (by rw [idle]; rfl) (.inr (by rw [idle]; exact ⟨rfl, rfl⟩))
      rw [calm.czone, idle]
      exact ⟨rfl, rfl⟩
  · rw [served.same serves.symm]
    exact (kept same).mono (by decide)

end

/-- Settings of a call zone alone, written; the zone follows. -/
def State.czoneServed (u : State) (z : Fin 8) (new : CZoneSettings) : State :=
  (u.settled (u.settings.withCZone z new) (u.settings.czones[z] != new)).czoneAmended z u.settings.czones[z]

section

variable {r : Req} {st : Fin 8} {l : Bool} {u : State} {z : Fin 8} (index : r.index.toNat = z.1 + 1)
include index

theorem Settings.asked_czone (fs : List FieldVal) (x : Settings) :
    x.asked .czone r.index fs = x.withCZone z (x.czones[z].asked fs) := by
  unfold Settings.asked
  rw [entryOf_eq_some index]
  rfl

theorem Settings.ranged_czone (x : Settings) : x.ranged .czone r.index = x.withCZone z x.czones[z].ranged := by
  unfold Settings.ranged
  rw [entryOf_eq_some index]
  rfl

theorem owns_czone (h : SettingsOnly .czone r) : Owns .czone r st l u := by
  have form := h.formed (funext (formOf_czone r.index r.fields))
  have fold := CZoneSettings.foldl_amend h.once (firstFlaw_eq_none.1 form) u.settings.czones[z]
  have decided : u.amendCZone ⟨st, .czone, r⟩ z =
      match u.settingsBar st with
      | some status => Ask.says ⟨st, .czone, r⟩ status [] u
      | none => Ask.says ⟨st, .czone, r⟩
          (okStatus (u.settings.czones[z].asked r.fields != (u.settings.czones[z].asked r.fields).ranged))
          (if u.settings.czones[z].asked r.fields != (u.settings.czones[z].asked r.fields).ranged then
            (u.czoneServed z (u.settings.czones[z].asked r.fields).ranged).czoneFields z else [])
          (u.czoneServed z (u.settings.czones[z].asked r.fields).ranged) := by
    unfold State.amendCZone
    simp only [form, h.stop, if_neg h.given, fold, CZoneSettings.inRange_eq] <;> rfl
  refine ⟨fun status bar => ?_, fun _ status why clash => (nomatch clash), fun free _ asked new hasked hnew => ?_⟩
  · rw [State.amendReq_czone index, decided, bar]
    rfl
  · rw [State.amendReq_czone index, decided, free]
    have at_ := settingsAt_czone z
    obtain rfl : asked = u.settings.withCZone z (u.settings.czones[z].asked r.fields) :=
      hasked.trans (Settings.asked_czone index _ _)
    obtain rfl : new = u.settings.withCZone z (u.settings.czones[z].asked r.fields).ranged := by
      rw [hnew, Settings.ranged_czone index, at_.get_set, at_.set_set]
    refine ⟨u.czoneServed z (u.settings.czones[z].asked r.fields).ranged, ?_, ?_⟩
    · rw [at_.told (State.reads_czone index _) nofun nofun, ← at_.okStatus_eq]
    · generalize (u.settings.czones[z].asked r.fields).ranged = x
      have settled := u.settled_changes (u.settings.withCZone z x) (u.settings.czones[z] != x)
      have written := at_.written u x
      unfold State.czoneServed
      generalize u.settled (u.settings.withCZone z x) (u.settings.czones[z] != x) = w at *
      have amended := w.czoneAmended_changes z u.settings.czones[z]
      have whole := settled.andThen (rs := .settings :: .store :: lightParts) amended
      refine ⟨written.andThen amended, (whole.same .image (by decide)).1, whole.same .perfs (by decide),
        (whole.same .incidents (by decide)).1, fun i mem => ?_⟩
      rw [entryOf_eq_some index] at mem
      obtain rfl : z = i := Option.some.inj mem
      exact .of_amended settled ((congrArg (·.czones[z]) written.1).trans (at_.get_set _ _))

end

end Sys2Proof.Machine
end

section
/-!
PROOFS. The settings of the part and the commissioning lock (R84, R96, R179, R196), and the amendment of any fixed record.
-/

namespace Sys2Proof.Machine
-- One proof after another: the whole text stays within the memory of one compile.
set_option Elab.async false

/-! ## The settings of the STATUS record (R84, R179) -/

def Settings.withPart (x : Settings) (new : PartSettings) : Settings := { x with part := new }

theorem settingsAt_part : SettingsAt (·.part) Settings.withPart := ⟨fun _ _ => rfl, fun _ => rfl, fun _ _ _ => rfl⟩

theorem Settings.asked_status (b : Byte) (fs : List FieldVal) (x : Settings) :
    x.asked .status b fs = x.withPart (x.part.asked fs) := rfl

theorem Settings.ranged_status (b : Byte) (x : Settings) : x.ranged .status b = x.withPart x.part.ranged := rfl

/-- The request sets the lock (R196). -/
def setsLock (fs : List FieldVal) : Bool := askedFor fs 42 == some 1

theorem State.setLock_store (s : State) (fs : List FieldVal) :
    (s.setLock fs).store = { s.store with locked := s.store.locked || setsLock fs } := by
  unfold State.setLock setsLock
  by_cases sets : askedFor fs 42 = some 1
  · rw [if_pos sets, sets, State.writeStore_store, beq_self_eq_true, Bool.or_true]
  · rw [if_neg sets, beq_eq_false_iff_ne.2 sets, Bool.or_false]

theorem State.setLock_none {s : State} {fs : List FieldVal} (lacks : askedFor fs 42 = none) : s.setLock fs = s :=
  if_neg (by rw [lacks]; exact nofun)

/-- A change of the brigade link has the relay's demand evaluated, and nothing else has (R84, R96). -/
structure BrigadeServed (old new : PartSettings) (s t : State) : Prop where
  same : new.brigadeLink = old.brigadeLink → t.circuits = s.circuits
  only : OnlyAt brigadeRelay s.circuits t.circuits
  derived : new.brigadeLink ≠ old.brigadeLink → BrigadeDerived t

theorem State.serveBrigade_served (s : State) (old new : PartSettings) :
    BrigadeServed old new s (s.serveBrigade old new) := by
  unfold State.serveBrigade
  by_cases link : new.brigadeLink = old.brigadeLink
  · rw [if_neg (by rw [link, bne_self_eq_false]; decide)]
    exact ⟨fun _ => rfl, fun _ _ => rfl, fun other => absurd link other⟩
  · rw [if_pos (bne_iff_ne.2 (Ne.symm link))]
    exact ⟨fun same => absurd same link, fun _ ne => State.demand_other _ _ _ _ ne, fun _ => s.demandBrigade_derived⟩

/-- What accepted settings of the part leave, beside the lock (R84, R193, R196). -/
structure StatusApplied (fs : List FieldVal) (new : PartSettings) (u v : State) : Prop where
  settings : v.settings = u.settings.withPart new
  store : v.store = { u.store with
    changed := u.store.changed || decide (u.settings.withPart new ≠ u.settings)
    locked := u.store.locked || setsLock fs }
  effect : ∀ b l, SettingsTakeEffect .status b l u v

theorem State.applyStatus_applied (u : State) (fs : List FieldVal) (new : PartSettings) :
    StatusApplied fs new u (u.applyStatus fs new) := by
  have whole := u.applyStatus_changes fs new
  rw [State.applyStatus_settled] at whole ⊢
  have settled : ChangesOnly _ u (u.settled (u.settings.withPart new) (u.settings.part != new)) := u.settled_changes _ _
  obtain ⟨settings, store⟩ := settingsAt_part.written u new
  change ChangesOnly _ u (((u.settled (u.settings.withPart new) (u.settings.part != new)).serveBrigade _ _).setLock fs) at whole
  change StatusApplied fs new u (((u.settled (u.settings.withPart new) (u.settings.part != new)).serveBrigade _ _).setLock fs)
  generalize u.settled (u.settings.withPart new) (u.settings.part != new) = v at *
  have brigade := v.serveBrigade_changes u.settings.part new
  obtain ⟨same, only, derived⟩ := v.serveBrigade_served u.settings.part new
  generalize v.serveBrigade u.settings.part new = w at *
  have lock := w.setLock_changes fs
  have locked := w.setLock_store fs
  generalize w.setLock fs = t at *
  have circuits : v.circuits = u.circuits := settled.same .circuits (by decide)
  have after : t.circuits = w.circuits := lock.same .circuits (by decide)
  have kept : t.settings = u.settings.withPart new :=
    (lock.same .settings (by decide)).trans ((brigade.same .settings (by decide)).trans settings)
  have stored : w.store = v.store := brigade.same .store (by decide)
  refine ⟨kept, ?_, fun b l => ⟨whole.mono (by decide), ?_⟩⟩
  · rw [locked, stored, store]
  · rw [kept, after, ← circuits]
    refine ⟨same, fun other => ⟨only, ?_⟩⟩
    have settings' : w.settings.part.brigadeLink = new.brigadeLink := by
      rw [(brigade.same .settings (by decide) : w.settings = v.settings), settings]
      rfl
    have incidents : w.openIncidents = u.openIncidents := brigade.openIncidents.trans settled.openIncidents
    have holds := derived other
    unfold BrigadeDerived at holds
    rw [settings', incidents] at holds
    exact holds

/-! ### A request with settings of the part -/

section

variable {r : Req} {st : Fin 8} {l : Bool} {u : State}

/-- Settings of the part, with the lock or without it, past the checks on role, store and locks (R194, R196). -/
theorem State.amendStatus_settings (given : r.fields ≠ []) (once : (r.fields.map (·.id)).Nodup)
    (form : firstFlaw statusForm r.fields = none) (settles : amendsSettings .status r.fields = true) :
    u.amendStatus ⟨st, .status, r⟩ =
      match u.settingsBar st with
      | some status => Ask.says ⟨st, .status, r⟩ status [] u
      | none => Ask.says ⟨st, .status, r⟩
          (okStatus (u.settings.part.asked r.fields != (u.settings.part.asked r.fields).ranged))
          (if u.settings.part.asked r.fields != (u.settings.part.asked r.fields).ranged then
            (u.applyStatus r.fields (u.settings.part.asked r.fields).ranged).statusFields else [])
          (u.applyStatus r.fields (u.settings.part.asked r.fields).ranged) := by
  have stop : u.settingsStop ⟨st, .status, r⟩ = u.settingsBar st := State.settingsStop_of settles
  have fold := PartSettings.foldl_amend once u.settings.part
  unfold State.amendStatus
  simp only [form, stop, settles, if_neg given, fold, PartSettings.inRange_eq, if_true]
  cases bar : u.settingsBar st with
  | some status =>
    by_cases engineer : u.role st = .engineer
    · rw [engineer, bne_self_eq_false, Bool.and_false]
      rfl
    · have first : u.settingsBar st = some .notPermitted := by
        unfold State.settingsBar
        rw [if_pos (bne_iff_ne.2 engineer)]
      cases bar.symm.trans first
      exact ite_self _
  | none =>
    obtain ⟨engineer, -, -, locked⟩ := State.settingsBar_none bar
    rw [engineer, bne_self_eq_false, Bool.and_false, locked, if_neg nofun, if_neg fun k => nomatch k.2]

/-- Such settings are taken, and the lock with them (R193, R196, R197). -/
theorem State.amendStatus_taken (index : r.index.toNat = 1) (given : r.fields ≠ []) (once : (r.fields.map (·.id)).Nodup)
    (form : firstFlaw statusForm r.fields = none) (settles : amendsSettings .status r.fields = true)
    (free : u.settingsBar st = none) {asked new : Settings} (hasked : asked = u.settings.asked .status r.index r.fields)
    (hnew : new = asked.ranged .status r.index) :
    ∃ v x, State.amendReq l ⟨st, .status, r⟩ u =
        Ask.says ⟨st, .status, r⟩ (if asked = new then .done else .adjusted) (v.settingsTold .status r asked new) v ∧
      v = u.applyStatus r.fields x ∧ new = u.settings.withPart x := by
  have at_ := settingsAt_part
  obtain rfl : asked = u.settings.withPart (u.settings.part.asked r.fields) := hasked
  obtain rfl : new = u.settings.withPart (u.settings.part.asked r.fields).ranged := hnew
  refine ⟨u.applyStatus r.fields (u.settings.part.asked r.fields).ranged, _, ?_, rfl, rfl⟩
  rw [State.amendReq_status, State.amendStatus_settings given once form settles, free,
    at_.told (State.reads_status index _) nofun nofun, ← at_.okStatus_eq]

theorem owns_status (index : r.index.toNat = 1) (h : SettingsOnly .status r) : Owns .status r st l u := by
  have form := h.formed (funext (formOf_status r.index r.fields))
  refine ⟨fun status bar => ?_, fun _ status why clash => (nomatch clash), fun free _ asked new hasked hnew => ?_⟩
  · rw [State.amendReq_status, State.amendStatus_settings h.given h.once form h.settles, bar]
    rfl
  · obtain ⟨v, x, answer, rfl, rfl⟩ :=
      State.amendStatus_taken (l := l) index h.given h.once form h.settles free hasked hnew
    obtain ⟨settings, store, effect⟩ := u.applyStatus_applied r.fields x
    have frame := u.applyStatus_changes r.fields x
    have sets : setsLock r.fields = false := by
      unfold setsLock
      rw [h.asksNone (by decide)]
      rfl
    rw [sets, Bool.or_false] at store
    exact ⟨_, answer, ⟨settings, store⟩, (frame.same .image (by decide)).1, frame.same .perfs (by decide),
      (frame.same .incidents (by decide)).1, effect _ _⟩

end

/-! ## Any fixed record -/

section

variable {k : Kind} {r : Req} {st : Fin 8} {l : Bool} {u : State}

/-- Whatever the fixed kind, its owner decides of settings alone as R194 says. -/
theorem owns_fixed (h : SettingsOnly k r) (low : 1 ≤ r.index.toNat) (high : r.index.toNat ≤ kindSize k) :
    Owns k r st l u := by
  obtain ⟨f, fs, first⟩ := List.exists_cons_of_ne_nil h.given
  have inside := h.inside f (by rw [first]; exact List.mem_cons_self)
  have dynamic (top : topSetting k = 0) : Owns k r st l u := by omega
  cases k with
  | hold => exact dynamic rfl
  | incident => exact dynamic rfl
  | call => exact dynamic rfl
  | perf => exact (indexed low high).elim fun _ index => owns_perf index h
  | iron => exact (indexed low high).elim fun _ index => owns_iron index h
  | zone => exact (indexed low high).elim fun _ index => owns_zone index h
  | group => exact (indexed low high).elim fun _ index => owns_group index h
  | czone => exact (indexed low high).elim fun _ index => owns_czone index h
  | circuit => exact (indexed low high).elim fun _ index => owns_circuit index h
  | status => exact owns_status (Nat.le_antisymm high low) h
  | station => exact (indexed low high).elim fun _ index => owns_station index h

theorem SettingsOnly.fixed (h : SettingsOnly k r) : isDynamic k = false := by
  obtain ⟨f, fs, first⟩ := List.exists_cons_of_ne_nil h.given
  obtain ⟨low, high⟩ := h.inside f (by rw [first]; exact List.mem_cons_self)
  cases k with
  | hold => exact absurd (low.trans high) (by decide)
  | incident => exact absurd (low.trans high) (by decide)
  | call => exact absurd (low.trans high) (by decide)
  | _ => rfl

end

/-- R193, R194, R197: an amendment of settings alone. -/
theorem amend_settings (k : Kind) (r : Req) (limitIn : Bool) (st : Fin 8) (s u : State) (asked new : Settings)
    (heard : Heard s r st) (hu : u = s.frameGood) (listens : s.role st ≠ .none) (able : s.role st ≠ .view)
    (once : (r.fields.map (·.id)).Nodup) (issue : r.issue = 0) (low : 1 ≤ r.index.toNat)
    (high : r.index.toNat ≤ kindSize k) (given : r.fields ≠ [])
    (each : ∀ f ∈ r.fields, 1 ≤ f.id.toNat ∧ f.id.toNat ≤ topSetting k ∧ formOf k r.index r.fields f = none)
    (hasked : asked = s.settings.asked k r.index r.fields) (hnew : new = asked.ranged k r.index) :
    (∀ status why, s.settingsRefused st k r = some (status, why) →
      ∃ t, exec (.settingsAmendment k r limitIn) s = .next t ∧ ChangesOnly [.link] u t ∧
        Replies t s.settings.part.address r.station status why k r.index.toNat 0 (u.settingsShown k r status)) ∧
    (s.lockedOut st = none → s.settingsClash k r.index r.fields = none →
      ∃ t, exec (.settingsAmendment k r limitIn) s = .next t ∧ SettingsWritten new u t ∧
        t.image = s.image ∧ t.perfs = s.perfs ∧ t.incidents = s.incidents ∧
        SettingsTakeEffect k r.index limitIn u t ∧
        Replies t s.settings.part.address r.station (if asked = new then .done else .adjusted) none k r.index.toNat 0
          (t.settingsTold k r asked new)) := by
  subst hu
  have only : SettingsOnly k r := ⟨given, once, fun f mem => ⟨(each f mem).1, (each f mem).2.1⟩, fun f mem => (each f mem).2.2⟩
  have asks : FixedAsked (.settingsAmendment k r limitIn) k r st s :=
    ⟨rfl, only.fixed, heard, listens, able, once, ⟨low, high⟩, issue⟩
  have owner : Owns k r st (limitInOf (.settingsAmendment k r limitIn)) s.frameGood := owns_fixed only low high
  refine ⟨fun status why refused => owner.turned asks refused, fun free clear => ?_⟩
  obtain ⟨t, run, ⟨written, image, perfs, incidents, effect⟩, reply⟩ := owner.accepted asks free clear hasked hnew
  rw [State.frameGood_image] at image
  rw [State.frameGood_perfs] at perfs
  rw [(s.frameGood_changes.same .incidents (by decide)).1] at incidents
  exact ⟨t, run, written, image, perfs, incidents, effect, reply⟩

end Sys2Proof.Machine
end

section
/-!
PROOFS. The commissioning lock, beside settings and alone (R185, R196), and the obligation on settings and the lock.
-/

namespace Sys2Proof.Machine
-- One proof after another: the whole text stays within the memory of one compile.
set_option Elab.async false

/-! ## The lock beside settings (R185, R196) -/

section

variable {q : AmendReq} {v : Word} {st : Fin 8}

theorem setsLock_withField (once : ((q.withField 42 v).fields.map (·.id)).Nodup) :
    setsLock (q.withField 42 v).fields = decide (v = 1) := by
  have asked : askedFor (q.withField 42 v).fields 42 = some v.toNat := askedFor_withField once
  unfold setsLock
  rw [asked, Bool.eq_iff_iff, beq_iff_eq, decide_eq_true_iff, Option.some.injEq]
  exact ⟨fun one => BitVec.eq_of_toNat_eq one, fun one => by rw [one]; rfl⟩

/-- Beside the lock, a request of good form carries settings of the part. -/
theorem amendsSettings_lock (once : ((q.withField 42 v).fields.map (·.id)).Nodup) (given : q.before ++ q.after ≠ [])
    (each : ∀ f ∈ (q.withField 42 v).fields, f.id = 42 ∨ (1 ≤ f.id.toNat ∧ f.id.toNat ≤ 4)) :
    amendsSettings .status (q.withField 42 v).fields = true := by
  refine amendsSettings_beside (fun f mem => (each f (mem_withField.2 (.inr mem))).resolve_left fun lock => ?_) given
  have names : (q.withField 42 v).fields.map (·.id) = q.before.map (·.id) ++ 42 :: q.after.map (·.id) := by
    unfold AmendReq.withField
    rw [List.map_append, List.map_cons]
  rw [names, List.nodup_middle, List.nodup_cons, ← List.map_append] at once
  exact once.1 (List.mem_map.2 ⟨f, mem, lock⟩)

end

/-- R185, R196: the lock in one request with settings is applied with them or not at all. -/
theorem lock_beside (q : AmendReq) (r : Req) (v : Word) (st : Fin 8) (s u : State) (asked new : Settings)
    (hr : r = q.withField 42 v) (heard : Heard s r st) (index : r.index = 1) (issue : r.issue = 0) (hu : u = s.frameGood)
    (listens : s.role st ≠ .none) (able : s.role st ≠ .view) (once : (r.fields.map (·.id)).Nodup)
    (given : q.before ++ q.after ≠ [])
    (each : ∀ f ∈ r.fields, (f.id = 42 ∨ (1 ≤ f.id.toNat ∧ f.id.toNat ≤ 4)) ∧ formOf .status 1 r.fields f = none)
    (hasked : asked = s.settings.asked .status 1 r.fields) (hnew : new = asked.ranged .status 1) :
    (∀ status why, s.lockedOut st = some (status, why) →
      ∃ t, exec (.commissioningLock q v) s = .next t ∧ ChangesOnly [.link] u t ∧
        Replies t s.settings.part.address r.station status why .status 1 0 []) ∧
    (s.lockedOut st = none →
      ∃ t, exec (.commissioningLock q v) s = .next t ∧ t.settings = new ∧
        t.store =
          { s.store with changed := s.store.changed || decide (new ≠ s.settings), locked := decide (v = 1) } ∧
        SettingsTakeEffect .status 1 false u t ∧
        Replies t s.settings.part.address r.station (if asked = new then .done else .adjusted) none .status 1 0
          (if asked = new then [] else t.reads .status 1)) := by
  subst hu
  have at_ : r.index.toNat = 1 := by rw [index]; rfl
  have some_ : r.fields ≠ [] := by
    rw [hr]
    exact List.ne_nil_of_mem (mem_withField.2 (.inl rfl))
  have asks : FixedAsked (.commissioningLock q v) .status r st s :=
    ⟨by rw [hr]; rfl, rfl, heard, listens, able, once, by rw [at_]; exact ⟨le_rfl, le_rfl⟩, issue⟩
  have form : firstFlaw statusForm r.fields = none := firstFlaw_eq_none.2 fun f mem =>
    (formOf_status 1 r.fields f).symm.trans (each f mem).2
  have sets : setsLock r.fields = decide (v = 1) := by
    rw [hr] at once ⊢
    exact setsLock_withField once
  have settles : amendsSettings .status r.fields = true := by
    rw [hr] at once each ⊢
    exact amendsSettings_lock once given fun f mem => (each f mem).1
  rw [← s.frameGood_lockedOut, State.lockedOut_eq]
  constructor
  · intro status why refused
    obtain ⟨w, bar, answer⟩ := Option.map_eq_some_iff.1 refused
    cases answer
    rw [← at_]
    refine asks.turned ?_
    rw [State.amendReq_status, State.amendStatus_settings some_ once form settles, bar]
    rfl
  · intro free
    have bar := Option.map_eq_none_iff.1 free
    obtain ⟨-, -, -, unlocked⟩ := State.settingsBar_none bar
    obtain ⟨w, x, answer, hw, hx⟩ := State.amendStatus_taken (l := limitInOf (.commissioningLock q v)) at_ some_ once form
      settles bar (asked := asked) (new := new) (by rw [index, State.frameGood_settings]; exact hasked)
      (by rw [index]; exact hnew)
    obtain ⟨settings, store, effect⟩ := s.frameGood.applyStatus_applied r.fields x
    rw [← hw, ← hx] at settings
    rw [← hw, ← hx, unlocked, sets, Bool.false_or, State.frameGood_store, State.frameGood_settings] at store
    rw [← hw] at effect
    obtain ⟨a, t, left, run, reply⟩ := asks.done answer
    have told : w.settingsTold .status r asked new = if asked = new then [] else t.reads .status 1 := by
      unfold State.settingsTold
      rw [left, index]
      exact if_congr (and_iff_left ⟨nofun, nofun⟩) rfl rfl
    rw [told, at_] at reply
    refine ⟨t, run, ?_, ?_, ?_, reply⟩
    · rw [left]
      exact settings
    · rw [left]
      exact store
    · rw [left]
      exact (effect 1 false).reply _ _ _

/-! ## The lock alone (R196) -/

section

variable {q : AmendReq} {v : Word} {st : Fin 8} {u : State} {l : Bool}

theorem askedFor_lock : askedFor [⟨42, v⟩] 42 = some v.toNat := rfl

theorem firstFlaw_lock : firstFlaw statusForm [⟨42, v⟩] = if v.toNat ≤ 1 then none else some (.badField, ⟨42, v⟩) := by
  have judged : statusForm ⟨42, v⟩ = orBad (isYesNo v.toNat) := rfl
  have yesNo : isYesNo v.toNat = true ↔ v.toNat ≤ 1 := decide_eq_true_iff
  unfold firstFlaw
  rw [List.findSome?_cons, judged, orBad]
  by_cases form : v.toNat ≤ 1
  · rw [if_pos form, if_pos (yesNo.2 form)]
    rfl
  · rw [if_neg form, if_neg (mt yesNo.1 form)]
    rfl

/-- Without a setting, the settings and the relay stand as they did (R196). -/
theorem State.applyStatus_lock : u.applyStatus [⟨42, v⟩] u.settings.part = u.setLock [⟨42, v⟩] := by
  rw [State.applyStatus_settled, bne_self_eq_false, u.settled_self _ rfl, State.serveBrigade, bne_self_eq_false,
    if_neg Bool.false_ne_true]

/-- The lock alone: its form, then ENGINEER, then that no request clears it (R196; log entry 42). -/
theorem State.amendStatus_lock {r : Req} (fields : r.fields = [⟨42, v⟩]) :
    u.amendStatus ⟨st, .status, r⟩ =
      if 1 < v.toNat then Ask.says ⟨st, .status, r⟩ .badField [] u
      else if u.role st ≠ .engineer then Ask.says ⟨st, .status, r⟩ .notPermitted [] u
      else if v.toNat = 0 ∧ u.store.locked = true then Ask.says ⟨st, .status, r⟩ .locked [] u
      else Ask.says ⟨st, .status, r⟩ .done [] (u.setLock [⟨42, v⟩]) := by
  have carried : carries [(⟨42, v⟩ : FieldVal)] 42 = true := rfl
  have plain : amendsSettings .status [⟨42, v⟩] = false := rfl
  have stop : u.settingsStop ⟨st, .status, r⟩ = none := State.settingsStop_of_none (by rw [fields]; exact plain)
  have fold : [(⟨42, v⟩ : FieldVal)].foldl PartSettings.amend u.settings.part = u.settings.part := rfl
  unfold State.amendStatus
  simp only [fields, firstFlaw_lock, stop, carried, plain, fold, askedFor_lock, State.applyStatus_lock, Bool.true_and,
    bne_iff_ne, bne_self_eq_false, Bool.false_eq_true, if_false, Option.some.injEq, List.cons_ne_nil]
  by_cases form : v.toNat ≤ 1
  · rw [if_pos form, if_neg (Nat.not_lt.2 form)] <;> rfl
  · rw [if_neg form, if_pos (Nat.lt_of_not_le form)] <;> rfl

end

/-- R185, R196: the lock alone is set by ENGINEER in any phase and cleared by no request. -/
theorem lock_alone (q : AmendReq) (v : Word) (st : Fin 8) (s u : State) (alone : HeardAlone s q st 1 0)
    (hu : u = s.frameGood) (listens : s.role st ≠ .none) (able : s.role st ≠ .view) :
    (1 < v.toNat →
      ∃ t, exec (.commissioningLock q v) s = .next t ∧ ChangesOnly [.link] u t ∧
        Replies t s.settings.part.address q.station .badField none .status 1 0 []) ∧
    (v.toNat ≤ 1 → s.role st ≠ .engineer →
      ∃ t, exec (.commissioningLock q v) s = .next t ∧ ChangesOnly [.link] u t ∧
        Replies t s.settings.part.address q.station .notPermitted none .status 1 0 []) ∧
    (s.role st = .engineer →
      (v = 1 →
        ∃ t, exec (.commissioningLock q v) s = .next t ∧ ChangesOnly [.link, .store, .stations] u t ∧
          t.store = { s.store with locked := true } ∧
          Replies t s.settings.part.address q.station .done none .status 1 0 []) ∧
      (v = 0 → s.store.locked = false →
        ∃ t, exec (.commissioningLock q v) s = .next t ∧ ChangesOnly [.link] u t ∧
          Replies t s.settings.part.address q.station .done none .status 1 0 []) ∧
      (v = 0 → s.store.locked = true →
        ∃ t, exec (.commissioningLock q v) s = .next t ∧ ChangesOnly [.link] u t ∧
          Replies t s.settings.part.address q.station .locked none .status 1 0 [])) := by
  subst hu
  have asks : FixedAsked (.commissioningLock q v) .status (q.withField 42 v) st s :=
    .alone rfl rfl alone listens able ⟨le_rfl, le_rfl⟩
  have index : (q.withField 42 v).index.toNat = 1 := by
    obtain ⟨-, -, -, -, -, index, -⟩ := alone
    exact index
  have decided := State.amendStatus_lock (st := st) (u := s.frameGood) (alone.fields 42 v)
  rw [← State.amendReq_status (limitInOf (.commissioningLock q v)), State.frameGood_role, State.frameGood_store] at decided
  have turned {status : Status} (answer : State.amendReq (limitInOf (.commissioningLock q v)) ⟨st, .status, q.withField 42 v⟩
      s.frameGood = Ask.says ⟨st, .status, q.withField 42 v⟩ status [] s.frameGood) :
      ∃ t, exec (.commissioningLock q v) s = .next t ∧ ChangesOnly [.link] s.frameGood t ∧
        Replies t s.settings.part.address q.station status none .status 1 0 [] := by
    obtain ⟨t, run, frame, reply⟩ := asks.turned answer
    rw [index] at reply
    exact ⟨t, run, frame, reply⟩
  refine ⟨fun form => turned ?_, fun form other => turned ?_, fun engineer => ⟨fun sets => ?_, fun clears open_ => turned ?_,
    fun clears locked => turned ?_⟩⟩
  · rw [decided, if_pos form]
  · rw [decided, if_neg (Nat.not_lt.2 form), if_pos other]
  · subst sets
    rw [if_neg (by decide), if_neg (fun other => other engineer), if_neg (fun k => absurd k.1 (by decide))] at decided
    obtain ⟨a, t, left, run, reply⟩ := asks.done decided
    rw [index] at reply
    refine ⟨t, run, ?_, ?_, reply⟩
    · rw [left]
      exact (State.setLock_changes _ _).andThen (State.reply_changes ..)
    · have store := s.frameGood.setLock_store [⟨42, 1⟩]
      rw [State.frameGood_store, show setsLock [⟨42, 1⟩] = true from rfl, Bool.or_true] at store
      rw [left]
      exact store
  · subst clears
    rw [decided, if_neg (by decide), if_neg (fun other => other engineer),
      if_neg (fun k => Bool.false_ne_true (open_.symm.trans k.2)), State.setLock, if_neg (by decide)]
  · subst clears
    rw [decided, if_neg (by decide), if_neg (fun other => other engineer), if_pos ⟨rfl, locked⟩]

/-- Settles O60. -/
theorem settingsAmendedAndLocked : Obligations.SettingsAmendedAndLocked := by
  unfold Obligations.SettingsAmendedAndLocked
  exact ⟨amend_form, amend_settings, lock_beside, lock_alone⟩

end Sys2Proof.Machine
end
